-- ==== Sys2Proof/Word.lean ====
section
/-! DEFINITION. The word types of the GBZ-7 and the sparse tables in which register files, stores and unit
numbers are held. -/

namespace Sys2Proof

/-- A 64-bit register, syllable or memory word. -/
abbrev Word := BitVec 64

/-- A 1,024-bit vector register (R16, R116). -/
abbrev Vec := BitVec 1024

/-- The unit of memory (R1). -/
abbrev Byte := BitVec 8

/-- Module-wide numbers (R12, R20) and the numbers the management registers use (R60, R471, R473). -/
abbrev StackId := Fin 64
abbrev ClusterId := Fin 256
abbrev CoreId := Fin 1024
abbrev ArrayId := Fin 2048
abbrev DieId := Fin 8
abbrev CtxId := Fin 4096
abbrev QueueId := Fin 64
abbrev SemId := Fin 32
abbrev ModuleId := Fin 4096
abbrev PortId := Fin 16

/-- A sparse table: pairs of a number and an entry in rising order of the number. -/
abbrev Tab (α : Type) := List (Nat × α)

/-- The entry numbered `k`, or `d` where the table lists none. -/
def Tab.get {α : Type} (d : α) : Tab α → Nat → α
  | [], _ => d
  | (j, w) :: t, k => if k = j then w else Tab.get d t k

/-- The entry numbered `k`, if the table lists one. -/
def Tab.find {α : Type} : Tab α → Nat → Option α
  | [], _ => none
  | (j, w) :: t, k => if k = j then some w else Tab.find t k

/-- Writes entry `k`, keeping the order. -/
def Tab.set {α : Type} : Tab α → Nat → α → Tab α
  | [], k, v => [(k, v)]
  | (j, w) :: t, k, v =>
    if k < j then (k, v) :: (j, w) :: t
    else if k = j then (k, v) :: t
    else (j, w) :: Tab.set t k v

/-- Removes entry `k`. -/
def Tab.drop {α : Type} (t : Tab α) (k : Nat) : Tab α := t.filter (fun e => e.1 != k)

/-- Replaces the entry at position `n` of a list; a position past the end changes nothing. -/
def listSet {α : Type} : List α → Nat → α → List α
  | [], _, _ => []
  | _ :: t, 0, v => v :: t
  | a :: t, n + 1, v => a :: listSet t n v

/-- Removes the entry at position `n` of a list. -/
def listDrop {α : Type} : List α → Nat → List α
  | [], _ => []
  | _ :: t, 0 => t
  | a :: t, n + 1 => a :: listDrop t n

end Sys2Proof
end

