-- ==== Sys2Proof/Syntax.lean ====
section
/-! DEFINITION. The operations and events of the GBZ-7: one constructor of Instr per row of the opcode table. A
syllable's constructor carries the fields of its format (R113, R118); an event's carries what names the unit, the message or
the outcome it is about. -/

namespace Sys2Proof

/-- The six slots of a bundle (R112). -/
inductive Slot where
  | C | A | V | M | E | Y
  deriving DecidableEq, Repr

/-- The guard of a syllable: G, N and GP (R113, R114). -/
structure Guard where
  on : Bool
  neg : Bool
  gp : BitVec 6
  deriving DecidableEq, Repr

/-- An operand field by level (R115): main file, operand file, the slot's latch, 0xC0, 0xC1. -/
inductive Opd where
  | main (i : BitVec 6)
  | opf (i : BitVec 3)
  | latch
  | zero
  | imm
  deriving DecidableEq, Repr

/-- The codes of TY and TS (R119). -/
inductive Ty where
  | dflt | i8 | i16 | i32 | i64 | n8 | n16 | n32 | n64 | f16 | bf16 | f32 | f64 | e4m3 | e5m2 | n4x
  deriving DecidableEq, Repr

/-- Rounding modes (R119, R157). -/
inductive Rm where
  | rne | rtz | rup | rdn
  deriving DecidableEq, Repr

/-- The admitted condition codes (R119). -/
inductive Cnd where
  | eq | ne | lt | le | gt | ge | uo | ord
  deriving DecidableEq, Repr

/-- The admitted scope codes (R119); `dflt` is 0. -/
inductive Scope where
  | dflt | co | cl | st | dv | sy
  deriving DecidableEq, Repr

/-- The fields every format shares (R113). -/
structure Hdr where
  gd : Guard
  d : Opd
  s1 : Opd
  s2 : Opd
  deriving DecidableEq, Repr

/-- Format N (R118), with STALL in the C slot. -/
structure FmtN where
  gd : Guard
  stall : BitVec 4
  deriving DecidableEq, Repr

/-- Format X (R147). -/
structure FmtX where
  gd : Guard
  d : Opd
  s1 : Opd
  stall : BitVec 4
  dsl : Slot
  lane : BitVec 5
  deriving DecidableEq, Repr

/-- Format C-B (R118, R179): OFF is the signed 28-bit offset. -/
structure FmtCB where
  gd : Guard
  d : Opd
  off : BitVec 28
  stall : BitVec 4
  lvl : BitVec 3
  deriving DecidableEq, Repr

/-- Format C-R. -/
structure FmtCR extends Hdr where
  stall : BitVec 4
  s3 : BitVec 8
  ty : Ty
  cnd : Cnd
  lvl : BitVec 3
  deriving DecidableEq, Repr

/-- Format C-I. -/
structure FmtCI extends Hdr where
  stall : BitVec 4
  imm : BitVec 16
  deriving DecidableEq, Repr

/-- Format C-P. -/
structure FmtCP extends Hdr where
  stall : BitVec 4
  ns1 : Bool
  ns2 : Bool
  val : Bool
  deriving DecidableEq, Repr

/-- Format C-S. -/
structure FmtCS extends Hdr where
  stall : BitVec 4
  sreg : BitVec 16
  deriving DecidableEq, Repr

/-- Format C-K. -/
structure FmtCK where
  gd : Guard
  stall : BitVec 4
  code : BitVec 16
  deriving DecidableEq, Repr

/-- Format A-R. -/
structure FmtAR extends Hdr where
  s3 : BitVec 8
  ty : Ty
  cnd : Cnd
  deriving DecidableEq, Repr

/-- Format A-I; the X bit is part of the constructor. -/
structure FmtAI extends Hdr where
  imm : BitVec 24
  deriving DecidableEq, Repr

/-- Format A-F. -/
structure FmtAF extends Hdr where
  pos : BitVec 6
  wid : BitVec 6
  deriving DecidableEq, Repr

/-- Format V-R. -/
structure FmtVR extends Hdr where
  s3 : BitVec 8
  ty : Ty
  rm : Rm
  sat : Bool
  msk : Bool
  k : BitVec 4
  sub : BitVec 5
  deriving DecidableEq, Repr

/-- Format V-I. -/
structure FmtVI extends Hdr where
  imm : BitVec 16
  ty : Ty
  msk : Bool
  k : BitVec 4
  deriving DecidableEq, Repr

/-- Format V-K. -/
structure FmtVK extends Hdr where
  deriving DecidableEq, Repr

/-- Format V-C. -/
structure FmtVC extends Hdr where
  s3 : BitVec 8
  ty : Ty
  ts : Ty
  gr : BitVec 2
  rm : Rm
  sat : Bool
  deriving DecidableEq, Repr

/-- Format V-P. -/
structure FmtVP extends Hdr where
  s3 : BitVec 8
  ctl : BitVec 8
  ty : Ty
  deriving DecidableEq, Repr

/-- Format M-L; `aux` is TY or AUX as four bits. -/
structure FmtML extends Hdr where
  off : BitVec 16
  aux : BitVec 4
  sc : Scope
  deriving DecidableEq, Repr

/-- Format M-G. -/
structure FmtMG extends Hdr where
  s3 : BitVec 8
  ty : Ty
  lg : BitVec 2
  deriving DecidableEq, Repr

/-- Format M-I. -/
structure FmtMI extends Hdr where
  imm : BitVec 24
  deriving DecidableEq, Repr

/-- Format E-C. -/
structure FmtEC extends Hdr where
  s3 : BitVec 8
  arr : Bool
  deriving DecidableEq, Repr

/-- Format E-M. -/
structure FmtEM extends Hdr where
  arr : Bool
  gr : BitVec 2
  s3 : BitVec 8
  set : BitVec 3
  deriving DecidableEq, Repr

/-- Format E-I. -/
structure FmtEI extends Hdr where
  arr : Bool
  imm : BitVec 24
  deriving DecidableEq, Repr

/-- Format E-P (R339). -/
structure FmtEP extends Hdr where
  onset : BitVec 12
  icls : BitVec 3
  bid : BitVec 6
  deriving DecidableEq, Repr

/-- Format Y-T; SHK bit 0 of `tkwait` is part of the constructor, both bits stand in `shk` elsewhere. -/
structure FmtYT extends Hdr where
  s3 : BitVec 8
  sc : Scope
  shk : BitVec 2
  deriving DecidableEq, Repr

/-- Format Y-S. -/
structure FmtYS extends Hdr where
  s3 : BitVec 8
  sc : Scope
  ty : Ty
  deriving DecidableEq, Repr

/-- Format Y-I. -/
structure FmtYI extends Hdr where
  imm : BitVec 24
  deriving DecidableEq, Repr

/-- The two equal masters (R62). -/
inductive Master where
  | A | B
  deriving DecidableEq, Repr

/-- The register spaces a write without a row of its own reaches (R60, R336, R425, R452, R471, R474, R480): the queue
block, the module control block, and the power-controller window of a stack. -/
inductive RegSpace where
  | queueBlock
  | moduleBlock
  | stackWindow (st : StackId)
  deriving DecidableEq, Repr

/-- The units that an error strikes and a self-test tries (R440, R441): words of memory and of scratchpads, words of register files,
count banks, column stores and sync objects by their window address, words of an entry of the other register files and operand files,
entries of a snapshot buffer, words of 64 scratchpad tags, and words of a line that an L1, a cluster cache or an L2 holds, beside banks and whole units. -/
inductive ErrUnit where
  | memWord (pa : Nat)
  | scratchWord (core : CoreId) (word : Nat)
  | planeBank (core : CoreId) (shadow : Bool)
  | coreBank (core : CoreId)
  | coreLogic (core : CoreId)
  | engine (st : StackId) (eng : Fin 2)
  | tokenRecord (st : StackId) (e : Fin 16384)
  | stackUnit (st : StackId)
  | windowWord (pa : Nat)
  | register (core : CoreId) (sl : Slot) (operand : Bool) (i word : Nat)
  | snapshot (core : CoreId) (n : Nat)
  | l1Line (core : CoreId) (line word : Nat)
  | ccLine (cl : ClusterId) (line word : Nat)
  | l2Line (st : StackId) (line word : Nat)
  | tagWord (core : CoreId) (word : Nat)
  deriving DecidableEq, Repr

/-- Where poisoned data or an error completion is consumed (R443). -/
inductive PoisonUse where
  | cleanCopy (pa : Nat)
  | load (core : CoreId) (errorCompletion : Bool)
  | copy (st : StackId) (n : Nat) (errorCompletion : Bool)
  | loader (core : CoreId) (second : Bool)
  | fetch (core : CoreId) (second : Bool)
  | dirtyLine (pa : Nat)
  | tokenRecord (st : StackId) (e : Fin 16384)
  /-- The same with the virtual and the physical address of the access. -/
  | loadAt (core : CoreId) (errorCompletion : Bool) (va : Word) (pa : Nat)
  | copyAt (st : StackId) (n : Nat) (errorCompletion : Bool) (pa : Nat)
  /-- By something that a task has sent, wherever the task is. -/
  | loadOf (core : CoreId) (launch : Nat) (coord : BitVec 48) (errorCompletion : Bool)
  /-- An error that has been absorbed: its copy was dropped and fetched again, or its plane reloaded. -/
  | absorbed (u : ErrUnit)
  deriving DecidableEq, Repr

/-- A lend at system scope as it reaches the receiving module (R478). -/
structure GrantMsg where
  lender : ModuleId
  ctx : CtxId
  va : BitVec 56
  sizeExp : Nat
  depth : Nat
  deriving DecidableEq, Repr

/-- A system-scope arrival as it reaches the partner module (R479). -/
structure RemoteArr where
  sender : ModuleId
  ctx : CtxId
  lid : BitVec 32
  coord : BitVec 48
  phase : Fin 16
  deriving DecidableEq, Repr

/-- One direction of a way that flits travel: a lane of a hop of the ring, with the sending socket and whether it goes toward rising
socket numbers (R24, R26), or a scale-out port, outward or inward (R475). -/
inductive Hop where
  | ring (socket : Fin 78) (lane : Fin 4) (up : Bool)
  | port (p : PortId) (out : Bool)
  deriving DecidableEq, Repr

/-- Kinds of traffic on the ring (R27). -/
inductive Traffic where
  | request | response | sync | copy
  deriving DecidableEq, Repr

/-- The rows of the opcode table (R121 and the table of operations and events). -/
inductive Instr where
  /-- R122, every slot. -/
  | nop (sl : Slot) (f : FmtN)
  /-- R147 to R149, every slot. -/
  | xcp (sl : Slot) (f : FmtX)
  /-- C slot, opcode 0x02, R180. -/
  | br (f : FmtCB)
  /-- C slot, opcode 0x03, R180. -/
  | brx (f : FmtCR)
  /-- C slot, opcode 0x04, R180. -/
  | call (f : FmtCB)
  /-- C slot, opcode 0x05, R180. -/
  | callx (f : FmtCR)
  /-- C slot, opcode 0x06, R180. -/
  | ret (f : FmtCR)
  /-- C slot, opcode 0x07, R181. -/
  | loop (f : FmtCR)
  /-- C slot, opcode 0x08, R181. -/
  | loopRot (f : FmtCB)
  /-- C slot, opcode 0x09, R181. -/
  | lpend (f : FmtCB)
  /-- C slot, opcode 0x0A, R181. -/
  | lpbrk (f : FmtCB)
  /-- C slot, opcode 0x0B, R182. -/
  | endTask (f : FmtN)
  /-- C slot, opcode 0x0C, R454. -/
  | svc (f : FmtCK)
  /-- C slot, opcode 0x0D, R454. -/
  | brk (f : FmtCK)
  /-- C slot, opcode 0x0E, R455. -/
  | sysr (f : FmtCS)
  /-- C slot, opcode 0x0F, R455. -/
  | sysw (f : FmtCS)
  /-- C slot, opcode 0x10, R183. -/
  | tstamp (f : FmtCR)
  /-- C slot, opcode 0x11, R183. -/
  | rdcyc (f : FmtCR)
  /-- C slot, opcode 0x12, R184. -/
  | cli (f : FmtCI)
  /-- C slot, opcode 0x13, R184. -/
  | cmov (f : FmtCR)
  /-- C slot, opcode 0x14, R184. -/
  | cadd (f : FmtCR)
  /-- C slot, opcode 0x15, R184. -/
  | csub (f : FmtCR)
  /-- C slot, opcode 0x16, R184. -/
  | cand (f : FmtCR)
  /-- C slot, opcode 0x17, R184. -/
  | cor (f : FmtCR)
  /-- C slot, opcode 0x18, R184. -/
  | cxor (f : FmtCR)
  /-- C slot, opcode 0x19, R184. -/
  | ccmp (f : FmtCR)
  /-- C slot, opcode 0x1A, R185. -/
  | pand (f : FmtCP)
  /-- C slot, opcode 0x1B, R185. -/
  | por (f : FmtCP)
  /-- C slot, opcode 0x1C, R185. -/
  | pxor (f : FmtCP)
  /-- C slot, opcode 0x1D, R185. -/
  | pmov (f : FmtCP)
  /-- C slot, opcode 0x1E, R185. -/
  | pset (f : FmtCP)
  /-- C slot, opcode 0x1F, R186. -/
  | setld (f : FmtCR)
  /-- A slot, opcode 0x02, R188. -/
  | add (f : FmtAR)
  /-- A slot, opcode 0x03, R188. -/
  | sub (f : FmtAR)
  /-- A slot, opcode 0x04, R188. -/
  | mul (f : FmtAR)
  /-- A slot, opcode 0x05, R188. -/
  | mulh (f : FmtAR)
  /-- A slot, opcode 0x06, R188. -/
  | div (f : FmtAR)
  /-- A slot, opcode 0x07, R188. -/
  | rem (f : FmtAR)
  /-- A slot, opcode 0x08, R188. -/
  | and (f : FmtAR)
  /-- A slot, opcode 0x09, R188. -/
  | or (f : FmtAR)
  /-- A slot, opcode 0x0A, R188. -/
  | xor (f : FmtAR)
  /-- A slot, opcode 0x0B, R188. -/
  | andn (f : FmtAR)
  /-- A slot, opcode 0x0C, R188. -/
  | shl (f : FmtAR)
  /-- A slot, opcode 0x0D, R188. -/
  | shr (f : FmtAR)
  /-- A slot, opcode 0x0E, R188. -/
  | sar (f : FmtAR)
  /-- A slot, opcode 0x0F, R188. -/
  | rot (f : FmtAR)
  /-- A slot, opcode 0x10, R188. -/
  | min (f : FmtAR)
  /-- A slot, opcode 0x11, R188. -/
  | max (f : FmtAR)
  /-- A slot, opcode 0x12, R188. -/
  | abs (f : FmtAR)
  /-- A slot, opcode 0x13, R188. -/
  | neg (f : FmtAR)
  /-- A slot, opcode 0x14, R188. -/
  | cmp (f : FmtAR)
  /-- A slot, opcode 0x15, R188. -/
  | sel (f : FmtAR)
  /-- A slot, opcode 0x16, R188. -/
  | mov (f : FmtAR)
  /-- A slot, opcode 0x17, R190. -/
  | li (f : FmtAI)
  /-- A slot, opcode 0x18, R190. -/
  | lih (f : FmtAI)
  /-- A slot, opcode 0x18, R190. -/
  | lihHi (f : FmtAI)
  /-- A slot, opcode 0x19, R191. -/
  | bfx (f : FmtAF)
  /-- A slot, opcode 0x1A, R191. -/
  | bfi (f : FmtAF)
  /-- A slot, opcode 0x1B, R188. -/
  | clz (f : FmtAR)
  /-- A slot, opcode 0x1C, R188. -/
  | ctz (f : FmtAR)
  /-- A slot, opcode 0x1D, R188. -/
  | pcnt (f : FmtAR)
  /-- A slot, opcode 0x1E, R188. -/
  | brev (f : FmtAR)
  /-- A slot, opcode 0x1F, R188. -/
  | bswap (f : FmtAR)
  /-- A slot, opcode 0x20, R188. -/
  | lea (f : FmtAR)
  /-- A slot, opcode 0x21, R188. -/
  | sadd (f : FmtAR)
  /-- A slot, opcode 0x22, R188. -/
  | ssub (f : FmtAR)
  /-- A slot, opcode 0x23, R188. -/
  | madd (f : FmtAR)
  /-- A slot, opcode 0x24, R188. -/
  | ext (f : FmtAR)
  /-- A slot, opcode 0x25, R188. -/
  | clamp (f : FmtAR)
  /-- A slot, opcode 0x26, R188. -/
  | tst (f : FmtAR)
  /-- A slot, opcode 0x27, R188. -/
  | addc (f : FmtAR)
  /-- A slot, opcode 0x28, R188. -/
  | subb (f : FmtAR)
  /-- A slot, opcode 0x29, R189. -/
  | hmix (f : FmtAR)
  /-- A slot, opcode 0x2A, R188. -/
  | align (f : FmtAR)
  /-- A slot, opcode 0x2B, R189. -/
  | crc (f : FmtAR)
  /-- A slot, opcode 0x2C, R188. -/
  | bset (f : FmtAR)
  /-- A slot, opcode 0x2D, R188. -/
  | bclr (f : FmtAR)
  /-- A slot, opcode 0x2E, R188. -/
  | bflip (f : FmtAR)
  /-- A slot, opcode 0x2F, R188. -/
  | pack (f : FmtAR)
  /-- A slot, opcode 0x48, R193. -/
  | crd (f : FmtAI)
  /-- A slot, opcode 0x49, R192. -/
  | rank (f : FmtAI)
  /-- A slot, opcode 0x49, R192. -/
  | rankSz (f : FmtAI)
  /-- A slot, opcode 0x4A, R192. -/
  | cbase (f : FmtAI)
  /-- A slot, opcode 0x4B, R194. -/
  | argb (f : FmtAI)
  /-- A slot, opcode 0x4C, R100. -/
  | locq (f : FmtAI)
  /-- A slot, opcode 0x4C, R100. -/
  | locqSelf (f : FmtAI)
  /-- A slot, opcode 0x4D, R192. -/
  | ctxid (f : FmtAI)
  /-- A slot, opcode 0x4D, R192. -/
  | ctxidLid (f : FmtAI)
  /-- A slot, opcode 0x4E, R192. -/
  | rdld (f : FmtAI)
  /-- A slot, opcode 0x4F, R192. -/
  | rdrb (f : FmtAI)
  /-- V slot, opcode 0x02, R202. -/
  | vadd (f : FmtVR)
  /-- V slot, opcode 0x03, R202. -/
  | vsub (f : FmtVR)
  /-- V slot, opcode 0x04, R202. -/
  | vmul (f : FmtVR)
  /-- V slot, opcode 0x05, R202. -/
  | vfma (f : FmtVR)
  /-- V slot, opcode 0x06, R202. -/
  | vfms (f : FmtVR)
  /-- V slot, opcode 0x07, R202. -/
  | vfnma (f : FmtVR)
  /-- V slot, opcode 0x08, R204. -/
  | vmin (f : FmtVR)
  /-- V slot, opcode 0x09, R204. -/
  | vmax (f : FmtVR)
  /-- V slot, opcode 0x0A, R204. -/
  | vabs (f : FmtVR)
  /-- V slot, opcode 0x0B, R204. -/
  | vneg (f : FmtVR)
  /-- V slot, opcode 0x0C, R202. -/
  | vfrcp (f : FmtVR)
  /-- V slot, opcode 0x0D, R202. -/
  | vfsqrt (f : FmtVR)
  /-- V slot, opcode 0x0E, R202. -/
  | vdiv (f : FmtVR)
  /-- V slot, opcode 0x0F, R202. -/
  | vscl (f : FmtVR)
  /-- V slot, opcode 0x10, R206. -/
  | vcmp (f : FmtVR)
  /-- V slot, opcode 0x11, R207. -/
  | vsel (f : FmtVR)
  /-- V slot, opcode 0x12, R208. -/
  | vany (f : FmtVK)
  /-- V slot, opcode 0x13, R208. -/
  | vall (f : FmtVK)
  /-- V slot, opcode 0x14, R208. -/
  | kand (f : FmtVK)
  /-- V slot, opcode 0x15, R208. -/
  | kor (f : FmtVK)
  /-- V slot, opcode 0x16, R208. -/
  | kxor (f : FmtVK)
  /-- V slot, opcode 0x17, R208. -/
  | kmov (f : FmtVK)
  /-- V slot, opcode 0x18, R205. -/
  | vand (f : FmtVR)
  /-- V slot, opcode 0x19, R205. -/
  | vor (f : FmtVR)
  /-- V slot, opcode 0x1A, R205. -/
  | vxor (f : FmtVR)
  /-- V slot, opcode 0x1B, R205. -/
  | vandn (f : FmtVR)
  /-- V slot, opcode 0x1C, R204. -/
  | vshl (f : FmtVR)
  /-- V slot, opcode 0x1D, R204. -/
  | vshr (f : FmtVR)
  /-- V slot, opcode 0x1E, R204. -/
  | vsar (f : FmtVR)
  /-- V slot, opcode 0x1F, R205. -/
  | vmov (f : FmtVR)
  /-- V slot, opcode 0x20, R209. -/
  | vperm (f : FmtVP)
  /-- V slot, opcode 0x21, R209. -/
  | vshuf (f : FmtVP)
  /-- V slot, opcode 0x22, R209. -/
  | vrotl (f : FmtVP)
  /-- V slot, opcode 0x23, R209. -/
  | vbrev (f : FmtVP)
  /-- V slot, opcode 0x24, R209. -/
  | vzip (f : FmtVP)
  /-- V slot, opcode 0x25, R209. -/
  | vuzp (f : FmtVP)
  /-- V slot, opcode 0x26, R210. -/
  | vlane (f : FmtVI)
  /-- V slot, opcode 0x27, R210. -/
  | vli (f : FmtVI)
  /-- V slot, opcode 0x28, R212. -/
  | vcmul (f : FmtVR)
  /-- V slot, opcode 0x29, R213. -/
  | vbfly (f : FmtVR)
  /-- V slot, opcode 0x2A, R212. -/
  | vconj (f : FmtVR)
  /-- V slot, opcode 0x2B, R204. -/
  | vmulh (f : FmtVR)
  /-- V slot, opcode 0x2C, R204. -/
  | vsadd (f : FmtVR)
  /-- V slot, opcode 0x2D, R204. -/
  | vssub (f : FmtVR)
  /-- V slot, opcode 0x2E, R216. -/
  | vdot (f : FmtVR)
  /-- V slot, opcode 0x2F, R204. -/
  | vpcnt (f : FmtVR)
  /-- V slot, opcode 0x30, R217. -/
  | vcvt (f : FmtVC)
  /-- V slot, opcode 0x31, R218. -/
  | vqnt (f : FmtVC)
  /-- V slot, opcode 0x32, R219. -/
  | vdqnt (f : FmtVC)
  /-- V slot, opcode 0x33, R220. -/
  | vamax (f : FmtVC)
  /-- V slot, opcode 0x34, R214. -/
  | vred (f : FmtVR)
  /-- V slot, opcode 0x35, R222. -/
  | vcnt (f : FmtVC)
  /-- V slot, opcode 0x36, R221. -/
  | vpack4 (f : FmtVC)
  /-- V slot, opcode 0x37, R221. -/
  | vunpk4 (f : FmtVC)
  /-- V slot, opcode 0x38, R204. -/
  | vclz (f : FmtVR)
  /-- V slot, opcode 0x39, R202. -/
  | vrnd (f : FmtVR)
  /-- V slot, opcode 0x3A, R204. -/
  | vclass (f : FmtVR)
  /-- V slot, opcode 0x3B, R204. -/
  | vmadd (f : FmtVR)
  /-- V slot, opcode 0x3C, R209. -/
  | vext (f : FmtVR)
  /-- V slot, opcode 0x3D, R204. -/
  | vclamp (f : FmtVR)
  /-- V slot, opcode 0x3E, R209. -/
  | vinsl (f : FmtVP)
  /-- V slot, opcode 0x3F, R208. -/
  | kpop (f : FmtVK)
  /-- V slot, opcode 0x40, R209. -/
  | vsort2 (f : FmtVR)
  /-- V slot, opcode 0x41, R215. -/
  | vmaxi (f : FmtVR)
  /-- V slot, opcode 0x42, R215. -/
  | vmini (f : FmtVR)
  /-- V slot, opcode 0x43, R209. -/
  | vbcst (f : FmtVP)
  /-- V slot, opcode 0x44, R204. -/
  | vsgn (f : FmtVR)
  /-- V slot, opcode 0x45, R207. -/
  | vmerge (f : FmtVR)
  /-- V slot, opcode 0x46, R209. -/
  | vtrn (f : FmtVP)
  /-- V slot, opcode 0x47, R209. -/
  | vrev (f : FmtVP)
  /-- M slot, opcode 0x02, R257. -/
  | ld (f : FmtML)
  /-- M slot, opcode 0x03, R257. -/
  | st (f : FmtML)
  /-- M slot, opcode 0x04, R257. -/
  | ldv (f : FmtML)
  /-- M slot, opcode 0x05, R257. -/
  | stv (f : FmtML)
  /-- M slot, opcode 0x06, R258. -/
  | ldpi (f : FmtML)
  /-- M slot, opcode 0x07, R258. -/
  | stpi (f : FmtML)
  /-- M slot, opcode 0x08, R262. -/
  | ldf (f : FmtML)
  /-- M slot, opcode 0x09, R262. -/
  | lde (f : FmtML)
  /-- M slot, opcode 0x0A, R262. -/
  | ste (f : FmtML)
  /-- M slot, opcode 0x0B, R262. -/
  | stf (f : FmtML)
  /-- M slot, opcode 0x0C, R262. -/
  | clre (f : FmtML)
  /-- M slot, opcode 0x0D, R260. -/
  | gth (f : FmtMG)
  /-- M slot, opcode 0x0E, R260. -/
  | sct (f : FmtMG)
  /-- M slot, opcode 0x0F, R257. -/
  | ldb (f : FmtML)
  /-- M slot, opcode 0x10, R270. -/
  | probe (f : FmtML)
  /-- M slot, opcode 0x11, R249. -/
  | pref (f : FmtML)
  /-- M slot, opcode 0x12, R273. -/
  | disc (f : FmtML)
  /-- M slot, opcode 0x13, R274. -/
  | cbdef (f : FmtML)
  /-- M slot, opcode 0x14, R275. -/
  | cbget (f : FmtML)
  /-- M slot, opcode 0x15, R275. -/
  | cbput (f : FmtML)
  /-- M slot, opcode 0x16, R266. -/
  | fence (f : FmtML)
  /-- M slot, opcode 0x17, R275. -/
  | cbqry (f : FmtML)
  /-- M slot, opcode 0x18, R260. -/
  | ldvs (f : FmtMG)
  /-- M slot, opcode 0x19, R260. -/
  | stvs (f : FmtMG)
  /-- M slot, opcode 0x1A, R260. -/
  | ldvm (f : FmtMG)
  /-- M slot, opcode 0x1B, R260. -/
  | stvm (f : FmtMG)
  /-- M slot, opcode 0x1C, R276. -/
  | mmov (f : FmtMI)
  /-- M slot, opcode 0x1D, R276. -/
  | xadd (f : FmtMI)
  /-- M slot, opcode 0x1E, R276. -/
  | xli (f : FmtMI)
  /-- M slot, opcode 0x1F, R276. -/
  | xmov (f : FmtMI)
  /-- E slot, opcode 0x02, R281. -/
  | cpy (f : FmtEC)
  /-- E slot, opcode 0x03, R286. -/
  | cpymx (f : FmtEC)
  /-- E slot, opcode 0x04, R289. -/
  | cpyMig (f : FmtEC)
  /-- E slot, opcode 0x05, R291. -/
  | cpyq (f : FmtEC)
  /-- E slot, opcode 0x06, R290. -/
  | cpyx (f : FmtEC)
  /-- E slot, opcode 0x08, R314. -/
  | mxfmt (f : FmtEI)
  /-- E slot, opcode 0x09, R316. -/
  | mxlen (f : FmtEI)
  /-- E slot, opcode 0x0A, R317. -/
  | mxseed (f : FmtEM)
  /-- E slot, opcode 0x0B, R317. -/
  | mxthr (f : FmtEM)
  /-- E slot, opcode 0x0C, R318. -/
  | mxset (f : FmtEM)
  /-- E slot, opcode 0x0D, R319. -/
  | mxgo (f : FmtEM)
  /-- E slot, opcode 0x0E, R319. -/
  | mxgos (f : FmtEM)
  /-- E slot, opcode 0x0F, R319. -/
  | mxgoa (f : FmtEM)
  /-- E slot, opcode 0x10, R326. -/
  | mxdrain (f : FmtEI)
  /-- E slot, opcode 0x11, R324. -/
  | mxrd (f : FmtEM)
  /-- E slot, opcode 0x12, R327. -/
  | mxclr (f : FmtEI)
  /-- E slot, opcode 0x13, R317. -/
  | mxsel (f : FmtEI)
  /-- E slot, opcode 0x14, R325. -/
  | mxst (f : FmtEM)
  /-- E slot, opcode 0x15, R317. -/
  | mxmute (f : FmtEM)
  /-- E slot, opcode 0x16, R340. -/
  | phase (f : FmtEP)
  /-- E slot, opcode 0x17, R344. -/
  | phq (f : FmtEI)
  /-- E slot, opcode 0x18, R328. -/
  | mxstop (f : FmtEI)
  /-- Y slot, opcode 0x02, R389. -/
  | tklend (f : FmtYT)
  /-- Y slot, opcode 0x03, R389. -/
  | tkret (f : FmtYT)
  /-- Y slot, opcode 0x04, R392. -/
  | tksplit (f : FmtYT)
  /-- Y slot, opcode 0x05, R392. -/
  | tkjoin (f : FmtYT)
  /-- Y slot, opcode 0x06, R389. -/
  | tkshr (f : FmtYT)
  /-- Y slot, opcode 0x07, R389. -/
  | tkunsh (f : FmtYT)
  /-- Y slot, opcode 0x08, R391. -/
  | tkrcl (f : FmtYT)
  /-- Y slot, opcode 0x09, R390. -/
  | tkwait (f : FmtYT)
  /-- Y slot, opcode 0x09, R390. -/
  | tkwaitSh (f : FmtYT)
  /-- Y slot, opcode 0x0A, R393. -/
  | tkqry (f : FmtYT)
  /-- Y slot, opcode 0x0B, R396. -/
  | arrive (f : FmtYS)
  /-- Y slot, opcode 0x0C, R396. -/
  | arriveRel (f : FmtYS)
  /-- Y slot, opcode 0x0D, R397. -/
  | waitph (f : FmtYS)
  /-- Y slot, opcode 0x0E, R405. -/
  | trig (f : FmtYS)
  /-- Y slot, opcode 0x0F, R406. -/
  | grow (f : FmtYS)
  /-- Y slot, opcode 0x10, R400. -/
  | rmin (f : FmtYS)
  /-- Y slot, opcode 0x11, R400. -/
  | rmax (f : FmtYS)
  /-- Y slot, opcode 0x12, R400. -/
  | rsum (f : FmtYS)
  /-- Y slot, opcode 0x13, R400. -/
  | redf (f : FmtYS)
  /-- Y slot, opcode 0x14, R400. -/
  | amor (f : FmtYS)
  /-- Y slot, opcode 0x15, R400. -/
  | cas (f : FmtYS)
  /-- Y slot, opcode 0x16, R407. -/
  | yli (f : FmtYI)
  /-- Y slot, opcode 0x17, R407. -/
  | ymov (f : FmtYS)
  /-- Y slot, opcode 0x18, R404. -/
  | amoAdd (f : FmtYS)
  /-- Y slot, opcode 0x19, R404. -/
  | amoMin (f : FmtYS)
  /-- Y slot, opcode 0x1A, R404. -/
  | amoMax (f : FmtYS)
  /-- Y slot, opcode 0x1B, R404. -/
  | amoAnd (f : FmtYS)
  /-- Y slot, opcode 0x1C, R404. -/
  | amoOr (f : FmtYS)
  /-- Y slot, opcode 0x1D, R404. -/
  | amoXor (f : FmtYS)
  /-- Y slot, opcode 0x1E, R395. -/
  | phdef (f : FmtYS)
  /-- Y slot, opcode 0x1F, R407. -/
  | yadd (f : FmtYS)
  /-- Event, R107: The control core fetches the index word at the fetch position and decodes it as a dictionary bundle, an escape with a literal, or a fatal illegal-index error. -/
  | fetch (core : CoreId)
  /-- Event, R182: Once the wait of end is over, the core settles the task's tokens, releases its writes at device scope, counts it in the completion word, triggers it if needed and reaches the drain point. -/
  | taskRelease (core : CoreId)
  /-- Event, R263: A full/empty access reaches its word, is performed if its condition holds or joins the waiters, and waiters are then served oldest first. -/
  | feAccessArrival (n : Nat)
  /-- Event, R266: The fence completes once the task's earlier writes are acknowledged and the caches are flushed to the scope's level. -/
  | fenceComplete (core : CoreId)
  /-- Event, R283: The stack's engine queue accepts a copy request, or NAKs it for retry, and the handle is written. -/
  | copyAccept (n : Nat)
  /-- Event, R278: A copy engine takes a queued operation and starts it, claiming a circular-buffer slot when it names one. -/
  | copyStart (st : StackId) (eng : Fin 2) (n : Nat)
  /-- Event, R284: A copy operation's writes are acknowledged; the slot is counted, the completion word is stored and waiters are served. -/
  | copyComplete (st : StackId) (n : Nat)
  /-- Event, R288: The engine commits a cpymx follow-on command on its array, waiting for the pending slot if needed. -/
  | followOnCommit (st : StackId) (n : Nat)
  /-- Event, R341: A command becomes current on its array after any hold and stagger, at full or half step rate. -/
  | arrayStart (arr : ArrayId)
  /-- Event, R293: An array advances every cell's streams by 8 bits and adds the products to the counts. -/
  | arrayStep (arr : ArrayId)
  /-- Event, R321: A command ends after its last vector, the pending command becomes current and waiting joins complete. -/
  | arrayCommandEnd (arr : ArrayId)
  /-- Event, R341: The declaration's window opens at its onset and held array starts proceed. -/
  | phaseWindowOpen (core : CoreId)
  /-- Event, R343: The window ends and, once covered commands have ended, the rail pre-position is released. -/
  | phaseWindowEnd (core : CoreId)
  /-- Event, R369: A token transfer, share or unshare message reaches its home slice and receiver, and a waiting claim may complete. -/
  | tokenMessageArrival (n : Nat)
  /-- Event, R366: A privileged write of V = 0 to a LOST record returns its region to rest. -/
  | tokenRecordClear (st : StackId) (e : Fin 16384)
  /-- Event, R396: An arrival reaches the sync unit and counts in the phase's open instance. -/
  | phaseArrival (n : Nat)
  /-- Event, R401: A round reaches the sync unit and is held for its instance. -/
  | roundReceive (n : Nat)
  /-- Event, R404: A possibly merged amo message reaches the home and updates the word. -/
  | amoApply (n : Nat) (merge : Bool)
  /-- Event, R72: A task's trigger reaches the trigger word, adding to COUNT and setting DONE when all have triggered. -/
  | triggerCount (n : Nat)
  /-- Event, R78: The dispatcher applies a grow request, or refuses it and sets GREF. -/
  | growApply (n : Nat)
  /-- Event, R137: A fixed-latency result is written at the end of its due issue cycle, with its latch and flags. -/
  | resultLand (core : CoreId)
  /-- Event, R140: Data of a late class-0 or class-1 load arrives and ends the freeze. -/
  | lateLoadArrival (core : CoreId) (n : Nat)
  /-- Event, R141: A value delivered through the interlocked queue arrives, clearing its pending register and freeing its entry. -/
  | interlockedArrival (core : CoreId) (n : Nat)
  /-- Event, R246: A write is performed at its home stack, allocating a FREE unbacked line or raising an overrun. -/
  | writeAtHome (n : Nat)
  /-- Event, R245: A held backing proceeds once its pool receives a frame. -/
  | spillProceed (st : StackId) (n : Nat)
  /-- Event, R243: A write adds a frame to a memory die's pool, or is ignored. -/
  | poolPush (die : DieId) (z : Fin 5) (v : Word)
  /-- Event, R242: A write to the unbacked reservation table raises or lowers RESV, or is refused. -/
  | resvWrite (st : StackId) (e : Fin 256) (v : Word)
  /-- Event, R229: Drops a context's translations of a page, or of all its pages, from every TLB. -/
  | tlbinv (v : Word)
  /-- Event, R239: Every 100 µs the stack totals GAIN and LOSS and chooses a move of the L2 boundary. -/
  | carveoutPeriod (st : StackId) (gain loss : BitVec 16)
  /-- Event, R239: A boundary move takes effect when its evictions end. -/
  | carveoutMoveDone (st : StackId)
  /-- Event, R63: A write of ACQ acquires a free semaphore or renews the holder's lease. -/
  | semAcquire (m : Master) (n : SemId) (lease : BitVec 32)
  /-- Event, R63: A write of REL by the holder frees the semaphore. -/
  | semRelease (m : Master) (n : SemId) (lease : BitVec 32)
  /-- Event, R63: A semaphore whose lease runs out becomes free. -/
  | semLeaseExpire (n : SemId)
  /-- Event, R82: The standby dispatcher acquires semaphore 0 and carries on from the queue block's state. -/
  | dispatcherTakeover
  /-- Event, R65: A write of EN = 1 by the holder of semaphore 1 lets the queue accept pushes. -/
  | queueEnable (m : Master) (q : QueueId) (v : Word)
  /-- Event, R68: A write of EN = 0 drops the queue's unadmitted records with code 0x13. -/
  | queueDisable (m : Master) (q : QueueId) (v : Word)
  /-- Event, R65: A write of PRIO, IRQB or CTX to QCFG by the holder of semaphore 1. -/
  | queueConfigure (m : Master) (q : QueueId) (v : Word)
  /-- Event, R66: A write to QPUSH adds a record address to the queue or is refused, answered in the master's QRES bank. -/
  | queuePush (m : Master) (q : QueueId) (v : Word)
  /-- Event, R76: The dispatcher reads and checks the head launch record. -/
  | launchRecordRead (q : QueueId)
  /-- Event, R57: The dispatcher reads the kernel image and runs the checks, refusing it with the lowest failing code. -/
  | imageValidate (q : QueueId)
  /-- Event, R75: A dependence word shows DONE, or ERR which fails the launch with 0x11. -/
  | dependenceMet (q : QueueId)
  /-- Event, R76: The launch is admitted once it can take its word regions and an admission place is free. -/
  | launchAdmit (q : QueueId)
  /-- Event, R81: The active dispatcher ages queues, picks one by priority and round-robin, and issues a team or admits a record. -/
  | issueDecision
  /-- Event, R91: A core's next task becomes current at its drain point once its plane is ready. -/
  | taskStart (core : CoreId)
  /-- Event, R93: The loader writes the last bundle into a shadow plane, which becomes LOADED. -/
  | planeLoadDone (core : CoreId)
  /-- Event, R83: A context ends: unadmitted records are dropped, launches finished in error and its queues disabled. -/
  | contextEnd (ctx : CtxId)
  /-- Event, R429: A fatal error ends the whole context, stopping tasks, clearing arrays and tokens. -/
  | fatalContextError (n : Nat)
  /-- Event, R427: The host advances ELTAIL, making room for waiting error records. -/
  | eltailWrite (st : StackId) (v : Word)
  /-- Event, R425: A write to FBPOP marks the oldest undelivered fault record delivered. -/
  | faultPop (st : StackId)
  /-- Event, R432: A reply marks an event serviced, to be taken by its task at resume. -/
  | freplyServiced (st : StackId) (ctx : CtxId) (ent : Fin 4096) (seq : BitVec 32)
  /-- Event, R432: A reply refuses an event, setting p63 or completing a probe with NP. -/
  | freplyRefused (st : StackId) (ctx : CtxId) (ent : Fin 4096) (seq : BitVec 32)
  /-- Event, R432: A reply ends the event's context with code 0x0C. -/
  | freplyEndContext (st : StackId) (ctx : CtxId) (ent : Fin 4096) (seq : BitVec 32)
  /-- Event, R434: A PRECMD suspend names tasks to be suspended at their next bundle boundaries, or is refused. -/
  | preemptSuspend (st : StackId) (v : Word)
  /-- Event, R434: A PRECMD suspend with ALL and REL swaps out the context with release, backing its unbacked pages. -/
  | preemptSwapOutRelease (st : StackId) (ctx : CtxId)
  /-- Event, R434: A PRECMD resume names a team to resume. -/
  | preemptResume (st : StackId) (v : Word)
  /-- Event, R435: A task is saved at a bundle boundary with its snapshot, scratchpad and array state. -/
  | taskSuspend (core : CoreId)
  /-- Event, R103: A suspended team re-enters its cores' next slots once they are empty and its state is restored. -/
  | teamResume (st : StackId) (team : Nat)
  /-- Event, R437: A master's write to SAVECFG checks both save areas and sets OK. -/
  | saveAreaCheck (ctx : CtxId) (v : Word) (linesOk : Bool)
  /-- Event, R440: An SRAM error is corrected in place or marks its word poisoned, and the unit's self-test starts. -/
  | softError (u : ErrUnit) (corrected : Bool)
  /-- Event, R441: A targeted self-test ends, sparing a row or fencing the unit on failure. -/
  | selfTestDone (u : ErrUnit) (passed : Bool)
  /-- Event, R443: Poisoned data or an error completion is consumed and is absorbed by replay or ends the context. -/
  | poisonConsumed (p : PoisonUse)
  /-- Event, R447: A protected interval is replayed from the team checkpoint with its pre-images written back. -/
  | teamReplay (st : StackId) (team : Nat)
  /-- Event, R450: A STRST GO with QUI quiesces the stack, parks its records and starts its reset. -/
  | stackResetQuiesce (st : StackId) (fen : Bool)
  /-- Event, R451: A STRST GO without QUI resets the stack, losing its LIVE lines and tokens. -/
  | stackResetNoQuiesce (st : StackId) (fen : Bool)
  /-- Event, R450: The reset ends, records are restored, links unfenced and teams resume. -/
  | stackResetDone (st : StackId)
  /-- Event, R452: A write of REQ asks the core to halt at its next bundle boundary. -/
  | debugHaltRequest (core : CoreId)
  /-- Event, R452: The core halts with its state captured on the core. -/
  | debugHalt (core : CoreId)
  /-- Event, R452: A write of RES resumes the halted task. -/
  | debugResume (core : CoreId)
  /-- Event, R453: A write to DBGDATA while halted changes the selected word. -/
  | debugDataWrite (core : CoreId) (v : Word)
  /-- Event, R411: At each DLPOL period the management core walks the wait-for tables and ends a victim of each cycle. -/
  | deadlockWalk
  /-- Event, R408: A request NAKed for an exhausted resource is retried and takes its core's reserved unit after two NAKs. -/
  | nakRetry (n : Nat)
  /-- Event, R345: The rail falls more than DRTH below target and the cluster clock stretches. -/
  | droopAlarm (cl : ClusterId)
  /-- Event, R346: The last stretched cycle passes and the half-issue window begins. -/
  | stretchEnd (cl : ClusterId)
  /-- Event, R346: The half-issue window's cycles run out and ordinary issue resumes. -/
  | halfIssueWindowEnd (cl : ClusterId)
  /-- Event, R354: The junction passes 110 °C and the cluster freezes. -/
  | thermalTrip (cl : ClusterId)
  /-- Event, R354: Rail current passes its trip level, or the rail gap exceeds 0.25 V, and the cluster freezes. -/
  | currentTrip (cl : ClusterId)
  /-- Event, R354: Temperature falls below 100 °C or current below its trip level and the cluster runs again. -/
  | tripClear (cl : ClusterId)
  /-- Event, R348: A write to CFREQ sets the cluster clock and starts a relock, or is refused. -/
  | clockSet (cl : ClusterId) (v : Word)
  /-- Event, R348: A write to VSET sets the rail set point, or is refused. -/
  | vsetWrite (cl : ClusterId) (v : Word)
  /-- Event, R349: The clock restarts after a relock and cycle counts are raised. -/
  | relockDone (cl : ClusterId) (stopped : Nat)
  /-- Event, R485: A write of the key to WDOG restarts the watchdog count. -/
  | watchdogKick (m : Master) (v : Word)
  /-- Event, R355: The watchdog expires and every cluster moves to the safe operating point. -/
  | watchdogExpire
  /-- Event, R4: A write to a register without a row of its own changes its fields as mapped. -/
  | registerWrite (m : Master) (r : RegSpace) (off : Nat) (v : Word)
  /-- Event, R473: A write to CTXCFG creates, removes or privileges a context when it is idle. -/
  | contextConfigure (ctx : CtxId) (v : Word)
  /-- Event, R481: A write of CQUI.REQ stops or resumes placement on the cluster. -/
  | clusterQuiesceRequest (cl : ClusterId) (req : Bool)
  /-- Event, R483: A CPSCMD GO starts a transition to the target power state, or is refused. -/
  | clusterPowerCommand (cl : ClusterId) (tgt : BitVec 3)
  /-- Event, R483: A CWAKE write starts a return to ON, or is queued behind a transition. -/
  | clusterWake (cl : ClusterId)
  /-- Event, R483: A power transition ends, ST takes its target and BUSY clears or a queued wake starts. -/
  | clusterTransitionDone (cl : ClusterId)
  /-- Event, R484: A write of PFSEL names the management core that runs the power firmware. -/
  | pfSelect (sel : Bool)
  /-- Event, R487: An ATTCMD GO starts an attestation report for a nonce. -/
  | attestRequest (v : Word)
  /-- Event, R487: The signed report is written and DONE is set. -/
  | attestDone (err : Bool)
  /-- Event, R476: A write of LNKCFG.EN trains and runs a scale-out port. -/
  | linkEnable (port : PortId) (en : Bool)
  /-- Event, R476: A port finishes training and records its peer's module number. -/
  | linkUp (port : PortId) (peer : ModuleId)
  /-- Event, R476: A write to RTAB sets the route and reachability of a module. -/
  | routeWrite (m : ModuleId) (v : Word)
  /-- Event, R477: A module becomes unreachable; its lent tokens are LOST and messages to it get error completions. -/
  | moduleUnreachable (m : ModuleId)
  /-- Event, R478: A lend at system scope arrives and becomes a remote grant on the receiving module. -/
  | remoteGrantReceive (g : GrantMsg)
  /-- Event, R479: A system-scope arrival from another module counts at a phase of the matching launch, or waits for it. -/
  | remoteArrival (r : RemoteArr)
  /-- Event, R28: A receiver checks a flit's CRC and delivers it, or drops it and withholds ACK. -/
  | flitReceive (hop : Hop) (flit : BitVec 2048)
  /-- Event, R28: The sender replays from the first unacknowledged sequence number. -/
  | flitReplay (hop : Hop)
  /-- Event, R63: A Campion die is reset and every semaphore it holds becomes free. -/
  | campionReset (m : Master)
  /-- Event, R489: Power-on or module reset starts bring-up at stage 0. -/
  | moduleReset
  /-- Event, R489: A bring-up stage completes and the next begins, or a failure is reported. -/
  | bringUpStage (ok : Bool)
  /-- Event, R229: Every TLB in the module has dropped the page named by a TLBINV write, so the writing sysw completes and the master-visible in-progress bit at offset 0x0038 clears. -/
  | tlbDropComplete (n : Nat)
  /-- Event, R479: The acknowledgement of a system-scope arrival returns to the issuing module and, when the arrival's COORD lay outside the partner launch's grid, ends the issuing context with a permission violation. -/
  | arrivalAcknowledgement (n : Nat) (outside : Bool)
  deriving DecidableEq, Repr

end Sys2Proof
end

