-- ==== Sys2Proof/Config.lean ====
section
/-! DEFINITION. What one module fixes and the spec does not give: free values with no body. -/

namespace Sys2Proof

/-- The sign of an exact sum whose terms are zeros of both signs, by rounding mode and the terms' signs (R159 states none;
program FFT calls it ±0). `true` is minus. -/
opaque Config.mixedZeroSign : Rm → List Bool → Bool

/-- The identity public key of the module, 64 bytes by index (R486, R487: made at manufacture, value not given). -/
opaque Config.devPub : Nat → Byte

/-- SHA3-256 of the running Campion firmware, by byte index (R487: firmware contents not given). -/
opaque Config.campionHash : Nat → Byte

/-- SHA3-256 of the running power firmware, by byte index (R487: firmware contents not given). -/
opaque Config.powerHash : Nat → Byte

/-- The attestation signature over a report, by byte index (R487: the private key is not given). -/
opaque Config.attestSig : List Byte → Nat → Byte

/-- One less than the buffers of a virtual channel at a hop's receiver (R27: each channel has its own; how many is not given). -/
opaque Config.vcBuffers : Fin 4 → Nat

/-- The sampling set of a stack's L2 that a line belongs to, if it belongs to one (R239: which sets sample is not given). -/
opaque Config.sampleSet : Nat → Nat → Option (Fin 1024)

/-- One less than the ways that one unit of 8 MiB gives a set of an L2 (R239: not given). -/
opaque Config.unitWays : Nat

/-- Which line a full L1 or cluster cache gives up, by the count of free values taken (R236 gives the L2's order alone). -/
opaque Config.cacheVictim : Nat → Nat

/-- Whether the Campion die whose boot ROM accepts no firmware is die A (R489). -/
opaque Config.romDie : Nat → Bool

/-- The HOLDER that a token record of a region held by the dispatcher shows (R74, R366: no identifier is given). -/
opaque Config.dispatcherId : BitVec 32

/-- The bytes of a save slot whose layout is not given, by the number of the save and the offset in the slot (R438: registers, control
state, VALID stamp, array state). -/
opaque Config.slotByte : Nat → Nat → Byte

/-- Where the firmware puts the capability list: its first word in LPDDR, by the count of free values taken (R488: not given). -/
opaque Config.capPlace : Nat → Nat

/-- Words of the capability list that no rule gives: the management-space addresses of the queue block (0) and of the module control
block (1), and the versions of the Campion firmware (2) and of the power firmware (3) (R488). -/
opaque Config.capWord : Fin 4 → BitVec 64

/-- The DETAIL of a soft-error record, by the unit that the error struck (R427: the unit and row; the coding is not given). -/
opaque Config.softDetail : ErrUnit → BitVec 64

end Sys2Proof
end

