-- ==== Sys2Proof/Machine/Arith.lean ====
section
/-! DEFINITION. Exact integer arithmetic under a type (R155, R156, R187) and the elements of a vector (R151). -/

namespace Sys2Proof.Machine

/-- Width in bits of a type code (R119, R151); the default type is given by the caller. -/
def tyWidth : Ty → Nat
  | .i8 | .n8 | .e4m3 | .e5m2 => 8
  | .i16 | .n16 | .f16 | .bf16 => 16
  | .i32 | .n32 | .f32 => 32
  | .dflt | .i64 | .n64 | .f64 => 64
  | .n4x => 4

/-- Signedness of an integer type (R155); the default of the A and C slots is i64. -/
def tySigned : Ty → Bool
  | .dflt | .i8 | .i16 | .i32 | .i64 => true
  | _ => false

/-- The integer types i8 to n64. -/
def tyIsInt : Ty → Bool
  | .i8 | .i16 | .i32 | .i64 | .n8 | .n16 | .n32 | .n64 => true
  | _ => false

/-- The floating types with lanes of their own: f16, bf16, f32, f64. -/
def tyIsFloat : Ty → Bool
  | .f16 | .bf16 | .f32 | .f64 => true
  | _ => false

/-- The default type replaced by `d`. -/
def tyOr (d : Ty) : Ty → Ty
  | .dflt => d
  | t => t

/-- trunc(n, w) of a natural number. -/
def low (w n : Nat) : Nat := n % 2 ^ w

/-- sext of the low `w` bits of `n`, as an integer. -/
def sval (w n : Nat) : Int :=
  let u := low w n
  if 2 ^ (w - 1) ≤ u then (u : Int) - 2 ^ w else u

/-- zext of the low `w` bits of `n`. -/
def uval (w n : Nat) : Nat := low w n

/-- val of R187: the low bits of a source by the type's signedness. -/
def tyVal (t : Ty) (n : Nat) : Int :=
  if tySigned t then sval (tyWidth t) n else (uval (tyWidth t) n : Int)

/-- trunc(v, w) of an integer. -/
def truncInt (w : Nat) (v : Int) : Nat := (v % (2 ^ w : Int)).toNat

/-- fit of R187 and R156: wraps modulo 2^w, then extends to 64 bits by the type's signedness. -/
def fit64 (t : Ty) (v : Int) : Word :=
  let w := tyWidth t
  let u := truncInt w v
  if tySigned t then BitVec.ofInt 64 (sval w u) else BitVec.ofNat 64 u

/-- The least value of an integer type (R155). -/
def tyMin (t : Ty) : Int := if tySigned t then -(2 ^ (tyWidth t - 1) : Int) else 0

/-- The largest value of an integer type (R155). -/
def tyMax (t : Ty) : Int :=
  if tySigned t then 2 ^ (tyWidth t - 1) - 1 else 2 ^ tyWidth t - 1

/-- sat(v, type) of R156. -/
def satInt (t : Ty) (v : Int) : Int :=
  if v < tyMin t then tyMin t else if tyMax t < v then tyMax t else v

/-- Division rounded toward zero, with -1 for a zero divisor (R188). -/
def divZ (x y : Int) : Int := if y = 0 then -1 else Int.tdiv x y

/-- The low `w` bits of `n`, reversed. -/
def bitRev : Nat → Nat → Nat
  | 0, _ => 0
  | w + 1, n => (n % 2) * 2 ^ w + bitRev w (n / 2)

/-- The low `k` bytes of `n`, reversed. -/
def byteRev : Nat → Nat → Nat
  | 0, _ => 0
  | k + 1, n => (n % 256) * 256 ^ k + byteRev k (n / 256)

/-- The number of ones among the low `w` bits. -/
def popCount : Nat → Nat → Nat
  | 0, _ => 0
  | w + 1, n => n % 2 + popCount w (n / 2)

/-- Leading zeros of the low `w` bits; `w` for zero (R188). -/
def leadZeros (w n : Nat) : Nat :=
  let u := low w n
  if u = 0 then w else w - 1 - Nat.log2 u

/-- Trailing zeros of the low `w` bits; `w` for zero (R188). -/
def trailZeros : Nat → Nat → Nat
  | 0, _ => 0
  | w + 1, n => if n % 2 = 1 then 0 else 1 + trailZeros w (n / 2)

/-- The low `w` bits rotated left by `k`. -/
def rotLeft (w n k : Nat) : Nat := low w (low w n * 2 ^ k) + low w n / 2 ^ (w - k)

/-- hmix of R189. -/
def hmix (a b : Word) : Word :=
  let h := a ^^^ b
  let h := h ^^^ (h >>> 29)
  let h := h * 0xBF58476D1CE4E5B9#64
  h ^^^ (h >>> 32)

/-- One bit of the reflected CRC-32C (R189). -/
def crcBit (c : Nat) : Nat := if c % 2 = 1 then (c / 2) ^^^ 0x82F63B78 else c / 2

/-- One byte of the reflected CRC-32C. -/
def crcByte (c b : Nat) : Nat :=
  crcBit (crcBit (crcBit (crcBit (crcBit (crcBit (crcBit (crcBit (c ^^^ b))))))))

/-- crc32c_step of R189 over `k` bytes of `v`, byte 0 first. -/
def crcStep : Nat → Nat → Nat → Nat
  | 0, c, _ => c
  | k + 1, c, v => crcStep k (crcByte c (v % 256)) (v / 256)

/-- Whether condition `c` holds between two integers; `uo` and `ord` are for floating types (R119). -/
def cndInt (c : Cnd) (x y : Int) : Bool :=
  match c with
  | .eq => x == y
  | .ne => x != y
  | .lt => decide (x < y)
  | .le => decide (x ≤ y)
  | .gt => decide (y < x)
  | .ge => decide (y ≤ x)
  | .uo => false
  | .ord => true

/-- Element `i` of width `w` of a register (R151). -/
def elem (w : Nat) (x : Vec) (i : Nat) : Nat := (x.toNat >>> (w * i)) % 2 ^ w

/-- The natural number whose digits in base 2^w are the entries, lowest first. -/
def packNat (w : Nat) : List Nat → Nat
  | [] => 0
  | a :: t => a % 2 ^ w + 2 ^ w * packNat w t

/-- A register from its elements of width `w`, element 0 first. -/
def ofElems (w : Nat) (l : List Nat) : Vec := BitVec.ofNat 1024 (packNat w l)

/-- The elements of a register. -/
def elems (w : Nat) (x : Vec) : List Nat := (List.range (1024 / w)).map (elem w x)

/-- The lane whose mask bit governs element `i` (R196). -/
def laneOf (w i : Nat) : Nat := if w ≤ 32 then i * w / 32 else 2 * i

/-- A 32-bit value in every lane. -/
def bcast32 (n : Nat) : Vec := ofElems 32 (List.replicate 32 n)

end Sys2Proof.Machine
end

