-- ==== Sys2Proof/Machine/Float.lean ====
section
/-! DEFINITION. Floating values, their encodings (R152), the one rounding (R157 to R160) and the exact operations on which
every floating result rests (R163, R174). -/

namespace Sys2Proof.Machine

/-- An exact floating value: (-1)^s * m * 2^e, an infinity, or a NaN. A zero keeps its sign. -/
inductive FVal where
  | nan
  | inf (s : Bool)
  | fin (s : Bool) (m : Nat) (e : Int)
  deriving DecidableEq, Repr

/-- A floating format (R152). `hasInf` is false for E4M3 alone. -/
structure FFmt where
  width : Nat
  fbits : Nat
  bias : Int
  hasInf : Bool
  /-- Largest finite value: `maxM` units of 2^`maxQ`. -/
  maxM : Nat
  maxQ : Int
  /-- Canonical NaN (R153). -/
  nanBits : Nat
  deriving DecidableEq, Repr

def fmtF64 : FFmt := ⟨64, 52, 1023, true, 2 ^ 53 - 1, 971, 0x7FF8000000000000⟩
def fmtF32 : FFmt := ⟨32, 23, 127, true, 2 ^ 24 - 1, 104, 0x7FC00000⟩
def fmtF16 : FFmt := ⟨16, 10, 15, true, 2047, 5, 0x7E00⟩
def fmtBF16 : FFmt := ⟨16, 7, 127, true, 255, 120, 0x7FC0⟩
def fmtE4M3 : FFmt := ⟨8, 3, 7, false, 14, 5, 0x7F⟩
def fmtE5M2 : FFmt := ⟨8, 2, 15, true, 7, 13, 0x7E⟩

/-- The format of a floating type code; f32 elsewhere. -/
def tyFmt : Ty → FFmt
  | .f64 => fmtF64
  | .f16 => fmtF16
  | .bf16 => fmtBF16
  | .e4m3 => fmtE4M3
  | .e5m2 => fmtE5M2
  | _ => fmtF32

/-- The value of an encoding (R152 to R154). -/
def fdec (F : FFmt) (n : Nat) : FVal :=
  let b := n % 2 ^ F.width
  let s := b / 2 ^ (F.width - 1) == 1
  let ew := F.width - 1 - F.fbits
  let ex := b / 2 ^ F.fbits % 2 ^ ew
  let fr := b % 2 ^ F.fbits
  if ex = 2 ^ ew - 1 ∧ F.hasInf = true then
    if fr = 0 then .inf s else .nan
  else if ex = 2 ^ ew - 1 ∧ F.hasInf = false ∧ fr = 2 ^ F.fbits - 1 then .nan
  else if ex = 0 then .fin s fr (1 - F.bias - F.fbits)
  else .fin s (2 ^ F.fbits + fr) (ex - F.bias - F.fbits)

/-- The sign bit of a format at its place. -/
def signBit (F : FFmt) (s : Bool) : Nat := if s then 2 ^ (F.width - 1) else 0

/-- The encoding of infinity; a format without one answers its NaN (R158). -/
def infBits (F : FFmt) (s : Bool) : Nat :=
  if F.hasInf then signBit F s + (2 ^ (F.width - 1 - F.fbits) - 1) * 2 ^ F.fbits else F.nanBits

/-- The encoding of the magnitude y * 2^q, for y below 2^(fbits+1) and q the spacing of the format there. -/
def finBits (F : FFmt) (s : Bool) (y : Nat) (q : Int) : Nat :=
  signBit F s +
    (if y < 2 ^ F.fbits then y
     else (q + F.bias + F.fbits).toNat * 2 ^ F.fbits + (y - 2 ^ F.fbits))

/-- The encoding of the largest finite value. -/
def maxBits (F : FFmt) (s : Bool) : Nat := finBits F s F.maxM F.maxQ

/-- The flags of FSTAT in their bit places (R161). -/
abbrev FFlags := BitVec 7

def flNV : FFlags := 0x01#7
def flDZ : FFlags := 0x02#7
def flOF : FFlags := 0x04#7
def flUF : FFlags := 0x08#7
def flNX : FFlags := 0x10#7
def flSO : FFlags := 0x20#7
def flFMT : FFlags := 0x40#7

/-- `f` if `b`, else no flag. -/
def flIf (b : Bool) (f : FFlags) : FFlags := if b then f else 0#7

/-- Whether the exact magnitude, lying above `half`-scaled remainder, rounds up in a mode (R157). `odd` is the low bit of
the truncated magnitude; `cmp` orders the discarded part against one half; `inexact` says it is not zero. -/
def roundsUp (rm : Rm) (s odd inexact : Bool) (cmp : Ordering) : Bool :=
  match rm with
  | .rne => match cmp with
    | .gt => true
    | .eq => odd
    | .lt => false
  | .rtz => false
  | .rup => inexact && !s
  | .rdn => inexact && s

/-- Magnitude m * 2^e, plus a part below one unit where `sticky`, rounded to a multiple of 2^q: the multiple and whether
the rounding was inexact. -/
def roundMag (rm : Rm) (s : Bool) (m : Nat) (e : Int) (sticky : Bool) (q : Int) : Nat × Bool :=
  if q ≤ e then (m * 2 ^ (e - q).toNat, sticky)
  else
    let sh := (q - e).toNat
    if Nat.log2 m + 1 < sh then
      let inex := m != 0 || sticky
      (if roundsUp rm s false inex .lt then 1 else 0, inex)
    else
      let y := m / 2 ^ sh
      let r := m % 2 ^ sh
      let half := 2 ^ (sh - 1)
      let inex := r != 0 || sticky
      let c : Ordering := if r < half then .lt else if half < r then .gt else if sticky then .gt else .eq
      (if roundsUp rm s (y % 2 == 1) inex c then y + 1 else y, inex)

/-- overflow of R158 with fsat of R160: the encoding and the flags. -/
def overflowBits (F : FFmt) (rm : Rm) (sat s : Bool) : Nat × FFlags :=
  let toMax := match rm with
    | .rne => false
    | .rtz => true
    | .rup => s
    | .rdn => !s
  if toMax then (maxBits F s, flOF ||| flNX)
  else if sat then (maxBits F s, flOF ||| flNX ||| flSO)
  else (infBits F s, flOF ||| flNX)

/-- round_F of R157 followed by fsat (R160), on a magnitude that may hold a sticky part; a zero result keeps the sign. -/
def roundFin (F : FFmt) (rm : Rm) (sat s : Bool) (m : Nat) (e : Int) (sticky : Bool) : Nat × FFlags :=
  if m = 0 ∧ sticky = false then (signBit F s, 0#7)
  else
    let top : Int := Nat.log2 m + e
    let emin : Int := 1 - F.bias
    let q : Int := (if top < emin then emin else top) - F.fbits
    let r := roundMag rm s m e sticky q
    let y := r.1
    let big : Bool := decide (F.maxQ < q) || (decide (q = F.maxQ) && decide (F.maxM < y))
    if big then overflowBits F rm sat s
    else
      let fl := flIf r.2 flNX ||| flIf (r.2 && decide (top < emin)) flUF
      if y < 2 ^ (F.fbits + 1) then (finBits F s y q, fl)
      else (finBits F s (y / 2) (q + 1), fl)

/-- round_F of an exact value, with fsat (R157, R158, R160). An infinite result saturates with SO alone. -/
def roundF (F : FFmt) (rm : Rm) (sat : Bool) : FVal → Nat × FFlags
  | .nan => (F.nanBits, 0#7)
  | .inf s => if sat then (maxBits F s, flSO) else (infBits F s, 0#7)
  | .fin s m e => roundFin F rm sat s m e false

/-- The encoding of an exact value that its format holds. -/
def fenc (F : FFmt) (v : FVal) : Nat := (roundF F .rne false v).1

def fneg : FVal → FVal
  | .nan => .nan
  | .inf s => .inf (!s)
  | .fin s m e => .fin (!s) m e

def fabs : FVal → FVal
  | .nan => .nan
  | .inf _ => .inf false
  | .fin _ m e => .fin false m e

def isNan : FVal → Bool
  | .nan => true
  | _ => false

def isZero : FVal → Bool
  | .fin _ 0 _ => true
  | _ => false

/-- The sign of a value that is not a NaN. -/
def fsign : FVal → Bool
  | .nan => false
  | .inf s => s
  | .fin s _ _ => s

/-- Exact product with the flag of 0 * inf (R163). -/
def fmulX : FVal → FVal → FVal × FFlags
  | .nan, _ => (.nan, 0#7)
  | .inf _, .nan => (.nan, 0#7)
  | .fin _ _ _, .nan => (.nan, 0#7)
  | .inf s, .inf t => (.inf (s != t), 0#7)
  | .inf s, .fin t m _ => if m = 0 then (.nan, flNV) else (.inf (s != t), 0#7)
  | .fin s m _, .inf t => if m = 0 then (.nan, flNV) else (.inf (s != t), 0#7)
  | .fin s m e, .fin t n f => (.fin (s != t) (m * n) (e + f), 0#7)

/-- A signed magnitude as an integer in units of 2^q, for q at most e. -/
def toUnits (s : Bool) (m : Nat) (e q : Int) : Int :=
  let v : Int := (m * 2 ^ (e - q).toNat : Nat)
  if s then -v else v

/-- An integer in units of 2^q as a value; a zero takes `z` as its sign. -/
def ofUnits (z : Bool) (v : Int) (q : Int) : FVal :=
  if v = 0 then .fin z 0 q else .fin (decide (v < 0)) v.natAbs q

/-- Whether a value is the infinity of sign `s`. -/
def isInf (s : Bool) : FVal → Bool
  | .inf t => s == t
  | _ => false

/-- The least exponent of the non-zero terms, from `d`. -/
def minExp : List FVal → Option Int → Option Int
  | [], d => d
  | .fin _ m e :: t, d =>
    if m = 0 then minExp t d
    else minExp t (some (match d with
      | none => e
      | some q => if q ≤ e then q else e))
  | _ :: t, d => minExp t d

/-- The sum of the finite terms in units of 2^q. -/
def sumUnits (q : Int) : List FVal → Int
  | [] => 0
  | .fin s m e :: t => (if m = 0 then 0 else toUnits s m e q) + sumUnits q t
  | _ :: t => sumUnits q t

/-- The exact sum of terms with the flags of R163. A zero sum takes its sign by R159; where every term is a zero and their
signs differ the spec states none, and the sign is a free value. -/
def ftotal (rm : Rm) (l : List FVal) : FVal × FFlags :=
  if l.any isNan then (.nan, 0#7)
  else if l.any (isInf false) then
    if l.any (isInf true) then (.nan, flNV) else (.inf false, 0#7)
  else if l.any (isInf true) then (.inf true, 0#7)
  else
    match minExp l none with
    | some q => (ofUnits (rm == .rdn) (sumUnits q l) q, 0#7)
    | none =>
      let sg := l.map fsign
      if sg.all (fun b => b) then (.fin true 0 0, 0#7)
      else if sg.all (fun b => !b) then (.fin false 0 0, 0#7)
      else (.fin (Config.mixedZeroSign rm sg) 0 0, 0#7)

/-- Exact sum of two values. -/
def faddX (rm : Rm) (x y : FVal) : FVal × FFlags := ftotal rm [x, y]

/-- x + y, rounded once. -/
def fadd (F : FFmt) (rm : Rm) (sat : Bool) (x y : FVal) : Nat × FFlags :=
  let a := faddX rm x y
  let r := roundF F rm sat a.1
  (r.1, a.2 ||| r.2)

/-- x * y, rounded once. -/
def fmul (F : FFmt) (rm : Rm) (sat : Bool) (x y : FVal) : Nat × FFlags :=
  let a := fmulX x y
  let r := roundF F rm sat a.1
  (r.1, a.2 ||| r.2)

/-- x * y + z, exact, rounded once (R174). -/
def ffma (F : FFmt) (rm : Rm) (sat : Bool) (x y z : FVal) : Nat × FFlags :=
  let p := fmulX x y
  let a := faddX rm p.1 z
  let r := roundF F rm sat a.1
  (r.1, p.2 ||| a.2 ||| r.2)

/-- The quotient of two magnitudes to 72 bits or more, with its sticky bit. -/
def quoMag (m : Nat) (e : Int) (n : Nat) (f : Int) : Nat × Int × Bool :=
  let k := 72 + Nat.log2 n
  let num := m * 2 ^ k
  (num / n, e - f - k, num % n != 0)

/-- x / y, correctly rounded (R163, R174). -/
def fdiv (F : FFmt) (rm : Rm) (sat : Bool) : FVal → FVal → Nat × FFlags
  | .nan, _ => (F.nanBits, 0#7)
  | .inf _, .nan => (F.nanBits, 0#7)
  | .fin _ _ _, .nan => (F.nanBits, 0#7)
  | .inf _, .inf _ => (F.nanBits, flNV)
  | .inf s, .fin t _ _ => roundF F rm sat (.inf (s != t))
  | .fin s _ _, .inf t => (signBit F (s != t), 0#7)
  | .fin s m e, .fin t n f =>
    if n = 0 then
      if m = 0 then (F.nanBits, flNV)
      else
        let r := roundF F rm sat (.inf (s != t))
        (r.1, r.2 ||| flDZ)
    else if m = 0 then (signBit F (s != t), 0#7)
    else
      let q := quoMag m e n f
      roundFin F rm sat (s != t) q.1 q.2.1 q.2.2

/-- The integer square root by bits, from bit `k` down: the largest r with r*r at most n whose bits above `k` are those
of `r`. -/
def isqrtBits : Nat → Nat → Nat → Nat
  | 0, _, r => r
  | k + 1, n, r =>
    let c := r + 2 ^ k
    isqrtBits k n (if c * c ≤ n then c else r)

/-- The integer square root. -/
def isqrt (n : Nat) : Nat := isqrtBits (Nat.log2 n / 2 + 1) n 0

/-- The square root, correctly rounded (R163, R174). -/
def fsqrt (F : FFmt) (rm : Rm) (sat : Bool) : FVal → Nat × FFlags
  | .nan => (F.nanBits, 0#7)
  | .inf s => if s then (F.nanBits, flNV) else roundF F rm sat (.inf false)
  | .fin s m e =>
    if m = 0 then (signBit F s, 0#7)
    else if s then (F.nanBits, flNV)
    else
      let k : Nat := if e % 2 = 0 then 144 else 145
      let n := m * 2 ^ k
      let r := isqrt n
      roundFin F rm sat false r ((e - k) / 2) (r * r != n)

/-- The order of two values that are not NaN, with -0 and +0 equal. -/
def fcmp : FVal → FVal → Ordering
  | .inf s, .inf t => if s = t then .eq else if s then .lt else .gt
  | .inf s, _ => if s then .lt else .gt
  | _, .inf t => if t then .gt else .lt
  | .fin s m e, .fin t n f =>
    let q := if e ≤ f then e else f
    compare (toUnits s m e q) (toUnits t n f q)
  | _, _ => .eq

/-- A condition between floating values; a NaN operand makes `ne` and `uo` true and every other false (R163). -/
def cndF (c : Cnd) (x y : FVal) : Bool :=
  if isNan x || isNan y then c == .ne || c == .uo
  else
    let o := fcmp x y
    match c with
    | .eq => o == .eq
    | .ne => o != .eq
    | .lt => o == .lt
    | .le => o != .gt
    | .gt => o == .gt
    | .ge => o != .lt
    | .uo => false
    | .ord => true

/-- min or max (R163): a single NaN gives way; -0 lies below +0. -/
def fminmax (mx : Bool) (x y : FVal) : FVal :=
  if isNan x then y
  else if isNan y then x
  else
    match fcmp x y with
    | .lt => if mx then y else x
    | .gt => if mx then x else y
    | .eq => if fsign x == mx then y else x

/-- rnd with q = 1 (R157): the integer nearest to a finite value in a mode, and whether it differs. -/
def rndInt (rm : Rm) (s : Bool) (m : Nat) (e : Int) : Int × Bool :=
  let r := roundMag rm s m e false 0
  (if s then -(r.1 : Int) else r.1, r.2)

/-- A floating value converted to an integer type (R170), as its low bits. -/
def fToInt (t : Ty) (rm : Rm) : FVal → Nat × FFlags
  | .nan => (0, flNV)
  | .inf s => (truncInt (tyWidth t) (if s then tyMin t else tyMax t), flNV)
  | .fin s m e =>
    let big : Bool := decide (200 < e) && m != 0
    if big then (truncInt (tyWidth t) (if s then tyMin t else tyMax t), flNV)
    else
      let r := rndInt rm s m e
      let c := satInt t r.1
      (truncInt (tyWidth t) c, flIf (c != r.1) flNV ||| flIf r.2 flNX)

/-- An exact integer as a value. -/
def fOfInt (v : Int) : FVal := .fin (decide (v < 0)) v.natAbs 0

/-- x * 2^k, exact. -/
def fscale (k : Int) : FVal → FVal
  | .nan => .nan
  | .inf s => .inf s
  | .fin s m e => .fin s m (e + k)

end Sys2Proof.Machine
end

