-- ==== Sys2Proof/Machine/Lanes.lean ====
section
/-! DEFINITION. What the vector instructions compute, as functions of registers and masks (R195 to R222). -/

namespace Sys2Proof.Machine

/-- Runs `op` on every enabled element; an element that is not computed keeps `old` and raises nothing (R197, R198). -/
def lanesRun (w : Nat) (en : Nat → Bool) (old : Vec) (op : Nat → Nat × FFlags) : Vec × FFlags :=
  let rs := (List.range (1024 / w)).map (fun i => if en i then op i else (elem w old i, 0#7))
  (ofElems w (rs.map (fun r => r.1)), rs.foldl (fun a r => a ||| r.2) 0#7)

/-- The elements that MK and K enable (R196, R197). -/
def laneEn (msk : Bool) (km : BitVec 32) (w i : Nat) : Bool := !msk || km.getLsbD (laneOf w i)

/-- The low bits of an integer result by SAT (R156). -/
def fitE (t : Ty) (sat : Bool) (v : Int) : Nat × FFlags :=
  if sat then
    let c := satInt t v
    (truncInt (tyWidth t) c, flIf (c != v) flSO)
  else (truncInt (tyWidth t) v, 0#7)

/-- One element of the signed 8-bit immediate read by an element type (R201, R202). -/
def immElem (t : Ty) (s3 : BitVec 8) : Nat :=
  if tyIsFloat t then fenc (tyFmt t) (fOfInt s3.toInt) else truncInt (tyWidth t) s3.toInt

/-- The immediate in every element. -/
def immVec (t : Ty) (s3 : BitVec 8) : Vec :=
  ofElems (tyWidth t) (List.replicate (1024 / tyWidth t) (immElem t s3))

/-- The immediate as an integer in every element, with no conversion (R202, `vscl`). -/
def immIntVec (w : Nat) (s3 : BitVec 8) : Vec :=
  ofElems w (List.replicate (1024 / w) (truncInt w s3.toInt))

def addE (t : Ty) (rm : Rm) (sat : Bool) (x y : Nat) : Nat × FFlags :=
  if tyIsFloat t then fadd (tyFmt t) rm sat (fdec (tyFmt t) x) (fdec (tyFmt t) y)
  else fitE t sat (tyVal t x + tyVal t y)

def subE (t : Ty) (rm : Rm) (sat : Bool) (x y : Nat) : Nat × FFlags :=
  if tyIsFloat t then fadd (tyFmt t) rm sat (fdec (tyFmt t) x) (fneg (fdec (tyFmt t) y))
  else fitE t sat (tyVal t x - tyVal t y)

def mulE (t : Ty) (rm : Rm) (sat : Bool) (x y : Nat) : Nat × FFlags :=
  if tyIsFloat t then fmul (tyFmt t) rm sat (fdec (tyFmt t) x) (fdec (tyFmt t) y)
  else fitE t sat (tyVal t x * tyVal t y)

/-- The fused forms of R202: `np` negates the product, `nz` the addend. -/
def fmaE (t : Ty) (rm : Rm) (sat np nz : Bool) (x y z : Nat) : Nat × FFlags :=
  let F := tyFmt t
  let a := fdec F x
  ffma F rm sat (if np then fneg a else a) (fdec F y) (if nz then fneg (fdec F z) else fdec F z)

def rcpE (t : Ty) (rm : Rm) (sat : Bool) (x : Nat) : Nat × FFlags :=
  fdiv (tyFmt t) rm sat (.fin false 1 0) (fdec (tyFmt t) x)

def sqrtE (t : Ty) (rm : Rm) (sat : Bool) (x : Nat) : Nat × FFlags := fsqrt (tyFmt t) rm sat (fdec (tyFmt t) x)

def divE (t : Ty) (rm : Rm) (sat : Bool) (x y : Nat) : Nat × FFlags :=
  fdiv (tyFmt t) rm sat (fdec (tyFmt t) x) (fdec (tyFmt t) y)

/-- `vscl`: the exponent is the low 32 bits of y, or its 16 bits for the 16-bit formats (R202). -/
def sclE (t : Ty) (rm : Rm) (sat : Bool) (x y : Nat) : Nat × FFlags :=
  let e := if tyWidth t = 16 then sval 16 y else sval 32 y
  roundF (tyFmt t) rm sat (fscale e (fdec (tyFmt t) x))

/-- `vrnd` (R202): the rounded value keeps the operand's sign when it is zero (R157). -/
def rndE (t : Ty) (rm : Rm) (x : Nat) : Nat × FFlags :=
  match fdec (tyFmt t) x with
  | .nan => ((tyFmt t).nanBits, 0#7)
  | .inf s => (infBits (tyFmt t) s, 0#7)
  | .fin s m e =>
    let r := roundMag rm s m e false 0
    (fenc (tyFmt t) (.fin s r.1 0), flIf r.2 flNX)

def minmaxE (mx : Bool) (t : Ty) (x y : Nat) : Nat :=
  if tyIsFloat t then fenc (tyFmt t) (fminmax mx (fdec (tyFmt t) x) (fdec (tyFmt t) y))
  else
    let a := tyVal t x
    let b := tyVal t y
    truncInt (tyWidth t) (if mx then (if a < b then b else a) else (if b < a then b else a))

/-- `vabs`, `vneg` and `vsgn` (R204): exact, and in a floating format an infinite result saturates (R160). -/
def absE (t : Ty) (sat : Bool) (x : Nat) : Nat × FFlags :=
  if tyIsFloat t then roundF (tyFmt t) .rne sat (fabs (fdec (tyFmt t) x)) else fitE t sat (tyVal t x).natAbs

def negE (t : Ty) (sat : Bool) (x : Nat) : Nat × FFlags :=
  if tyIsFloat t then roundF (tyFmt t) .rne sat (fneg (fdec (tyFmt t) x)) else fitE t sat (-(tyVal t x))

def sgnE (t : Ty) (sat : Bool) (x y : Nat) : Nat × FFlags :=
  if tyIsFloat t then
    let a := fabs (fdec (tyFmt t) x)
    roundF (tyFmt t) .rne sat (if fsign (fdec (tyFmt t) y) then fneg a else a)
  else fitE t sat (if tyVal t y < 0 then -(tyVal t x) else tyVal t x)

/-- `vclass` (R204). -/
def classE (t : Ty) (x : Nat) : Nat :=
  let F := tyFmt t
  match fdec F x with
  | .nan => 2 ^ 9
  | .inf s => if s then 1 else 2 ^ 7
  | .fin s m e =>
    if m = 0 then (if s then 2 ^ 3 else 2 ^ 4)
    else if (Nat.log2 m : Int) + e < 1 - F.bias then (if s then 2 ^ 2 else 2 ^ 5)
    else (if s then 2 else 2 ^ 6)

/-- A compare of two elements by their type (R206). -/
def cmpE (t : Ty) (c : Cnd) (x y : Nat) : Bool :=
  if tyIsFloat t then cndF c (fdec (tyFmt t) x) (fdec (tyFmt t) y) else cndInt c (tyVal t x) (tyVal t y)

/-- A lane mask from its bits, bit 0 first. -/
def maskOf (l : List Bool) : BitVec 32 := BitVec.ofNat 32 (packNat 1 (l.map (fun b => if b then 1 else 0)))

/-- `vcmp` (R206): a 64-bit element gives both bits of its lanes, and one that its mask bit leaves out gives 0 (R196, R197). -/
def vcmpMask (t : Ty) (c : Cnd) (msk : Bool) (km : BitVec 32) (x y : Vec) : BitVec 32 :=
  let w := tyWidth t
  maskOf ((List.range 32).map (fun j =>
    let i := j * 32 / w
    laneEn msk km w i && cmpE t c (elem w x i) (elem w y i)))

/-- A register whose element i is element `ix i` of `x` (R209). -/
def permute (w : Nat) (x : Vec) (ix : Nat → Nat) : Vec :=
  ofElems w ((List.range (1024 / w)).map (fun i => elem w x (ix i)))

/-- A register whose element i is element `ix i` of x where `fst i`, else of y (R209). -/
def permute2 (w : Nat) (x y : Vec) (fst : Nat → Bool) (ix : Nat → Nat) : Vec :=
  ofElems w ((List.range (1024 / w)).map (fun i => elem w (if fst i then x else y) (ix i)))

/-- The order of `vsort2`: NaN above +inf and -0 below +0 (R209). -/
def sortLess (t : Ty) (x y : Nat) : Bool :=
  if tyIsFloat t then
    let a := fdec (tyFmt t) x
    let b := fdec (tyFmt t) y
    if isNan a then false
    else if isNan b then true
    else fcmp a b == .lt || (fcmp a b == .eq && fsign a && !fsign b)
  else decide (tyVal t x < tyVal t y)

/-- An element rewritten with its NaN canonical. -/
def canonE (t : Ty) (x : Nat) : Nat := if tyIsFloat t then fenc (tyFmt t) (fdec (tyFmt t) x) else x

/-- Element i of `vsort2` with partner distance 2^b, larger first when `rev` (R209). -/
def sortE (t : Ty) (b : Nat) (rev : Bool) (x : Vec) (i : Nat) : Nat :=
  let w := tyWidth t
  let j := i ^^^ 2 ^ b
  let lower := !i.testBit b
  let a := elem w x (if lower then i else j)
  let c := elem w x (if lower then j else i)
  let swap := sortLess t c a
  let lo := if swap then c else a
  let hi := if swap then a else c
  canonE t (if lower != rev then lo else hi)

/-- The exact product of two values, negated where `ng`. -/
def prodX (ng : Bool) (x y : FVal) : FVal × FFlags :=
  let p := fmulX x y
  (if ng then fneg p.1 else p.1, p.2)

/-- The exact sum of terms that carry flags, rounded once. -/
def sumRound (F : FFmt) (rm : Rm) (sat : Bool) (l : List (FVal × FFlags)) : Nat × FFlags :=
  let s := ftotal rm (l.map (fun p => p.1))
  let r := roundF F rm sat s.1
  (r.1, l.foldl (fun a p => a ||| p.2) (s.2 ||| r.2))

/-- One real element of `vcmul` (R212); `i` counts real elements. -/
def cmulE (t : Ty) (rm : Rm) (sat conj : Bool) (x y : Vec) (i : Nat) : Nat × FFlags :=
  let F := tyFmt t
  let w := tyWidth t
  let c := i / 2
  let are := fdec F (elem w x (2 * c))
  let aim := fdec F (elem w x (2 * c + 1))
  let bre := fdec F (elem w y (2 * c))
  let bim0 := fdec F (elem w y (2 * c + 1))
  let bim := if conj then fneg bim0 else bim0
  if i % 2 = 0 then sumRound F rm sat [prodX false are bre, prodX true aim bim]
  else sumRound F rm sat [prodX false are bim, prodX false aim bre]

/-- One real element of `vbfly` (R213) with partner distance 2^b. -/
def bflyE (t : Ty) (rm : Rm) (sat conj : Bool) (b : Nat) (x y : Vec) (i : Nat) : Nat × FFlags :=
  let F := tyFmt t
  let w := tyWidth t
  let c := i / 2
  let up := c.testBit b
  let lo := if up then c - 2 ^ b else c
  let hi := lo + 2 ^ b
  let at' (v : Vec) (k : Nat) := fdec F (elem w v k)
  let bre := at' x (2 * hi)
  let bim := at' x (2 * hi + 1)
  let wre := at' y (2 * lo)
  let wim0 := at' y (2 * lo + 1)
  let wim := if conj then fneg wim0 else wim0
  if i % 2 = 0 then sumRound F rm sat [(at' x (2 * lo), 0#7), prodX up wre bre, prodX (!up) wim bim]
  else sumRound F rm sat [(at' x (2 * lo + 1), 0#7), prodX up wre bim, prodX up wim bre]

/-- The complex immediate (S3, +0) in every complex (R212, R213). -/
def immComplex (t : Ty) (s3 : BitVec 8) : Vec :=
  ofElems (tyWidth t) ((List.range (1024 / tyWidth t)).map (fun i => if i % 2 = 0 then immElem t s3 else 0))

/-- One level of the pairwise tree (R175). -/
def treeLevel {α : Type} (op : α → α → α) : List α → List α
  | a :: b :: t => op a b :: treeLevel op t
  | l => l

/-- The pairwise tree over `k` levels (R175). -/
def tree {α : Type} (op : α → α → α) : Nat → List α → List α
  | 0, l => l
  | k + 1, l => tree op k (treeLevel op l)

/-- The first element of a tree's result. -/
def treeTop {α : Type} (d : α) (op : α → α → α) (l : List α) : α := (tree op 10 l).headD d

/-- `vred` (R214): the reduced element and its flags. -/
def vredE (t : Ty) (rm : Rm) (sat : Bool) (sub : Nat) (en : Nat → Bool) (x : Vec) : Nat × FFlags :=
  let w := tyWidth t
  let F := tyFmt t
  let ix := List.range (1024 / w)
  if sub = 0 then
    if tyIsFloat t then
      treeTop (0, 0#7) (fun a b =>
          let r := fadd F rm sat (fdec F a.1) (fdec F b.1)
          (r.1, a.2 ||| b.2 ||| r.2))
        (ix.map (fun i => (if en i then elem w x i else signBit F true, 0#7)))
    else fitE t sat ((ix.map (fun i => if en i then tyVal t (elem w x i) else 0)).foldl (fun a b => a + b) 0)
  else
    let mx := sub == 2
    let r := treeTop none (fun (a b : Option Nat) =>
        match a, b with
        | none, b => b
        | a, none => a
        | some p, some q => some (minmaxE mx t p q))
      (ix.map (fun i => if en i then some (elem w x i) else none))
    match r with
    | some v => if tyIsFloat t then roundF F .rne sat (fdec F v) else (v, 0#7)
    | none => (if tyIsFloat t then F.nanBits else truncInt w (if mx then tyMin t else tyMax t), 0#7)

/-- `vmaxi` and `vmini` (R215): the index of the best competing element among `l`, scanned upward. -/
def bestIdx (mx : Bool) (t : Ty) (en : Nat → Bool) (x : Vec) : List Nat → Option Nat → Option Nat
  | [], b => b
  | i :: l, b =>
    let v := elem (tyWidth t) x i
    let plays := en i && !(tyIsFloat t && isNan (fdec (tyFmt t) v))
    let b' := if plays then
        match b with
        | none => some i
        | some j =>
          let u := elem (tyWidth t) x j
          if cmpE t (if mx then .gt else .lt) v u then some i else some j
      else b
    bestIdx mx t en x l b'

def vbestE (mx : Bool) (t : Ty) (en : Nat → Bool) (x : Vec) : Nat :=
  let n := 1024 / tyWidth t
  (bestIdx mx t en x (List.range n) none).getD n

/-- The accumulator type of `vdot` (R216). -/
def dotAcc (t : Ty) : Ty :=
  if tyIsFloat t then .f32 else if tySigned t then .i32 else .n32

/-- Lane j of `vdot` (R216). -/
def dotE (t : Ty) (rm : Rm) (sat : Bool) (x y z : Vec) (j : Nat) : Nat × FFlags :=
  let w := tyWidth t
  let q := 32 / w
  let zj := elem 32 z j
  if tyIsFloat t then
    let F := tyFmt t
    sumRound fmtF32 rm sat ((fdec fmtF32 zj, 0#7) ::
      (List.range q).map (fun e => prodX false (fdec F (elem w x (q * j + e))) (fdec F (elem w y (q * j + e)))))
  else
    fitE (dotAcc t) sat ((List.range q).foldl
      (fun a e => a + tyVal t (elem w x (q * j + e)) * tyVal t (elem w y (q * j + e))) (tyVal (dotAcc t) zj))

/-- Whether a type code is a floating format of R152. -/
def tyIsFmt (t : Ty) : Bool := tyIsFloat t || t == .e4m3 || t == .e5m2

/-- One element converted (R169 to R172). -/
def cvtE (td ts : Ty) (rm : Rm) (sat : Bool) (x : Nat) : Nat × FFlags :=
  if tyIsFmt ts then
    if tyIsFmt td then roundF (tyFmt td) rm sat (fdec (tyFmt ts) x)
    else fToInt td rm (fdec (tyFmt ts) x)
  else if tyIsFmt td then roundF (tyFmt td) rm sat (fOfInt (tyVal ts x))
  else fitE td sat (tyVal ts x)

/-- `vcvt` (R217). -/
def vcvtV (td ts : Ty) (rm : Rm) (sat : Bool) (part : Nat) (x y : Vec) : Vec × FFlags :=
  let ws := tyWidth ts
  let wd := tyWidth td
  let ns := 1024 / ws
  let nd := 1024 / wd
  lanesRun wd (fun _ => true) 0#1024 (fun i =>
    if wd < ws then
      if i < ns then cvtE td ts rm sat (elem ws x i)
      else if i < 2 * ns then cvtE td ts rm sat (elem ws y (i - ns))
      else (0, 0#7)
    else if ws < wd then cvtE td ts rm sat (elem ws x (part * nd + i))
    else cvtE td ts rm sat (elem ws x i))

/-- The scale entry that GR selects for element j (R167). -/
def scaleEntry (gr : Nat) (row j : Nat) (s : Vec) : Nat :=
  elem 16 s (match gr with
    | 0 => 0
    | 1 => row
    | 2 => j / 32
    | _ => j / 16)

/-- EXP of a scale entry (R164). -/
def scaleExp (en : Nat) : Nat := en / 256 % 256

/-- An N4X element read with its scale entry (R164 to R166); `nb` is the code of its neighbour. -/
def n4xRead (en code nb : Nat) : FVal × FFlags :=
  let k : Int := (scaleExp en : Int) - 127
  if scaleExp en = 255 then (.nan, flFMT)
  else if code = 8 then
    if nb = 8 then (.fin false 0 0, flFMT)
    else
      match fdec fmtE4M3 (en / 16 % 16 * 16 + nb) with
      | .nan => (.nan, flFMT)
      | v => (fscale k v, 0#7)
  else if nb = 8 then (.fin false 0 0, 0#7)
  else (fscale k (fOfInt (sval 4 code)), 0#7)

/-- An FP8 element read with its scale entry (R166, R173). -/
def fp8Read (t : Ty) (en code : Nat) : FVal × FFlags :=
  if scaleExp en = 255 then (.nan, flFMT)
  else (fscale ((scaleExp en : Int) - 127) (fdec (tyFmt t) code), 0#7)

/-- quantise_n4x (R173). -/
def quantN4x (rm : Rm) (en : Nat) (x : FVal) : Nat × FFlags :=
  if scaleExp en = 255 then (0, flNV ||| flFMT)
  else
    match fscale (127 - (scaleExp en : Int)) x with
    | .nan => (0, flNV)
    | .inf s => (truncInt 4 (if s then -7 else 7), flSO)
    | .fin s m e =>
      let r := roundMag rm s m e false 0
      let c := if 7 < r.1 then 7 else r.1
      (truncInt 4 (if s then -(c : Int) else c), flIf (7 < r.1) flSO ||| flIf (r.2 || decide (7 < r.1)) flNX)

/-- quantise_fp8 (R173), with fsat. -/
def quantFp8 (t : Ty) (rm : Rm) (sat : Bool) (en : Nat) (x : FVal) : Nat × FFlags :=
  if scaleExp en = 255 then ((tyFmt t).nanBits, flFMT)
  else roundF (tyFmt t) rm sat (fscale (127 - (scaleExp en : Int)) x)

/-- `vqnt` (R218). -/
def vqntV (td ts : Ty) (rm : Rm) (sat : Bool) (gr part row : Nat) (old x sc : Vec) : Vec × FFlags :=
  let ws := tyWidth ts
  let ns := 1024 / ws
  lanesRun (tyWidth td) (fun j => decide (part * ns ≤ j) && decide (j < part * ns + ns)) old (fun j =>
    let v := fdec (tyFmt ts) (elem ws x (j - part * ns))
    let en := scaleEntry gr row j sc
    if td == .n4x then quantN4x rm en v else quantFp8 td rm sat en v)

/-- `vdqnt` (R219). -/
def vdqntV (td ts : Ty) (rm : Rm) (sat : Bool) (gr part row : Nat) (x sc : Vec) : Vec × FFlags :=
  let wd := tyWidth td
  let ws := tyWidth ts
  let nd := 1024 / wd
  lanesRun wd (fun _ => true) 0#1024 (fun i =>
    let j := part * nd + i
    let en := scaleEntry gr row j sc
    let v := if ts == .n4x then n4xRead en (elem ws x j) (elem ws x (j ^^^ 1)) else fp8Read ts en (elem ws x j)
    let r := roundF (tyFmt td) rm sat v.1
    (r.1, v.2 ||| r.2))

/-- `vamax` (R220). -/
def vamaxV (ts : Ty) (gr : Nat) (x y : Vec) : Vec :=
  let w := tyWidth ts
  let n := 1024 / w
  let F := tyFmt ts
  let k := if gr = 2 then 32 else if gr = 3 then 16 else n
  ofElems w ((List.range (n / k)).map (fun b =>
    let l := fdec F (elem w y b) :: (List.range k).map (fun e => fdec F (elem w x (k * b + e)))
    if l.any isNan then F.nanBits
    else fenc F (l.foldl (fun a v => fminmax true a (fabs v)) (.fin false 0 0))))

/-- `vpack4` (R221). -/
def vpack4V (sat : Bool) (x y : Vec) : Vec × FFlags :=
  lanesRun 4 (fun _ => true) 0#1024 (fun i =>
    let v := sval 8 (if i < 128 then elem 8 x i else elem 8 y (i - 128))
    let c := if v < -7 then -7 else if 7 < v then 7 else v
    if sat then (truncInt 4 c, flIf (c != v) flSO) else (truncInt 4 v, 0#7))

/-- `vunpk4` (R221). -/
def vunpk4V (part : Nat) (x : Vec) : Vec :=
  ofElems 8 ((List.range 128).map (fun i => truncInt 8 (sval 4 (elem 4 x (part * 128 + i)))))

/-- One element of `vcnt` (R222): count, scale, K, N and whether the third operand is malformed. A zero 2C - KN of terms that are not
zero takes its sign by R159, one of two zeros the free value of log entry 5. -/
def cntE (F : FFmt) (rm : Rm) (sat bipolar bad : Bool) (c k n s : Nat) : Nat × FFlags :=
  let sv := fdec F s
  if isNan sv then (F.nanBits, 0#7)
  else if n = 0 ∨ (bipolar = true ∧ 256 < k) ∨ bad = true then (F.nanBits, flNV)
  else
    let q : Int := if bipolar then 2 * (c : Int) - k * n else c
    match sv with
    | .nan => (F.nanBits, 0#7)
    | .inf sg => if q = 0 then (F.nanBits, flNV) else roundF F rm sat (.inf (sg != decide (q < 0)))
    | .fin sg m e =>
      let zero := bipolar && (if c = 0 ∧ k = 0 then Config.mixedZeroSign rm [false, true] else rm == .rdn)
      let sgn := sg != (if q = 0 then zero else decide (q < 0))
      if m = 0 ∨ q = 0 then (signBit F sgn, 0#7)
      else
        let d := quoMag (m * q.natAbs) e n 0
        roundFin F rm sat sgn d.1 d.2.1 d.2.2

/-- `vcnt` (R222). -/
def vcntV (t : Ty) (bipolar : Bool) (rm : Rm) (sat : Bool) (x y z : Vec) : Vec × FFlags :=
  let w := tyWidth t
  let kb := if w = 64 then 27 else 17
  lanesRun w (fun _ => true) 0#1024 (fun j =>
    let zj := elem w z j
    cntE (tyFmt t) rm sat bipolar (decide (2 ^ (kb + 9) ≤ zj)) (elem w x j) (zj / 2 ^ kb % 512) (zj % 2 ^ kb) (elem w y j))

end Sys2Proof.Machine
end

