-- ==== Sys2Proof/Machine/Entries.lean ====
section
/-! DEFINITION. The entry checks of R123 step 3: for every instruction the fields its entry, its format and R114 to R120
admit. -/

namespace Sys2Proof.Machine

/-- An 8-bit operand field by level (R115); a reserved one is `none`. -/
def opdOfBits (b : BitVec 8) : Option Opd :=
  if b.extractLsb' 6 2 = 0#2 then some (.main (b.extractLsb' 0 6))
  else if b.extractLsb' 6 2 = 1#2 then
    if b.extractLsb' 3 3 = 0#3 then some (.opf (b.extractLsb' 0 3)) else none
  else if b = 0x80#8 then some .latch
  else if b = 0xC0#8 then some .zero
  else if b = 0xC1#8 then some .imm
  else none

/-- The 8-bit field of an operand (R115). -/
def opdToBits : Opd → BitVec 8
  | .main i => 0#2 ++ i
  | .opf i => 1#2 ++ (0#3 ++ i)
  | .latch => 0x80#8
  | .zero => 0xC0#8
  | .imm => 0xC1#8

/-- The main-file range of a slot (R116); the M slot's x and m registers together. -/
def mainRange : Slot → Nat
  | .A | .V => 64
  | .M => 48
  | _ => 16

/-- R114: an unguarded syllable has N and GP zero. -/
def guardOk (g : Guard) : Bool := g.on || (!g.neg && g.gp == 0#6)

/-- A field the instruction does not use (R115). -/
def unused (o : Opd) : Bool := o == .main 0#6

/-- A destination of a slot: level 00 or 01, or 0xC0 (R115, R116). -/
def dstOk (sl : Slot) : Opd → Bool
  | .main i => decide (i.toNat < mainRange sl)
  | .opf _ => true
  | .zero => true
  | _ => false

/-- A source of a slot; `im` says whether 0xC1 is admitted (R115, R116). -/
def srcOk (sl : Slot) (im : Bool) : Opd → Bool
  | .main i => decide (i.toNat < mainRange sl)
  | .imm => im
  | _ => true

/-- A field that names a guard-file entry (R115). -/
def predOk : Opd → Bool
  | .main _ => true
  | _ => false

/-- A field that names a lane mask (R115). -/
def maskOk : Opd → Bool
  | .main i => decide (i.toNat < 16)
  | _ => false

/-- S3 is an immediate under 0xC1 and otherwise zero. -/
def imS3 (a b : Opd) (s3 : BitVec 8) : Bool := a == .imm || b == .imm || s3 == 0#8

/-- S3 as a third source of a slot. -/
def s3Src (sl : Slot) (s3 : BitVec 8) : Bool :=
  match opdOfBits s3 with
  | some o => srcOk sl false o
  | none => false

/-! The shapes of the C slot. -/

/-- Format N outside `nop`: guarded or not. -/
def nOk (f : FmtN) : Bool := guardOk f.gd

/-- Format C-B with no link and no level. -/
def cbOk (f : FmtCB) : Bool := guardOk f.gd && unused f.d && f.lvl == 0#3

/-- Format C-B with a level. -/
def cbLoopOk (f : FmtCB) : Bool := guardOk f.gd && unused f.d

/-- Format C-B with a link register. -/
def cbCallOk (f : FmtCB) : Bool := guardOk f.gd && dstOk .C f.d && f.lvl == 0#3

/-- TY, CND and LVL of format C-R all zero. -/
def crPlain (f : FmtCR) : Bool := f.ty == .dflt && f.cnd == .eq && f.lvl == 0#3

/-- `brx`, `ret` (R179). -/
def crTgtOk (f : FmtCR) : Bool :=
  guardOk f.gd && unused f.d && srcOk .C false f.s1 && unused f.s2 && f.s3 == 0#8 && crPlain f

/-- `callx` (R179). -/
def crCallOk (f : FmtCR) : Bool :=
  guardOk f.gd && dstOk .C f.d && srcOk .C false f.s1 && unused f.s2 && f.s3 == 0#8 && crPlain f

/-- `loop` (R179): an immediate count is 0 to 127. -/
def crLoopOk (f : FmtCR) : Bool :=
  guardOk f.gd && unused f.d && srcOk .C true f.s1 && unused f.s2 &&
    (if f.s1 == .imm then !f.s3.msb else f.s3 == 0#8) && f.ty == .dflt && f.cnd == .eq

/-- `tstamp`, `rdcyc` (R183). -/
def crTimeOk (f : FmtCR) : Bool :=
  guardOk f.gd && dstOk .C f.d && unused f.s1 && unused f.s2 && f.s3 == 0#8 && crPlain f

/-- One source (R184). -/
def crOneOk (f : FmtCR) : Bool :=
  guardOk f.gd && dstOk .C f.d && srcOk .C true f.s1 && unused f.s2 && imS3 f.s1 f.s2 f.s3 && crPlain f

/-- Two sources (R184). -/
def crTwoOk (f : FmtCR) : Bool :=
  guardOk f.gd && dstOk .C f.d && srcOk .C true f.s1 && srcOk .C true f.s2 && imS3 f.s1 f.s2 f.s3 && crPlain f

/-- The conditions of an integer compare. -/
def cndIsInt (c : Cnd) : Bool := c != .uo && c != .ord

/-- `ccmp` (R184). -/
def crCmpOk (f : FmtCR) : Bool :=
  guardOk f.gd && predOk f.d && srcOk .C true f.s1 && srcOk .C true f.s2 && imS3 f.s1 f.s2 f.s3 &&
    (f.ty == .dflt || f.ty == .i64 || f.ty == .n64) && cndIsInt f.cnd && f.lvl == 0#3

/-- `setld` (R186). -/
def crSetldOk (f : FmtCR) : Bool :=
  guardOk f.gd && unused f.d && srcOk .C true f.s1 && srcOk .C true f.s2 && imS3 f.s1 f.s2 f.s3 && crPlain f

/-- `cli` (R184). -/
def ciOk (f : FmtCI) : Bool := guardOk f.gd && dstOk .C f.d && unused f.s1 && unused f.s2

/-- Two-source predicate forms (R185). -/
def cpTwoOk (f : FmtCP) : Bool := guardOk f.gd && predOk f.d && predOk f.s1 && predOk f.s2 && !f.val

/-- `pmov` (R185). -/
def cpMovOk (f : FmtCP) : Bool := guardOk f.gd && predOk f.d && predOk f.s1 && unused f.s2 && !f.ns2 && !f.val

/-- `pset` (R185). -/
def cpSetOk (f : FmtCP) : Bool := guardOk f.gd && predOk f.d && unused f.s1 && unused f.s2 && !f.ns1 && !f.ns2

/-- The system registers that a chapter assigns (R455). -/
def sregOk (r : BitVec 16) : Bool :=
  let n := r.toNat
  n == 0x20 || n == 0x21 || (0x30 ≤ n && n ≤ 0x35) || (0x38 ≤ n && n ≤ 0x3A) || (0x40 ≤ n && n ≤ 0x52)

/-- `sysr` (R455). -/
def csReadOk (f : FmtCS) : Bool := guardOk f.gd && dstOk .C f.d && unused f.s1 && unused f.s2 && sregOk f.sreg

/-- `sysw` (R455). -/
def csWriteOk (f : FmtCS) : Bool := guardOk f.gd && unused f.d && srcOk .C false f.s1 && unused f.s2 && sregOk f.sreg

/-! The shapes of the A slot. -/

/-- Class "Int" of R188. -/
def aInt (t : Ty) : Bool := t == .dflt || tyIsInt t

/-- Two sources. -/
def arTwoOk (tys : Ty → Bool) (f : FmtAR) : Bool :=
  guardOk f.gd && dstOk .A f.d && srcOk .A true f.s1 && srcOk .A true f.s2 && imS3 f.s1 f.s2 f.s3 && tys f.ty &&
    f.cnd == .eq

/-- One source. -/
def arOneOk (tys : Ty → Bool) (f : FmtAR) : Bool :=
  guardOk f.gd && dstOk .A f.d && srcOk .A true f.s1 && unused f.s2 && imS3 f.s1 f.s2 f.s3 && tys f.ty && f.cnd == .eq

/-- Three sources: no immediate (R178). -/
def arThreeOk (f : FmtAR) : Bool :=
  guardOk f.gd && dstOk .A f.d && srcOk .A false f.s1 && srcOk .A false f.s2 && s3Src .A f.s3 && aInt f.ty &&
    f.cnd == .eq

/-- S3 below `n` as a predicate name or a count; type none. -/
def arNumOk (n : Nat) (f : FmtAR) : Bool :=
  guardOk f.gd && dstOk .A f.d && srcOk .A false f.s1 && srcOk .A false f.s2 && decide (f.s3.toNat < n) &&
    f.ty == .dflt && f.cnd == .eq

/-- `cmp` and `tst` (R187, R188). -/
def arCmpOk (cnds : Cnd → Bool) (f : FmtAR) : Bool :=
  guardOk f.gd && predOk f.d && srcOk .A true f.s1 && srcOk .A true f.s2 && imS3 f.s1 f.s2 f.s3 && aInt f.ty &&
    cnds f.cnd

/-- The type class "None". -/
def tyNone (t : Ty) : Bool := t == .dflt

/-- `bswap`: no 8-bit type (R188). -/
def aSwap (t : Ty) : Bool := aInt t && t != .i8 && t != .n8

/-- `crc` (R188): 0x0 and 0x5 to 0x8. -/
def aCrc (t : Ty) : Bool := t == .dflt || t == .n8 || t == .n16 || t == .n32 || t == .n64

/-- `pack` (R188): 0x0 and 0x5 to 0x7. -/
def aPack (t : Ty) : Bool := t == .dflt || t == .n8 || t == .n16 || t == .n32

/-- `li` (R190). -/
def aiLiOk (f : FmtAI) : Bool := guardOk f.gd && dstOk .A f.d && unused f.s1 && unused f.s2

/-- `lih` in both forms (R190). -/
def aiLihOk (f : FmtAI) : Bool := guardOk f.gd && dstOk .A f.d && srcOk .A true f.s1 && unused f.s2

/-- The task constants (R192), with their admitted IMM24. -/
def aiConstOk (imm : Nat → Bool) (f : FmtAI) : Bool :=
  guardOk f.gd && dstOk .A f.d && unused f.s1 && unused f.s2 && imm f.imm.toNat

/-- The selectors of `crd` (R193). -/
def crdSel (n : Nat) : Bool := n ≤ 6 || (8 ≤ n && n ≤ 15)

/-- The offsets of `argb` (R192). -/
def argbOff (n : Nat) : Bool := n ≤ 4088 && n % 8 == 0

/-- `locq aD, aS` (R99). -/
def aiLocqOk (f : FmtAI) : Bool :=
  guardOk f.gd && dstOk .A f.d && f.d != .zero && srcOk .A false f.s1 && f.s1 != .zero && unused f.s2 && f.imm == 0#24

/-- `locq aD` (R99). -/
def aiLocqSelfOk (f : FmtAI) : Bool :=
  guardOk f.gd && dstOk .A f.d && f.d != .zero && unused f.s1 && unused f.s2 && f.imm == 0#24

/-- POS + WID at most 63 (R191). -/
def afField (f : FmtAF) : Bool := decide (f.pos.toNat + f.wid.toNat ≤ 63)

def afOneOk (f : FmtAF) : Bool := guardOk f.gd && dstOk .A f.d && srcOk .A false f.s1 && unused f.s2 && afField f

def afTwoOk (f : FmtAF) : Bool :=
  guardOk f.gd && dstOk .A f.d && srcOk .A false f.s1 && srcOk .A false f.s2 && afField f

/-! The shapes of the V slot. -/

/-- Class F (R195). -/
def vF (t : Ty) : Bool := t == .dflt || tyIsFloat t

/-- Class I (R195). -/
def vI (t : Ty) : Bool := t == .dflt || tyIsInt t

/-- Class FI (R195). -/
def vFI (t : Ty) : Bool := t == .dflt || tyIsFloat t || tyIsInt t

/-- Class W (R195). -/
def vW (t : Ty) : Bool := t != .n4x

/-- MK = 0 leaves K zero (R197). -/
def mkOk (f : FmtVR) : Bool := f.msk || f.k == 0#4

/-- What every V-R entry checks besides its operands: destination, type class, rounding, saturation and SUB. -/
def vrBase (tys : Ty → Bool) (rm sat sub : Bool) (f : FmtVR) : Bool :=
  guardOk f.gd && dstOk .V f.d && tys f.ty && (rm || f.rm == .rne) && (sat || !f.sat) && (sub || f.sub == 0#5)

def vrOne (f : FmtVR) : Bool := srcOk .V true f.s1 && unused f.s2 && imS3 f.s1 f.s2 f.s3

def vrTwo (f : FmtVR) : Bool := srcOk .V true f.s1 && srcOk .V true f.s2 && imS3 f.s1 f.s2 f.s3

def vrThree (f : FmtVR) : Bool := srcOk .V false f.s1 && srcOk .V false f.s2 && s3Src .V f.s3

/-- Rounding is for floating types only (R203). -/
def rmFloat (f : FmtVR) : Bool := !tyIsInt f.ty || f.rm == .rne

/-- The width of a V instruction whose default type is 32 bits wide. -/
def vWidth (t : Ty) : Nat := tyWidth (tyOr .n32 t)

/-- `vcmp` (R206). -/
def vcmpOk (f : FmtVR) : Bool :=
  guardOk f.gd && maskOk f.d && srcOk .V true f.s1 && srcOk .V true f.s2 &&
    (if f.s2 == .imm then true else f.s3 == 0#8) &&
    (f.ty == .dflt || f.ty == .f32 || f.ty == .f64 || f.ty == .i32 || f.ty == .i64 || f.ty == .n32 || f.ty == .n64) &&
    f.rm == .rne && !f.sat && mkOk f &&
    (f.sub.toNat < 6 || (f.sub.toNat < 8 && (f.ty == .dflt || tyIsFloat f.ty)))

/-- The types of `vred` (R214). -/
def tyRed (t : Ty) : Bool := t == .f32 || t == .f64 || t == .i32 || t == .n32

/-- The types of `vmaxi` and `vmini` (R215). -/
def tyBest (t : Ty) : Bool := vFI t && t != .f64

/-- The types of `vdot` (R216). -/
def tyDot (t : Ty) : Bool := t == .bf16 || t == .f16 || t == .i8 || t == .n8 || t == .i16 || t == .n16

/-- Format V-I (R210). -/
def viOk (tys : Ty → Bool) (f : FmtVI) : Bool :=
  guardOk f.gd && dstOk .V f.d && unused f.s1 && unused f.s2 && tys f.ty && (f.msk || f.k == 0#4)

/-- `vany`, `vall` (R208). -/
def vkTestOk (f : FmtVK) : Bool := guardOk f.gd && predOk f.d && maskOk f.s1 && unused f.s2

def vkTwoOk (f : FmtVK) : Bool := guardOk f.gd && maskOk f.d && maskOk f.s1 && maskOk f.s2

def vkMovOk (f : FmtVK) : Bool := guardOk f.gd && maskOk f.d && (maskOk f.s1 || f.s1 == .zero) && unused f.s2

def vkPopOk (f : FmtVK) : Bool := guardOk f.gd && dstOk .V f.d && maskOk f.s1 && unused f.s2

/-- PART of an S3 that holds PART and ROW (R201). -/
def s3Part (s3 : BitVec 8) : Nat := s3.toNat / 32

/-- ROW of an S3 that holds PART and ROW (R201). -/
def s3Row (s3 : BitVec 8) : Nat := s3.toNat % 32

/-- ROW is zero unless GR is per row (R218). -/
def rowOk (f : FmtVC) : Bool := f.gr == 1#2 || s3Row f.s3 == 0

/-- `vcvt` (R217). -/
def vcvtOk (f : FmtVC) : Bool :=
  guardOk f.gd && dstOk .V f.d && srcOk .V false f.s1 && f.ty != .dflt && f.ty != .n4x && f.ts != .dflt && f.ts != .n4x &&
    f.ty != f.ts && f.gr == 0#2 &&
    (if tyWidth f.ty < tyWidth f.ts then srcOk .V false f.s2 && f.s3 == 0#8
     else if tyWidth f.ts < tyWidth f.ty then unused f.s2 && decide (f.s3.toNat < tyWidth f.ty / tyWidth f.ts)
     else unused f.s2 && f.s3 == 0#8)

/-- `vqnt` (R218). -/
def vqntOk (f : FmtVC) : Bool :=
  guardOk f.gd && dstOk .V f.d && srcOk .V false f.s1 && srcOk .V false f.s2 &&
    (f.ty == .n4x || f.ty == .e4m3 || f.ty == .e5m2) && (f.ts == .f16 || f.ts == .bf16 || f.ts == .f32) &&
    decide (s3Part f.s3 < tyWidth f.ts / tyWidth f.ty) && rowOk f && (f.ty != .n4x || !f.sat)

/-- `vdqnt` (R219). -/
def vdqntOk (f : FmtVC) : Bool :=
  guardOk f.gd && dstOk .V f.d && srcOk .V false f.s1 && srcOk .V false f.s2 &&
    (f.ts == .n4x || f.ts == .e4m3 || f.ts == .e5m2) && tyIsFloat f.ty &&
    decide (s3Part f.s3 < tyWidth f.ty / tyWidth f.ts)

/-- `vamax` (R220). -/
def vamaxOk (f : FmtVC) : Bool :=
  guardOk f.gd && dstOk .V f.d && srcOk .V false f.s1 && srcOk .V false f.s2 && f.s3 == 0#8 && f.ty == .dflt &&
    (f.ts == .f16 || f.ts == .bf16 || f.ts == .f32) && f.rm == .rne && !f.sat

/-- `vcnt` (R222). -/
def vcntOk (f : FmtVC) : Bool :=
  guardOk f.gd && dstOk .V f.d && srcOk .V false f.s1 && srcOk .V false f.s2 && s3Src .V f.s3 &&
    (f.ty == .f32 || f.ty == .dflt || f.ty == .f64) && (f.ts == .n32 || f.ts == .i32) && f.gr == 0#2

/-- `vpack4` (R221). -/
def vpack4Ok (f : FmtVC) : Bool :=
  guardOk f.gd && dstOk .V f.d && srcOk .V false f.s1 && srcOk .V false f.s2 && f.s3 == 0#8 && f.ty == .n4x &&
    f.ts == .i8 && f.gr == 0#2 && f.rm == .rne

/-- `vunpk4` (R221). -/
def vunpk4Ok (f : FmtVC) : Bool :=
  guardOk f.gd && dstOk .V f.d && srcOk .V false f.s1 && unused f.s2 && s3Part f.s3 ≤ 1 && s3Row f.s3 == 0 &&
    f.ty == .i8 && f.ts == .n4x && f.gr == 0#2 && f.rm == .rne && !f.sat

/-- Format V-P with one source or two, and the CTL values admitted for n elements (R209). -/
def vpOk (two : Bool) (ctl : Nat → Nat → Bool) (f : FmtVP) : Bool :=
  guardOk f.gd && dstOk .V f.d && srcOk .V false f.s1 && (if two then srcOk .V false f.s2 else unused f.s2) &&
    f.s3 == 0#8 && vW f.ty && ctl (1024 / vWidth f.ty) f.ctl.toNat

def ctlZero (_ c : Nat) : Bool := c == 0
def ctlIdx (n c : Nat) : Bool := decide (c < n)
def ctlHalf (_ c : Nat) : Bool := c ≤ 1
def ctlLog (n c : Nat) : Bool := 1 ≤ c && decide (c ≤ Nat.log2 n)

/-! The shapes of the M slot. -/

/-- x registers. -/
def isX (o : Opd) : Bool :=
  match o with
  | .main i => decide (i.toNat < 32)
  | _ => false

/-- m registers. -/
def isM (o : Opd) : Bool :=
  match o with
  | .main i => decide (32 ≤ i.toNat) && decide (i.toNat < 48)
  | _ => false

def isOpf (o : Opd) : Bool :=
  match o with
  | .opf _ => true
  | _ => false

/-- A base or 64-bit source: x0 to x31, mo0 to mo7, `m.l` or 0xC0 (R250, R257). -/
def xSrc (o : Opd) : Bool := isX o || isOpf o || o == .latch || o == .zero

/-- A 1,024-bit source (R257). -/
def mSrc (o : Opd) : Bool := isM o || isOpf o || o == .latch || o == .zero

def xDst (o : Opd) : Bool := isX o || isOpf o || o == .zero
def mDst (o : Opd) : Bool := isM o || isOpf o || o == .zero

/-- TY of `ld`, `st`, `ldb` and the stepping forms: 0x0 to 0x8. -/
def auxTy (a : BitVec 4) : Bool := decide (a.toNat ≤ 8)

def mlLoadOk (dst : Opd → Bool) (aux : BitVec 4 → Bool) (f : FmtML) : Bool :=
  guardOk f.gd && dst f.d && xSrc f.s1 && unused f.s2 && aux f.aux && f.sc == .dflt

def mlStoreOk (src : Opd → Bool) (aux : BitVec 4 → Bool) (f : FmtML) : Bool :=
  guardOk f.gd && unused f.d && xSrc f.s1 && src f.s2 && aux f.aux && f.sc == .dflt

def auxZero (a : BitVec 4) : Bool := a == 0#4

/-- `ldpi` (R258). -/
def ldpiOk (f : FmtML) : Bool := mlLoadOk xDst auxTy f && isX f.s1 && f.d != f.s1

/-- `stpi` (R258). -/
def stpiOk (f : FmtML) : Bool := mlStoreOk xSrc auxTy f && isX f.s1

/-- Scopes of the full/empty forms (R261). -/
def feScope (s : Scope) : Bool := s != .sy

/-- `ldf`, `lde` (R261). -/
def feLoadOk (f : FmtML) : Bool :=
  guardOk f.gd && (if f.aux == 3#4 then isM f.d || isOpf f.d else isX f.d || isOpf f.d) && xSrc f.s1 && unused f.s2 &&
    decide (f.aux.toNat ≤ 3) && feScope f.sc

/-- `ste`, `stf` (R261). -/
def feStoreOk (f : FmtML) : Bool :=
  guardOk f.gd && unused f.d && xSrc f.s1 && (if f.aux == 3#4 then mSrc f.s2 else xSrc f.s2) &&
    decide (f.aux.toNat ≤ 3) && feScope f.sc

/-- `clre` (R261). -/
def feClrOk (f : FmtML) : Bool :=
  guardOk f.gd && unused f.d && xSrc f.s1 && unused f.s2 && decide (f.aux.toNat ≤ 3) && feScope f.sc

/-- `probe` (R268). -/
def probeOk (f : FmtML) : Bool :=
  guardOk f.gd && (isX f.d || isOpf f.d) && xSrc f.s1 && xSrc f.s2 && (f.aux == 1#4 || f.aux == 3#4 || f.aux == 7#4) &&
    f.sc == .dflt

/-- `pref` (R272). -/
def prefOk (f : FmtML) : Bool :=
  guardOk f.gd && unused f.d && xSrc f.s1 && unused f.s2 && f.aux == 0#4 && f.sc == .dflt

/-- `cbdef` (R274). -/
def cbdefOk (f : FmtML) : Bool := guardOk f.gd && unused f.d && xSrc f.s1 && xSrc f.s2 && f.sc == .dflt

/-- `cbget`, `cbqry` (R275). That OFF16 is zero too, in `cbput` as well, is the model's reading: R275 does not name it (DESIGN CHOICE,
log entry 85). -/
def cbReadOk (f : FmtML) : Bool :=
  guardOk f.gd && (isX f.d || isOpf f.d) && unused f.s1 && unused f.s2 && f.off == 0#16 && f.sc == .dflt

/-- `cbput` (R275). -/
def cbputOk (f : FmtML) : Bool :=
  guardOk f.gd && unused f.d && unused f.s1 && unused f.s2 && f.off == 0#16 && f.sc == .dflt

/-- `fence` (R266). -/
def fenceOk (f : FmtML) : Bool :=
  guardOk f.gd && unused f.d && unused f.s1 && unused f.s2 && f.off == 0#16 && f.aux == 0#4

/-- The mask of format M-G (R259). -/
def mgMask (s3 : BitVec 8) : Bool :=
  match opdOfBits s3 with
  | some o => mSrc o
  | none => false

/-- The data operand of format M-G: `st` for the stores, whose D is read (R259). -/
def mgData (st : Bool) (o : Opd) : Bool := if st then isM o || isOpf o || o == .latch else mDst o

def tyGth (t : Ty) : Bool := t == .dflt || t == .i32 || t == .i64 || t == .n32 || t == .n64

/-- `gth`, `sct` (R259). -/
def gthOk (st : Bool) (f : FmtMG) : Bool :=
  guardOk f.gd && mgData st f.d && xSrc f.s1 && (isM f.s2 || isOpf f.s2 || f.s2 == .latch) && mgMask f.s3 && tyGth f.ty

/-- `ldvs`, `stvs` (R259). -/
def mgStrideOk (st : Bool) (f : FmtMG) : Bool :=
  guardOk f.gd && mgData st f.d && xSrc f.s1 && (isX f.s2 || isOpf f.s2 || f.s2 == .latch) && mgMask f.s3 && vI f.ty &&
    f.lg == 0#2

/-- `ldvm`, `stvm` (R259). -/
def mgMaskedOk (st : Bool) (f : FmtMG) : Bool :=
  guardOk f.gd && mgData st f.d && xSrc f.s1 && unused f.s2 && mgMask f.s3 && vI f.ty && f.lg == 0#2

/-- The moves of R276. -/
def xliOk (f : FmtMI) : Bool := guardOk f.gd && xDst f.d && unused f.s1 && unused f.s2
def xaddOk (f : FmtMI) : Bool := guardOk f.gd && xDst f.d && xSrc f.s1 && unused f.s2
def xmovOk (f : FmtMI) : Bool := xaddOk f && f.imm == 0#24
def mmovOk (f : FmtMI) : Bool := guardOk f.gd && mDst f.d && mSrc f.s1 && unused f.s2 && f.imm == 0#24

/-! The shapes of the E slot. -/

def eReg (o : Opd) : Bool :=
  match o with
  | .main i => decide (i.toNat < 16)
  | .opf _ => true
  | _ => false

def eSrc (o : Opd) : Bool := eReg o || o == .latch
def eDst (o : Opd) : Bool := eReg o || o == .zero

/-- `cpy`, `cpy.mig`, `cpyx` (R279). -/
def cpyOk (f : FmtEC) : Bool :=
  guardOk f.gd && eDst f.d && eSrc f.s1 && unused f.s2 && f.s3 == 0#8 && !f.arr

/-- `cpymx` (R279). -/
def cpymxOk (f : FmtEC) : Bool :=
  guardOk f.gd && eDst f.d && eSrc f.s1 && (eSrc f.s2 || f.s2 == .zero) && decide (f.s3.toNat < 4)

/-- `cpyq` (R279). -/
def cpyqOk (f : FmtEC) : Bool := guardOk f.gd && eReg f.d && eSrc f.s1 && unused f.s2 && f.s3 == 0#8 && !f.arr

/-- Format E-I with no operand (R312). -/
def eiOk (imm : Nat → Bool) (f : FmtEI) : Bool :=
  guardOk f.gd && unused f.d && unused f.s1 && unused f.s2 && imm f.imm.toNat

/-- IMM24 of `mxfmt`, but for the declared pairs (R314). -/
def immFmt (n : Nat) : Bool := decide (n < 2 ^ 17)

/-- IMM24 of `mxlen` (R316). -/
def immLen (n : Nat) : Bool := 1 ≤ n && n ≤ 8192

def immZero (n : Nat) : Bool := n == 0

/-- IMM24 of `mxclr` (R327). -/
def immClr (n : Nat) : Bool := 1 ≤ n && n ≤ 255

/-- IMM24 of `mxsel` (R317). -/
def immSel (n : Nat) : Bool :=
  let w := n / 256
  let g := n % 256
  n < 2 ^ 17 && w != 1 && w ≤ 256 && g + w ≤ 256 && (w != 0 || g == 0)

/-- `phq` (R344). -/
def phqOk (f : FmtEI) : Bool := guardOk f.gd && eDst f.d && unused f.s1 && unused f.s2 && f.imm == 0#24

/-- Format E-M with a value source and SET below `n` (R312). -/
def emValOk (n : Nat) (f : FmtEM) : Bool :=
  guardOk f.gd && unused f.d && (eSrc f.s1 || f.s1 == .zero) && unused f.s2 && f.gr == 0#2 && f.s3 == 0#8 &&
    decide (f.set.toNat < n)

/-- The commits (R312). -/
def emGoOk (f : FmtEM) : Bool :=
  guardOk f.gd && unused f.d && unused f.s1 && unused f.s2 && f.set == 0#3 &&
    (match opdOfBits f.s3 with
      | some o => eSrc o || o == .zero
      | none => false)

/-- `mxrd` and `mxst` (R312). -/
def emRdOk (n : Nat) (f : FmtEM) : Bool :=
  guardOk f.gd && eDst f.d && unused f.s1 && unused f.s2 && f.gr == 0#2 && f.s3 == 0#8 && decide (f.set.toNat < n)

/-- `phase` (R339). -/
def phaseOk (f : FmtEP) : Bool := guardOk f.gd && unused f.d && (eSrc f.s1 || f.s1 == .zero) && unused f.s2

/-! The shapes of the Y slot. -/

def yReg (o : Opd) : Bool := eReg o
def ySrc (o : Opd) : Bool := eSrc o
def yDst (o : Opd) : Bool := eDst o

/-- `tklend` (R387). -/
def tklendOk (f : FmtYT) : Bool :=
  guardOk f.gd && unused f.d && ySrc f.s1 && ySrc f.s2 && f.s3 == 0#8 &&
    (if f.sc == .sy then f.shk == 2#2 else f.shk == 0#2)

/-- `tkshr` (R387). -/
def tkshrOk (f : FmtYT) : Bool :=
  guardOk f.gd && unused f.d && ySrc f.s1 && ySrc f.s2 && f.s3 == 0#8 && f.sc != .sy && decide (f.shk.toNat < 2)

/-- One region with a scope (R387). -/
def ytScopeOk (f : FmtYT) : Bool := guardOk f.gd && unused f.d && ySrc f.s1 && unused f.s2 && f.s3 == 0#8 && f.shk == 0#2

/-- One region without a scope (R387). -/
def ytPlainOk (f : FmtYT) : Bool := ytScopeOk f && f.sc == .dflt

/-- `tkwait` (R387); the form is part of the constructor. -/
def tkwaitOk (shk : BitVec 2) (f : FmtYT) : Bool :=
  guardOk f.gd && unused f.d && ySrc f.s1 && srcOk .Y true f.s2 && (f.s2 == .imm || f.s3 == 0#8) && f.sc == .dflt &&
    f.shk == shk

/-- `tkqry` (R387). -/
def tkqryOk (f : FmtYT) : Bool :=
  guardOk f.gd && yDst f.d && ySrc f.s1 && unused f.s2 && f.s3 == 0#8 && f.sc == .dflt && f.shk == 0#2

/-- Format Y-S with one source of any level and no type; `sc` says whether a scope is admitted (R395 to R397). -/
def ysSelOk (sc : Bool) (f : FmtYS) : Bool :=
  guardOk f.gd && unused f.d && srcOk .Y true f.s1 && unused f.s2 && imS3 f.s1 f.s2 f.s3 && (sc || f.sc == .dflt) &&
    f.ty == .dflt

/-- `trig` (R405). -/
def trigOk (f : FmtYS) : Bool :=
  guardOk f.gd && unused f.d && unused f.s1 && unused f.s2 && f.s3 == 0#8 && f.sc == .dflt && f.ty == .dflt

/-- `grow` (R406). -/
def growOk (f : FmtYS) : Bool :=
  guardOk f.gd && unused f.d && (ySrc f.s1 || f.s1 == .imm) && unused f.s2 &&
    (if f.s1 == .imm then !f.s3.msb else f.s3 == 0#8) && f.sc == .dflt && f.ty == .dflt

/-- Integer types of the rounds and `amo` forms (R400, R404); 0x0 means n32. -/
def tyAmo (t : Ty) : Bool := t == .dflt || t == .i32 || t == .n32 || t == .i64 || t == .n64

/-- Types of `rmin`, `rmax`, `rsum` (R400). -/
def tyRound (t : Ty) : Bool := tyAmo t || t == .f32 || t == .f64

/-- The rounds (R400). -/
def roundOk (dz : Bool) (tys : Ty → Bool) (f : FmtYS) : Bool :=
  guardOk f.gd && (if dz then yDst f.d else yReg f.d) && ySrc f.s1 && (ySrc f.s2 || f.s2 == .zero) &&
    decide (f.s3.toNat ≤ 15) && f.sc == .dflt && tys f.ty

/-- The `amo` forms (R404). -/
def amoOk (f : FmtYS) : Bool :=
  guardOk f.gd && unused f.d && ySrc f.s1 && srcOk .Y true f.s2 && (f.s2 == .imm || f.s3 == 0#8) && f.sc == .dflt &&
    tyAmo f.ty

/-- `ymov` and `yadd` (R407). -/
def yMoveOk (two : Bool) (f : FmtYS) : Bool :=
  guardOk f.gd && yDst f.d && srcOk .Y true f.s1 && (if two then srcOk .Y true f.s2 else unused f.s2) &&
    imS3 f.s1 f.s2 f.s3 && f.sc == .dflt && f.ty == .dflt

/-- `yli` (R407). -/
def yliOk (f : FmtYI) : Bool := guardOk f.gd && yDst f.d && unused f.s1 && unused f.s2

/-! `nop` and `xcp`. -/

/-- STALL stands in the C slot only (R117). -/
def stallOk (sl : Slot) (n : BitVec 4) : Bool := sl == .C || n == 0#4

/-- `nop` (R122). -/
def nopOk (sl : Slot) (f : FmtN) : Bool := !f.gd.on && guardOk f.gd && stallOk sl f.stall

/-- The admitted pairs of `xcp` (R120). -/
def xcpPair : Slot → Slot → Bool
  | .A, .C | .A, .V | .A, .M | .A, .E | .A, .Y => true
  | .C, .A | .V, .A | .M, .A | .E, .A | .Y, .A => true
  | .V, .M | .M, .V => true
  | _, _ => false

/-- `xcp` (R120, R147, R148). -/
def xcpOk (sl : Slot) (f : FmtX) : Bool :=
  guardOk f.gd && stallOk sl f.stall && xcpPair sl f.dsl &&
    (f.lane == 0#5 || (sl == .V && f.dsl == .A)) &&
    (match sl, f.dsl with
      | .A, .M => xDst f.d
      | .V, .M => mDst f.d
      | _, t => dstOk t f.d) &&
    (if sl == .M && f.dsl == .V then mSrc f.s1 else srcOk sl false f.s1)

/-- The entry check of every instruction (R123 step 3); events have no encoding and nothing to check. -/
def entryOk : Instr → Bool
  | .nop sl f => nopOk sl f
  | .xcp sl f => xcpOk sl f
  | .br f => cbOk f
  | .brx f => crTgtOk f
  | .call f => cbCallOk f
  | .callx f => crCallOk f
  | .ret f => crTgtOk f
  | .loop f => crLoopOk f
  | .loopRot f => cbLoopOk f
  | .lpend f => cbLoopOk f
  | .lpbrk f => cbLoopOk f
  | .endTask f => nOk f
  | .svc f => guardOk f.gd
  | .brk f => guardOk f.gd
  | .sysr f => csReadOk f
  | .sysw f => csWriteOk f
  | .tstamp f => crTimeOk f
  | .rdcyc f => crTimeOk f
  | .cli f => ciOk f
  | .cmov f => crOneOk f
  | .cadd f => crTwoOk f
  | .csub f => crTwoOk f
  | .cand f => crTwoOk f
  | .cor f => crTwoOk f
  | .cxor f => crTwoOk f
  | .ccmp f => crCmpOk f
  | .pand f => cpTwoOk f
  | .por f => cpTwoOk f
  | .pxor f => cpTwoOk f
  | .pmov f => cpMovOk f
  | .pset f => cpSetOk f
  | .setld f => crSetldOk f
  | .add f => arTwoOk aInt f
  | .sub f => arTwoOk aInt f
  | .mul f => arTwoOk aInt f
  | .mulh f => arTwoOk aInt f
  | .div f => arTwoOk aInt f
  | .rem f => arTwoOk aInt f
  | .and f => arTwoOk aInt f
  | .or f => arTwoOk aInt f
  | .xor f => arTwoOk aInt f
  | .andn f => arTwoOk aInt f
  | .shl f => arTwoOk aInt f
  | .shr f => arTwoOk aInt f
  | .sar f => arTwoOk aInt f
  | .rot f => arTwoOk aInt f
  | .min f => arTwoOk aInt f
  | .max f => arTwoOk aInt f
  | .abs f => arOneOk aInt f
  | .neg f => arOneOk aInt f
  | .cmp f => arCmpOk cndIsInt f
  | .sel f => arNumOk 64 f
  | .mov f => arOneOk tyNone f
  | .li f => aiLiOk f
  | .lih f => aiLihOk f
  | .lihHi f => aiLihOk f
  | .bfx f => afOneOk f
  | .bfi f => afTwoOk f
  | .clz f => arOneOk aInt f
  | .ctz f => arOneOk aInt f
  | .pcnt f => arOneOk aInt f
  | .brev f => arOneOk aInt f
  | .bswap f => arOneOk aSwap f
  | .lea f => arNumOk 8 f
  | .sadd f => arTwoOk aInt f
  | .ssub f => arTwoOk aInt f
  | .madd f => arThreeOk f
  | .ext f => arOneOk aInt f
  | .clamp f => arThreeOk f
  | .tst f => arCmpOk (fun c => c == .eq || c == .ne) f
  | .addc f => arNumOk 64 f
  | .subb f => arNumOk 64 f
  | .hmix f => arTwoOk tyNone f
  | .align f => arNumOk 8 f
  | .crc f => arTwoOk aCrc f
  | .bset f => arTwoOk aInt f
  | .bclr f => arTwoOk aInt f
  | .bflip f => arTwoOk aInt f
  | .pack f => arTwoOk aPack f
  | .crd f => aiConstOk crdSel f
  | .rank f => aiConstOk immZero f
  | .rankSz f => aiConstOk immZero f
  | .cbase f => aiConstOk immZero f
  | .argb f => aiConstOk argbOff f
  | .locq f => aiLocqOk f
  | .locqSelf f => aiLocqSelfOk f
  | .ctxid f => aiConstOk immZero f
  | .ctxidLid f => aiConstOk immZero f
  | .rdld f => aiConstOk immZero f
  | .rdrb f => aiConstOk immZero f
  | .vadd f => vrBase vFI true true false f && vrTwo f && mkOk f && rmFloat f
  | .vsub f => vrBase vFI true true false f && vrTwo f && mkOk f && rmFloat f
  | .vmul f => vrBase vFI true true false f && vrTwo f && mkOk f && rmFloat f
  | .vfma f => vrBase vF true true false f && vrThree f && mkOk f
  | .vfms f => vrBase vF true true false f && vrThree f && mkOk f
  | .vfnma f => vrBase vF true true false f && vrThree f && mkOk f
  | .vmin f => vrBase vFI false false false f && vrTwo f && mkOk f
  | .vmax f => vrBase vFI false false false f && vrTwo f && mkOk f
  | .vabs f => vrBase vFI false true false f && vrOne f && mkOk f
  | .vneg f => vrBase vFI false true false f && vrOne f && mkOk f
  | .vfrcp f => vrBase vF true true false f && vrOne f && mkOk f
  | .vfsqrt f => vrBase vF true true false f && vrOne f && mkOk f
  | .vdiv f => vrBase vF true true false f && vrTwo f && mkOk f
  | .vscl f => vrBase vF true true false f && vrTwo f && mkOk f
  | .vcmp f => vcmpOk f
  | .vsel f => vrBase vW false false false f && vrThree f && mkOk f
  | .vany f => vkTestOk f
  | .vall f => vkTestOk f
  | .kand f => vkTwoOk f
  | .kor f => vkTwoOk f
  | .kxor f => vkTwoOk f
  | .kmov f => vkMovOk f
  | .vand f => vrBase tyNone false false false f && vrTwo f && mkOk f
  | .vor f => vrBase tyNone false false false f && vrTwo f && mkOk f
  | .vxor f => vrBase tyNone false false false f && vrTwo f && mkOk f
  | .vandn f => vrBase tyNone false false false f && vrTwo f && mkOk f
  | .vshl f => vrBase vI false true false f && vrTwo f && mkOk f
  | .vshr f => vrBase vI false true false f && vrTwo f && mkOk f
  | .vsar f => vrBase vI false true false f && vrTwo f && mkOk f
  | .vmov f => vrBase tyNone false false false f && vrOne f && mkOk f
  | .vperm f => vpOk true ctlZero f
  | .vshuf f => vpOk false ctlIdx f
  | .vrotl f => vpOk false ctlIdx f
  | .vbrev f => vpOk false ctlLog f
  | .vzip f => vpOk true ctlHalf f
  | .vuzp f => vpOk true ctlHalf f
  | .vlane f => viOk vI f
  | .vli f => viOk vFI f
  | .vcmul f => vrBase vF true true true f && vrTwo f && mkOk f && f.sub.toNat < 2
  | .vbfly f => vrBase vF true true true f && vrTwo f && mkOk f && !f.msk && !f.sub.getLsbD 4 && decide (2 ^ (f.sub.toNat % 8) < 512 / vWidth f.ty)
  | .vconj f => vrBase vF false false false f && vrOne f && mkOk f
  | .vmulh f => vrBase vI false false false f && vrTwo f && mkOk f
  | .vsadd f => vrBase vI false false false f && vrTwo f && mkOk f
  | .vssub f => vrBase vI false false false f && vrTwo f && mkOk f
  | .vdot f => vrBase tyDot true true false f && vrThree f && mkOk f
  | .vpcnt f => vrBase vI false false false f && vrOne f && mkOk f
  | .vcvt f => vcvtOk f
  | .vqnt f => vqntOk f
  | .vdqnt f => vdqntOk f
  | .vamax f => vamaxOk f
  | .vred f => vrBase tyRed true true true f && vrOne f && mkOk f && f.sub.toNat < 3
  | .vcnt f => vcntOk f
  | .vpack4 f => vpack4Ok f
  | .vunpk4 f => vunpk4Ok f
  | .vclz f => vrBase vI false false false f && vrOne f && mkOk f
  | .vrnd f => vrBase vF true false false f && vrOne f && mkOk f
  | .vclass f => vrBase vF false false false f && vrOne f && mkOk f
  | .vmadd f => vrBase vI false true false f && vrThree f && mkOk f
  | .vext f => vrBase vW false false false f && srcOk .V false f.s1 && srcOk .V false f.s2 && mkOk f && decide (f.s3.toNat < 1024 / vWidth f.ty)
  | .vclamp f => vrBase vFI false false false f && vrThree f && mkOk f
  | .vinsl f => vpOk true ctlIdx f
  | .kpop f => vkPopOk f
  | .vsort2 f => vrBase vFI false false true f && vrOne f && mkOk f && !f.sub.getLsbD 4 && decide (2 ^ (f.sub.toNat % 8) < 1024 / vWidth f.ty)
  | .vmaxi f => vrBase tyBest false false false f && vrOne f && mkOk f
  | .vmini f => vrBase tyBest false false false f && vrOne f && mkOk f
  | .vbcst f => vpOk false ctlIdx f
  | .vsgn f => vrBase vFI false true false f && vrTwo f && mkOk f
  | .vmerge f => vrBase vW false false false f && vrTwo f && !f.msk
  | .vtrn f => vpOk true ctlHalf f
  | .vrev f => vpOk false ctlLog f
  | .ld f => mlLoadOk xDst auxTy f
  | .st f => mlStoreOk xSrc auxTy f
  | .ldv f => mlLoadOk mDst auxZero f
  | .stv f => mlStoreOk mSrc auxZero f
  | .ldpi f => ldpiOk f
  | .stpi f => stpiOk f
  | .ldf f => feLoadOk f
  | .lde f => feLoadOk f
  | .ste f => feStoreOk f
  | .stf f => feStoreOk f
  | .clre f => feClrOk f
  | .gth f => gthOk false f
  | .sct f => gthOk true f
  | .ldb f => mlLoadOk mDst auxTy f
  | .probe f => probeOk f
  | .pref f => prefOk f
  | .disc f => mlStoreOk xSrc auxZero f
  | .cbdef f => cbdefOk f
  | .cbget f => cbReadOk f
  | .cbput f => cbputOk f
  | .fence f => fenceOk f
  | .cbqry f => cbReadOk f
  | .ldvs f => mgStrideOk false f
  | .stvs f => mgStrideOk true f
  | .ldvm f => mgMaskedOk false f
  | .stvm f => mgMaskedOk true f
  | .mmov f => mmovOk f
  | .xadd f => xaddOk f
  | .xli f => xliOk f
  | .xmov f => xmovOk f
  | .cpy f => cpyOk f
  | .cpymx f => cpymxOk f
  | .cpyMig f => cpyOk f
  | .cpyq f => cpyqOk f
  | .cpyx f => cpyOk f
  | .mxfmt f => eiOk immFmt f
  | .mxlen f => eiOk immLen f
  | .mxseed f => emValOk 4 f
  | .mxthr f => emValOk 8 f
  | .mxset f => emValOk 2 f
  | .mxgo f => emGoOk f
  | .mxgos f => emGoOk f
  | .mxgoa f => emGoOk f
  | .mxdrain f => eiOk immZero f
  | .mxrd f => emRdOk 8 f
  | .mxclr f => eiOk immClr f
  | .mxsel f => eiOk immSel f
  | .mxst f => emRdOk 1 f
  | .mxmute f => emValOk 4 f
  | .phase f => phaseOk f
  | .phq f => phqOk f
  | .mxstop f => eiOk immZero f
  | .tklend f => tklendOk f
  | .tkret f => ytScopeOk f
  | .tksplit f => ytPlainOk f
  | .tkjoin f => ytPlainOk f
  | .tkshr f => tkshrOk f
  | .tkunsh f => ytScopeOk f
  | .tkrcl f => ytPlainOk f
  | .tkwait f => tkwaitOk 0#2 f
  | .tkwaitSh f => tkwaitOk 1#2 f
  | .tkqry f => tkqryOk f
  | .arrive f => ysSelOk false f
  | .arriveRel f => ysSelOk true f
  | .waitph f => ysSelOk false f
  | .trig f => trigOk f
  | .grow f => growOk f
  | .rmin f => roundOk true tyRound f
  | .rmax f => roundOk true tyRound f
  | .rsum f => roundOk true tyRound f
  | .redf f => roundOk true (fun t => t == .f32) f
  | .amor f => roundOk true tyAmo f
  | .cas f => roundOk false tyAmo f
  | .yli f => yliOk f
  | .ymov f => yMoveOk false f
  | .amoAdd f => amoOk f
  | .amoMin f => amoOk f
  | .amoMax f => amoOk f
  | .amoAnd f => amoOk f
  | .amoOr f => amoOk f
  | .amoXor f => amoOk f
  | .phdef f => ysSelOk false f
  | .yadd f => yMoveOk true f
  | .fetch _ => true
  | .taskRelease _ => true
  | .feAccessArrival _ => true
  | .fenceComplete _ => true
  | .copyAccept _ => true
  | .copyStart _ _ _ => true
  | .copyComplete _ _ => true
  | .followOnCommit _ _ => true
  | .arrayStart _ => true
  | .arrayStep _ => true
  | .arrayCommandEnd _ => true
  | .phaseWindowOpen _ => true
  | .phaseWindowEnd _ => true
  | .tokenMessageArrival _ => true
  | .tokenRecordClear _ _ => true
  | .phaseArrival _ => true
  | .roundReceive _ => true
  | .amoApply _ _ => true
  | .triggerCount _ => true
  | .growApply _ => true
  | .resultLand _ => true
  | .lateLoadArrival _ _ => true
  | .interlockedArrival _ _ => true
  | .writeAtHome _ => true
  | .spillProceed _ _ => true
  | .poolPush _ _ _ => true
  | .resvWrite _ _ _ => true
  | .tlbinv _ => true
  | .carveoutPeriod _ _ _ => true
  | .carveoutMoveDone _ => true
  | .semAcquire _ _ _ => true
  | .semRelease _ _ _ => true
  | .semLeaseExpire _ => true
  | .dispatcherTakeover => true
  | .queueEnable _ _ _ => true
  | .queueDisable _ _ _ => true
  | .queueConfigure _ _ _ => true
  | .queuePush _ _ _ => true
  | .launchRecordRead _ => true
  | .imageValidate _ => true
  | .dependenceMet _ => true
  | .launchAdmit _ => true
  | .issueDecision => true
  | .taskStart _ => true
  | .planeLoadDone _ => true
  | .contextEnd _ => true
  | .fatalContextError _ => true
  | .eltailWrite _ _ => true
  | .faultPop _ => true
  | .freplyServiced _ _ _ _ => true
  | .freplyRefused _ _ _ _ => true
  | .freplyEndContext _ _ _ _ => true
  | .preemptSuspend _ _ => true
  | .preemptSwapOutRelease _ _ => true
  | .preemptResume _ _ => true
  | .taskSuspend _ => true
  | .teamResume _ _ => true
  | .saveAreaCheck _ _ _ => true
  | .softError _ _ => true
  | .selfTestDone _ _ => true
  | .poisonConsumed _ => true
  | .teamReplay _ _ => true
  | .stackResetQuiesce _ _ => true
  | .stackResetNoQuiesce _ _ => true
  | .stackResetDone _ => true
  | .debugHaltRequest _ => true
  | .debugHalt _ => true
  | .debugResume _ => true
  | .debugDataWrite _ _ => true
  | .deadlockWalk => true
  | .nakRetry _ => true
  | .droopAlarm _ => true
  | .stretchEnd _ => true
  | .halfIssueWindowEnd _ => true
  | .thermalTrip _ => true
  | .currentTrip _ => true
  | .tripClear _ => true
  | .clockSet _ _ => true
  | .vsetWrite _ _ => true
  | .relockDone _ _ => true
  | .watchdogKick _ _ => true
  | .watchdogExpire => true
  | .registerWrite _ _ _ _ => true
  | .contextConfigure _ _ => true
  | .clusterQuiesceRequest _ _ => true
  | .clusterPowerCommand _ _ => true
  | .clusterWake _ => true
  | .clusterTransitionDone _ => true
  | .pfSelect _ => true
  | .attestRequest _ => true
  | .attestDone _ => true
  | .linkEnable _ _ => true
  | .linkUp _ _ => true
  | .routeWrite _ _ => true
  | .moduleUnreachable _ => true
  | .remoteGrantReceive _ => true
  | .remoteArrival _ => true
  | .flitReceive _ _ => true
  | .flitReplay _ => true
  | .campionReset _ => true
  | .moduleReset => true
  | .bringUpStage _ => true
  | .tlbDropComplete _ => true
  | .arrivalAcknowledgement _ _ => true

end Sys2Proof.Machine
end

