-- ==== Sys2Proof/WellFormed.lean ====
section
/-! DEFINITION. Well-formed instructions: what the checks of R123 step 3 admit. -/

namespace Sys2Proof

/-- An instruction whose fields its entry admits (R123 step 3). -/
def Instr.wf (i : Instr) : Bool := Machine.entryOk i

/-- An instruction whose fields its entry admits. -/
abbrev Instr.WellFormed (i : Instr) : Prop := i.wf = true

end Sys2Proof
end

