-- ==== Sys2Proof/Decode.lean ====
section
/-! DEFINITION. The decoder of syllables and bundles (R107, R112 to R123) and the encoder beside it. -/

namespace Sys2Proof

open Sys2Proof.Machine

/-- Why a syllable is not an instruction (R123). -/
inductive DecodeErr where
  | reservedOpcode
  | reservedModifier
  deriving DecidableEq, Repr

/-! Field codes (R119). -/

def tyOfBits (b : BitVec 4) : Ty :=
  match b.toNat with
  | 0 => .dflt
  | 1 => .i8
  | 2 => .i16
  | 3 => .i32
  | 4 => .i64
  | 5 => .n8
  | 6 => .n16
  | 7 => .n32
  | 8 => .n64
  | 9 => .f16
  | 10 => .bf16
  | 11 => .f32
  | 12 => .f64
  | 13 => .e4m3
  | 14 => .e5m2
  | _ => .n4x

def tyToBits : Ty → BitVec 4
  | .dflt => 0#4
  | .i8 => 1#4
  | .i16 => 2#4
  | .i32 => 3#4
  | .i64 => 4#4
  | .n8 => 5#4
  | .n16 => 6#4
  | .n32 => 7#4
  | .n64 => 8#4
  | .f16 => 9#4
  | .bf16 => 10#4
  | .f32 => 11#4
  | .f64 => 12#4
  | .e4m3 => 13#4
  | .e5m2 => 14#4
  | .n4x => 15#4

def cndOfBits (b : BitVec 4) : Option Cnd :=
  match b.toNat with
  | 0 => some .eq
  | 1 => some .ne
  | 2 => some .lt
  | 3 => some .le
  | 4 => some .gt
  | 5 => some .ge
  | 6 => some .uo
  | 7 => some .ord
  | _ => none

def cndToBits : Cnd → BitVec 4
  | .eq => 0#4
  | .ne => 1#4
  | .lt => 2#4
  | .le => 3#4
  | .gt => 4#4
  | .ge => 5#4
  | .uo => 6#4
  | .ord => 7#4

def scopeOfBits (b : BitVec 3) : Option Scope :=
  match b.toNat with
  | 0 => some .dflt
  | 1 => some .co
  | 2 => some .cl
  | 3 => some .st
  | 4 => some .dv
  | 5 => some .sy
  | _ => none

def scopeToBits : Scope → BitVec 3
  | .dflt => 0#3
  | .co => 1#3
  | .cl => 2#3
  | .st => 3#3
  | .dv => 4#3
  | .sy => 5#3

def slotOfBits (b : BitVec 3) : Option Slot :=
  match b.toNat with
  | 0 => some .C
  | 1 => some .A
  | 2 => some .V
  | 3 => some .M
  | 4 => some .E
  | 5 => some .Y
  | _ => none

def slotToBits : Slot → BitVec 3
  | .C => 0#3
  | .A => 1#3
  | .V => 2#3
  | .M => 3#3
  | .E => 4#3
  | .Y => 5#3

def rmOfBits (b : BitVec 2) : Rm :=
  match b.toNat with
  | 0 => .rne
  | 1 => .rtz
  | 2 => .rup
  | _ => .rdn

def rmToBits : Rm → BitVec 2
  | .rne => 0#2
  | .rtz => 1#2
  | .rup => 2#2
  | .rdn => 3#2

def bit1 (b : Bool) : BitVec 1 := BitVec.ofBool b

def isOne (b : BitVec 1) : Bool := b == 1#1

/-- The 64 bits of a syllable from its fields (R113). -/
def syl (op : BitVec 7) (g : Guard) (d s1 s2 : BitVec 8) (mod : BitVec 25) : Word :=
  op ++ (bit1 g.on ++ (bit1 g.neg ++ (g.gp ++ (d ++ (s1 ++ (s2 ++ mod))))))

def fOp (w : Word) : BitVec 7 := w.extractLsb' 57 7
def fD (w : Word) : BitVec 8 := w.extractLsb' 41 8
def fS1 (w : Word) : BitVec 8 := w.extractLsb' 33 8
def fS2 (w : Word) : BitVec 8 := w.extractLsb' 25 8
def fMod (w : Word) : BitVec 25 := w.extractLsb' 0 25

def fGuard (w : Word) : Guard :=
  ⟨isOne (w.extractLsb' 56 1), isOne (w.extractLsb' 55 1), w.extractLsb' 49 6⟩

/-- `some a` where `b` holds. -/
def check {α : Type} (b : Bool) (a : α) : Option α := if b then some a else none

/-! One packer and one parser per format (R118). -/

def packN (op : BitVec 7) (f : FmtN) : Word :=
  syl op f.gd (0#8) (0#8) (0#8)
    (f.stall ++ (0#21))

def parseN (w : Word) : Option FmtN :=
  check ((fD w == 0#8) && (fS1 w == 0#8) && (fS2 w == 0#8) && ((fMod w).extractLsb' 0 21 == 0#21)) { gd := fGuard w, stall := (fMod w).extractLsb' 21 4 }

def packX (op : BitVec 7) (f : FmtX) : Word :=
  syl op f.gd (opdToBits f.d) (opdToBits f.s1) (0#8)
    (f.stall ++ (slotToBits f.dsl ++ (f.lane ++ (0#13))))

def parseX (w : Word) : Option FmtX :=
  match opdOfBits (fD w), opdOfBits (fS1 w), slotOfBits ((fMod w).extractLsb' 18 3) with
  | some d, some s1, some dsl =>
    check ((fS2 w == 0#8) && ((fMod w).extractLsb' 0 13 == 0#13))
      { gd := fGuard w, d := d, s1 := s1, stall := (fMod w).extractLsb' 21 4, dsl := dsl, lane := (fMod w).extractLsb' 13 5 }
  | _, _, _ => none

/-- Format C-B: OFF lies in S1, S2 and MOD (R118). -/
def packCB (op : BitVec 7) (f : FmtCB) : Word :=
  syl op f.gd (opdToBits f.d) (f.off.extractLsb' 20 8) (f.off.extractLsb' 12 8)
    (f.stall ++ (f.off.extractLsb' 0 12 ++ (f.lvl ++ 0#6)))

def parseCB (w : Word) : Option FmtCB :=
  match opdOfBits (fD w) with
  | some d => check ((fMod w).extractLsb' 0 6 == 0#6)
      ⟨fGuard w, d, fS1 w ++ (fS2 w ++ (fMod w).extractLsb' 9 12), (fMod w).extractLsb' 21 4, (fMod w).extractLsb' 6 3⟩
  | none => none

def packCR (op : BitVec 7) (f : FmtCR) : Word :=
  syl op f.gd (opdToBits f.d) (opdToBits f.s1) (opdToBits f.s2)
    (f.stall ++ (f.s3 ++ (tyToBits f.ty ++ (cndToBits f.cnd ++ (f.lvl ++ (0#2))))))

def parseCR (w : Word) : Option FmtCR :=
  match opdOfBits (fD w), opdOfBits (fS1 w), opdOfBits (fS2 w), cndOfBits ((fMod w).extractLsb' 5 4) with
  | some d, some s1, some s2, some cnd =>
    check (((fMod w).extractLsb' 0 2 == 0#2))
      { gd := fGuard w, d := d, s1 := s1, s2 := s2, stall := (fMod w).extractLsb' 21 4, s3 := (fMod w).extractLsb' 13 8, ty := tyOfBits ((fMod w).extractLsb' 9 4), cnd := cnd, lvl := (fMod w).extractLsb' 2 3 }
  | _, _, _, _ => none

def packCI (op : BitVec 7) (f : FmtCI) : Word :=
  syl op f.gd (opdToBits f.d) (opdToBits f.s1) (opdToBits f.s2)
    (f.stall ++ (f.imm ++ (0#5)))

def parseCI (w : Word) : Option FmtCI :=
  match opdOfBits (fD w), opdOfBits (fS1 w), opdOfBits (fS2 w) with
  | some d, some s1, some s2 =>
    check (((fMod w).extractLsb' 0 5 == 0#5))
      { gd := fGuard w, d := d, s1 := s1, s2 := s2, stall := (fMod w).extractLsb' 21 4, imm := (fMod w).extractLsb' 5 16 }
  | _, _, _ => none

def packCP (op : BitVec 7) (f : FmtCP) : Word :=
  syl op f.gd (opdToBits f.d) (opdToBits f.s1) (opdToBits f.s2)
    (f.stall ++ (bit1 f.ns1 ++ (bit1 f.ns2 ++ (bit1 f.val ++ (0#18)))))

def parseCP (w : Word) : Option FmtCP :=
  match opdOfBits (fD w), opdOfBits (fS1 w), opdOfBits (fS2 w) with
  | some d, some s1, some s2 =>
    check (((fMod w).extractLsb' 0 18 == 0#18))
      { gd := fGuard w, d := d, s1 := s1, s2 := s2, stall := (fMod w).extractLsb' 21 4, ns1 := isOne ((fMod w).extractLsb' 20 1), ns2 := isOne ((fMod w).extractLsb' 19 1), val := isOne ((fMod w).extractLsb' 18 1) }
  | _, _, _ => none

def packCS (op : BitVec 7) (f : FmtCS) : Word :=
  syl op f.gd (opdToBits f.d) (opdToBits f.s1) (opdToBits f.s2)
    (f.stall ++ (f.sreg ++ (0#5)))

def parseCS (w : Word) : Option FmtCS :=
  match opdOfBits (fD w), opdOfBits (fS1 w), opdOfBits (fS2 w) with
  | some d, some s1, some s2 =>
    check (((fMod w).extractLsb' 0 5 == 0#5))
      { gd := fGuard w, d := d, s1 := s1, s2 := s2, stall := (fMod w).extractLsb' 21 4, sreg := (fMod w).extractLsb' 5 16 }
  | _, _, _ => none

def packCK (op : BitVec 7) (f : FmtCK) : Word :=
  syl op f.gd (0#8) (0#8) (0#8)
    (f.stall ++ (f.code ++ (0#5)))

def parseCK (w : Word) : Option FmtCK :=
  check ((fD w == 0#8) && (fS1 w == 0#8) && (fS2 w == 0#8) && ((fMod w).extractLsb' 0 5 == 0#5)) { gd := fGuard w, stall := (fMod w).extractLsb' 21 4, code := (fMod w).extractLsb' 5 16 }

def packAR (op : BitVec 7) (f : FmtAR) : Word :=
  syl op f.gd (opdToBits f.d) (opdToBits f.s1) (opdToBits f.s2)
    (f.s3 ++ (tyToBits f.ty ++ (cndToBits f.cnd ++ (0#9))))

def parseAR (w : Word) : Option FmtAR :=
  match opdOfBits (fD w), opdOfBits (fS1 w), opdOfBits (fS2 w), cndOfBits ((fMod w).extractLsb' 9 4) with
  | some d, some s1, some s2, some cnd =>
    check (((fMod w).extractLsb' 0 9 == 0#9))
      { gd := fGuard w, d := d, s1 := s1, s2 := s2, s3 := (fMod w).extractLsb' 17 8, ty := tyOfBits ((fMod w).extractLsb' 13 4), cnd := cnd }
  | _, _, _, _ => none

def packAI (op : BitVec 7) (x : Bool) (f : FmtAI) : Word :=
  syl op f.gd (opdToBits f.d) (opdToBits f.s1) (opdToBits f.s2)
    (f.imm ++ (bit1 x))

def parseAI (w : Word) : Option FmtAI :=
  match opdOfBits (fD w), opdOfBits (fS1 w), opdOfBits (fS2 w) with
  | some d, some s1, some s2 =>
    check (true)
      { gd := fGuard w, d := d, s1 := s1, s2 := s2, imm := (fMod w).extractLsb' 1 24 }
  | _, _, _ => none

def packAF (op : BitVec 7) (f : FmtAF) : Word :=
  syl op f.gd (opdToBits f.d) (opdToBits f.s1) (opdToBits f.s2)
    (f.pos ++ (f.wid ++ (0#13)))

def parseAF (w : Word) : Option FmtAF :=
  match opdOfBits (fD w), opdOfBits (fS1 w), opdOfBits (fS2 w) with
  | some d, some s1, some s2 =>
    check (((fMod w).extractLsb' 0 13 == 0#13))
      { gd := fGuard w, d := d, s1 := s1, s2 := s2, pos := (fMod w).extractLsb' 19 6, wid := (fMod w).extractLsb' 13 6 }
  | _, _, _ => none

def packVR (op : BitVec 7) (f : FmtVR) : Word :=
  syl op f.gd (opdToBits f.d) (opdToBits f.s1) (opdToBits f.s2)
    (f.s3 ++ (tyToBits f.ty ++ (rmToBits f.rm ++ (bit1 f.sat ++ (bit1 f.msk ++ (f.k ++ (f.sub)))))))

def parseVR (w : Word) : Option FmtVR :=
  match opdOfBits (fD w), opdOfBits (fS1 w), opdOfBits (fS2 w) with
  | some d, some s1, some s2 =>
    check (true)
      { gd := fGuard w, d := d, s1 := s1, s2 := s2, s3 := (fMod w).extractLsb' 17 8, ty := tyOfBits ((fMod w).extractLsb' 13 4), rm := rmOfBits ((fMod w).extractLsb' 11 2), sat := isOne ((fMod w).extractLsb' 10 1), msk := isOne ((fMod w).extractLsb' 9 1), k := (fMod w).extractLsb' 5 4, sub := (fMod w).extractLsb' 0 5 }
  | _, _, _ => none

def packVI (op : BitVec 7) (f : FmtVI) : Word :=
  syl op f.gd (opdToBits f.d) (opdToBits f.s1) (opdToBits f.s2)
    (f.imm ++ (tyToBits f.ty ++ (bit1 f.msk ++ (f.k))))

def parseVI (w : Word) : Option FmtVI :=
  match opdOfBits (fD w), opdOfBits (fS1 w), opdOfBits (fS2 w) with
  | some d, some s1, some s2 =>
    check (true)
      { gd := fGuard w, d := d, s1 := s1, s2 := s2, imm := (fMod w).extractLsb' 9 16, ty := tyOfBits ((fMod w).extractLsb' 5 4), msk := isOne ((fMod w).extractLsb' 4 1), k := (fMod w).extractLsb' 0 4 }
  | _, _, _ => none

def packVK (op : BitVec 7) (f : FmtVK) : Word :=
  syl op f.gd (opdToBits f.d) (opdToBits f.s1) (opdToBits f.s2)
    (0#25)

def parseVK (w : Word) : Option FmtVK :=
  match opdOfBits (fD w), opdOfBits (fS1 w), opdOfBits (fS2 w) with
  | some d, some s1, some s2 =>
    check (((fMod w).extractLsb' 0 25 == 0#25))
      { gd := fGuard w, d := d, s1 := s1, s2 := s2 }
  | _, _, _ => none

def packVC (op : BitVec 7) (f : FmtVC) : Word :=
  syl op f.gd (opdToBits f.d) (opdToBits f.s1) (opdToBits f.s2)
    (f.s3 ++ (tyToBits f.ty ++ (tyToBits f.ts ++ (f.gr ++ (rmToBits f.rm ++ (bit1 f.sat ++ (0#4)))))))

def parseVC (w : Word) : Option FmtVC :=
  match opdOfBits (fD w), opdOfBits (fS1 w), opdOfBits (fS2 w) with
  | some d, some s1, some s2 =>
    check (((fMod w).extractLsb' 0 4 == 0#4))
      { gd := fGuard w, d := d, s1 := s1, s2 := s2, s3 := (fMod w).extractLsb' 17 8, ty := tyOfBits ((fMod w).extractLsb' 13 4), ts := tyOfBits ((fMod w).extractLsb' 9 4), gr := (fMod w).extractLsb' 7 2, rm := rmOfBits ((fMod w).extractLsb' 5 2), sat := isOne ((fMod w).extractLsb' 4 1) }
  | _, _, _ => none

def packVP (op : BitVec 7) (f : FmtVP) : Word :=
  syl op f.gd (opdToBits f.d) (opdToBits f.s1) (opdToBits f.s2)
    (f.s3 ++ (f.ctl ++ (tyToBits f.ty ++ (0#5))))

def parseVP (w : Word) : Option FmtVP :=
  match opdOfBits (fD w), opdOfBits (fS1 w), opdOfBits (fS2 w) with
  | some d, some s1, some s2 =>
    check (((fMod w).extractLsb' 0 5 == 0#5))
      { gd := fGuard w, d := d, s1 := s1, s2 := s2, s3 := (fMod w).extractLsb' 17 8, ctl := (fMod w).extractLsb' 9 8, ty := tyOfBits ((fMod w).extractLsb' 5 4) }
  | _, _, _ => none

def packML (op : BitVec 7) (f : FmtML) : Word :=
  syl op f.gd (opdToBits f.d) (opdToBits f.s1) (opdToBits f.s2)
    (f.off ++ (f.aux ++ (scopeToBits f.sc ++ (0#2))))

def parseML (w : Word) : Option FmtML :=
  match opdOfBits (fD w), opdOfBits (fS1 w), opdOfBits (fS2 w), scopeOfBits ((fMod w).extractLsb' 2 3) with
  | some d, some s1, some s2, some sc =>
    check (((fMod w).extractLsb' 0 2 == 0#2))
      { gd := fGuard w, d := d, s1 := s1, s2 := s2, off := (fMod w).extractLsb' 9 16, aux := (fMod w).extractLsb' 5 4, sc := sc }
  | _, _, _, _ => none

def packMG (op : BitVec 7) (f : FmtMG) : Word :=
  syl op f.gd (opdToBits f.d) (opdToBits f.s1) (opdToBits f.s2)
    (f.s3 ++ (tyToBits f.ty ++ (f.lg ++ (0#11))))

def parseMG (w : Word) : Option FmtMG :=
  match opdOfBits (fD w), opdOfBits (fS1 w), opdOfBits (fS2 w) with
  | some d, some s1, some s2 =>
    check (((fMod w).extractLsb' 0 11 == 0#11))
      { gd := fGuard w, d := d, s1 := s1, s2 := s2, s3 := (fMod w).extractLsb' 17 8, ty := tyOfBits ((fMod w).extractLsb' 13 4), lg := (fMod w).extractLsb' 11 2 }
  | _, _, _ => none

def packMI (op : BitVec 7) (f : FmtMI) : Word :=
  syl op f.gd (opdToBits f.d) (opdToBits f.s1) (opdToBits f.s2)
    (f.imm ++ (0#1))

def parseMI (w : Word) : Option FmtMI :=
  match opdOfBits (fD w), opdOfBits (fS1 w), opdOfBits (fS2 w) with
  | some d, some s1, some s2 =>
    check (((fMod w).extractLsb' 0 1 == 0#1))
      { gd := fGuard w, d := d, s1 := s1, s2 := s2, imm := (fMod w).extractLsb' 1 24 }
  | _, _, _ => none

def packEC (op : BitVec 7) (f : FmtEC) : Word :=
  syl op f.gd (opdToBits f.d) (opdToBits f.s1) (opdToBits f.s2)
    (f.s3 ++ (bit1 f.arr ++ (0#16)))

def parseEC (w : Word) : Option FmtEC :=
  match opdOfBits (fD w), opdOfBits (fS1 w), opdOfBits (fS2 w) with
  | some d, some s1, some s2 =>
    check (((fMod w).extractLsb' 0 16 == 0#16))
      { gd := fGuard w, d := d, s1 := s1, s2 := s2, s3 := (fMod w).extractLsb' 17 8, arr := isOne ((fMod w).extractLsb' 16 1) }
  | _, _, _ => none

def packEM (op : BitVec 7) (f : FmtEM) : Word :=
  syl op f.gd (opdToBits f.d) (opdToBits f.s1) (opdToBits f.s2)
    (bit1 f.arr ++ (f.gr ++ (f.s3 ++ (0#1 ++ (f.set ++ (0#10))))))

def parseEM (w : Word) : Option FmtEM :=
  match opdOfBits (fD w), opdOfBits (fS1 w), opdOfBits (fS2 w) with
  | some d, some s1, some s2 =>
    check (((fMod w).extractLsb' 13 1 == 0#1) && ((fMod w).extractLsb' 0 10 == 0#10))
      { gd := fGuard w, d := d, s1 := s1, s2 := s2, arr := isOne ((fMod w).extractLsb' 24 1), gr := (fMod w).extractLsb' 22 2, s3 := (fMod w).extractLsb' 14 8, set := (fMod w).extractLsb' 10 3 }
  | _, _, _ => none

def packEI (op : BitVec 7) (f : FmtEI) : Word :=
  syl op f.gd (opdToBits f.d) (opdToBits f.s1) (opdToBits f.s2)
    (bit1 f.arr ++ (f.imm))

def parseEI (w : Word) : Option FmtEI :=
  match opdOfBits (fD w), opdOfBits (fS1 w), opdOfBits (fS2 w) with
  | some d, some s1, some s2 =>
    check (true)
      { gd := fGuard w, d := d, s1 := s1, s2 := s2, arr := isOne ((fMod w).extractLsb' 24 1), imm := (fMod w).extractLsb' 0 24 }
  | _, _, _ => none

def packEP (op : BitVec 7) (f : FmtEP) : Word :=
  syl op f.gd (opdToBits f.d) (opdToBits f.s1) (opdToBits f.s2)
    (f.onset ++ (f.icls ++ (f.bid ++ (0#4))))

def parseEP (w : Word) : Option FmtEP :=
  match opdOfBits (fD w), opdOfBits (fS1 w), opdOfBits (fS2 w) with
  | some d, some s1, some s2 =>
    check (((fMod w).extractLsb' 0 4 == 0#4))
      { gd := fGuard w, d := d, s1 := s1, s2 := s2, onset := (fMod w).extractLsb' 13 12, icls := (fMod w).extractLsb' 10 3, bid := (fMod w).extractLsb' 4 6 }
  | _, _, _ => none

def packYT (op : BitVec 7) (f : FmtYT) : Word :=
  syl op f.gd (opdToBits f.d) (opdToBits f.s1) (opdToBits f.s2)
    (f.s3 ++ (scopeToBits f.sc ++ (f.shk ++ (0#12))))

def parseYT (w : Word) : Option FmtYT :=
  match opdOfBits (fD w), opdOfBits (fS1 w), opdOfBits (fS2 w), scopeOfBits ((fMod w).extractLsb' 14 3) with
  | some d, some s1, some s2, some sc =>
    check (((fMod w).extractLsb' 0 12 == 0#12))
      { gd := fGuard w, d := d, s1 := s1, s2 := s2, s3 := (fMod w).extractLsb' 17 8, sc := sc, shk := (fMod w).extractLsb' 12 2 }
  | _, _, _, _ => none

def packYS (op : BitVec 7) (f : FmtYS) : Word :=
  syl op f.gd (opdToBits f.d) (opdToBits f.s1) (opdToBits f.s2)
    (f.s3 ++ (scopeToBits f.sc ++ (tyToBits f.ty ++ (0#10))))

def parseYS (w : Word) : Option FmtYS :=
  match opdOfBits (fD w), opdOfBits (fS1 w), opdOfBits (fS2 w), scopeOfBits ((fMod w).extractLsb' 14 3) with
  | some d, some s1, some s2, some sc =>
    check (((fMod w).extractLsb' 0 10 == 0#10))
      { gd := fGuard w, d := d, s1 := s1, s2 := s2, s3 := (fMod w).extractLsb' 17 8, sc := sc, ty := tyOfBits ((fMod w).extractLsb' 10 4) }
  | _, _, _, _ => none

def packYI (op : BitVec 7) (f : FmtYI) : Word :=
  syl op f.gd (opdToBits f.d) (opdToBits f.s1) (opdToBits f.s2)
    (f.imm ++ (0#1))

def parseYI (w : Word) : Option FmtYI :=
  match opdOfBits (fD w), opdOfBits (fS1 w), opdOfBits (fS2 w) with
  | some d, some s1, some s2 =>
    check (((fMod w).extractLsb' 0 1 == 0#1))
      { gd := fGuard w, d := d, s1 := s1, s2 := s2, imm := (fMod w).extractLsb' 1 24 }
  | _, _, _ => none

/-- A parsed format under its constructor; a format that does not parse is a reserved modifier. -/
def under {α : Type} (c : α → Instr) : Option α → Except DecodeErr Instr
  | some f => .ok (c f)
  | none => .error .reservedModifier

/-- The X bit of format A-I. -/
def xBit (w : Word) : Bool := isOne (w.extractLsb' 0 1)

/-- Bit 0 of SHK (R387). -/
def shkBit (w : Word) : Bool := isOne (w.extractLsb' 12 1)

/-- Format A-I where the entry admits X = 0 alone (R190, R192). -/
def parseAI0 (w : Word) : Option FmtAI := if xBit w then none else parseAI w

/-! The six opcode maps (R121). -/

def decodeC (op : Nat) (w : Word) : Except DecodeErr Instr :=
  match op with
  | 0x00 => under (Instr.nop .C) (parseN w)
  | 0x01 => under (Instr.xcp .C) (parseX w)
  | 0x02 => under Instr.br (parseCB w)
  | 0x03 => under Instr.brx (parseCR w)
  | 0x04 => under Instr.call (parseCB w)
  | 0x05 => under Instr.callx (parseCR w)
  | 0x06 => under Instr.ret (parseCR w)
  | 0x07 => under Instr.loop (parseCR w)
  | 0x08 => under Instr.loopRot (parseCB w)
  | 0x09 => under Instr.lpend (parseCB w)
  | 0x0A => under Instr.lpbrk (parseCB w)
  | 0x0B => under Instr.endTask (parseN w)
  | 0x0C => under Instr.svc (parseCK w)
  | 0x0D => under Instr.brk (parseCK w)
  | 0x0E => under Instr.sysr (parseCS w)
  | 0x0F => under Instr.sysw (parseCS w)
  | 0x10 => under Instr.tstamp (parseCR w)
  | 0x11 => under Instr.rdcyc (parseCR w)
  | 0x12 => under Instr.cli (parseCI w)
  | 0x13 => under Instr.cmov (parseCR w)
  | 0x14 => under Instr.cadd (parseCR w)
  | 0x15 => under Instr.csub (parseCR w)
  | 0x16 => under Instr.cand (parseCR w)
  | 0x17 => under Instr.cor (parseCR w)
  | 0x18 => under Instr.cxor (parseCR w)
  | 0x19 => under Instr.ccmp (parseCR w)
  | 0x1A => under Instr.pand (parseCP w)
  | 0x1B => under Instr.por (parseCP w)
  | 0x1C => under Instr.pxor (parseCP w)
  | 0x1D => under Instr.pmov (parseCP w)
  | 0x1E => under Instr.pset (parseCP w)
  | 0x1F => under Instr.setld (parseCR w)
  | _ => .error .reservedOpcode

def decodeA (op : Nat) (w : Word) : Except DecodeErr Instr :=
  match op with
  | 0x00 => under (Instr.nop .A) (parseN w)
  | 0x01 => under (Instr.xcp .A) (parseX w)
  | 0x02 => under Instr.add (parseAR w)
  | 0x03 => under Instr.sub (parseAR w)
  | 0x04 => under Instr.mul (parseAR w)
  | 0x05 => under Instr.mulh (parseAR w)
  | 0x06 => under Instr.div (parseAR w)
  | 0x07 => under Instr.rem (parseAR w)
  | 0x08 => under Instr.and (parseAR w)
  | 0x09 => under Instr.or (parseAR w)
  | 0x0A => under Instr.xor (parseAR w)
  | 0x0B => under Instr.andn (parseAR w)
  | 0x0C => under Instr.shl (parseAR w)
  | 0x0D => under Instr.shr (parseAR w)
  | 0x0E => under Instr.sar (parseAR w)
  | 0x0F => under Instr.rot (parseAR w)
  | 0x10 => under Instr.min (parseAR w)
  | 0x11 => under Instr.max (parseAR w)
  | 0x12 => under Instr.abs (parseAR w)
  | 0x13 => under Instr.neg (parseAR w)
  | 0x14 => under Instr.cmp (parseAR w)
  | 0x15 => under Instr.sel (parseAR w)
  | 0x16 => under Instr.mov (parseAR w)
  | 0x17 => under Instr.li (parseAI0 w)
  | 0x18 => under (if xBit w then Instr.lihHi else Instr.lih) (parseAI w)
  | 0x19 => under Instr.bfx (parseAF w)
  | 0x1A => under Instr.bfi (parseAF w)
  | 0x1B => under Instr.clz (parseAR w)
  | 0x1C => under Instr.ctz (parseAR w)
  | 0x1D => under Instr.pcnt (parseAR w)
  | 0x1E => under Instr.brev (parseAR w)
  | 0x1F => under Instr.bswap (parseAR w)
  | 0x20 => under Instr.lea (parseAR w)
  | 0x21 => under Instr.sadd (parseAR w)
  | 0x22 => under Instr.ssub (parseAR w)
  | 0x23 => under Instr.madd (parseAR w)
  | 0x24 => under Instr.ext (parseAR w)
  | 0x25 => under Instr.clamp (parseAR w)
  | 0x26 => under Instr.tst (parseAR w)
  | 0x27 => under Instr.addc (parseAR w)
  | 0x28 => under Instr.subb (parseAR w)
  | 0x29 => under Instr.hmix (parseAR w)
  | 0x2A => under Instr.align (parseAR w)
  | 0x2B => under Instr.crc (parseAR w)
  | 0x2C => under Instr.bset (parseAR w)
  | 0x2D => under Instr.bclr (parseAR w)
  | 0x2E => under Instr.bflip (parseAR w)
  | 0x2F => under Instr.pack (parseAR w)
  | 0x48 => under Instr.crd (parseAI0 w)
  | 0x49 => under (if xBit w then Instr.rankSz else Instr.rank) (parseAI w)
  | 0x4A => under Instr.cbase (parseAI0 w)
  | 0x4B => under Instr.argb (parseAI0 w)
  | 0x4C => under (if xBit w then Instr.locqSelf else Instr.locq) (parseAI w)
  | 0x4D => under (if xBit w then Instr.ctxidLid else Instr.ctxid) (parseAI w)
  | 0x4E => under Instr.rdld (parseAI0 w)
  | 0x4F => under Instr.rdrb (parseAI0 w)
  | _ => .error .reservedOpcode

def decodeV (op : Nat) (w : Word) : Except DecodeErr Instr :=
  match op with
  | 0x00 => under (Instr.nop .V) (parseN w)
  | 0x01 => under (Instr.xcp .V) (parseX w)
  | 0x02 => under Instr.vadd (parseVR w)
  | 0x03 => under Instr.vsub (parseVR w)
  | 0x04 => under Instr.vmul (parseVR w)
  | 0x05 => under Instr.vfma (parseVR w)
  | 0x06 => under Instr.vfms (parseVR w)
  | 0x07 => under Instr.vfnma (parseVR w)
  | 0x08 => under Instr.vmin (parseVR w)
  | 0x09 => under Instr.vmax (parseVR w)
  | 0x0A => under Instr.vabs (parseVR w)
  | 0x0B => under Instr.vneg (parseVR w)
  | 0x0C => under Instr.vfrcp (parseVR w)
  | 0x0D => under Instr.vfsqrt (parseVR w)
  | 0x0E => under Instr.vdiv (parseVR w)
  | 0x0F => under Instr.vscl (parseVR w)
  | 0x10 => under Instr.vcmp (parseVR w)
  | 0x11 => under Instr.vsel (parseVR w)
  | 0x12 => under Instr.vany (parseVK w)
  | 0x13 => under Instr.vall (parseVK w)
  | 0x14 => under Instr.kand (parseVK w)
  | 0x15 => under Instr.kor (parseVK w)
  | 0x16 => under Instr.kxor (parseVK w)
  | 0x17 => under Instr.kmov (parseVK w)
  | 0x18 => under Instr.vand (parseVR w)
  | 0x19 => under Instr.vor (parseVR w)
  | 0x1A => under Instr.vxor (parseVR w)
  | 0x1B => under Instr.vandn (parseVR w)
  | 0x1C => under Instr.vshl (parseVR w)
  | 0x1D => under Instr.vshr (parseVR w)
  | 0x1E => under Instr.vsar (parseVR w)
  | 0x1F => under Instr.vmov (parseVR w)
  | 0x20 => under Instr.vperm (parseVP w)
  | 0x21 => under Instr.vshuf (parseVP w)
  | 0x22 => under Instr.vrotl (parseVP w)
  | 0x23 => under Instr.vbrev (parseVP w)
  | 0x24 => under Instr.vzip (parseVP w)
  | 0x25 => under Instr.vuzp (parseVP w)
  | 0x26 => under Instr.vlane (parseVI w)
  | 0x27 => under Instr.vli (parseVI w)
  | 0x28 => under Instr.vcmul (parseVR w)
  | 0x29 => under Instr.vbfly (parseVR w)
  | 0x2A => under Instr.vconj (parseVR w)
  | 0x2B => under Instr.vmulh (parseVR w)
  | 0x2C => under Instr.vsadd (parseVR w)
  | 0x2D => under Instr.vssub (parseVR w)
  | 0x2E => under Instr.vdot (parseVR w)
  | 0x2F => under Instr.vpcnt (parseVR w)
  | 0x30 => under Instr.vcvt (parseVC w)
  | 0x31 => under Instr.vqnt (parseVC w)
  | 0x32 => under Instr.vdqnt (parseVC w)
  | 0x33 => under Instr.vamax (parseVC w)
  | 0x34 => under Instr.vred (parseVR w)
  | 0x35 => under Instr.vcnt (parseVC w)
  | 0x36 => under Instr.vpack4 (parseVC w)
  | 0x37 => under Instr.vunpk4 (parseVC w)
  | 0x38 => under Instr.vclz (parseVR w)
  | 0x39 => under Instr.vrnd (parseVR w)
  | 0x3A => under Instr.vclass (parseVR w)
  | 0x3B => under Instr.vmadd (parseVR w)
  | 0x3C => under Instr.vext (parseVR w)
  | 0x3D => under Instr.vclamp (parseVR w)
  | 0x3E => under Instr.vinsl (parseVP w)
  | 0x3F => under Instr.kpop (parseVK w)
  | 0x40 => under Instr.vsort2 (parseVR w)
  | 0x41 => under Instr.vmaxi (parseVR w)
  | 0x42 => under Instr.vmini (parseVR w)
  | 0x43 => under Instr.vbcst (parseVP w)
  | 0x44 => under Instr.vsgn (parseVR w)
  | 0x45 => under Instr.vmerge (parseVR w)
  | 0x46 => under Instr.vtrn (parseVP w)
  | 0x47 => under Instr.vrev (parseVP w)
  | _ => .error .reservedOpcode

def decodeM (op : Nat) (w : Word) : Except DecodeErr Instr :=
  match op with
  | 0x00 => under (Instr.nop .M) (parseN w)
  | 0x01 => under (Instr.xcp .M) (parseX w)
  | 0x02 => under Instr.ld (parseML w)
  | 0x03 => under Instr.st (parseML w)
  | 0x04 => under Instr.ldv (parseML w)
  | 0x05 => under Instr.stv (parseML w)
  | 0x06 => under Instr.ldpi (parseML w)
  | 0x07 => under Instr.stpi (parseML w)
  | 0x08 => under Instr.ldf (parseML w)
  | 0x09 => under Instr.lde (parseML w)
  | 0x0A => under Instr.ste (parseML w)
  | 0x0B => under Instr.stf (parseML w)
  | 0x0C => under Instr.clre (parseML w)
  | 0x0D => under Instr.gth (parseMG w)
  | 0x0E => under Instr.sct (parseMG w)
  | 0x0F => under Instr.ldb (parseML w)
  | 0x10 => under Instr.probe (parseML w)
  | 0x11 => under Instr.pref (parseML w)
  | 0x12 => under Instr.disc (parseML w)
  | 0x13 => under Instr.cbdef (parseML w)
  | 0x14 => under Instr.cbget (parseML w)
  | 0x15 => under Instr.cbput (parseML w)
  | 0x16 => under Instr.fence (parseML w)
  | 0x17 => under Instr.cbqry (parseML w)
  | 0x18 => under Instr.ldvs (parseMG w)
  | 0x19 => under Instr.stvs (parseMG w)
  | 0x1A => under Instr.ldvm (parseMG w)
  | 0x1B => under Instr.stvm (parseMG w)
  | 0x1C => under Instr.mmov (parseMI w)
  | 0x1D => under Instr.xadd (parseMI w)
  | 0x1E => under Instr.xli (parseMI w)
  | 0x1F => under Instr.xmov (parseMI w)
  | _ => .error .reservedOpcode

def decodeE (op : Nat) (w : Word) : Except DecodeErr Instr :=
  match op with
  | 0x00 => under (Instr.nop .E) (parseN w)
  | 0x01 => under (Instr.xcp .E) (parseX w)
  | 0x02 => under Instr.cpy (parseEC w)
  | 0x03 => under Instr.cpymx (parseEC w)
  | 0x04 => under Instr.cpyMig (parseEC w)
  | 0x05 => under Instr.cpyq (parseEC w)
  | 0x06 => under Instr.cpyx (parseEC w)
  | 0x08 => under Instr.mxfmt (parseEI w)
  | 0x09 => under Instr.mxlen (parseEI w)
  | 0x0A => under Instr.mxseed (parseEM w)
  | 0x0B => under Instr.mxthr (parseEM w)
  | 0x0C => under Instr.mxset (parseEM w)
  | 0x0D => under Instr.mxgo (parseEM w)
  | 0x0E => under Instr.mxgos (parseEM w)
  | 0x0F => under Instr.mxgoa (parseEM w)
  | 0x10 => under Instr.mxdrain (parseEI w)
  | 0x11 => under Instr.mxrd (parseEM w)
  | 0x12 => under Instr.mxclr (parseEI w)
  | 0x13 => under Instr.mxsel (parseEI w)
  | 0x14 => under Instr.mxst (parseEM w)
  | 0x15 => under Instr.mxmute (parseEM w)
  | 0x16 => under Instr.phase (parseEP w)
  | 0x17 => under Instr.phq (parseEI w)
  | 0x18 => under Instr.mxstop (parseEI w)
  | _ => .error .reservedOpcode

def decodeY (op : Nat) (w : Word) : Except DecodeErr Instr :=
  match op with
  | 0x00 => under (Instr.nop .Y) (parseN w)
  | 0x01 => under (Instr.xcp .Y) (parseX w)
  | 0x02 => under Instr.tklend (parseYT w)
  | 0x03 => under Instr.tkret (parseYT w)
  | 0x04 => under Instr.tksplit (parseYT w)
  | 0x05 => under Instr.tkjoin (parseYT w)
  | 0x06 => under Instr.tkshr (parseYT w)
  | 0x07 => under Instr.tkunsh (parseYT w)
  | 0x08 => under Instr.tkrcl (parseYT w)
  | 0x09 => under (if shkBit w then Instr.tkwaitSh else Instr.tkwait) (parseYT w)
  | 0x0A => under Instr.tkqry (parseYT w)
  | 0x0B => under Instr.arrive (parseYS w)
  | 0x0C => under Instr.arriveRel (parseYS w)
  | 0x0D => under Instr.waitph (parseYS w)
  | 0x0E => under Instr.trig (parseYS w)
  | 0x0F => under Instr.grow (parseYS w)
  | 0x10 => under Instr.rmin (parseYS w)
  | 0x11 => under Instr.rmax (parseYS w)
  | 0x12 => under Instr.rsum (parseYS w)
  | 0x13 => under Instr.redf (parseYS w)
  | 0x14 => under Instr.amor (parseYS w)
  | 0x15 => under Instr.cas (parseYS w)
  | 0x16 => under Instr.yli (parseYI w)
  | 0x17 => under Instr.ymov (parseYS w)
  | 0x18 => under Instr.amoAdd (parseYS w)
  | 0x19 => under Instr.amoMin (parseYS w)
  | 0x1A => under Instr.amoMax (parseYS w)
  | 0x1B => under Instr.amoAnd (parseYS w)
  | 0x1C => under Instr.amoOr (parseYS w)
  | 0x1D => under Instr.amoXor (parseYS w)
  | 0x1E => under Instr.phdef (parseYS w)
  | 0x1F => under Instr.yadd (parseYS w)
  | _ => .error .reservedOpcode

/-- The instruction that a syllable's opcode and format give (R121, R118). -/
def decodeFields (sl : Slot) (w : Word) : Except DecodeErr Instr :=
  match sl with
  | .C => decodeC (fOp w).toNat w
  | .A => decodeA (fOp w).toNat w
  | .V => decodeV (fOp w).toNat w
  | .M => decodeM (fOp w).toNat w
  | .E => decodeE (fOp w).toNat w
  | .Y => decodeY (fOp w).toNat w

/-- R123 steps 2 and 3 on one syllable. -/
def decodeSyl (sl : Slot) (w : Word) : Except DecodeErr Instr :=
  match decodeFields sl w with
  | .ok i => if entryOk i then .ok i else .error .reservedModifier
  | .error e => .error e

/-- The slot of an instruction; `none` for an event. -/
def slotOf : Instr → Option Slot
  | .nop sl _ => some sl
  | .xcp sl _ => some sl
  | .br _ => some .C
  | .brx _ => some .C
  | .call _ => some .C
  | .callx _ => some .C
  | .ret _ => some .C
  | .loop _ => some .C
  | .loopRot _ => some .C
  | .lpend _ => some .C
  | .lpbrk _ => some .C
  | .endTask _ => some .C
  | .svc _ => some .C
  | .brk _ => some .C
  | .sysr _ => some .C
  | .sysw _ => some .C
  | .tstamp _ => some .C
  | .rdcyc _ => some .C
  | .cli _ => some .C
  | .cmov _ => some .C
  | .cadd _ => some .C
  | .csub _ => some .C
  | .cand _ => some .C
  | .cor _ => some .C
  | .cxor _ => some .C
  | .ccmp _ => some .C
  | .pand _ => some .C
  | .por _ => some .C
  | .pxor _ => some .C
  | .pmov _ => some .C
  | .pset _ => some .C
  | .setld _ => some .C
  | .add _ => some .A
  | .sub _ => some .A
  | .mul _ => some .A
  | .mulh _ => some .A
  | .div _ => some .A
  | .rem _ => some .A
  | .and _ => some .A
  | .or _ => some .A
  | .xor _ => some .A
  | .andn _ => some .A
  | .shl _ => some .A
  | .shr _ => some .A
  | .sar _ => some .A
  | .rot _ => some .A
  | .min _ => some .A
  | .max _ => some .A
  | .abs _ => some .A
  | .neg _ => some .A
  | .cmp _ => some .A
  | .sel _ => some .A
  | .mov _ => some .A
  | .li _ => some .A
  | .lih _ => some .A
  | .lihHi _ => some .A
  | .bfx _ => some .A
  | .bfi _ => some .A
  | .clz _ => some .A
  | .ctz _ => some .A
  | .pcnt _ => some .A
  | .brev _ => some .A
  | .bswap _ => some .A
  | .lea _ => some .A
  | .sadd _ => some .A
  | .ssub _ => some .A
  | .madd _ => some .A
  | .ext _ => some .A
  | .clamp _ => some .A
  | .tst _ => some .A
  | .addc _ => some .A
  | .subb _ => some .A
  | .hmix _ => some .A
  | .align _ => some .A
  | .crc _ => some .A
  | .bset _ => some .A
  | .bclr _ => some .A
  | .bflip _ => some .A
  | .pack _ => some .A
  | .crd _ => some .A
  | .rank _ => some .A
  | .rankSz _ => some .A
  | .cbase _ => some .A
  | .argb _ => some .A
  | .locq _ => some .A
  | .locqSelf _ => some .A
  | .ctxid _ => some .A
  | .ctxidLid _ => some .A
  | .rdld _ => some .A
  | .rdrb _ => some .A
  | .vadd _ => some .V
  | .vsub _ => some .V
  | .vmul _ => some .V
  | .vfma _ => some .V
  | .vfms _ => some .V
  | .vfnma _ => some .V
  | .vmin _ => some .V
  | .vmax _ => some .V
  | .vabs _ => some .V
  | .vneg _ => some .V
  | .vfrcp _ => some .V
  | .vfsqrt _ => some .V
  | .vdiv _ => some .V
  | .vscl _ => some .V
  | .vcmp _ => some .V
  | .vsel _ => some .V
  | .vany _ => some .V
  | .vall _ => some .V
  | .kand _ => some .V
  | .kor _ => some .V
  | .kxor _ => some .V
  | .kmov _ => some .V
  | .vand _ => some .V
  | .vor _ => some .V
  | .vxor _ => some .V
  | .vandn _ => some .V
  | .vshl _ => some .V
  | .vshr _ => some .V
  | .vsar _ => some .V
  | .vmov _ => some .V
  | .vperm _ => some .V
  | .vshuf _ => some .V
  | .vrotl _ => some .V
  | .vbrev _ => some .V
  | .vzip _ => some .V
  | .vuzp _ => some .V
  | .vlane _ => some .V
  | .vli _ => some .V
  | .vcmul _ => some .V
  | .vbfly _ => some .V
  | .vconj _ => some .V
  | .vmulh _ => some .V
  | .vsadd _ => some .V
  | .vssub _ => some .V
  | .vdot _ => some .V
  | .vpcnt _ => some .V
  | .vcvt _ => some .V
  | .vqnt _ => some .V
  | .vdqnt _ => some .V
  | .vamax _ => some .V
  | .vred _ => some .V
  | .vcnt _ => some .V
  | .vpack4 _ => some .V
  | .vunpk4 _ => some .V
  | .vclz _ => some .V
  | .vrnd _ => some .V
  | .vclass _ => some .V
  | .vmadd _ => some .V
  | .vext _ => some .V
  | .vclamp _ => some .V
  | .vinsl _ => some .V
  | .kpop _ => some .V
  | .vsort2 _ => some .V
  | .vmaxi _ => some .V
  | .vmini _ => some .V
  | .vbcst _ => some .V
  | .vsgn _ => some .V
  | .vmerge _ => some .V
  | .vtrn _ => some .V
  | .vrev _ => some .V
  | .ld _ => some .M
  | .st _ => some .M
  | .ldv _ => some .M
  | .stv _ => some .M
  | .ldpi _ => some .M
  | .stpi _ => some .M
  | .ldf _ => some .M
  | .lde _ => some .M
  | .ste _ => some .M
  | .stf _ => some .M
  | .clre _ => some .M
  | .gth _ => some .M
  | .sct _ => some .M
  | .ldb _ => some .M
  | .probe _ => some .M
  | .pref _ => some .M
  | .disc _ => some .M
  | .cbdef _ => some .M
  | .cbget _ => some .M
  | .cbput _ => some .M
  | .fence _ => some .M
  | .cbqry _ => some .M
  | .ldvs _ => some .M
  | .stvs _ => some .M
  | .ldvm _ => some .M
  | .stvm _ => some .M
  | .mmov _ => some .M
  | .xadd _ => some .M
  | .xli _ => some .M
  | .xmov _ => some .M
  | .cpy _ => some .E
  | .cpymx _ => some .E
  | .cpyMig _ => some .E
  | .cpyq _ => some .E
  | .cpyx _ => some .E
  | .mxfmt _ => some .E
  | .mxlen _ => some .E
  | .mxseed _ => some .E
  | .mxthr _ => some .E
  | .mxset _ => some .E
  | .mxgo _ => some .E
  | .mxgos _ => some .E
  | .mxgoa _ => some .E
  | .mxdrain _ => some .E
  | .mxrd _ => some .E
  | .mxclr _ => some .E
  | .mxsel _ => some .E
  | .mxst _ => some .E
  | .mxmute _ => some .E
  | .phase _ => some .E
  | .phq _ => some .E
  | .mxstop _ => some .E
  | .tklend _ => some .Y
  | .tkret _ => some .Y
  | .tksplit _ => some .Y
  | .tkjoin _ => some .Y
  | .tkshr _ => some .Y
  | .tkunsh _ => some .Y
  | .tkrcl _ => some .Y
  | .tkwait _ => some .Y
  | .tkwaitSh _ => some .Y
  | .tkqry _ => some .Y
  | .arrive _ => some .Y
  | .arriveRel _ => some .Y
  | .waitph _ => some .Y
  | .trig _ => some .Y
  | .grow _ => some .Y
  | .rmin _ => some .Y
  | .rmax _ => some .Y
  | .rsum _ => some .Y
  | .redf _ => some .Y
  | .amor _ => some .Y
  | .cas _ => some .Y
  | .yli _ => some .Y
  | .ymov _ => some .Y
  | .amoAdd _ => some .Y
  | .amoMin _ => some .Y
  | .amoMax _ => some .Y
  | .amoAnd _ => some .Y
  | .amoOr _ => some .Y
  | .amoXor _ => some .Y
  | .phdef _ => some .Y
  | .yadd _ => some .Y
  | .fetch _ => none
  | .taskRelease _ => none
  | .feAccessArrival _ => none
  | .fenceComplete _ => none
  | .copyAccept _ => none
  | .copyStart _ _ _ => none
  | .copyComplete _ _ => none
  | .followOnCommit _ _ => none
  | .arrayStart _ => none
  | .arrayStep _ => none
  | .arrayCommandEnd _ => none
  | .phaseWindowOpen _ => none
  | .phaseWindowEnd _ => none
  | .tokenMessageArrival _ => none
  | .tokenRecordClear _ _ => none
  | .phaseArrival _ => none
  | .roundReceive _ => none
  | .amoApply _ _ => none
  | .triggerCount _ => none
  | .growApply _ => none
  | .resultLand _ => none
  | .lateLoadArrival _ _ => none
  | .interlockedArrival _ _ => none
  | .writeAtHome _ => none
  | .spillProceed _ _ => none
  | .poolPush _ _ _ => none
  | .resvWrite _ _ _ => none
  | .tlbinv _ => none
  | .carveoutPeriod _ _ _ => none
  | .carveoutMoveDone _ => none
  | .semAcquire _ _ _ => none
  | .semRelease _ _ _ => none
  | .semLeaseExpire _ => none
  | .dispatcherTakeover => none
  | .queueEnable _ _ _ => none
  | .queueDisable _ _ _ => none
  | .queueConfigure _ _ _ => none
  | .queuePush _ _ _ => none
  | .launchRecordRead _ => none
  | .imageValidate _ => none
  | .dependenceMet _ => none
  | .launchAdmit _ => none
  | .issueDecision => none
  | .taskStart _ => none
  | .planeLoadDone _ => none
  | .contextEnd _ => none
  | .fatalContextError _ => none
  | .eltailWrite _ _ => none
  | .faultPop _ => none
  | .freplyServiced _ _ _ _ => none
  | .freplyRefused _ _ _ _ => none
  | .freplyEndContext _ _ _ _ => none
  | .preemptSuspend _ _ => none
  | .preemptSwapOutRelease _ _ => none
  | .preemptResume _ _ => none
  | .taskSuspend _ => none
  | .teamResume _ _ => none
  | .saveAreaCheck _ _ _ => none
  | .softError _ _ => none
  | .selfTestDone _ _ => none
  | .poisonConsumed _ => none
  | .teamReplay _ _ => none
  | .stackResetQuiesce _ _ => none
  | .stackResetNoQuiesce _ _ => none
  | .stackResetDone _ => none
  | .debugHaltRequest _ => none
  | .debugHalt _ => none
  | .debugResume _ => none
  | .debugDataWrite _ _ => none
  | .deadlockWalk => none
  | .nakRetry _ => none
  | .droopAlarm _ => none
  | .stretchEnd _ => none
  | .halfIssueWindowEnd _ => none
  | .thermalTrip _ => none
  | .currentTrip _ => none
  | .tripClear _ => none
  | .clockSet _ _ => none
  | .vsetWrite _ _ => none
  | .relockDone _ _ => none
  | .watchdogKick _ _ => none
  | .watchdogExpire => none
  | .registerWrite _ _ _ _ => none
  | .contextConfigure _ _ => none
  | .clusterQuiesceRequest _ _ => none
  | .clusterPowerCommand _ _ => none
  | .clusterWake _ => none
  | .clusterTransitionDone _ => none
  | .pfSelect _ => none
  | .attestRequest _ => none
  | .attestDone _ => none
  | .linkEnable _ _ => none
  | .linkUp _ _ => none
  | .routeWrite _ _ => none
  | .moduleUnreachable _ => none
  | .remoteGrantReceive _ => none
  | .remoteArrival _ => none
  | .flitReceive _ _ => none
  | .flitReplay _ => none
  | .campionReset _ => none
  | .moduleReset => none
  | .bringUpStage _ => none
  | .tlbDropComplete _ => none
  | .arrivalAcknowledgement _ _ => none

/-- The syllable of an instruction (R113, R118, R121); an event has none and answers zero. -/
def encode : Instr → Word
  | .nop _ f => packN 0x00#7 f
  | .xcp _ f => packX 0x01#7 f
  | .br f => packCB 0x02#7 f
  | .brx f => packCR 0x03#7 f
  | .call f => packCB 0x04#7 f
  | .callx f => packCR 0x05#7 f
  | .ret f => packCR 0x06#7 f
  | .loop f => packCR 0x07#7 f
  | .loopRot f => packCB 0x08#7 f
  | .lpend f => packCB 0x09#7 f
  | .lpbrk f => packCB 0x0A#7 f
  | .endTask f => packN 0x0B#7 f
  | .svc f => packCK 0x0C#7 f
  | .brk f => packCK 0x0D#7 f
  | .sysr f => packCS 0x0E#7 f
  | .sysw f => packCS 0x0F#7 f
  | .tstamp f => packCR 0x10#7 f
  | .rdcyc f => packCR 0x11#7 f
  | .cli f => packCI 0x12#7 f
  | .cmov f => packCR 0x13#7 f
  | .cadd f => packCR 0x14#7 f
  | .csub f => packCR 0x15#7 f
  | .cand f => packCR 0x16#7 f
  | .cor f => packCR 0x17#7 f
  | .cxor f => packCR 0x18#7 f
  | .ccmp f => packCR 0x19#7 f
  | .pand f => packCP 0x1A#7 f
  | .por f => packCP 0x1B#7 f
  | .pxor f => packCP 0x1C#7 f
  | .pmov f => packCP 0x1D#7 f
  | .pset f => packCP 0x1E#7 f
  | .setld f => packCR 0x1F#7 f
  | .add f => packAR 0x02#7 f
  | .sub f => packAR 0x03#7 f
  | .mul f => packAR 0x04#7 f
  | .mulh f => packAR 0x05#7 f
  | .div f => packAR 0x06#7 f
  | .rem f => packAR 0x07#7 f
  | .and f => packAR 0x08#7 f
  | .or f => packAR 0x09#7 f
  | .xor f => packAR 0x0A#7 f
  | .andn f => packAR 0x0B#7 f
  | .shl f => packAR 0x0C#7 f
  | .shr f => packAR 0x0D#7 f
  | .sar f => packAR 0x0E#7 f
  | .rot f => packAR 0x0F#7 f
  | .min f => packAR 0x10#7 f
  | .max f => packAR 0x11#7 f
  | .abs f => packAR 0x12#7 f
  | .neg f => packAR 0x13#7 f
  | .cmp f => packAR 0x14#7 f
  | .sel f => packAR 0x15#7 f
  | .mov f => packAR 0x16#7 f
  | .li f => packAI 0x17#7 false f
  | .lih f => packAI 0x18#7 false f
  | .lihHi f => packAI 0x18#7 true f
  | .bfx f => packAF 0x19#7 f
  | .bfi f => packAF 0x1A#7 f
  | .clz f => packAR 0x1B#7 f
  | .ctz f => packAR 0x1C#7 f
  | .pcnt f => packAR 0x1D#7 f
  | .brev f => packAR 0x1E#7 f
  | .bswap f => packAR 0x1F#7 f
  | .lea f => packAR 0x20#7 f
  | .sadd f => packAR 0x21#7 f
  | .ssub f => packAR 0x22#7 f
  | .madd f => packAR 0x23#7 f
  | .ext f => packAR 0x24#7 f
  | .clamp f => packAR 0x25#7 f
  | .tst f => packAR 0x26#7 f
  | .addc f => packAR 0x27#7 f
  | .subb f => packAR 0x28#7 f
  | .hmix f => packAR 0x29#7 f
  | .align f => packAR 0x2A#7 f
  | .crc f => packAR 0x2B#7 f
  | .bset f => packAR 0x2C#7 f
  | .bclr f => packAR 0x2D#7 f
  | .bflip f => packAR 0x2E#7 f
  | .pack f => packAR 0x2F#7 f
  | .crd f => packAI 0x48#7 false f
  | .rank f => packAI 0x49#7 false f
  | .rankSz f => packAI 0x49#7 true f
  | .cbase f => packAI 0x4A#7 false f
  | .argb f => packAI 0x4B#7 false f
  | .locq f => packAI 0x4C#7 false f
  | .locqSelf f => packAI 0x4C#7 true f
  | .ctxid f => packAI 0x4D#7 false f
  | .ctxidLid f => packAI 0x4D#7 true f
  | .rdld f => packAI 0x4E#7 false f
  | .rdrb f => packAI 0x4F#7 false f
  | .vadd f => packVR 0x02#7 f
  | .vsub f => packVR 0x03#7 f
  | .vmul f => packVR 0x04#7 f
  | .vfma f => packVR 0x05#7 f
  | .vfms f => packVR 0x06#7 f
  | .vfnma f => packVR 0x07#7 f
  | .vmin f => packVR 0x08#7 f
  | .vmax f => packVR 0x09#7 f
  | .vabs f => packVR 0x0A#7 f
  | .vneg f => packVR 0x0B#7 f
  | .vfrcp f => packVR 0x0C#7 f
  | .vfsqrt f => packVR 0x0D#7 f
  | .vdiv f => packVR 0x0E#7 f
  | .vscl f => packVR 0x0F#7 f
  | .vcmp f => packVR 0x10#7 f
  | .vsel f => packVR 0x11#7 f
  | .vany f => packVK 0x12#7 f
  | .vall f => packVK 0x13#7 f
  | .kand f => packVK 0x14#7 f
  | .kor f => packVK 0x15#7 f
  | .kxor f => packVK 0x16#7 f
  | .kmov f => packVK 0x17#7 f
  | .vand f => packVR 0x18#7 f
  | .vor f => packVR 0x19#7 f
  | .vxor f => packVR 0x1A#7 f
  | .vandn f => packVR 0x1B#7 f
  | .vshl f => packVR 0x1C#7 f
  | .vshr f => packVR 0x1D#7 f
  | .vsar f => packVR 0x1E#7 f
  | .vmov f => packVR 0x1F#7 f
  | .vperm f => packVP 0x20#7 f
  | .vshuf f => packVP 0x21#7 f
  | .vrotl f => packVP 0x22#7 f
  | .vbrev f => packVP 0x23#7 f
  | .vzip f => packVP 0x24#7 f
  | .vuzp f => packVP 0x25#7 f
  | .vlane f => packVI 0x26#7 f
  | .vli f => packVI 0x27#7 f
  | .vcmul f => packVR 0x28#7 f
  | .vbfly f => packVR 0x29#7 f
  | .vconj f => packVR 0x2A#7 f
  | .vmulh f => packVR 0x2B#7 f
  | .vsadd f => packVR 0x2C#7 f
  | .vssub f => packVR 0x2D#7 f
  | .vdot f => packVR 0x2E#7 f
  | .vpcnt f => packVR 0x2F#7 f
  | .vcvt f => packVC 0x30#7 f
  | .vqnt f => packVC 0x31#7 f
  | .vdqnt f => packVC 0x32#7 f
  | .vamax f => packVC 0x33#7 f
  | .vred f => packVR 0x34#7 f
  | .vcnt f => packVC 0x35#7 f
  | .vpack4 f => packVC 0x36#7 f
  | .vunpk4 f => packVC 0x37#7 f
  | .vclz f => packVR 0x38#7 f
  | .vrnd f => packVR 0x39#7 f
  | .vclass f => packVR 0x3A#7 f
  | .vmadd f => packVR 0x3B#7 f
  | .vext f => packVR 0x3C#7 f
  | .vclamp f => packVR 0x3D#7 f
  | .vinsl f => packVP 0x3E#7 f
  | .kpop f => packVK 0x3F#7 f
  | .vsort2 f => packVR 0x40#7 f
  | .vmaxi f => packVR 0x41#7 f
  | .vmini f => packVR 0x42#7 f
  | .vbcst f => packVP 0x43#7 f
  | .vsgn f => packVR 0x44#7 f
  | .vmerge f => packVR 0x45#7 f
  | .vtrn f => packVP 0x46#7 f
  | .vrev f => packVP 0x47#7 f
  | .ld f => packML 0x02#7 f
  | .st f => packML 0x03#7 f
  | .ldv f => packML 0x04#7 f
  | .stv f => packML 0x05#7 f
  | .ldpi f => packML 0x06#7 f
  | .stpi f => packML 0x07#7 f
  | .ldf f => packML 0x08#7 f
  | .lde f => packML 0x09#7 f
  | .ste f => packML 0x0A#7 f
  | .stf f => packML 0x0B#7 f
  | .clre f => packML 0x0C#7 f
  | .gth f => packMG 0x0D#7 f
  | .sct f => packMG 0x0E#7 f
  | .ldb f => packML 0x0F#7 f
  | .probe f => packML 0x10#7 f
  | .pref f => packML 0x11#7 f
  | .disc f => packML 0x12#7 f
  | .cbdef f => packML 0x13#7 f
  | .cbget f => packML 0x14#7 f
  | .cbput f => packML 0x15#7 f
  | .fence f => packML 0x16#7 f
  | .cbqry f => packML 0x17#7 f
  | .ldvs f => packMG 0x18#7 f
  | .stvs f => packMG 0x19#7 f
  | .ldvm f => packMG 0x1A#7 f
  | .stvm f => packMG 0x1B#7 f
  | .mmov f => packMI 0x1C#7 f
  | .xadd f => packMI 0x1D#7 f
  | .xli f => packMI 0x1E#7 f
  | .xmov f => packMI 0x1F#7 f
  | .cpy f => packEC 0x02#7 f
  | .cpymx f => packEC 0x03#7 f
  | .cpyMig f => packEC 0x04#7 f
  | .cpyq f => packEC 0x05#7 f
  | .cpyx f => packEC 0x06#7 f
  | .mxfmt f => packEI 0x08#7 f
  | .mxlen f => packEI 0x09#7 f
  | .mxseed f => packEM 0x0A#7 f
  | .mxthr f => packEM 0x0B#7 f
  | .mxset f => packEM 0x0C#7 f
  | .mxgo f => packEM 0x0D#7 f
  | .mxgos f => packEM 0x0E#7 f
  | .mxgoa f => packEM 0x0F#7 f
  | .mxdrain f => packEI 0x10#7 f
  | .mxrd f => packEM 0x11#7 f
  | .mxclr f => packEI 0x12#7 f
  | .mxsel f => packEI 0x13#7 f
  | .mxst f => packEM 0x14#7 f
  | .mxmute f => packEM 0x15#7 f
  | .phase f => packEP 0x16#7 f
  | .phq f => packEI 0x17#7 f
  | .mxstop f => packEI 0x18#7 f
  | .tklend f => packYT 0x02#7 f
  | .tkret f => packYT 0x03#7 f
  | .tksplit f => packYT 0x04#7 f
  | .tkjoin f => packYT 0x05#7 f
  | .tkshr f => packYT 0x06#7 f
  | .tkunsh f => packYT 0x07#7 f
  | .tkrcl f => packYT 0x08#7 f
  | .tkwait f => packYT 0x09#7 f
  | .tkwaitSh f => packYT 0x09#7 f
  | .tkqry f => packYT 0x0A#7 f
  | .arrive f => packYS 0x0B#7 f
  | .arriveRel f => packYS 0x0C#7 f
  | .waitph f => packYS 0x0D#7 f
  | .trig f => packYS 0x0E#7 f
  | .grow f => packYS 0x0F#7 f
  | .rmin f => packYS 0x10#7 f
  | .rmax f => packYS 0x11#7 f
  | .rsum f => packYS 0x12#7 f
  | .redf f => packYS 0x13#7 f
  | .amor f => packYS 0x14#7 f
  | .cas f => packYS 0x15#7 f
  | .yli f => packYI 0x16#7 f
  | .ymov f => packYS 0x17#7 f
  | .amoAdd f => packYS 0x18#7 f
  | .amoMin f => packYS 0x19#7 f
  | .amoMax f => packYS 0x1A#7 f
  | .amoAnd f => packYS 0x1B#7 f
  | .amoOr f => packYS 0x1C#7 f
  | .amoXor f => packYS 0x1D#7 f
  | .phdef f => packYS 0x1E#7 f
  | .yadd f => packYS 0x1F#7 f
  | .fetch _ => 0#64
  | .taskRelease _ => 0#64
  | .feAccessArrival _ => 0#64
  | .fenceComplete _ => 0#64
  | .copyAccept _ => 0#64
  | .copyStart _ _ _ => 0#64
  | .copyComplete _ _ => 0#64
  | .followOnCommit _ _ => 0#64
  | .arrayStart _ => 0#64
  | .arrayStep _ => 0#64
  | .arrayCommandEnd _ => 0#64
  | .phaseWindowOpen _ => 0#64
  | .phaseWindowEnd _ => 0#64
  | .tokenMessageArrival _ => 0#64
  | .tokenRecordClear _ _ => 0#64
  | .phaseArrival _ => 0#64
  | .roundReceive _ => 0#64
  | .amoApply _ _ => 0#64
  | .triggerCount _ => 0#64
  | .growApply _ => 0#64
  | .resultLand _ => 0#64
  | .lateLoadArrival _ _ => 0#64
  | .interlockedArrival _ _ => 0#64
  | .writeAtHome _ => 0#64
  | .spillProceed _ _ => 0#64
  | .poolPush _ _ _ => 0#64
  | .resvWrite _ _ _ => 0#64
  | .tlbinv _ => 0#64
  | .carveoutPeriod _ _ _ => 0#64
  | .carveoutMoveDone _ => 0#64
  | .semAcquire _ _ _ => 0#64
  | .semRelease _ _ _ => 0#64
  | .semLeaseExpire _ => 0#64
  | .dispatcherTakeover => 0#64
  | .queueEnable _ _ _ => 0#64
  | .queueDisable _ _ _ => 0#64
  | .queueConfigure _ _ _ => 0#64
  | .queuePush _ _ _ => 0#64
  | .launchRecordRead _ => 0#64
  | .imageValidate _ => 0#64
  | .dependenceMet _ => 0#64
  | .launchAdmit _ => 0#64
  | .issueDecision => 0#64
  | .taskStart _ => 0#64
  | .planeLoadDone _ => 0#64
  | .contextEnd _ => 0#64
  | .fatalContextError _ => 0#64
  | .eltailWrite _ _ => 0#64
  | .faultPop _ => 0#64
  | .freplyServiced _ _ _ _ => 0#64
  | .freplyRefused _ _ _ _ => 0#64
  | .freplyEndContext _ _ _ _ => 0#64
  | .preemptSuspend _ _ => 0#64
  | .preemptSwapOutRelease _ _ => 0#64
  | .preemptResume _ _ => 0#64
  | .taskSuspend _ => 0#64
  | .teamResume _ _ => 0#64
  | .saveAreaCheck _ _ _ => 0#64
  | .softError _ _ => 0#64
  | .selfTestDone _ _ => 0#64
  | .poisonConsumed _ => 0#64
  | .teamReplay _ _ => 0#64
  | .stackResetQuiesce _ _ => 0#64
  | .stackResetNoQuiesce _ _ => 0#64
  | .stackResetDone _ => 0#64
  | .debugHaltRequest _ => 0#64
  | .debugHalt _ => 0#64
  | .debugResume _ => 0#64
  | .debugDataWrite _ _ => 0#64
  | .deadlockWalk => 0#64
  | .nakRetry _ => 0#64
  | .droopAlarm _ => 0#64
  | .stretchEnd _ => 0#64
  | .halfIssueWindowEnd _ => 0#64
  | .thermalTrip _ => 0#64
  | .currentTrip _ => 0#64
  | .tripClear _ => 0#64
  | .clockSet _ _ => 0#64
  | .vsetWrite _ _ => 0#64
  | .relockDone _ _ => 0#64
  | .watchdogKick _ _ => 0#64
  | .watchdogExpire => 0#64
  | .registerWrite _ _ _ _ => 0#64
  | .contextConfigure _ _ => 0#64
  | .clusterQuiesceRequest _ _ => 0#64
  | .clusterPowerCommand _ _ => 0#64
  | .clusterWake _ => 0#64
  | .clusterTransitionDone _ => 0#64
  | .pfSelect _ => 0#64
  | .attestRequest _ => 0#64
  | .attestDone _ => 0#64
  | .linkEnable _ _ => 0#64
  | .linkUp _ _ => 0#64
  | .routeWrite _ _ => 0#64
  | .moduleUnreachable _ => 0#64
  | .remoteGrantReceive _ => 0#64
  | .remoteArrival _ => 0#64
  | .flitReceive _ _ => 0#64
  | .flitReplay _ => 0#64
  | .campionReset _ => 0#64
  | .moduleReset => 0#64
  | .bringUpStage _ => 0#64
  | .tlbDropComplete _ => 0#64
  | .arrivalAcknowledgement _ _ => 0#64

/-- A bundle's 384 bits (R112). -/
abbrev Bundle := BitVec 384

/-- The place of a slot in a bundle. -/
def slotIx : Slot → Nat
  | .C => 0
  | .A => 1
  | .V => 2
  | .M => 3
  | .E => 4
  | .Y => 5

/-- The syllable of one slot (R112). -/
def sylOf (b : Bundle) (sl : Slot) : Word := b.extractLsb' (64 * slotIx sl) 64

/-- The slots in their order. -/
def allSlots : List Slot := [.C, .A, .V, .M, .E, .Y]

/-- Whether a syllable's opcode is assigned in its slot (R123 step 2). -/
def opcodeKnown (sl : Slot) (w : Word) : Bool :=
  match decodeFields sl w with
  | .error .reservedOpcode => false
  | _ => true

/-- R123 steps 2 and 3 on a bundle: every opcode in slot order, then every syllable's fields in slot order. A failure names
the slot. -/
def decodeSyls (b : Bundle) : List Slot → Except (DecodeErr × Slot) (List Instr)
  | [] => .ok []
  | sl :: t =>
    match decodeSyl sl (sylOf b sl) with
    | .error e => .error (e, sl)
    | .ok i =>
      match decodeSyls b t with
      | .error e => .error e
      | .ok l => .ok (i :: l)

def decodeBundle (b : Bundle) : Except (DecodeErr × Slot) (List Instr) :=
  match allSlots.find? (fun sl => !opcodeKnown sl (sylOf b sl)) with
  | some sl => .error (.reservedOpcode, sl)
  | none => decodeSyls b allSlots

/-- A `nop` with nothing in it. -/
def plainNop : Instr → Bool
  | .nop _ f => f.stall == 0#4
  | _ => false

/-- The bundle that holds one instruction in its slot and `nop` elsewhere. -/
def bundleOf (i : Instr) : Bundle :=
  match slotOf i with
  | some sl => BitVec.ofNat 384 ((encode i).toNat * 2 ^ (64 * slotIx sl))
  | none => 0#384

/-- The instruction of a bundle's bits: the first syllable that is not a plain `nop`, else the C slot's `nop`. -/
def decodeTableWord (nbits w : Nat) : Option Instr :=
  match decodeBundle (BitVec.ofNat 384 (w % 2 ^ nbits)) with
  | .ok l => (l.find? (fun i => !plainNop i)).or l.head?
  | .error _ => none

end Sys2Proof
end

