-- ==== Sys2Proof/Machine/State.lean ====
section
/-! DEFINITION. The state of one module: every register, queue, table and memory the spec gives it, as plain data. An
entry that a sparse table does not list reads as the table's default. -/

namespace Sys2Proof.Machine

/-! ## Faults and refusals -/

/-- No instruction or step of this model ends in a fault of its own: a fatal context error is a next state (R426 to R429).
The one reason below is kept for a machine whose memory is not in its canonical form. -/
inductive Fault where
  /-- Raised by no instruction; safe. -/
  | brokenMemory
  deriving DecidableEq, Repr

/-- Why an instruction is not carried out. -/
inductive Refusal where
  /-- An arm that has no meaning yet; raised by the dispatcher alone; safe. -/
  | notModelled (mnemonic : String)
  deriving DecidableEq, Repr

/-! ## The core's delivery state -/

/-- Where a result lands (R131, R435): an entry of a slot's file by physical number, an operand-file entry, the latch alone,
a guard-file entry, a lane mask, a loop counter, the rotating bases, or the live depths. -/
inductive Dest where
  | main (sl : Slot) (i : Nat)
  | opf (sl : Slot) (i : Nat)
  | latch (sl : Slot)
  | pred (i : Nat)
  | mask (i : Nat)
  | lc (i : Nat)
  | rot
  | depth
  deriving DecidableEq, Repr

/-- A fixed-latency result in flight (R137, R435): issue cycles until it lands, issue order of its bundle, destination,
value, FSTAT flags, whether its register was dead at issue, whether its data comes from memory, whether that data is late
(R140), and whether the first word of its value in the snapshot buffer is poisoned (R440). -/
structure Flight where
  rem : Nat
  ord : Nat
  dest : Dest
  val : Vec
  fl : BitVec 7
  dead : Bool
  mem : Bool
  late : Bool
  bad : Bool
  deriving DecidableEq, Repr

/-- What an interlocked access waits for (R141, R256). -/
inductive PendKind where
  /-- A value fetched from memory or a window (class-2 loads, gathers, `tkqry`, `cpyq`, `mxrd`, `mxst`, `probe`). -/
  | value
  /-- A full/empty load, with its number among the accesses of R370. -/
  | feWait (lde : Bool) (pa : Nat) (aux : BitVec 4) (sc : Scope) (seq : Nat)
  | cbget (b : Nat)
  | locq (coord : Word)
  | round
  | handle (op : Nat)
  /-- A full/empty load that has been performed: the scopes of the releases it read, and the operations that it joins, once its value
  arrives (R265, R285, R371). -/
  | feGot (scs : List Scope) (joins : List Nat)
  deriving DecidableEq, Repr

/-- An entry of the interlocked queue (R141): its number, destination, kind, its value once performed, and whether its register was
dead at issue (R146). -/
structure Pend where
  id : Nat
  dest : Dest
  kind : PendKind
  val : Option Vec
  fl : BitVec 7
  dead : Bool
  deriving DecidableEq, Repr

/-- The forms of an array command (R319). -/
inductive MxForm where
  | go | gos | goa
  deriving DecidableEq, Repr

/-- A waiting instruction: the bundle after it does not issue until it completes (R267, R269, R323, R386, R455). -/
inductive Wait where
  | fence (sc : Scope) (upto : Nat)
  | probe (va len : Word) (aux : BitVec 4) (dest : Dest)
  | tlbinv (n : Nat)
  | token (share : Bool) (va : Word) (base size : Nat)
  | recall (base size : Nat)
  | phase (ph : Nat) (inst : Nat)
  /-- A commit that waits for the pending slot, with the scratchpad words and the column-store bytes that its command reads as they
  stood when it was issued (R308, R319). -/
  | commit (arr : Nat) (form : MxForm) (scale : Word) (gr : Nat) (scr : Tab (BitVec 32)) (cols : Tab Byte)
  | joinAll (arr : Nat) (dest : Option Dest) (stop : Bool)
  | joinSet (arr set : Nat) (dest : Dest)
  | joinCmd (arr : Nat) (cmd : Nat)
  | unshare (base size : Nat) (sc : Scope)
  /-- A `tksplit` that waits for a record for its upper half (R367, R392). -/
  | split (base size : Nat)
  | endTask
  deriving DecidableEq, Repr

/-- The register files of a task (R116, R131, R143, R176): main files, operand files, latches, guard file, lane masks,
rotating bases and depths, loop counters. -/
structure Regs where
  c : Tab Word
  a : Tab Word
  v : Tab Vec
  x : Tab Word
  m : Tab Vec
  e : Tab Word
  y : Tab Word
  co : Tab Word
  ao : Tab Word
  vo : Tab Vec
  mo : Tab Vec
  eo : Tab Word
  yo : Tab Word
  cl : Word
  al : Word
  vl : Vec
  ml : Vec
  el : Word
  yl : Word
  p : BitVec 64
  k : Tab (BitVec 32)
  arb : BitVec 4
  vrb : BitVec 5
  ald : BitVec 5
  vld : BitVec 6
  lc : Tab (BitVec 32)
  deriving DecidableEq, Repr

/-- Every register zero (R98). -/
def Regs.zero : Regs :=
  ⟨[], [], [], [], [], [], [], [], [], [], [], [], [], 0#64, 0#64, 0#1024, 0#1024, 0#64, 0#64, 0#64, [], 0#4, 0#5, 0#5,
   0#6, []⟩

/-! ## Stream arrays (R310) -/

/-- A committed command with the copies of R311. `vecs` are the scratchpad offsets of each vector's 128-byte parts, `scale`
that of its scale block. `v` is the vector in progress, `t` its next step, `load` the cycles still to run before a step,
`started` whether it has become current and started (R341), `cov` the class of the declaration that covered its start,
`half` the half rate and `beat` its phase; `scr` and `cols` are the scratchpad words and the column-store
bytes that it reads, as they stood when it was issued (R308). -/
structure Cmd where
  id : Nat
  form : MxForm
  fmt : BitVec 17
  sl : Nat
  thr : Tab (BitVec 32)
  seed1 : Tab (BitVec 16)
  seed2 : Tab (BitVec 16)
  mute : BitVec 256
  gcol : Nat
  gw : Nat
  vecs : List (List Nat)
  ctrl : Word
  scale : Option Nat
  gr : Nat
  v : Nat
  t : Nat
  load : Nat
  started : Bool
  cov : Option (BitVec 3)
  half : Bool
  beat : Bool
  ended : Bool
  scr : Tab (BitVec 32)
  cols : Tab Byte
  deriving DecidableEq, Repr

/-- One array (R310). `cmds` are the committed commands that still hold bytes or sets (R323), by number; `unj` the sets of
each that no join has covered. -/
structure ArrayS where
  fmt : BitVec 17
  sl : Nat
  thr : Tab (BitVec 32)
  seed1 : Tab (BitVec 16)
  seed2 : Tab (BitVec 16)
  mute : BitVec 256
  gcol : Nat
  gw : Nat
  abase : Word
  ctrl : Word
  cur : Option Cmd
  pnd : Option Cmd
  holds : List (Cmd × List Nat)
  counts : Tab (BitVec 32)
  stat : Tab Word
  drn : Bool
  nextCmd : Nat
  deriving DecidableEq, Repr

/-- An array at the reset values of R310, before a format-pair or seeds record applies. -/
def ArrayS.reset : ArrayS :=
  ⟨0x7700#17, 1, [], [], [], 0#256, 0, 0, 0#64, 0#64, none, none, [], [], [], true, 0⟩

/-- A circular buffer (R247): virtual base, scratchpad offset, size, count and counters. `claim` lists the claimed slots in
claim order with whether each is filled. -/
structure CircBuf where
  base : Word
  off : Nat
  size : Nat
  count : Nat
  free : Nat
  filled : Nat
  rd : Nat
  wr : Nat
  held : Nat
  claim : List (Nat × Bool)
  queued : Nat
  deriving DecidableEq, Repr

/-- A copy operation as its issuing task sees it (R285, R291). `cw` is its completion word (0: none) and `stored` whether
the word holds the store of R284; `cb` and `slot` its circular buffer and claimed slot. -/
structure TaskOp where
  done : Bool
  joined : Bool
  bytes : Nat
  cw : Nat
  stored : Bool
  cb : Option Nat
  slot : Option Nat
  /-- Lent destination regions and shared source regions (base, size). -/
  lent : List (Nat × Nat)
  shared : List (Nat × Nat)
  under : List (Nat × Nat)
  arr : Option Nat
  deriving DecidableEq, Repr

/-- A recoverable event that suspended the task (R430, R432). -/
structure EventS where
  kind : Nat
  ent : Nat
  info : Word
  seq : BitVec 32
  answered : Bool
  refused : Bool
  value : Word
  deriving DecidableEq, Repr

/-- A task: identity, fetch state, registers, results in flight, scratchpad, arrays and what it has issued. -/
structure Task where
  ctx : CtxId
  launch : Nat
  coord : BitVec 48
  rank : Nat
  team : Nat
  fpos : Word
  /-- The position fetched after the bundle that issues (R107, R109). -/
  npos : Word
  idle : Nat
  regs : Regs
  fstat : BitVec 7
  flight : List Flight
  pend : List Pend
  nextPend : Nat
  waits : List Wait
  ord : Nat
  cyc : Nat
  /-- The f64 bundle of R200 issued in the last issue cycle. -/
  vbusy : Bool
  /-- A bundle fetched and checked, waiting to issue (R142, R338). -/
  latched : Option Bundle
  /-- The words at `npos` have not reached the fetch buffer (R110). -/
  noWords : Bool
  scratch : Tab (BitVec 32)
  full : List Nat
  col : Tab Byte
  arr0 : ArrayS
  arr1 : ArrayS
  cbs : Tab CircBuf
  trig : Bool
  arrived : Tab Nat
  handles : Nat
  ops : Tab TaskOp
  events : BitVec 32
  event : Option EventS
  failed : Bool
  ended : Bool
  suspend : Bool
  /-- Held suspended by a PRECMD command (R434). -/
  pre : Bool
  /-- The value and answer of a reply whose co7 and p63 land at the end of the first issue cycle after resume (R432). -/
  reply : Option (Word × Bool)
  /-- The page of a refused probe, until the probe completes (R271). -/
  probeRefused : Option Word
  /-- Regions the task lent and has not waited for since, whose token went to rest (base, SIZE, depth; R372, R388, R393). -/
  lentOut : List (Nat × Nat × Nat)
  /-- NAKs that the waiting claim or split has met (R367). -/
  naks : Nat
  /-- The buffer that a `cbdef` of the issuing bundle has changed, with what it was for copies of that bundle (R274). -/
  cbChanged : Option (Nat × Option CircBuf)
  /-- Poisoned register-file words of the task, by destination and 64-bit word, and poisoned words of 64 tags (R440). -/
  bad : List (Dest × Nat)
  badTags : List Nat
  /-- The save slot that the task holds while it is suspended, and whether area B has the latest save (R438, R439). -/
  saveSlot : Option Nat
  areaB : Bool
  /-- `end` has made its release and settled its records, and waits for its returns to reach rest (R182, R463). -/
  settled : Bool
  /-- By scratchpad word, the scope of the release whose value the word holds (R265, R371). -/
  rel : Tab Scope
  deriving DecidableEq, Repr

/-- A task with the state of R98. -/
def Task.fresh (ctx : CtxId) (launch : Nat) (coord : BitVec 48) (rank team : Nat) (entry : Word) : Task :=
  ⟨ctx, launch, coord, rank, team, entry, entry, 0, Regs.zero, 0#7, [], [], 0, [], 0, 0, false, none, false, [], [], [], ArrayS.reset,
   ArrayS.reset, [], false, [], 0, [], 0#32, none, false, false, false, false, none, none, [],
   0, none, [], [], none, false, false, []⟩

/-! ## Translations -/

/-- A mapping of one page as an access uses it: a leaf entry, or the heap triple. `base` is the physical address of the
page's first byte, `vbase` its virtual address, `bits` log2 of its size, `leafPa` where the leaf entry (the first of a group)
lies, 0 for the heap. -/
structure Leaf where
  pa : Nat
  base : Nat
  vbase : Nat
  bits : Nat
  home : StackId
  lclass : Nat
  unb : Bool
  late : Bool
  atom : Bool
  ro : Bool
  x : Bool
  w : Bool
  heap : Bool
  leafPa : Nat
  deriving DecidableEq, Repr

/-- A translation that a TLB holds (R229): the context and the mapping, with the page's first byte as its address. -/
structure TlbEnt where
  ctx : CtxId
  leaf : Leaf
  deriving DecidableEq, Repr

/-! ## Cores, clusters, stacks -/

/-- The tag of a configuration plane (R93): context, image address, digest. -/
structure PlaneTag where
  ctx : CtxId
  image : Word
  digest : BitVec 256
  deriving DecidableEq, Repr

/-- The states of a configuration plane (R93). -/
inductive PlaneSt where
  | empty | loading | loaded | active
  deriving DecidableEq, Repr

/-- A configuration plane and the bundles it holds. `retry` says that it has been reloaded and not been found good since (R97, R443),
`bad` that a word of it is poisoned (R440). -/
structure Plane where
  st : PlaneSt
  tag : Option PlaneTag
  dict : List Bundle
  retry : Bool
  bad : Bool
  deriving DecidableEq, Repr

def Plane.reset : Plane := ⟨.empty, none, [], false, false⟩

/-- Who last wrote a cached line and what its page says of it: what a write needs when it reaches its home (R236, R241, R427). `va`
is the virtual address of the line's first byte; `leafPa` is 0 for a heap line; `fpos` is the fetch position of its bundle, and
`handle` the engine operation whose write it is, if it is one's. -/
structure WrTag where
  core : CoreId
  ctx : CtxId
  launch : Nat
  coord : BitVec 48
  home : StackId
  leafPa : Nat
  late : Bool
  va : Word
  /-- LCLASS of the page (R235). -/
  cls : Nat
  fpos : BitVec 32
  handle : Option Nat
  deriving DecidableEq, Repr

/-- A line of a core's L1 or of a cluster cache (R236, R370): data, dirty bytes, touch bits, its last writer while a byte is
dirty, and its poisoned 64-bit words (R440). -/
structure Line where
  data : BitVec 1024
  dirty : BitVec 128
  touch : BitVec 4
  wr : Option WrTag
  bad : BitVec 16
  deriving DecidableEq, Repr

/-- A backed line that a home L2 holds (R236, R238): number, data, whether LPDDR has not got it yet, the context of its latest
writer (R468), whether it is a class-0 line pinned in the storage part and by which leaf entry (R235), and its poisoned words. -/
structure L2Line where
  line : Nat
  data : BitVec 1024
  dirty : Bool
  wr : Option CtxId
  pin : Bool
  leafPa : Nat
  bad : BitVec 16
  deriving DecidableEq, Repr

/-- A core's declaration (R340, R344): window in cluster cycles, whether it has opened, and whether its ONSET of 64 or more lets
the rail reach its target before the window opens (R343). -/
structure Decl where
  isVoid : Bool
  from_ : Nat
  to_ : Nat
  icls : BitVec 3
  bid : BitVec 6
  opened : Bool
  early : Bool
  deriving DecidableEq, Repr

/-- The task in a core's next slot: a new one, or a suspended one that re-enters (R90, R103). `seq` is the order in which
the stack accepted its team. -/
inductive Asg where
  | new (ctx : CtxId) (launch : Nat) (coord : BitVec 48) (rank team seq : Nat)
  | resume (t : Task) (seq : Nat)
  deriving DecidableEq, Repr

/-- One core (R16). -/
structure CoreS where
  live : Option Task
  next : Option Asg
  act : Plane
  shd : Plane
  l1 : Tab Line
  decl : Option Decl
  weights : List Nat
  fenced : Bool
  hlt : Bool
  /-- The cause of a halt that waits for the bundle boundary (R452), 0 where none does. -/
  haltReq : Nat
  brkh : Bool
  cause : Nat
  dbgsel : Word
  /-- Uncorrectable errors that struck a save of the core's task in progress (R439). -/
  saveErrs : Nat
  /-- The micro-TLB: at most 256 translations, the latest first (R16, R229). -/
  tlb : List TlbEnt
  /-- The token cache: at most 64 records of the core's task, by home stack and number, the latest first (R16, R368). -/
  tokc : List (Nat × Nat)
  deriving DecidableEq, Repr

def CoreS.reset : CoreS :=
  ⟨none, none, Plane.reset, Plane.reset, [], none, [], false, false, 0, false, 0, 0#64, 0, [], []⟩

/-- One cluster: its cache, its execution power registers (R336), its droop state (R345, R346), its trips (R354), its clock
(R348, R349) and its handshake block (R480). -/
structure ClusterS where
  cc : Tab Line
  cyc : Nat
  lim : BitVec 10
  drth : BitVec 8
  dstr : BitVec 4
  dhiw : BitVec 10
  gap : BitVec 6
  fmhz : BitVec 12
  busy : Bool
  ref : Bool
  vset : BitVec 10
  pre : BitVec 8
  safe : Bool
  ttrip : Bool
  ctrip : Bool
  drp : BitVec 8
  /-- A stretch (R345) or a half-issue window (R346) has begun and not been ended; their cycles still to run, and those of the
  window that have run. -/
  strOn : Bool
  stretch : Nat
  hiwOn : Bool
  hiw : Nat
  hiwPos : Nat
  hot : Bool
  overCur : Bool
  lastStart : Option Nat
  /-- Writes to CFREQ (true) and VSET that arrived during a relock (R348). -/
  pendW : List (Bool × Word)
  req : Bool
  tgt : BitVec 3
  pst : BitVec 3
  pbusy : Bool
  pref : Bool
  saved : Bool
  wkp : Bool
  goal : BitVec 3
  safePend : Bool
  /-- VSET takes the safe operating point when the relock under way ends (R348, R355). -/
  safeV : Bool
  /-- Device time at which the cluster's next cycle begins: whole nanoseconds, and the rest in units of 1/FMHZ ns (R32, R347). -/
  edge : Nat
  sub : Nat
  /-- An alarm has come, and its stretch begins at the end of the next cycle (R345). -/
  alarm : Bool
  /-- Device time at which the relock under way stopped the clock (R349). -/
  stopAt : Nat
  /-- FMHZ and VSET written while the cluster was not ON, for its next wake (R482, R483). -/
  nextF : Option Nat
  nextV : Option Nat
  /-- How far a wake has come: 0 the rail rises, 1 the logic is restored and its BIST runs, 2 the relock, where one is made, has
  begun (R483). -/
  wkStep : Nat
  deriving DecidableEq, Repr

/-- A cluster at the reset values of R336 and R480. -/
def ClusterS.reset : ClusterS :=
  ⟨[], 0, 480#10, 40#8, 6#4, 64#10, 8#6, 1500#12, false, false, 850#10, 0#8, false, false, false, 0#8, false, 0, false, 0,
   0, false, false, none, [], false, 0#3, 0#3, false, false, false, false, 0#3, false, false, 0, 0, false, 0, none, none, 0⟩

/-- An agent (R362, R366); a task by its launch and coordinate, an engine operation by its issuing task and handle. -/
inductive Agent where
  | task (core : CoreId) (ctx : CtxId) (launch : Nat) (coord : BitVec 48)
  | engine (core : CoreId) (ctx : CtxId) (launch : Nat) (coord : BitVec 48) (handle : Nat)
  | stack (st : StackId)
  | remote (m : ModuleId)
  /-- The dispatcher, for the regions of its launches' words (R74). -/
  | dispatcher
  deriving DecidableEq, Repr

/-- States of a token record (R366). -/
inductive TokSt where
  | excl | shared | lent | lost
  deriving DecidableEq, Repr

/-- A token record (R366): region, depth, state, scope, share marks, share counts and holder. `claimed` is false while the
transfer that made it waits to be claimed, `arr` true once its message has arrived; `back` marks a record whose return has
come to its holder unclaimed; `backSh`, `backAt` count shares given back and not yet collected, with their scopes; `eng` counts
engine-operation shares among NSH; on a record whose return has come `backSc` has the scope of the return. -/
structure TokRec where
  base : Nat
  size : Nat
  depth : Nat
  st : TokSt
  sc : Scope
  sh : Bool
  at_ : Bool
  nsh : Nat
  nat : Nat
  holder : Agent
  claimed : Bool
  arr : Bool
  back : Bool
  backSh : Nat
  backAt : Nat
  backSc : List Scope
  eng : Nat
  deriving DecidableEq, Repr

/-- A reservation entry (R242). -/
structure Resv where
  resv : BitVec 32
  valid : Bool
  ctx : CtxId
  used : BitVec 32
  held : BitVec 32
  deriving DecidableEq, Repr

/-- A phase object (R394): party count (0 while undefined), arrivals in the open instance, instances completed. -/
structure PhaseObj where
  p : Nat
  arv : Nat
  inst : Nat
  /-- Release scopes of the arrivals counted in the open instance, and in each complete one, by its number. -/
  openSc : List Scope
  doneSc : Tab (List Scope)
  deriving DecidableEq, Repr

/-- A pre-image of 128 bytes kept for replay (R445). -/
inductive PreUnit where
  | line (pa : Nat)
  | scratch (core : CoreId) (off : Nat)
  | column (core : CoreId) (off : Nat)
  deriving DecidableEq, Repr

/-- The contents, whether the line was LIVE, and the poisoned words. -/
structure PreImage where
  unit : PreUnit
  data : BitVec 1024
  live : Bool
  bad : BitVec 16
  deriving DecidableEq, Repr

/-- Full/empty forms (R262), and a plain store that waits behind an earlier full/empty store of its task to the same bytes (R255). -/
inductive FeOp where
  | ldf | lde | ste | stf | clre | plain
  deriving DecidableEq, Repr

/-- A full/empty access on its way to its word, or waiting there (R263). Of a plain store `nwords` counts bytes. -/
structure FeAcc where
  op : FeOp
  core : CoreId
  ctx : CtxId
  launch : Nat
  coord : BitVec 48
  pend : Nat
  pa : Nat
  nwords : Nat
  signed : Bool
  data : Vec
  sc : Scope
  waiting : Bool
  /-- A completion store of an engine operation, by its handle (R284). -/
  handle : Option Nat
  /-- Its number in the order of issue: a release's message leaves once lower ones of its core have been performed (R370). -/
  seq : Nat
  deriving DecidableEq, Repr

/-- An arrival on its way to its sync unit (R396). -/
structure ArrMsg where
  core : CoreId
  ctx : CtxId
  launch : Nat
  coord : BitVec 48
  target : BitVec 48
  ph : Nat
  rel : Bool
  sc : Scope
  outside : Bool
  after : Nat
  /-- NAKs that it has met, waiting for a sync object to be held in (R408). -/
  naks : Nat
  deriving DecidableEq, Repr

/-- The operations of rounds and `amo` forms (R400, R404). -/
inductive AtomOp where
  | rmin | rmax | rsum | redf | amor | cas | add | min | max | and | or | xor
  deriving DecidableEq, Repr

/-- A round (R401): sent, then held at the sync unit for its instance; at the close of the instance applied, with what it
found or left and its flags (R402). -/
structure RoundMsg where
  core : CoreId
  ctx : CtxId
  launch : Nat
  coord : BitVec 48
  st : StackId
  team : Nat
  ph : Nat
  inst : Nat
  op : AtomOp
  ty : Ty
  pa : Nat
  va : Word
  home : StackId
  leafPa : Nat
  late : Bool
  v : Word
  expected : Word
  pend : Nat
  received : Bool
  applied : Bool
  res : Word
  fl : BitVec 7
  cls : Nat
  /-- NAKs that it has met, waiting for a sync object (R408). -/
  naks : Nat
  /-- Its number in the order of issue, with full/empty accesses (R370). -/
  seq : Nat
  fpos : BitVec 32
  deriving DecidableEq, Repr

/-- A copy descriptor (R280). -/
structure Desc where
  src : Word
  dst : Word
  rlen : Nat
  rows : Nat
  sstr : Int
  dstr : Int
  cw : Word
  tag : BitVec 32
  cb : Option Nat
  rmod : Nat
  deriving DecidableEq, Repr

/-- Kinds of copy operation (R279). -/
inductive CopyKind where
  | cpy | mx | mig | remote
  deriving DecidableEq, Repr

/-- A mapping of one page, or of the heap, as a copy operation keeps it from its issue (R281): virtual and physical bases,
bytes, home, leaf entry (0: none), LATE. -/
structure PageMap where
  vbase : Nat
  base : Nat
  len : Nat
  home : StackId
  leafPa : Nat
  late : Bool
  heap : Bool
  cls : Nat
  deriving DecidableEq, Repr

/-- A copy operation in a stack's engine queue (R283 to R288): `dstVa` is the address of row 0 of the destination within `dst`,
`pend` the queue entry of its handle, `naks` the NAKs its request has met, `resv` whether it holds its core's reserved place
in the engine queue (R408). -/
structure CopyOp where
  core : CoreId
  ctx : CtxId
  launch : Nat
  coord : BitVec 48
  team : Nat
  handle : Nat
  kind : CopyKind
  desc : Desc
  cwPa : Nat
  src : List PageMap
  dst : List PageMap
  dstVa : Nat
  pend : Nat
  naks : Nat
  arr : Nat
  follow : Option Cmd
  eng : Option (Fin 2)
  slot : Option Nat
  ran : Bool
  committed : Bool
  failed : Bool
  resv : Bool
  /-- The number below which full/empty accesses and rounds of its task go before its fork (R370, R376). -/
  after : Nat
  /-- The fetch position of the bundle that issued it (R427). -/
  fpos : BitVec 32
  /-- The buffer as it was for copies of that bundle, where a `cbdef` of the bundle has changed it (R274). -/
  buf : Option CircBuf
  deriving DecidableEq, Repr

/-- A team checkpoint (R444): the tasks at their cuts, the tasks not yet started as their next slots hold them, the token records and
phase objects, the team's messages of the bundles before the cut that have not been performed, the operations whose follow-on command
was still to be committed, and the charge in lines. -/
structure Checkpoint where
  tasks : Tab Task
  fresh : Tab Asg
  toks : List (Nat × Nat × TokRec)
  phases : Tab PhaseObj
  early : List (Nat × Scope)
  arrs : List ArrMsg
  fes : List FeAcc
  rounds : List RoundMsg
  follow : List CopyOp
  charge : Nat
  pre : List PreImage
  prot : Bool
  replays : Nat
  /-- Full/empty accesses and rounds with lower numbers are of bundles before the cut (R445). -/
  seq : Nat
  deriving DecidableEq, Repr

/-- A team on a stack (R85, R434): launch, context, team index in the launch, block base, sizes, acceptance order, tasks
still to reach their drain points, phase objects, checkpoint, and the suspended tasks by core-in-stack number. -/
structure Team where
  launch : Nat
  ctx : CtxId
  coord : BitVec 48
  base : Nat
  size : Nat
  block : Nat
  seq : Nat
  left : Nat
  phases : Tab PhaseObj
  early : List (Nat × Scope)
  cp : Option Checkpoint
  susp : Tab Task
  /-- The phase before the team's first cut has been counted in UNPROT, or is over (R45). -/
  counted : Bool
  deriving DecidableEq, Repr

/-- A fault-buffer entry (R430): its four words, and whether it has been delivered. -/
structure FbEntry where
  w0 : Word
  w1 : Word
  w2 : Word
  w3 : Word
  delivered : Bool
  deriving DecidableEq, Repr

/-- A page whose backing waits for a frame (R245): context, leaf entry, page size, its spill fault's entry (4,096 while none is
free), the pool it draws on, and the home it gets (another where a `cpy.mig` moves it). -/
structure Spill where
  ctx : CtxId
  leafPa : Nat
  size : Nat
  ent : Nat
  poolDie : Nat
  newHome : Nat
  deriving DecidableEq, Repr

/-- A wait-for entry (R409): waiter, expected signaller, team wait with its phase and instance, kind, and object. `self` marks
a read of a pending round result, whose waiter may be one of the tasks named (R411). -/
structure WaitEnt where
  waiter : Agent
  sig : Option Agent
  team : Bool
  teamNo : Nat
  ph : Nat
  inst : Nat
  self : Bool
  wk : Nat
  obj : Nat
  deriving DecidableEq, Repr

/-- What a sync object holds (R394, R408, R409): a phase object of a team, a round, or an arrival held at an undefined phase, with the
task that sent it, where one of this module did. -/
inductive ObjUse where
  | phase (team ph : Nat)
  | round (core : CoreId) (launch : Nat) (coord : BitVec 48) (pend : Nat)
  | held (team ph : Nat) (by_ : Option Agent)
  deriving DecidableEq, Repr

/-- One stack: token slice, reservation table, service block (R425), engine queue, teams, L2 split (R238, R239). -/
structure StackS where
  toks : Tab TokRec
  resv : Tab Resv
  fb : Tab FbEntry
  fbOrder : List Nat
  elbase : Word
  elcfg : Word
  elhead : BitVec 32
  eltail : BitVec 32
  elwait : List (List Byte)
  elseq : BitVec 32
  frval : Word
  precmd : Word
  preBusy : Bool
  preDone : Bool
  preRef : Bool
  preTeam : BitVec 16
  preTasks : BitVec 16
  qui : Bool
  fen : Bool
  rstBusy : Bool
  /-- QUI and FEN of the reset in progress (R449). -/
  rstQui : Bool
  rstFen : Bool
  qdone : Bool
  stpark : Word
  fenced : Bool
  engFenced : BitVec 2
  ops : List CopyOp
  requests : List CopyOp
  teams : Tab Team
  seq : Nat
  cu : Nat
  gain : BitVec 16
  loss : BitVec 16
  moving : Option Nat
  spills : List Spill
  /-- Contexts swapped out with release whose backings have not all proceeded (R246). -/
  releasing : List CtxId
  /-- The stack TLB: at most 16,384 translations, the latest first (R18, R229). -/
  tlb : List TlbEnt
  /-- The backed lines that the L2 holds, the most recently used first (R236, R238). -/
  l2 : List L2Line
  /-- GAIN and LOSS counted in the present period, and the device time in ns at which the period began (R239). -/
  gainNow : Nat
  lossNow : Nat
  cuAt : Nat
  /-- The sync objects in use, by number (R394, R408, R409). -/
  objs : Tab ObjUse
  /-- The wait-for table: entries by number, each with the order in which it was entered (R18, R409 to R411). -/
  wft : Tab (Nat × WaitEnt)
  /-- Records beyond the 64 that wait on chip, with the core that is frozen for each, where its event has one (R427). -/
  elheld : List (Option CoreId × List Byte)
  /-- The tags of each sampling set, the most recently used line first: its lines of the ways that CUR gives and of one more unit of
  shadow ways (R239). -/
  shadow : Tab (List Nat)
  /-- The other sockets fence their links toward the stack (R450 steps 3 to 6). -/
  linkFen : Bool
  deriving DecidableEq, Repr

/-- A stack at reset: CUR is 64 (R240), QUI is 1 (R449). -/
def StackS.reset : StackS :=
  ⟨[], [], [], [], 0#64, 0#64, 0#32, 0#32, [], 0#32, 0#64, 0#64, false, false, false, 0#16, 0#16, true, false, false, false, false, false,
   0#64, false, 0#2, [], [], [], 0, 64, 0#16, 0#16, none, [], [], [], [], 0, 0, 0, [], [], [], [], false⟩

/-! ## Contexts, images, launches, queues -/

/-- One context: CTXCFG (R473), the per-context system registers (R226, R227, R437, R479), SBCHK (R139) and the timing
counters by SREG. -/
structure CtxS where
  valid : Bool
  priv : Bool
  hb : Word
  hl : Word
  ho : Word
  ptroot : Word
  savea : Word
  saveb : Word
  slots : BitVec 16
  ok : Bool
  syph : Word
  sbchk : Bool
  ctr : Tab Word
  /-- VALID stamps of the save slots, by 2 × slot, plus 1 in area B, and the number of saves made (R438, R439). -/
  stamps : Tab Nat
  saves : Nat
  /-- The lowest launch number that the context may have had since it last ended: a write of an earlier launch is of no live writer
  (R468). -/
  since : Nat
  deriving DecidableEq, Repr

def CtxS.reset : CtxS :=
  ⟨false, false, 0#64, 0#64, 0#64, 0#64, 0#64, 0#64, 0#16, false, 0#64, false, [], [], 0, 0⟩

/-- A buffer record (R39). -/
structure BufRec where
  buf : Nat
  pgsz : Nat
  flags : BitVec 8
  size : Nat
  span : Nat
  argoff : Nat
  deriving DecidableEq, Repr

/-- A loop-level record (R42). -/
structure LoopRec where
  level : Nat
  lkind : Nat
  comp : Nat
  trip : Nat
  deriving DecidableEq, Repr

/-- A format-pair record (R47). -/
structure PairRec where
  level : Nat
  amask : BitVec 8
  fmts : BitVec 8
  ka : Nat
  kb : Nat
  pol : Nat
  deriving DecidableEq, Repr

/-- A seeds record (R50). -/
structure SeedRec where
  amask : BitVec 8
  rows : List Nat
  cols : List Nat
  deriving DecidableEq, Repr

/-- A power-burst record (R51). -/
structure BurstRec where
  bid : Nat
  icls : Nat
  steps : Nat
  deriving DecidableEq, Repr

/-- A kernel image as the dispatcher has validated it (R36 to R53). -/
structure Image where
  va : Word
  isize : Nat
  dictCnt : Nat
  dictOff : Nat
  codeOff : Nat
  codeWords : Nat
  entry : Nat
  constOff : Nat
  digest : BitVec 256
  bufs : List BufRec
  loops : List LoopRec
  carve : Nat × Nat
  lines : Nat
  unb : List (Nat × Nat)
  pairs : List PairRec
  seeds : List SeedRec
  bursts : List BurstRec
  deriving DecidableEq, Repr

/-- A launch record as read (R69); `bad` says that it breaks R69, R70 or R71 by itself. -/
structure LaunchRec where
  bad : Bool
  va : Word
  image : Word
  args : Word
  argsize : Nat
  lid : BitVec 32
  ext : Nat × Nat × Nat
  ccnt : Word
  tcnt : Word
  irq : Bool
  deps : List (Word × Nat)
  deriving DecidableEq, Repr

/-- What a launch's tasks have used on one stack (R469): tasks finished, bundles issued, array steps, copy bytes, freeze
cycles. -/
structure Acct where
  tasks : Nat
  issued : Nat
  astep : Nat
  cebyte : Nat
  frz : Nat
  deriving DecidableEq, Repr

def Acct.zero : Acct := ⟨0, 0, 0, 0, 0⟩

/-- An admitted launch (R76): its record, image, captured argument block, present extents, teams issued, tasks finished and
triggered, and how it stands. -/
structure Launch where
  ctx : CtxId
  q : QueueId
  rcd : LaunchRec
  img : Image
  argb : List Byte
  ext : Nat × Nat × Nat
  total : Nat
  pendTeams : List (BitVec 48)
  finished : Nat
  triggered : Nat
  finishedCoords : List (BitVec 48)
  gref : Bool
  done : Bool
  heldArr : List (BitVec 48 × Nat × Scope)
  acct : Tab Acct
  deriving DecidableEq, Repr

/-- How far the head record of a queue has come (R76). -/
inductive HeadSt where
  | raw
  | read (r : LaunchRec)
  | valid (r : LaunchRec) (i : Image)
  | ready (r : LaunchRec) (i : Image)
  deriving DecidableEq, Repr

/-- One queue: QCFG (R65), its records (R66), its banks of QRES, and QSTAT (R67). -/
structure QueueS where
  en : Bool
  prio : BitVec 2
  irqb : Bool
  ctx : CtxId
  recs : List Word
  head : HeadSt
  seq : BitVec 16
  resA : Word
  resB : Word
  waited : Nat
  eprio : BitVec 2
  deriving DecidableEq, Repr

def QueueS.reset : QueueS := ⟨false, 3#2, false, 0, [], .raw, 0#16, 0#64, 0#64, 0, 3#2⟩

/-- A semaphore (R63): holder, lease register, and device time at which the running lease ends. -/
structure SemS where
  own : Option Master
  lease : BitVec 32
  ends : Option Nat
  deriving DecidableEq, Repr

def SemS.reset : SemS := ⟨none, 0#32, none⟩

/-! ## Messages in flight -/

/-- A posted write on its way to its home (R255): the line's first physical address, its bytes, its writer, whether it is a
`disc` of the line, whether it waits for a frame (R245), the tasks beside its writer whose releases wait for it: those current on the
cores whose touch bits the line carried, and acquirers of edges that cover it (R370, R377), by launch and coordinate, whether it is a
store itself and no write-back, and its poisoned words (R443). -/
structure PWrite where
  pa : Nat
  bytes : List (Option Byte)
  tag : WrTag
  disc : Bool
  held : Bool
  covers : List (Nat × BitVec 48)
  direct : Bool
  bad : BitVec 16
  deriving DecidableEq, Repr

/-- Who sent a message: a task, by its core, launch and coordinate. -/
structure Src where
  core : CoreId
  launch : Nat
  coord : BitVec 48
  deriving DecidableEq, Repr

/-- A message of the token system with the task that sent it (R369): the record it brings, a return to a lender or to rest, or
an unshare. `after` is the number below which full/empty accesses of the task go first (R370). -/
inductive TokMsg where
  | deliver (st : StackId) (e : Nat) (src : Src) (after : Nat)
  | ret (st : StackId) (base size depth : Nat) (sc : Scope) (src : Src) (after : Nat)
  | unshare (st : StackId) (base size : Nat) (at_ : Bool) (sc : Scope) (src : Src) (after : Nat)
  /-- A record that waits for a place in its slice, with the NAKs it has met (R367, R408). -/
  | need (st : StackId) (r : TokRec) (src : Src) (naks : Nat) (after : Nat)
  deriving DecidableEq, Repr

/-- An `amo` message (R404), and whether it waits for a frame (R245). -/
structure AmoMsg where
  core : CoreId
  ctx : CtxId
  launch : Nat
  coord : BitVec 48
  op : AtomOp
  ty : Ty
  pa : Nat
  va : Word
  home : StackId
  leafPa : Nat
  late : Bool
  v : Word
  held : Bool
  cls : Nat
  fpos : BitVec 32
  deriving DecidableEq, Repr

/-- A grow request on its way to the dispatcher (R78, R406). -/
structure GrowMsg where
  launch : Nat
  n : Nat
  triggered : Bool
  deriving DecidableEq, Repr

/-- A trigger on its way to its word (R72, R405). -/
structure TrigMsg where
  core : CoreId
  launch : Nat
  coord : BitVec 48
  after : Nat
  deriving DecidableEq, Repr

/-- A fatal context error found and not yet acted on: the fields of its record (R427). -/
structure Fatal where
  code : Nat
  slot : Nat
  ctx : CtxId
  core : CoreId
  lid : BitVec 32
  agent : BitVec 32
  fpos : BitVec 32
  coord : BitVec 48
  syl : Word
  va : Word
  detail : Word
  launch : Nat
  /-- Whether it waits for room in the error log. -/
  held : Bool
  /-- Device time of its detection. -/
  time : Nat
  deriving DecidableEq, Repr

/-- A LIVE unbacked line (R241): home stack, context, leaf entry and virtual page of the page it belongs to. -/
structure LiveLine where
  home : StackId
  ctx : CtxId
  leafPa : Nat
  vpn : Nat
  /-- The context of its latest writer, while it has not ended (R468). -/
  wr : Option CtxId
  deriving DecidableEq, Repr

/-- A remote grant received (R478): lender, context, virtual address and size at the lender, depth, and who holds it; `die` is the
link die whose reserved record it has (R367). -/
structure GrantS where
  lender : ModuleId
  ctx : CtxId
  va : BitVec 56
  sizeExp : Nat
  depth : Nat
  holder : Option Agent
  op : Option Nat
  die : Option Nat
  deriving DecidableEq, Repr

/-- What has left this module for another one (R290, R478, R479). -/
inductive OutMsg where
  | lend (m : ModuleId) (ctx : CtxId) (va : BitVec 56) (sizeExp depth : Nat)
  | giveBack (m : ModuleId) (ctx : CtxId) (va : BitVec 56) (sizeExp : Nat)
  | arrival (m : ModuleId) (ctx : CtxId) (lid : BitVec 32) (coord : BitVec 48) (ph : Nat)
  | write (m : ModuleId) (ctx : CtxId) (va : BitVec 56) (bytes : List Byte)
  /-- The acknowledgement of an arrival, and whether its coordinate lay outside the grid (R479). -/
  | ack (m : ModuleId) (ctx : CtxId) (lid : BitVec 32) (coord : BitVec 48) (outside : Bool)
  deriving DecidableEq, Repr

/-- The module that a message is for. -/
def OutMsg.to_ : OutMsg → ModuleId
  | .lend m _ _ _ _ | .giveBack m _ _ _ | .arrival m _ _ _ _ | .write m _ _ _ | .ack m _ _ _ _ => m

/-- A message that has left, with the port that its route named then (R476). -/
structure Sent where
  port : Fin 16
  msg : OutMsg
  deriving DecidableEq, Repr

/-- A message for another module that waits for what the release of its task covers; `after` is the number below which full/empty
accesses and rounds of the task go first (R370). -/
structure RemMsg where
  src : Src
  after : Nat
  msg : OutMsg
  deriving DecidableEq, Repr

/-- A system-scope arrival whose acknowledgement is outstanding (R479). -/
structure SyArr where
  core : CoreId
  ctx : CtxId
  launch : Nat
  coord : BitVec 48
  fpos : BitVec 32
  deriving DecidableEq, Repr

/-- One direction of one lane of one hop of the ring, or of a scale-out port (R26 to R28, R475): the next sequence number to send,
the flits sent and not acknowledged, the next number expected, the flits delivered that stand in the receiver's buffers, those sent
again, and by virtual channel the buffers that the sender has filled and not had back, and the credits that the receiver owes. -/
structure LinkS where
  next : Nat
  unacked : List (BitVec 2048)
  expect : Nat
  delivered : List (BitVec 2048)
  replay : List (BitVec 2048)
  used : Tab Nat
  owed : Tab Nat
  deriving DecidableEq, Repr

def LinkS.reset : LinkS := ⟨0, [], 0, [], [], [], []⟩

/-- The payload of a flit (R25): up to four request slots of 60 bytes, or a line slot of a 48-byte header and a line. -/
inductive FlitPay where
  | slots (l : List (BitVec 480))
  | line (hdr : BitVec 384) (data : BitVec 1024)
  deriving DecidableEq, Repr

/-- A scale-out port (R476). -/
structure PortS where
  en : Bool
  up : Bool
  peer : BitVec 12
  deriving DecidableEq, Repr

/-- An interrupt raised to a master or to the host, with its cause (R72, R245, R354, R427, R431, R485, R488). -/
inductive Irq where
  | launch (m : Master) (id : Nat)
  | errorLog (st : StackId)
  | faultBuffer (st : StackId)
  | spill (st : StackId)
  | trip (cl : ClusterId)
  | watchdog
  | capability
  deriving DecidableEq, Repr

/-- Writes of a launch's words that the device dispatcher has still to make in their order, each once the one before it has been
performed: the words with their values, the address of the last one written, and what follows the last: the interrupt, and
for an admitted launch its retirement (R72, R73); `acct` is the code with which its accounting records are to be written first, until
they are (R469). -/
structure WordJob where
  ctx : CtxId
  launch : Nat
  steps : List (Word × Nat)
  last : Option Word
  irq : Option Irq
  retires : Bool
  acct : Option Nat
  deriving DecidableEq, Repr

/-- A move of the machine: one row of the opcode table that is an event, one cycle of a cluster's clock, device time passing by some
nanoseconds, a load's data or a task's next index words being late (R110, R140), a line evicted from a cache (R236), poisoned data
consumed where an access has just met it (R443), the logic state of a cluster saved or restored in a transition, the relock of a
wake (R483), the error completion of a remote page for a `cpyx` (R290), a flit with some kind of traffic sent on a hop, or the
oldest flit of a channel taken out of the receiver's buffers (R25 to R27), a translation leaving a core's micro-TLB or a stack's TLB
(R229), or a line of an L2's cache part evicted (R236). -/
inductive Move where
  | event (i : Instr)
  | cycle (cl : ClusterId)
  | elapse (ns : Nat)
  | delayLoad (core : CoreId) (n : Nat)
  | delayFetch (core : CoreId)
  | evictL1 (core : CoreId) (line : Nat)
  | evictCC (cl : ClusterId) (line : Nat)
  | poison (p : PoisonUse)
  | logicRestored (cl : ClusterId)
  | wakeRelock (cl : ClusterId)
  | remoteFault (st : StackId) (n : Nat)
  | flitSend (hop : Hop) (tr : Traffic) (pay : FlitPay)
  | flitTake (hop : Hop) (vc : Fin 4)
  | tlbEvict (core : CoreId) (n : Nat)
  | stackTlbEvict (st : StackId) (n : Nat)
  | evictL2 (st : StackId) (line : Nat)
  deriving DecidableEq, Repr

/-- A TLB drop in progress (R229): context, page, and whether a master's write started it. -/
structure TlbDrop where
  id : Nat
  ctx : CtxId
  vpn : BitVec 44
  master : Bool
  deriving DecidableEq, Repr

/-! ## The module -/

/-- The state of the module. `agenda` is the order of moves still to be made before the default order takes over, `cur` the
core whose bundle is issuing, `rr` the cluster whose turn it is. -/
structure State where
  /-- LPDDR memory and the contents of unbacked lines, by physical address. -/
  mem : List Host.Cell
  cores : Tab CoreS
  clusters : Tab ClusterS
  stackTab : Tab StackS
  ctxs : Tab CtxS
  /-- Device time in nanoseconds (R32). -/
  ns : Nat
  live : Tab LiveLine
  pools : Tab (List (BitVec 52))
  /-- Leaf entries that the device itself rewrote when it backed their pages (R245, R246). -/
  backed : Tab Word
  /-- Poisoned memory, by aligned 8-byte address (R440). -/
  poison : List Nat
  /-- The queue block, with the die of the dispatcher that was last active (R82). -/
  disp : Option Master
  sems : Tab SemS
  age : BitVec 32
  queues : Tab QueueS
  lastStack : Nat
  lastQ : Tab Nat
  /-- The held stack, the queue whose team it is held for, and that team by its launch and coordinate (R89). -/
  hold : Option (StackId × QueueId × Nat × BitVec 48)
  launches : Tab Launch
  nextLaunch : Nat
  /-- Launch words on their way to DONE (R72, R73). -/
  jobs : List WordJob
  /-- The module control block. -/
  modid : BitVec 12
  wdogExp : Bool
  wdogLeft : Nat
  wdogRun : Bool
  fwRun : Bool
  pfsel : Bool
  stage : Nat
  bfail : Bool
  /-- The die that did not leave its boot ROM (R489 stage 0). -/
  rom : Option Master
  attBusy : Bool
  attDone : Bool
  attErr : Bool
  attFrame : BitVec 40
  capbase : BitVec 52
  ports : Tab PortS
  rtab : Tab (BitVec 5)
  /-- DLPOL (R411): period, EN, VICT. -/
  dlPer : BitVec 16
  dlEn : Bool
  dlVict : BitVec 2
  /-- Device time of the last deadlock walk. -/
  dlAt : Nat
  drops : List TlbDrop
  nextDrop : Nat
  /-- Rows spared since manufacture (R487), spare rows used of each bank (R441), and the units in their self-tests with whether
  the error was corrected. -/
  spared : Nat
  spares : List (ErrUnit × Nat)
  tests : List (ErrUnit × Bool)
  /-- Register writes of service contexts through windows, by window address, performed before any other move. -/
  regw : List (Nat × Word)
  /-- Messages in flight. -/
  pwrites : List PWrite
  fes : List FeAcc
  toks : List TokMsg
  arrs : List ArrMsg
  rounds : List RoundMsg
  amos : List AmoMsg
  trigs : List TrigMsg
  grows : List GrowMsg
  fatals : List Fatal
  grants : List GrantS
  /-- Grants of other modules that wait for a record, with the NAKs they have met (R367, R478). -/
  grantQ : List (GrantMsg × Nat)
  outbox : List Sent
  /-- Messages for other modules whose releases are not done (R370). -/
  remq : List RemMsg
  inbox : List RemoteArr
  syArrs : List SyArr
  links : Tab LinkS
  irqs : List Irq
  /-- The regions that came to rest, by base and SIZE, with the scopes of their returns (R376, R377). -/
  rest : List (Nat × Nat × Scope)
  /-- A request of the bundle that issues would go to a stack whose links are fenced, so the bundle waits at its core (R450): set
  while a bundle is tried, never afterwards. -/
  shut : Bool
  /-- The model's own counter of full/empty accesses issued, which orders them (R370). -/
  feSeq : Nat
  /-- The model's own counter of free values taken. -/
  free : Nat
  /-- The model's own counter of wait-for entries entered, which orders them (R411). -/
  waitNo : Nat
  cur : CoreId
  rr : ClusterId
  agenda : List Move
  deriving DecidableEq, Repr

/-- A default that a table entry takes where it lists none. -/
def State.core (s : State) (c : CoreId) : CoreS := s.cores.get CoreS.reset c.val
def State.cluster (s : State) (c : ClusterId) : ClusterS := s.clusters.get ClusterS.reset c.val
def State.stack (s : State) (c : StackId) : StackS := s.stackTab.get StackS.reset c.val
def State.ctx (s : State) (c : CtxId) : CtxS := s.ctxs.get CtxS.reset c.val
def State.queue (s : State) (q : QueueId) : QueueS := s.queues.get QueueS.reset q.val
def State.sem (s : State) (n : SemId) : SemS := s.sems.get SemS.reset n.val

/-- The module right after reset (R489 stage 0): every register at the value the spec gives, zero where it gives none. -/
def State.reset : State where
  mem := []
  cores := []
  clusters := []
  stackTab := []
  ctxs := []
  ns := 0
  live := []
  pools := []
  backed := []
  poison := []
  disp := none
  sems := []
  age := 1000#32
  queues := []
  lastStack := 63
  lastQ := []
  hold := none
  launches := []
  nextLaunch := 0
  jobs := []
  modid := 0#12
  wdogExp := false
  wdogLeft := 5000000
  wdogRun := false
  fwRun := false
  pfsel := false
  stage := 0
  bfail := false
  rom := none
  attBusy := false
  attDone := false
  attErr := false
  attFrame := 0#40
  capbase := 0#52
  ports := []
  rtab := []
  dlPer := 100#16
  dlEn := true
  dlVict := 0#2
  dlAt := 0
  drops := []
  nextDrop := 0
  spared := 0
  spares := []
  tests := []
  regw := []
  pwrites := []
  fes := []
  toks := []
  arrs := []
  rounds := []
  amos := []
  trigs := []
  grows := []
  fatals := []
  grants := []
  grantQ := []
  outbox := []
  remq := []
  inbox := []
  syArrs := []
  links := []
  irqs := []
  rest := []
  shut := false
  feSeq := 0
  free := 0
  waitNo := 0
  cur := 0
  rr := 0
  agenda := []

end Sys2Proof.Machine
end

