-- ==== Sys2Proof/Machine/Memory.lean ====
section
/-! DEFINITION. Memory by physical address: LPDDR and the contents of unbacked lines (R1, R223, R241), as a canonical list
of cells. -/

namespace Sys2Proof.Machine

/-- What an unlisted byte reads as: zero, the spec's value for a FREE unbacked line (R241) and this model's choice for LPDDR
memory that nothing has written (log entry 2). -/
def memBlank : Byte := 0#8

/-- The byte at an address. -/
def Memory.get : List Host.Cell → Nat → Byte
  | [], _ => memBlank
  | (b, v) :: t, a => if a = b then v else Memory.get t a

/-- Writes a byte, keeping the list in rising order and free of blank entries. -/
def Memory.put : List Host.Cell → Nat → Byte → List Host.Cell
  | [], a, v => if v = memBlank then [] else [(a, v)]
  | (b, w) :: t, a, v =>
    if a < b then (if v = memBlank then (b, w) :: t else (a, v) :: (b, w) :: t)
    else if a = b then (if v = memBlank then t else (b, v) :: t)
    else (b, w) :: Memory.put t a v

/-- Every address of a list lies above `a`. -/
def Memory.above (a : Nat) : List Host.Cell → Bool
  | [] => true
  | (b, _) :: t => decide (a < b) && Memory.above a t

/-- The canonical form: addresses strictly rising and no blank entry. -/
def Memory.wf : List Host.Cell → Bool
  | [] => true
  | (b, v) :: t => v != memBlank && Memory.above b t && Memory.wf t

/-- `n` bytes from an address, the lowest first. -/
def Memory.bytes (m : List Host.Cell) (a : Nat) : Nat → List Byte
  | 0 => []
  | n + 1 => Memory.get m a :: Memory.bytes m (a + 1) n

/-- Writes bytes upward from an address; `none` leaves a byte as it is. -/
def Memory.putAll (m : List Host.Cell) (a : Nat) : List (Option Byte) → List Host.Cell
  | [] => m
  | none :: t => Memory.putAll m (a + 1) t
  | some v :: t => Memory.putAll (Memory.put m a v) (a + 1) t

/-- The little-endian number of a list of bytes (R1). -/
def leNat : List Byte → Nat
  | [] => 0
  | b :: t => b.toNat + 256 * leNat t

/-- The low `n` bytes of a number, the lowest first. -/
def natBytes : Nat → Nat → List Byte
  | 0, _ => []
  | n + 1, v => BitVec.ofNat 8 (v % 256) :: natBytes n (v / 256)

/-- The little-endian number of `n` bytes at an address. -/
def Memory.num (m : List Host.Cell) (a n : Nat) : Nat := leNat (Memory.bytes m a n)

/-- A 64-bit word at an address. -/
def Memory.word (m : List Host.Cell) (a : Nat) : Word := BitVec.ofNat 64 (Memory.num m a 8)

/-- Writes the low `n` bytes of a number. -/
def Memory.putNum (m : List Host.Cell) (a n v : Nat) : List Host.Cell :=
  Memory.putAll m a ((natBytes n v).map some)

end Sys2Proof.Machine
end

