-- ==== Sys2Proof/Machine/Flags.lean ====
section
/-! DEFINITION. The floating status register of a task (R161, R162). -/

namespace Sys2Proof.Machine

/-- FSTAT as a 64-bit register: the seven flags, reserved bits zero. -/
def fstatWord (f : BitVec 7) : Word := f.setWidth 64

/-- A write of ones clears the flags it names (W1C); the updates of the same cycle are ORed in afterwards (R162). -/
def fstatClear (f : BitVec 7) (w : Word) : BitVec 7 := f &&& ~~~(w.setWidth 7)

/-- Flags of a result ORed in when it lands (R162). -/
def Task.raise (t : Task) (fl : BitVec 7) : Task := { t with fstat := t.fstat ||| fl }

end Sys2Proof.Machine
end

