-- ==== Sys2Proof/Machine/Uses.lean ====
section
/-! DEFINITION. What each syllable reads and names as a destination (R123, R124, R139, R142) and its current weight
(R337). -/

namespace Sys2Proof.Machine

/-- What a syllable reads and writes. `dst` is in the files of the slot it names, `base` is the stepped base of the M slot,
`old` says that the destination is read as well, `named` that a field names a guard-file entry or a lane mask, and `queue`
that the syllable may write through the interlocked queue (R142). -/
structure Uses where
  slot : Slot
  gd : Guard
  weight : Nat
  srcs : List Opd := []
  dst : Option (Slot × Opd) := none
  base : Option Opd := none
  old : Bool := false
  pr : List (BitVec 6) := []
  pw : List (BitVec 6) := []
  kr : List Nat := []
  kw : List Nat := []
  named : Bool := false
  queue : Bool := false
  deriving DecidableEq, Repr

/-- The guard-file entry a field names. -/
def predIx : Opd → BitVec 6
  | .main i => i
  | _ => 0#6

/-- The lane mask a field names. -/
def maskIx : Opd → Nat
  | .main i => i.toNat % 16
  | _ => 0

/-- S3 as an operand. -/
def s3Opd (s3 : BitVec 8) : Opd := (opdOfBits s3).getD .zero

/-- The mask that MK reads. -/
def maskRead (f : FmtVR) : List Nat := if f.msk then [f.k.toNat] else []

/-- An unguarded syllable. -/
def noGuard : Guard := ⟨false, false, 0#6⟩

/-- The current weight of `xcp` (R149): 4 where the value written is 1,024 bits. -/
def xcpWeight (sl dsl : Slot) : Nat :=
  match sl, dsl with
  | .A, .V | .V, .M | .M, .V => 4
  | _, _ => 1

/-- What every instruction uses; events use nothing. -/
def usesOf : Instr → Uses
  | .nop sl f => { slot := sl, gd := f.gd, weight := 0 }
  | .xcp sl f => { slot := sl, gd := f.gd, weight := xcpWeight sl f.dsl, dst := some (f.dsl, f.d), srcs := [f.s1] }
  | .br f => { slot := .C, gd := f.gd, weight := 1 }
  | .brx f => { slot := .C, gd := f.gd, weight := 1, srcs := [f.s1] }
  | .call f => { slot := .C, gd := f.gd, weight := 1, dst := some (.C, f.d) }
  | .callx f => { slot := .C, gd := f.gd, weight := 1, dst := some (.C, f.d), srcs := [f.s1] }
  | .ret f => { slot := .C, gd := f.gd, weight := 1, srcs := [f.s1] }
  | .loop f => { slot := .C, gd := f.gd, weight := 1, srcs := [f.s1] }
  | .loopRot f => { slot := .C, gd := f.gd, weight := 1 }
  | .lpend f => { slot := .C, gd := f.gd, weight := 1 }
  | .lpbrk f => { slot := .C, gd := f.gd, weight := 1 }
  | .endTask f => { slot := .C, gd := f.gd, weight := 1 }
  | .svc f => { slot := .C, gd := f.gd, weight := 1 }
  | .brk f => { slot := .C, gd := f.gd, weight := 1 }
  | .sysr f => { slot := .C, gd := f.gd, weight := 1, dst := some (.C, f.d) }
  | .sysw f => { slot := .C, gd := f.gd, weight := 1, srcs := [f.s1] }
  | .tstamp f => { slot := .C, gd := f.gd, weight := 1, dst := some (.C, f.d) }
  | .rdcyc f => { slot := .C, gd := f.gd, weight := 1, dst := some (.C, f.d) }
  | .cli f => { slot := .C, gd := f.gd, weight := 1, dst := some (.C, f.d) }
  | .cmov f => { slot := .C, gd := f.gd, weight := 1, dst := some (.C, f.d), srcs := [f.s1] }
  | .cadd f => { slot := .C, gd := f.gd, weight := 1, dst := some (.C, f.d), srcs := [f.s1, f.s2] }
  | .csub f => { slot := .C, gd := f.gd, weight := 1, dst := some (.C, f.d), srcs := [f.s1, f.s2] }
  | .cand f => { slot := .C, gd := f.gd, weight := 1, dst := some (.C, f.d), srcs := [f.s1, f.s2] }
  | .cor f => { slot := .C, gd := f.gd, weight := 1, dst := some (.C, f.d), srcs := [f.s1, f.s2] }
  | .cxor f => { slot := .C, gd := f.gd, weight := 1, dst := some (.C, f.d), srcs := [f.s1, f.s2] }
  | .ccmp f => { slot := .C, gd := f.gd, weight := 1, srcs := [f.s1, f.s2], pw := [predIx f.d], named := true }
  | .pand f => { slot := .C, gd := f.gd, weight := 1, pw := [predIx f.d], pr := [predIx f.s1, predIx f.s2], named := true }
  | .por f => { slot := .C, gd := f.gd, weight := 1, pw := [predIx f.d], pr := [predIx f.s1, predIx f.s2], named := true }
  | .pxor f => { slot := .C, gd := f.gd, weight := 1, pw := [predIx f.d], pr := [predIx f.s1, predIx f.s2], named := true }
  | .pmov f => { slot := .C, gd := f.gd, weight := 1, pw := [predIx f.d], pr := [predIx f.s1], named := true }
  | .pset f => { slot := .C, gd := f.gd, weight := 1, pw := [predIx f.d], named := true }
  | .setld f => { slot := .C, gd := f.gd, weight := 1, srcs := [f.s1, f.s2] }
  | .add f => { slot := .A, gd := f.gd, weight := 1, dst := some (.A, f.d), srcs := [f.s1, f.s2] }
  | .sub f => { slot := .A, gd := f.gd, weight := 1, dst := some (.A, f.d), srcs := [f.s1, f.s2] }
  | .mul f => { slot := .A, gd := f.gd, weight := 3, dst := some (.A, f.d), srcs := [f.s1, f.s2] }
  | .mulh f => { slot := .A, gd := f.gd, weight := 3, dst := some (.A, f.d), srcs := [f.s1, f.s2] }
  | .div f => { slot := .A, gd := f.gd, weight := 4, dst := some (.A, f.d), srcs := [f.s1, f.s2] }
  | .rem f => { slot := .A, gd := f.gd, weight := 4, dst := some (.A, f.d), srcs := [f.s1, f.s2] }
  | .and f => { slot := .A, gd := f.gd, weight := 1, dst := some (.A, f.d), srcs := [f.s1, f.s2] }
  | .or f => { slot := .A, gd := f.gd, weight := 1, dst := some (.A, f.d), srcs := [f.s1, f.s2] }
  | .xor f => { slot := .A, gd := f.gd, weight := 1, dst := some (.A, f.d), srcs := [f.s1, f.s2] }
  | .andn f => { slot := .A, gd := f.gd, weight := 1, dst := some (.A, f.d), srcs := [f.s1, f.s2] }
  | .shl f => { slot := .A, gd := f.gd, weight := 1, dst := some (.A, f.d), srcs := [f.s1, f.s2] }
  | .shr f => { slot := .A, gd := f.gd, weight := 1, dst := some (.A, f.d), srcs := [f.s1, f.s2] }
  | .sar f => { slot := .A, gd := f.gd, weight := 1, dst := some (.A, f.d), srcs := [f.s1, f.s2] }
  | .rot f => { slot := .A, gd := f.gd, weight := 1, dst := some (.A, f.d), srcs := [f.s1, f.s2] }
  | .min f => { slot := .A, gd := f.gd, weight := 1, dst := some (.A, f.d), srcs := [f.s1, f.s2] }
  | .max f => { slot := .A, gd := f.gd, weight := 1, dst := some (.A, f.d), srcs := [f.s1, f.s2] }
  | .abs f => { slot := .A, gd := f.gd, weight := 1, dst := some (.A, f.d), srcs := [f.s1] }
  | .neg f => { slot := .A, gd := f.gd, weight := 1, dst := some (.A, f.d), srcs := [f.s1] }
  | .cmp f => { slot := .A, gd := f.gd, weight := 1, srcs := [f.s1, f.s2], pw := [predIx f.d], named := true }
  | .sel f => { slot := .A, gd := f.gd, weight := 1, dst := some (.A, f.d), srcs := [f.s1, f.s2], pr := [f.s3.extractLsb' 0 6], named := true }
  | .mov f => { slot := .A, gd := f.gd, weight := 1, dst := some (.A, f.d), srcs := [f.s1] }
  | .li f => { slot := .A, gd := f.gd, weight := 1, dst := some (.A, f.d) }
  | .lih f => { slot := .A, gd := f.gd, weight := 1, dst := some (.A, f.d), srcs := [f.s1] }
  | .lihHi f => { slot := .A, gd := f.gd, weight := 1, dst := some (.A, f.d), srcs := [f.s1] }
  | .bfx f => { slot := .A, gd := f.gd, weight := 1, dst := some (.A, f.d), srcs := [f.s1] }
  | .bfi f => { slot := .A, gd := f.gd, weight := 1, dst := some (.A, f.d), srcs := [f.s1, f.s2] }
  | .clz f => { slot := .A, gd := f.gd, weight := 1, dst := some (.A, f.d), srcs := [f.s1] }
  | .ctz f => { slot := .A, gd := f.gd, weight := 1, dst := some (.A, f.d), srcs := [f.s1] }
  | .pcnt f => { slot := .A, gd := f.gd, weight := 1, dst := some (.A, f.d), srcs := [f.s1] }
  | .brev f => { slot := .A, gd := f.gd, weight := 1, dst := some (.A, f.d), srcs := [f.s1] }
  | .bswap f => { slot := .A, gd := f.gd, weight := 1, dst := some (.A, f.d), srcs := [f.s1] }
  | .lea f => { slot := .A, gd := f.gd, weight := 1, dst := some (.A, f.d), srcs := [f.s1, f.s2] }
  | .sadd f => { slot := .A, gd := f.gd, weight := 1, dst := some (.A, f.d), srcs := [f.s1, f.s2] }
  | .ssub f => { slot := .A, gd := f.gd, weight := 1, dst := some (.A, f.d), srcs := [f.s1, f.s2] }
  | .madd f => { slot := .A, gd := f.gd, weight := 3, dst := some (.A, f.d), srcs := [f.s1, f.s2, s3Opd f.s3] }
  | .ext f => { slot := .A, gd := f.gd, weight := 1, dst := some (.A, f.d), srcs := [f.s1] }
  | .clamp f => { slot := .A, gd := f.gd, weight := 1, dst := some (.A, f.d), srcs := [f.s1, f.s2, s3Opd f.s3] }
  | .tst f => { slot := .A, gd := f.gd, weight := 1, srcs := [f.s1, f.s2], pw := [predIx f.d], named := true }
  | .addc f => { slot := .A, gd := f.gd, weight := 1, dst := some (.A, f.d), srcs := [f.s1, f.s2], pr := [f.s3.extractLsb' 0 6], pw := [f.s3.extractLsb' 0 6], named := true }
  | .subb f => { slot := .A, gd := f.gd, weight := 1, dst := some (.A, f.d), srcs := [f.s1, f.s2], pr := [f.s3.extractLsb' 0 6], pw := [f.s3.extractLsb' 0 6], named := true }
  | .hmix f => { slot := .A, gd := f.gd, weight := 3, dst := some (.A, f.d), srcs := [f.s1, f.s2] }
  | .align f => { slot := .A, gd := f.gd, weight := 1, dst := some (.A, f.d), srcs := [f.s1, f.s2] }
  | .crc f => { slot := .A, gd := f.gd, weight := 2, dst := some (.A, f.d), srcs := [f.s1, f.s2] }
  | .bset f => { slot := .A, gd := f.gd, weight := 1, dst := some (.A, f.d), srcs := [f.s1, f.s2] }
  | .bclr f => { slot := .A, gd := f.gd, weight := 1, dst := some (.A, f.d), srcs := [f.s1, f.s2] }
  | .bflip f => { slot := .A, gd := f.gd, weight := 1, dst := some (.A, f.d), srcs := [f.s1, f.s2] }
  | .pack f => { slot := .A, gd := f.gd, weight := 1, dst := some (.A, f.d), srcs := [f.s1, f.s2] }
  | .crd f => { slot := .A, gd := f.gd, weight := 1, dst := some (.A, f.d) }
  | .rank f => { slot := .A, gd := f.gd, weight := 1, dst := some (.A, f.d) }
  | .rankSz f => { slot := .A, gd := f.gd, weight := 1, dst := some (.A, f.d) }
  | .cbase f => { slot := .A, gd := f.gd, weight := 1, dst := some (.A, f.d) }
  | .argb f => { slot := .A, gd := f.gd, weight := 1, dst := some (.A, f.d) }
  | .locq f => { slot := .A, gd := f.gd, weight := 1, dst := some (.A, f.d), srcs := [f.s1], queue := true }
  | .locqSelf f => { slot := .A, gd := f.gd, weight := 1, dst := some (.A, f.d), queue := true }
  | .ctxid f => { slot := .A, gd := f.gd, weight := 1, dst := some (.A, f.d) }
  | .ctxidLid f => { slot := .A, gd := f.gd, weight := 1, dst := some (.A, f.d) }
  | .rdld f => { slot := .A, gd := f.gd, weight := 1, dst := some (.A, f.d) }
  | .rdrb f => { slot := .A, gd := f.gd, weight := 1, dst := some (.A, f.d) }
  | .vadd f => { slot := .V, gd := f.gd, weight := (if tyIsInt f.ty then 3 else if f.ty == .f64 then 9 else 6), dst := some (.V, f.d), srcs := [f.s1, f.s2], old := f.msk, kr := maskRead f }
  | .vsub f => { slot := .V, gd := f.gd, weight := (if tyIsInt f.ty then 3 else if f.ty == .f64 then 9 else 6), dst := some (.V, f.d), srcs := [f.s1, f.s2], old := f.msk, kr := maskRead f }
  | .vmul f => { slot := .V, gd := f.gd, weight := (if f.ty == .f64 then 9 else 6), dst := some (.V, f.d), srcs := [f.s1, f.s2], old := f.msk, kr := maskRead f }
  | .vfma f => { slot := .V, gd := f.gd, weight := (if f.ty == .f64 then 11 else 8), dst := some (.V, f.d), srcs := [f.s1, f.s2, s3Opd f.s3], old := f.msk, kr := maskRead f }
  | .vfms f => { slot := .V, gd := f.gd, weight := (if f.ty == .f64 then 11 else 8), dst := some (.V, f.d), srcs := [f.s1, f.s2, s3Opd f.s3], old := f.msk, kr := maskRead f }
  | .vfnma f => { slot := .V, gd := f.gd, weight := (if f.ty == .f64 then 11 else 8), dst := some (.V, f.d), srcs := [f.s1, f.s2, s3Opd f.s3], old := f.msk, kr := maskRead f }
  | .vmin f => { slot := .V, gd := f.gd, weight := 3, dst := some (.V, f.d), srcs := [f.s1, f.s2], old := f.msk, kr := maskRead f }
  | .vmax f => { slot := .V, gd := f.gd, weight := 3, dst := some (.V, f.d), srcs := [f.s1, f.s2], old := f.msk, kr := maskRead f }
  | .vabs f => { slot := .V, gd := f.gd, weight := 3, dst := some (.V, f.d), srcs := [f.s1], old := f.msk, kr := maskRead f }
  | .vneg f => { slot := .V, gd := f.gd, weight := 3, dst := some (.V, f.d), srcs := [f.s1], old := f.msk, kr := maskRead f }
  | .vfrcp f => { slot := .V, gd := f.gd, weight := 5, dst := some (.V, f.d), srcs := [f.s1], old := f.msk, kr := maskRead f }
  | .vfsqrt f => { slot := .V, gd := f.gd, weight := 5, dst := some (.V, f.d), srcs := [f.s1], old := f.msk, kr := maskRead f }
  | .vdiv f => { slot := .V, gd := f.gd, weight := 5, dst := some (.V, f.d), srcs := [f.s1, f.s2], old := f.msk, kr := maskRead f }
  | .vscl f => { slot := .V, gd := f.gd, weight := 3, dst := some (.V, f.d), srcs := [f.s1, f.s2], old := f.msk, kr := maskRead f }
  | .vcmp f => { slot := .V, gd := f.gd, weight := 3, srcs := [f.s1, f.s2], kr := maskRead f, kw := [maskIx f.d], named := true }
  | .vsel f => { slot := .V, gd := f.gd, weight := 2, dst := some (.V, f.d), srcs := [f.s1, f.s2, s3Opd f.s3], old := f.msk, kr := maskRead f }
  | .vany f => { slot := .V, gd := f.gd, weight := 1, pw := [predIx f.d], kr := [maskIx f.s1], named := true }
  | .vall f => { slot := .V, gd := f.gd, weight := 1, pw := [predIx f.d], kr := [maskIx f.s1], named := true }
  | .kand f => { slot := .V, gd := f.gd, weight := 1, kr := [maskIx f.s1, maskIx f.s2], kw := [maskIx f.d], named := true }
  | .kor f => { slot := .V, gd := f.gd, weight := 1, kr := [maskIx f.s1, maskIx f.s2], kw := [maskIx f.d], named := true }
  | .kxor f => { slot := .V, gd := f.gd, weight := 1, kr := [maskIx f.s1, maskIx f.s2], kw := [maskIx f.d], named := true }
  | .kmov f => { slot := .V, gd := f.gd, weight := 1, kr := if f.s1 == .zero then [] else [maskIx f.s1], kw := [maskIx f.d], named := true }
  | .vand f => { slot := .V, gd := f.gd, weight := 2, dst := some (.V, f.d), srcs := [f.s1, f.s2], old := f.msk, kr := maskRead f }
  | .vor f => { slot := .V, gd := f.gd, weight := 2, dst := some (.V, f.d), srcs := [f.s1, f.s2], old := f.msk, kr := maskRead f }
  | .vxor f => { slot := .V, gd := f.gd, weight := 2, dst := some (.V, f.d), srcs := [f.s1, f.s2], old := f.msk, kr := maskRead f }
  | .vandn f => { slot := .V, gd := f.gd, weight := 2, dst := some (.V, f.d), srcs := [f.s1, f.s2], old := f.msk, kr := maskRead f }
  | .vshl f => { slot := .V, gd := f.gd, weight := 3, dst := some (.V, f.d), srcs := [f.s1, f.s2], old := f.msk, kr := maskRead f }
  | .vshr f => { slot := .V, gd := f.gd, weight := 3, dst := some (.V, f.d), srcs := [f.s1, f.s2], old := f.msk, kr := maskRead f }
  | .vsar f => { slot := .V, gd := f.gd, weight := 3, dst := some (.V, f.d), srcs := [f.s1, f.s2], old := f.msk, kr := maskRead f }
  | .vmov f => { slot := .V, gd := f.gd, weight := 2, dst := some (.V, f.d), srcs := [f.s1], old := f.msk, kr := maskRead f }
  | .vperm f => { slot := .V, gd := f.gd, weight := 4, dst := some (.V, f.d), srcs := [f.s1, f.s2] }
  | .vshuf f => { slot := .V, gd := f.gd, weight := 4, dst := some (.V, f.d), srcs := [f.s1] }
  | .vrotl f => { slot := .V, gd := f.gd, weight := 4, dst := some (.V, f.d), srcs := [f.s1] }
  | .vbrev f => { slot := .V, gd := f.gd, weight := 4, dst := some (.V, f.d), srcs := [f.s1] }
  | .vzip f => { slot := .V, gd := f.gd, weight := 4, dst := some (.V, f.d), srcs := [f.s1, f.s2] }
  | .vuzp f => { slot := .V, gd := f.gd, weight := 4, dst := some (.V, f.d), srcs := [f.s1, f.s2] }
  | .vlane f => { slot := .V, gd := f.gd, weight := 1, dst := some (.V, f.d), old := f.msk, kr := if f.msk then [f.k.toNat] else [] }
  | .vli f => { slot := .V, gd := f.gd, weight := 1, dst := some (.V, f.d), old := f.msk, kr := if f.msk then [f.k.toNat] else [] }
  | .vcmul f => { slot := .V, gd := f.gd, weight := 10, dst := some (.V, f.d), srcs := [f.s1, f.s2], old := f.msk, kr := maskRead f }
  | .vbfly f => { slot := .V, gd := f.gd, weight := 12, dst := some (.V, f.d), srcs := [f.s1, f.s2], old := f.msk, kr := maskRead f }
  | .vconj f => { slot := .V, gd := f.gd, weight := 2, dst := some (.V, f.d), srcs := [f.s1], old := f.msk, kr := maskRead f }
  | .vmulh f => { slot := .V, gd := f.gd, weight := 6, dst := some (.V, f.d), srcs := [f.s1, f.s2], old := f.msk, kr := maskRead f }
  | .vsadd f => { slot := .V, gd := f.gd, weight := 3, dst := some (.V, f.d), srcs := [f.s1, f.s2], old := f.msk, kr := maskRead f }
  | .vssub f => { slot := .V, gd := f.gd, weight := 3, dst := some (.V, f.d), srcs := [f.s1, f.s2], old := f.msk, kr := maskRead f }
  | .vdot f => { slot := .V, gd := f.gd, weight := 10, dst := some (.V, f.d), srcs := [f.s1, f.s2, s3Opd f.s3], old := f.msk, kr := maskRead f }
  | .vpcnt f => { slot := .V, gd := f.gd, weight := 3, dst := some (.V, f.d), srcs := [f.s1], old := f.msk, kr := maskRead f }
  | .vcvt f => { slot := .V, gd := f.gd, weight := 4, dst := some (.V, f.d), srcs := if tyWidth f.ty < tyWidth f.ts then [f.s1, f.s2] else [f.s1] }
  | .vqnt f => { slot := .V, gd := f.gd, weight := 4, dst := some (.V, f.d), srcs := [f.s1, f.s2], old := true }
  | .vdqnt f => { slot := .V, gd := f.gd, weight := 4, dst := some (.V, f.d), srcs := [f.s1, f.s2] }
  | .vamax f => { slot := .V, gd := f.gd, weight := 4, dst := some (.V, f.d), srcs := [f.s1, f.s2] }
  | .vred f => { slot := .V, gd := f.gd, weight := 6, dst := some (.V, f.d), srcs := [f.s1], kr := maskRead f }
  | .vcnt f => { slot := .V, gd := f.gd, weight := (if f.ty == .f64 then 6 else 5), dst := some (.V, f.d), srcs := [f.s1, f.s2, s3Opd f.s3] }
  | .vpack4 f => { slot := .V, gd := f.gd, weight := 3, dst := some (.V, f.d), srcs := [f.s1, f.s2] }
  | .vunpk4 f => { slot := .V, gd := f.gd, weight := 3, dst := some (.V, f.d), srcs := [f.s1] }
  | .vclz f => { slot := .V, gd := f.gd, weight := 3, dst := some (.V, f.d), srcs := [f.s1], old := f.msk, kr := maskRead f }
  | .vrnd f => { slot := .V, gd := f.gd, weight := 3, dst := some (.V, f.d), srcs := [f.s1], old := f.msk, kr := maskRead f }
  | .vclass f => { slot := .V, gd := f.gd, weight := 3, dst := some (.V, f.d), srcs := [f.s1], old := f.msk, kr := maskRead f }
  | .vmadd f => { slot := .V, gd := f.gd, weight := 6, dst := some (.V, f.d), srcs := [f.s1, f.s2, s3Opd f.s3], old := f.msk, kr := maskRead f }
  | .vext f => { slot := .V, gd := f.gd, weight := 4, dst := some (.V, f.d), srcs := [f.s1, f.s2], old := f.msk, kr := maskRead f }
  | .vclamp f => { slot := .V, gd := f.gd, weight := 3, dst := some (.V, f.d), srcs := [f.s1, f.s2, s3Opd f.s3], old := f.msk, kr := maskRead f }
  | .vinsl f => { slot := .V, gd := f.gd, weight := 4, dst := some (.V, f.d), srcs := [f.s1, f.s2] }
  | .kpop f => { slot := .V, gd := f.gd, weight := 2, dst := some (.V, f.d), kr := [maskIx f.s1], named := true }
  | .vsort2 f => { slot := .V, gd := f.gd, weight := 4, dst := some (.V, f.d), srcs := [f.s1], old := f.msk, kr := maskRead f }
  | .vmaxi f => { slot := .V, gd := f.gd, weight := 4, dst := some (.V, f.d), srcs := [f.s1], kr := maskRead f }
  | .vmini f => { slot := .V, gd := f.gd, weight := 4, dst := some (.V, f.d), srcs := [f.s1], kr := maskRead f }
  | .vbcst f => { slot := .V, gd := f.gd, weight := 4, dst := some (.V, f.d), srcs := [f.s1] }
  | .vsgn f => { slot := .V, gd := f.gd, weight := 3, dst := some (.V, f.d), srcs := [f.s1, f.s2], old := f.msk, kr := maskRead f }
  | .vmerge f => { slot := .V, gd := f.gd, weight := 2, dst := some (.V, f.d), srcs := [f.s1, f.s2], kr := [f.k.toNat] }
  | .vtrn f => { slot := .V, gd := f.gd, weight := 4, dst := some (.V, f.d), srcs := [f.s1, f.s2] }
  | .vrev f => { slot := .V, gd := f.gd, weight := 4, dst := some (.V, f.d), srcs := [f.s1] }
  | .ld f => { slot := .M, gd := f.gd, weight := 2, dst := some (.M, f.d), srcs := [f.s1], queue := true }
  | .st f => { slot := .M, gd := f.gd, weight := 2, srcs := [f.s1, f.s2] }
  | .ldv f => { slot := .M, gd := f.gd, weight := 4, dst := some (.M, f.d), srcs := [f.s1], queue := true }
  | .stv f => { slot := .M, gd := f.gd, weight := 4, srcs := [f.s1, f.s2] }
  | .ldpi f => { slot := .M, gd := f.gd, weight := 2, dst := some (.M, f.d), srcs := [f.s1], base := some f.s1, queue := true }
  | .stpi f => { slot := .M, gd := f.gd, weight := 2, srcs := [f.s1, f.s2], base := some f.s1 }
  | .ldf f => { slot := .M, gd := f.gd, weight := 2, dst := some (.M, f.d), srcs := [f.s1], queue := true }
  | .lde f => { slot := .M, gd := f.gd, weight := 2, dst := some (.M, f.d), srcs := [f.s1], queue := true }
  | .ste f => { slot := .M, gd := f.gd, weight := 2, srcs := [f.s1, f.s2] }
  | .stf f => { slot := .M, gd := f.gd, weight := 2, srcs := [f.s1, f.s2] }
  | .clre f => { slot := .M, gd := f.gd, weight := 2, srcs := [f.s1] }
  | .gth f => { slot := .M, gd := f.gd, weight := 6, dst := some (.M, f.d), srcs := [f.s1, f.s2, s3Opd f.s3], old := f.s3 != 0xC0#8, queue := true }
  | .sct f => { slot := .M, gd := f.gd, weight := 6, srcs := [f.d, f.s1, f.s2, s3Opd f.s3] }
  | .ldb f => { slot := .M, gd := f.gd, weight := 3, dst := some (.M, f.d), srcs := [f.s1], queue := true }
  | .probe f => { slot := .M, gd := f.gd, weight := 2, dst := some (.M, f.d), srcs := [f.s1, f.s2], queue := true }
  | .pref f => { slot := .M, gd := f.gd, weight := 1, srcs := [f.s1] }
  | .disc f => { slot := .M, gd := f.gd, weight := 2, srcs := [f.s1, f.s2] }
  | .cbdef f => { slot := .M, gd := f.gd, weight := 1, srcs := [f.s1, f.s2] }
  | .cbget f => { slot := .M, gd := f.gd, weight := 2, dst := some (.M, f.d), queue := true }
  | .cbput f => { slot := .M, gd := f.gd, weight := 1 }
  | .fence f => { slot := .M, gd := f.gd, weight := 1 }
  | .cbqry f => { slot := .M, gd := f.gd, weight := 1, dst := some (.M, f.d) }
  | .ldvs f => { slot := .M, gd := f.gd, weight := 6, dst := some (.M, f.d), srcs := [f.s1, f.s2, s3Opd f.s3], old := f.s3 != 0xC0#8, queue := true }
  | .stvs f => { slot := .M, gd := f.gd, weight := 6, srcs := [f.d, f.s1, f.s2, s3Opd f.s3] }
  | .ldvm f => { slot := .M, gd := f.gd, weight := 4, dst := some (.M, f.d), srcs := [f.s1, s3Opd f.s3], old := f.s3 != 0xC0#8, queue := true }
  | .stvm f => { slot := .M, gd := f.gd, weight := 4, srcs := [f.d, f.s1, s3Opd f.s3] }
  | .mmov f => { slot := .M, gd := f.gd, weight := 2, dst := some (.M, f.d), srcs := [f.s1] }
  | .xadd f => { slot := .M, gd := f.gd, weight := 1, dst := some (.M, f.d), srcs := [f.s1] }
  | .xli f => { slot := .M, gd := f.gd, weight := 1, dst := some (.M, f.d) }
  | .xmov f => { slot := .M, gd := f.gd, weight := 1, dst := some (.M, f.d), srcs := [f.s1] }
  | .cpy f => { slot := .E, gd := f.gd, weight := 2, dst := some (.E, f.d), srcs := [f.s1], queue := true }
  | .cpymx f => { slot := .E, gd := f.gd, weight := 2, dst := some (.E, f.d), srcs := [f.s1, f.s2], queue := true }
  | .cpyMig f => { slot := .E, gd := f.gd, weight := 2, dst := some (.E, f.d), srcs := [f.s1], queue := true }
  | .cpyq f => { slot := .E, gd := f.gd, weight := 1, dst := some (.E, f.d), srcs := [f.s1], queue := true }
  | .cpyx f => { slot := .E, gd := f.gd, weight := 2, dst := some (.E, f.d), srcs := [f.s1], queue := true }
  | .mxfmt f => { slot := .E, gd := f.gd, weight := 1 }
  | .mxlen f => { slot := .E, gd := f.gd, weight := 1 }
  | .mxseed f => { slot := .E, gd := f.gd, weight := 1, srcs := [f.s1] }
  | .mxthr f => { slot := .E, gd := f.gd, weight := 1, srcs := [f.s1] }
  | .mxset f => { slot := .E, gd := f.gd, weight := 1, srcs := [f.s1] }
  | .mxgo f => { slot := .E, gd := f.gd, weight := 2, srcs := [s3Opd f.s3] }
  | .mxgos f => { slot := .E, gd := f.gd, weight := 2, srcs := [s3Opd f.s3] }
  | .mxgoa f => { slot := .E, gd := f.gd, weight := 2, srcs := [s3Opd f.s3] }
  | .mxdrain f => { slot := .E, gd := f.gd, weight := 1 }
  | .mxrd f => { slot := .E, gd := f.gd, weight := 1, dst := some (.E, f.d), queue := true }
  | .mxclr f => { slot := .E, gd := f.gd, weight := 1 }
  | .mxsel f => { slot := .E, gd := f.gd, weight := 1 }
  | .mxst f => { slot := .E, gd := f.gd, weight := 1, dst := some (.E, f.d), queue := true }
  | .mxmute f => { slot := .E, gd := f.gd, weight := 1, srcs := [f.s1] }
  | .phase f => { slot := .E, gd := f.gd, weight := 1, srcs := [f.s1] }
  | .phq f => { slot := .E, gd := f.gd, weight := 1, dst := some (.E, f.d) }
  | .mxstop f => { slot := .E, gd := f.gd, weight := 1 }
  | .tklend f => { slot := .Y, gd := f.gd, weight := 1, srcs := [f.s1, f.s2] }
  | .tkret f => { slot := .Y, gd := f.gd, weight := 1, srcs := [f.s1] }
  | .tksplit f => { slot := .Y, gd := f.gd, weight := 1, srcs := [f.s1] }
  | .tkjoin f => { slot := .Y, gd := f.gd, weight := 1, srcs := [f.s1] }
  | .tkshr f => { slot := .Y, gd := f.gd, weight := 1, srcs := [f.s1, f.s2] }
  | .tkunsh f => { slot := .Y, gd := f.gd, weight := 1, srcs := [f.s1] }
  | .tkrcl f => { slot := .Y, gd := f.gd, weight := 1, srcs := [f.s1] }
  | .tkwait f => { slot := .Y, gd := f.gd, weight := 1, srcs := [f.s1, f.s2] }
  | .tkwaitSh f => { slot := .Y, gd := f.gd, weight := 1, srcs := [f.s1, f.s2] }
  | .tkqry f => { slot := .Y, gd := f.gd, weight := 1, dst := some (.Y, f.d), srcs := [f.s1], queue := true }
  | .arrive f => { slot := .Y, gd := f.gd, weight := 1, srcs := [f.s1] }
  | .arriveRel f => { slot := .Y, gd := f.gd, weight := 1, srcs := [f.s1] }
  | .waitph f => { slot := .Y, gd := f.gd, weight := 1, srcs := [f.s1] }
  | .trig f => { slot := .Y, gd := f.gd, weight := 1 }
  | .grow f => { slot := .Y, gd := f.gd, weight := 1, srcs := [f.s1] }
  | .rmin f => { slot := .Y, gd := f.gd, weight := 2, dst := some (.Y, f.d), srcs := [f.s1, f.s2], queue := true }
  | .rmax f => { slot := .Y, gd := f.gd, weight := 2, dst := some (.Y, f.d), srcs := [f.s1, f.s2], queue := true }
  | .rsum f => { slot := .Y, gd := f.gd, weight := 2, dst := some (.Y, f.d), srcs := [f.s1, f.s2], queue := true }
  | .redf f => { slot := .Y, gd := f.gd, weight := 2, dst := some (.Y, f.d), srcs := [f.s1, f.s2], queue := true }
  | .amor f => { slot := .Y, gd := f.gd, weight := 2, dst := some (.Y, f.d), srcs := [f.s1, f.s2], queue := true }
  | .cas f => { slot := .Y, gd := f.gd, weight := 2, dst := some (.Y, f.d), srcs := [f.s1, f.s2], queue := true, old := true }
  | .yli f => { slot := .Y, gd := f.gd, weight := 1, dst := some (.Y, f.d) }
  | .ymov f => { slot := .Y, gd := f.gd, weight := 1, dst := some (.Y, f.d), srcs := [f.s1] }
  | .amoAdd f => { slot := .Y, gd := f.gd, weight := 2, srcs := [f.s1, f.s2] }
  | .amoMin f => { slot := .Y, gd := f.gd, weight := 2, srcs := [f.s1, f.s2] }
  | .amoMax f => { slot := .Y, gd := f.gd, weight := 2, srcs := [f.s1, f.s2] }
  | .amoAnd f => { slot := .Y, gd := f.gd, weight := 2, srcs := [f.s1, f.s2] }
  | .amoOr f => { slot := .Y, gd := f.gd, weight := 2, srcs := [f.s1, f.s2] }
  | .amoXor f => { slot := .Y, gd := f.gd, weight := 2, srcs := [f.s1, f.s2] }
  | .phdef f => { slot := .Y, gd := f.gd, weight := 1, srcs := [f.s1] }
  | .yadd f => { slot := .Y, gd := f.gd, weight := 1, dst := some (.Y, f.d), srcs := [f.s1, f.s2] }
  | .fetch _ => { slot := .C, gd := noGuard, weight := 0 }
  | .taskRelease _ => { slot := .C, gd := noGuard, weight := 0 }
  | .feAccessArrival _ => { slot := .C, gd := noGuard, weight := 0 }
  | .fenceComplete _ => { slot := .C, gd := noGuard, weight := 0 }
  | .copyAccept _ => { slot := .C, gd := noGuard, weight := 0 }
  | .copyStart _ _ _ => { slot := .C, gd := noGuard, weight := 0 }
  | .copyComplete _ _ => { slot := .C, gd := noGuard, weight := 0 }
  | .followOnCommit _ _ => { slot := .C, gd := noGuard, weight := 0 }
  | .arrayStart _ => { slot := .C, gd := noGuard, weight := 0 }
  | .arrayStep _ => { slot := .C, gd := noGuard, weight := 0 }
  | .arrayCommandEnd _ => { slot := .C, gd := noGuard, weight := 0 }
  | .phaseWindowOpen _ => { slot := .C, gd := noGuard, weight := 0 }
  | .phaseWindowEnd _ => { slot := .C, gd := noGuard, weight := 0 }
  | .tokenMessageArrival _ => { slot := .C, gd := noGuard, weight := 0 }
  | .tokenRecordClear _ _ => { slot := .C, gd := noGuard, weight := 0 }
  | .phaseArrival _ => { slot := .C, gd := noGuard, weight := 0 }
  | .roundReceive _ => { slot := .C, gd := noGuard, weight := 0 }
  | .amoApply _ _ => { slot := .C, gd := noGuard, weight := 0 }
  | .triggerCount _ => { slot := .C, gd := noGuard, weight := 0 }
  | .growApply _ => { slot := .C, gd := noGuard, weight := 0 }
  | .resultLand _ => { slot := .C, gd := noGuard, weight := 0 }
  | .lateLoadArrival _ _ => { slot := .C, gd := noGuard, weight := 0 }
  | .interlockedArrival _ _ => { slot := .C, gd := noGuard, weight := 0 }
  | .writeAtHome _ => { slot := .C, gd := noGuard, weight := 0 }
  | .spillProceed _ _ => { slot := .C, gd := noGuard, weight := 0 }
  | .poolPush _ _ _ => { slot := .C, gd := noGuard, weight := 0 }
  | .resvWrite _ _ _ => { slot := .C, gd := noGuard, weight := 0 }
  | .tlbinv _ => { slot := .C, gd := noGuard, weight := 0 }
  | .carveoutPeriod _ _ _ => { slot := .C, gd := noGuard, weight := 0 }
  | .carveoutMoveDone _ => { slot := .C, gd := noGuard, weight := 0 }
  | .semAcquire _ _ _ => { slot := .C, gd := noGuard, weight := 0 }
  | .semRelease _ _ _ => { slot := .C, gd := noGuard, weight := 0 }
  | .semLeaseExpire _ => { slot := .C, gd := noGuard, weight := 0 }
  | .dispatcherTakeover => { slot := .C, gd := noGuard, weight := 0 }
  | .queueEnable _ _ _ => { slot := .C, gd := noGuard, weight := 0 }
  | .queueDisable _ _ _ => { slot := .C, gd := noGuard, weight := 0 }
  | .queueConfigure _ _ _ => { slot := .C, gd := noGuard, weight := 0 }
  | .queuePush _ _ _ => { slot := .C, gd := noGuard, weight := 0 }
  | .launchRecordRead _ => { slot := .C, gd := noGuard, weight := 0 }
  | .imageValidate _ => { slot := .C, gd := noGuard, weight := 0 }
  | .dependenceMet _ => { slot := .C, gd := noGuard, weight := 0 }
  | .launchAdmit _ => { slot := .C, gd := noGuard, weight := 0 }
  | .issueDecision => { slot := .C, gd := noGuard, weight := 0 }
  | .taskStart _ => { slot := .C, gd := noGuard, weight := 0 }
  | .planeLoadDone _ => { slot := .C, gd := noGuard, weight := 0 }
  | .contextEnd _ => { slot := .C, gd := noGuard, weight := 0 }
  | .fatalContextError _ => { slot := .C, gd := noGuard, weight := 0 }
  | .eltailWrite _ _ => { slot := .C, gd := noGuard, weight := 0 }
  | .faultPop _ => { slot := .C, gd := noGuard, weight := 0 }
  | .freplyServiced _ _ _ _ => { slot := .C, gd := noGuard, weight := 0 }
  | .freplyRefused _ _ _ _ => { slot := .C, gd := noGuard, weight := 0 }
  | .freplyEndContext _ _ _ _ => { slot := .C, gd := noGuard, weight := 0 }
  | .preemptSuspend _ _ => { slot := .C, gd := noGuard, weight := 0 }
  | .preemptSwapOutRelease _ _ => { slot := .C, gd := noGuard, weight := 0 }
  | .preemptResume _ _ => { slot := .C, gd := noGuard, weight := 0 }
  | .taskSuspend _ => { slot := .C, gd := noGuard, weight := 0 }
  | .teamResume _ _ => { slot := .C, gd := noGuard, weight := 0 }
  | .saveAreaCheck _ _ _ => { slot := .C, gd := noGuard, weight := 0 }
  | .softError _ _ => { slot := .C, gd := noGuard, weight := 0 }
  | .selfTestDone _ _ => { slot := .C, gd := noGuard, weight := 0 }
  | .poisonConsumed _ => { slot := .C, gd := noGuard, weight := 0 }
  | .teamReplay _ _ => { slot := .C, gd := noGuard, weight := 0 }
  | .stackResetQuiesce _ _ => { slot := .C, gd := noGuard, weight := 0 }
  | .stackResetNoQuiesce _ _ => { slot := .C, gd := noGuard, weight := 0 }
  | .stackResetDone _ => { slot := .C, gd := noGuard, weight := 0 }
  | .debugHaltRequest _ => { slot := .C, gd := noGuard, weight := 0 }
  | .debugHalt _ => { slot := .C, gd := noGuard, weight := 0 }
  | .debugResume _ => { slot := .C, gd := noGuard, weight := 0 }
  | .debugDataWrite _ _ => { slot := .C, gd := noGuard, weight := 0 }
  | .deadlockWalk => { slot := .C, gd := noGuard, weight := 0 }
  | .nakRetry _ => { slot := .C, gd := noGuard, weight := 0 }
  | .droopAlarm _ => { slot := .C, gd := noGuard, weight := 0 }
  | .stretchEnd _ => { slot := .C, gd := noGuard, weight := 0 }
  | .halfIssueWindowEnd _ => { slot := .C, gd := noGuard, weight := 0 }
  | .thermalTrip _ => { slot := .C, gd := noGuard, weight := 0 }
  | .currentTrip _ => { slot := .C, gd := noGuard, weight := 0 }
  | .tripClear _ => { slot := .C, gd := noGuard, weight := 0 }
  | .clockSet _ _ => { slot := .C, gd := noGuard, weight := 0 }
  | .vsetWrite _ _ => { slot := .C, gd := noGuard, weight := 0 }
  | .relockDone _ _ => { slot := .C, gd := noGuard, weight := 0 }
  | .watchdogKick _ _ => { slot := .C, gd := noGuard, weight := 0 }
  | .watchdogExpire => { slot := .C, gd := noGuard, weight := 0 }
  | .registerWrite _ _ _ _ => { slot := .C, gd := noGuard, weight := 0 }
  | .contextConfigure _ _ => { slot := .C, gd := noGuard, weight := 0 }
  | .clusterQuiesceRequest _ _ => { slot := .C, gd := noGuard, weight := 0 }
  | .clusterPowerCommand _ _ => { slot := .C, gd := noGuard, weight := 0 }
  | .clusterWake _ => { slot := .C, gd := noGuard, weight := 0 }
  | .clusterTransitionDone _ => { slot := .C, gd := noGuard, weight := 0 }
  | .pfSelect _ => { slot := .C, gd := noGuard, weight := 0 }
  | .attestRequest _ => { slot := .C, gd := noGuard, weight := 0 }
  | .attestDone _ => { slot := .C, gd := noGuard, weight := 0 }
  | .linkEnable _ _ => { slot := .C, gd := noGuard, weight := 0 }
  | .linkUp _ _ => { slot := .C, gd := noGuard, weight := 0 }
  | .routeWrite _ _ => { slot := .C, gd := noGuard, weight := 0 }
  | .moduleUnreachable _ => { slot := .C, gd := noGuard, weight := 0 }
  | .remoteGrantReceive _ => { slot := .C, gd := noGuard, weight := 0 }
  | .remoteArrival _ => { slot := .C, gd := noGuard, weight := 0 }
  | .flitReceive _ _ => { slot := .C, gd := noGuard, weight := 0 }
  | .flitReplay _ => { slot := .C, gd := noGuard, weight := 0 }
  | .campionReset _ => { slot := .C, gd := noGuard, weight := 0 }
  | .moduleReset => { slot := .C, gd := noGuard, weight := 0 }
  | .bringUpStage _ => { slot := .C, gd := noGuard, weight := 0 }
  | .tlbDropComplete _ => { slot := .C, gd := noGuard, weight := 0 }
  | .arrivalAcknowledgement _ _ => { slot := .C, gd := noGuard, weight := 0 }

/-- Whether an operand field stands at level 01, 10 or 11 (R337). -/
def highLevel : Opd → Bool
  | .main _ => false
  | _ => true

/-- The operand fields that R337 counts. -/
def weighed (u : Uses) : List Opd :=
  u.srcs ++ (match u.dst with
    | some (_, o) => [o]
    | none => [])

/-- The weight of a syllable whose guard passes (R337). -/
def sylWeight (u : Uses) : Nat :=
  let l := weighed u
  if !u.named && !l.isEmpty && l.all highLevel then max 1 (u.weight - 1) else u.weight

end Sys2Proof.Machine
end

