-- ==== Sys2Proof/Machine/Ops.lean ====
section
/-! DEFINITION. Named operations on the state: reading and replacing its parts, counting, and taking the exceptions the spec
describes: a fatal context error (R426 to R428) and a recoverable event (R430, R432). -/

namespace Sys2Proof.Machine

/-! ## Lists in order -/

/-- Puts an element into a list sorted by key, after every element of an equal key. -/
def insertKey {α : Type} (key : α → Nat) (a : α) : List α → List α
  | [] => [a]
  | b :: t => if key a < key b then a :: b :: t else b :: insertKey key a t

/-- A list sorted by key; elements of equal keys keep their order. -/
def sortKey {α : Type} (key : α → Nat) (l : List α) : List α := l.foldl (fun r a => insertKey key a r) []

/-! ## Parts of the state -/

def State.setCore (s : State) (c : CoreId) (x : CoreS) : State := { s with cores := s.cores.set c.val x }
def State.setCluster (s : State) (c : ClusterId) (x : ClusterS) : State := { s with clusters := s.clusters.set c.val x }
def State.setStack (s : State) (c : StackId) (x : StackS) : State := { s with stackTab := s.stackTab.set c.val x }
def State.setCtx (s : State) (c : CtxId) (x : CtxS) : State := { s with ctxs := s.ctxs.set c.val x }
def State.setQueue (s : State) (q : QueueId) (x : QueueS) : State := { s with queues := s.queues.set q.val x }
def State.setSem (s : State) (n : SemId) (x : SemS) : State := { s with sems := s.sems.set n.val x }
def State.setLaunch (s : State) (n : Nat) (l : Launch) : State := { s with launches := s.launches.set n l }
def State.launch? (s : State) (n : Nat) : Option Launch := s.launches.find n

/-- The task current on a core. -/
def State.task? (s : State) (c : CoreId) : Option Task := (s.core c).live

/-- Replaces the task current on a core. -/
def State.setTask (s : State) (c : CoreId) (t : Task) : State := s.setCore c { s.core c with live := some t }

/-- The stack, cluster and core-in-stack number of a core (R20). -/
def stackOf (c : CoreId) : StackId := Fin.ofNat 64 (c.val / 16)
def clusterOf (c : CoreId) : ClusterId := Fin.ofNat 256 (c.val / 4)
def coreInStack (c : CoreId) : Nat := c.val % 16
def coreInCluster (c : CoreId) : Nat := c.val % 4
def coreOf (st : StackId) (k : Nat) : CoreId := Fin.ofNat 1024 (16 * st.val + k)
def stackOfCluster (cl : ClusterId) : StackId := Fin.ofNat 64 (cl.val / 4)

/-- The arrays of a task. -/
def Task.arr (t : Task) (a : Nat) : ArrayS := if a = 0 then t.arr0 else t.arr1
def Task.setArr (t : Task) (a : Nat) (x : ArrayS) : Task := if a = 0 then { t with arr0 := x } else { t with arr1 := x }

/-- The agent a task is (R366). -/
def Task.agent (t : Task) (c : CoreId) : Agent := .task c t.ctx t.launch t.coord

/-- The 32-bit identifier of an agent (R366). -/
def agentId : Agent → BitVec 32
  | .task c x _ _ => BitVec.ofNat 32 (c.val * 2 ^ 12 + x.val)
  | .engine c x _ _ h => BitVec.ofNat 32 (2 ^ 30 + (h % 256) * 2 ^ 22 + c.val * 2 ^ 12 + x.val)
  | .stack st => BitVec.ofNat 32 (2 ^ 31 + st.val)
  | .remote m => BitVec.ofNat 32 (3 * 2 ^ 30 + m.val)
  | .dispatcher => Config.dispatcherId

/-! ## The ring (R24, R27, R29) -/

/-- The virtual channel of each kind of traffic (R27). -/
def trafficVc : Traffic → Fin 4
  | .request => 0
  | .response => 1
  | .sync => 2
  | .copy => 3

/-- The lane of a message about a line, or about a region by its base (R29). -/
def ringLane (pa : Nat) : Fin 4 := Fin.ofNat 4 (pa / 2 ^ 7)

/-- Whether a message from one socket to another travels toward rising socket numbers: in fewer hops, or in as many (R24, R29). -/
def ringUp (src dst : Fin 78) : Bool := decide ((dst.val + 78 - src.val) % 78 ≤ 39)

/-- The hops of a message from one socket to another about a line (R24, R29). -/
def ringRoute (src dst : Fin 78) (pa : Nat) : List Hop :=
  let up := ringUp src dst
  let n := if up then (dst.val + 78 - src.val) % 78 else (src.val + 78 - dst.val) % 78
  (List.range n).map (fun i => .ring (Fin.ofNat 78 (if up then src.val + i else src.val + 78 - i)) (ringLane pa) up)

/-- The way of a message: its kind of traffic, its stacks and its line. Messages of one way take one route on one virtual channel, and
arrive in the order sent; no others are ordered (R29). -/
structure Way where
  tr : Traffic
  src : StackId
  dst : StackId
  line : Nat
  deriving DecidableEq, Repr

def Way.vc (w : Way) : Fin 4 := trafficVc w.tr
def Way.route (w : Way) : List Hop := ringRoute (Fin.ofNat 78 w.src.val) (Fin.ofNat 78 w.dst.val) (128 * w.line)

/-- The way of a posted write: a request's, or that of a bulk copy. -/
def PWrite.way (w : PWrite) : Way :=
  ⟨if w.tag.handle.isSome then .copy else .request, stackOf w.tag.core, w.tag.home, w.pa / 128⟩

/-- The way of an `amo` message, which is a sync message (DEDUCED, log entry 89). -/
def AmoMsg.way (a : AmoMsg) : Way := ⟨.sync, stackOf a.core, a.home, a.pa / 128⟩

/-- The way of a full/empty access to a window. -/
def FeAcc.way (a : FeAcc) : Way := ⟨.request, stackOf a.core, Fin.ofNat 64 (a.pa / 2 ^ 44 % 128), a.pa / 128⟩

/-- Whether the link of one stack toward another is fenced, so that its messages wait at their source (R450). -/
def State.linkShut (s : State) (src dst : StackId) : Bool := (s.stack dst).linkFen && src != dst

/-- A bundle's request of one stack toward another, which a fenced link holds back. -/
def State.noteShut (s : State) (src dst : StackId) : State := if s.linkShut src dst then { s with shut := true } else s

/-! ## Counters (R136, R351, R455) -/

/-- Raises a saturating per-context counter. -/
def CtxS.count (x : CtxS) (sreg n : Nat) : CtxS :=
  { x with ctr := x.ctr.set sreg (BitVec.ofNat 64 (min (2 ^ 64 - 1) ((x.ctr.get 0#64 sreg).toNat + n))) }

def State.count (s : State) (c : CtxId) (sreg n : Nat) : State := s.setCtx c ((s.ctx c).count sreg n)

def ctrFRZCNT : Nat := 0x40
def ctrUNDECL : Nat := 0x41
def ctrSTAGCNT : Nat := 0x42
def ctrDRPEV : Nat := 0x43
def ctrLATMISS : Nat := 0x44
def ctrIQWAIT : Nat := 0x45
def ctrFETCHFRZ : Nat := 0x46
def ctrHINTDROP : Nat := 0x47
def ctrFBOVF : Nat := 0x48
def ctrUNPROT : Nat := 0x49
def ctrENDWAIT : Nat := 0x4A
def ctrISSUED : Nat := 0x4B
def ctrASTEP : Nat := 0x4C
def ctrCEBYTE : Nat := 0x4D
def ctrL2FILL : Nat := 0x4E
def ctrL2EVW : Nat := 0x4F

/-- Whether a context is a privileged service context (R473). -/
def State.privileged (s : State) (c : CtxId) : Bool := (s.ctx c).priv

/-- Poison met by an access is consumed before any other move. -/
def State.soon (s : State) (p : PoisonUse) : State := { s with agenda := .poison p :: s.agenda }

/-- Raises an interrupt. -/
def State.interrupt (s : State) (i : Irq) : State := { s with irqs := s.irqs ++ [i] }

/-! ## Fatal context errors (R426 to R428) -/

def errUnowned : Nat := 0x01
def errPermission : Nat := 0x02
def errTranslation : Nat := 0x03
def errIndex : Nat := 0x04
def errOpcode : Nat := 0x05
def errModifier : Nat := 0x06
def errScoreboard : Nat := 0x07
def errLost : Nat := 0x08
def errDeadlock : Nat := 0x09
def errOverrun : Nat := 0x0A
def errSave : Nat := 0x0B
def errUncorrectable : Nat := 0x0C
def errCompletion : Nat := 0x0D

/-- The slot numbers of an error record (R427). -/
def slotEngine : Nat := 6
def slotSync : Nat := 7
def slotArray : Nat := 8
def slotNone : Nat := 0xFF

/-- LID of a launch (R69), or 0. -/
def State.lid (s : State) (n : Nat) : BitVec 32 :=
  match s.launch? n with
  | some l => l.rcd.lid
  | none => 0#32

/-- The record of a fatal error found on a task (R427). -/
def State.fatalOf (s : State) (c : CoreId) (t : Task) (code slot : Nat) (syl va detail : Word) : Fatal :=
  ⟨code, slot, t.ctx, c, s.lid t.launch, agentId (t.agent c), t.fpos.setWidth 32, t.coord, syl, va, detail, t.launch, false, s.ns⟩

/-- TAKING A FATAL CONTEXT ERROR: the record is queued for its stack's error log, and the task issues no further bundle
(R427, R428). The context ends by FATAL_CONTEXT_ERROR (R429). -/
def State.raiseFatal (s : State) (c : CoreId) (t : Task) (code slot : Nat) (syl va detail : Word) : State :=
  { s with fatals := s.fatals ++ [s.fatalOf c t code slot syl va detail] }.setTask c { t with failed := true }

/-- The same for the task current on a core; nothing where there is none. -/
def State.fatalAt (s : State) (c : CoreId) (code slot : Nat) (syl va detail : Word) : State :=
  match s.task? c with
  | some t => s.raiseFatal c t code slot syl va detail
  | none => s

/-- A fatal error of an access that names no current task (an engine operation, a round, a write at home), with the fetch position
of the bundle that issued it. -/
def State.fatalFor (s : State) (c : CoreId) (ctx : CtxId) (launch : Nat) (coord : BitVec 48) (fpos : BitVec 32) (code slot : Nat)
    (agent : BitVec 32) (va detail : Word) : State :=
  { s with fatals := s.fatals ++ [⟨code, slot, ctx, c, s.lid launch, agent, fpos, coord, 0#64, va, detail, launch, false, s.ns⟩] }

/-! ## Recoverable events (R430 to R432) -/

/-- The lowest fault-buffer entry not in use (R431). -/
def freeEnt (fb : Tab FbEntry) : Nat → Nat → Option Nat
  | 0, _ => none
  | n + 1, k => match fb.find k with
    | none => some k
    | some _ => freeEnt fb n (k + 1)

/-- Writes a fault-buffer record; `none` where every entry is in use (R431). -/
def StackS.putFault (x : StackS) (mkRec : Nat → FbEntry) : Option (StackS × Nat) :=
  match freeEnt x.fb 4096 0 with
  | some e => some ({ x with fb := x.fb.set e (mkRec e), fbOrder := x.fbOrder ++ [e] }, e)
  | none => none

/-- The record of a recoverable event (R430). -/
def eventRecord (kind : Nat) (ctx core : Nat) (seq : BitVec 32) (coord : BitVec 48) (info : Word) (fpos lid : BitVec 32)
    (ent : Nat) : FbEntry :=
  ⟨BitVec.ofNat 64 (kind * 2 ^ 60 + ctx * 2 ^ 48 + core * 2 ^ 38 + seq.toNat),
   BitVec.ofNat 64 (ent * 2 ^ 48 + coord.toNat), info, fpos ++ lid, false⟩

/-- TAKING A RECOVERABLE EVENT: the record goes into the stack's fault buffer and the task is to be suspended at the bundle
boundary after its bundle. Where every entry is in use the event is held at its core (R431): the task keeps it unwritten,
counted once in FBOVF, and the host is interrupted. -/
def State.raiseEvent (s : State) (c : CoreId) (t : Task) (kind : Nat) (info : Word) : State :=
  let seq := t.events + 1#32
  let st := stackOf c
  let ev (ent : Nat) : EventS := ⟨kind, ent, info, seq, false, false, 0#64⟩
  match (s.stack st).putFault (eventRecord kind t.ctx.val c.val seq t.coord info (t.fpos.setWidth 32) (s.lid t.launch)) with
  | some (x, e) =>
    (s.setStack st x).setTask c { t with events := seq, event := some (ev e), suspend := true }
  | none =>
    ((s.count t.ctx ctrFBOVF 1).interrupt (.faultBuffer st)).setTask c { t with events := seq, event := some (ev 4096) }

/-- RETURNING FROM A RECOVERABLE EVENT: a matching reply is written into the suspended task (R432, R433). -/
def Task.answer (t : Task) (refused : Bool) (value : Word) : Task :=
  match t.event with
  | some e => { t with event := some { e with answered := true, refused := refused, value := value } }
  | none => t

/-- What the resumed task takes from its answered event: a probe is issued again, completing with NP for the refused page where
refused (R271); p63 is set before the first bundle issues (R134), and the writes of
co7 and p63 of `svc` and `brk` land at the end of the first issue cycle after the resume (R432; log entry 39). -/
def Task.takeReply (t : Task) : Task :=
  match t.event with
  | some e =>
    if e.answered then
      if e.kind = 0 then { t with event := none, probeRefused := if e.refused then some (BitVec.ofNat 64 (e.info.toNat / 4096 * 4096)) else none }
      else { t with
        event := none
        reply := some (e.value, e.refused)
        regs := { t.regs with p := if e.refused then t.regs.p ||| BitVec.twoPow 64 63 else t.regs.p &&& ~~~BitVec.twoPow 64 63 } }
    else t
  | none => t

end Sys2Proof.Machine
end

