-- ==== Sys2Proof/Machine/Operands.lean ====
section
/-! DEFINITION. Operand delivery: reading every operand form, naming destinations, results in flight and their landing
(R115, R116, R131 to R146). -/

namespace Sys2Proof.Machine

/-! ## Names and physical registers (R143, R145) -/

def physA (arb : BitVec 4) (i : Nat) : Nat := if i < 48 then i else 48 + (i - 48 + arb.toNat) % 16
def physV (vrb : BitVec 5) (i : Nat) : Nat := if i < 32 then i else 32 + (i - 32 + vrb.toNat) % 32

/-- The physical register behind a main-file name. -/
def Regs.phys (r : Regs) (sl : Slot) (i : Nat) : Nat :=
  match sl with
  | .A => physA r.arb i
  | .V => physV r.vrb i
  | _ => i

/-- Whether a physical register is dead under the present bases and depths (R145). -/
def Regs.isDead (r : Regs) (sl : Slot) (p : Nat) : Bool :=
  match sl with
  | .A => decide (48 ≤ p) && decide (r.ald.toNat ≤ (p - 48 + 16 - r.arb.toNat) % 16)
  | .V => decide (32 ≤ p) && decide (r.vld.toNat ≤ (p - 32 + 32 - r.vrb.toNat) % 32)
  | _ => false

/-! ## Storage -/

/-- A physical main-file register, zero-extended (R116). In the M slot, 0 to 31 are x registers, 32 to 47 m registers. -/
def Regs.mainGet (r : Regs) (sl : Slot) (p : Nat) : Vec :=
  match sl with
  | .C => (r.c.get 0#64 p).setWidth 1024
  | .A => (r.a.get 0#64 p).setWidth 1024
  | .V => r.v.get 0#1024 p
  | .M => if p < 32 then (r.x.get 0#64 p).setWidth 1024 else r.m.get 0#1024 (p - 32)
  | .E => (r.e.get 0#64 p).setWidth 1024
  | .Y => (r.y.get 0#64 p).setWidth 1024

def Regs.mainSet (r : Regs) (sl : Slot) (p : Nat) (v : Vec) : Regs :=
  match sl with
  | .C => { r with c := r.c.set p (v.setWidth 64) }
  | .A => { r with a := r.a.set p (v.setWidth 64) }
  | .V => { r with v := r.v.set p v }
  | .M => if p < 32 then { r with x := r.x.set p (v.setWidth 64) } else { r with m := r.m.set (p - 32) v }
  | .E => { r with e := r.e.set p (v.setWidth 64) }
  | .Y => { r with y := r.y.set p (v.setWidth 64) }

/-- An operand-file entry, zero-extended (R131). -/
def Regs.opfGet (r : Regs) (sl : Slot) (i : Nat) : Vec :=
  match sl with
  | .C => (r.co.get 0#64 i).setWidth 1024
  | .A => (r.ao.get 0#64 i).setWidth 1024
  | .V => r.vo.get 0#1024 i
  | .M => r.mo.get 0#1024 i
  | .E => (r.eo.get 0#64 i).setWidth 1024
  | .Y => (r.yo.get 0#64 i).setWidth 1024

def Regs.opfSet (r : Regs) (sl : Slot) (i : Nat) (v : Vec) : Regs :=
  match sl with
  | .C => { r with co := r.co.set i (v.setWidth 64) }
  | .A => { r with ao := r.ao.set i (v.setWidth 64) }
  | .V => { r with vo := r.vo.set i v }
  | .M => { r with mo := r.mo.set i v }
  | .E => { r with eo := r.eo.set i (v.setWidth 64) }
  | .Y => { r with yo := r.yo.set i (v.setWidth 64) }

/-- A latch, zero-extended (R132). -/
def Regs.latchGet (r : Regs) (sl : Slot) : Vec :=
  match sl with
  | .C => r.cl.setWidth 1024
  | .A => r.al.setWidth 1024
  | .V => r.vl
  | .M => r.ml
  | .E => r.el.setWidth 1024
  | .Y => r.yl.setWidth 1024

def Regs.latchSet (r : Regs) (sl : Slot) (v : Vec) : Regs :=
  match sl with
  | .C => { r with cl := v.setWidth 64 }
  | .A => { r with al := v.setWidth 64 }
  | .V => { r with vl := v }
  | .M => { r with ml := v }
  | .E => { r with el := v.setWidth 64 }
  | .Y => { r with yl := v.setWidth 64 }

/-- A guard-file entry. -/
def Regs.pred (r : Regs) (i : BitVec 6) : Bool := r.p.getLsbD i.toNat

def Regs.setPred (r : Regs) (i : Nat) (b : Bool) : Regs :=
  { r with p := if b then r.p ||| BitVec.twoPow 64 i else r.p &&& ~~~BitVec.twoPow 64 i }

/-- A lane mask. -/
def Regs.mask (r : Regs) (i : Nat) : BitVec 32 := r.k.get 0#32 i

def Regs.counter (r : Regs) (h : Nat) : BitVec 32 := r.lc.get 0#32 h

/-! ## Sources -/

/-- A source operand (R115): main file through the rotating names, operand file, latch, zero, immediate. A dead register
reads zero (R146). -/
def Regs.read (r : Regs) (sl : Slot) (imm : Vec) : Opd → Vec
  | .main i => let p := r.phys sl i.toNat
    if r.isDead sl p then 0#1024 else r.mainGet sl p
  | .opf i => r.opfGet sl i.toNat
  | .latch => r.latchGet sl
  | .zero => 0#1024
  | .imm => imm

/-- The low 64 bits of a source. -/
def Regs.readW (r : Regs) (sl : Slot) (imm : Word) (o : Opd) : Word := (r.read sl (imm.setWidth 1024) o).setWidth 64

/-- An 8-bit immediate sign-extended (R178). -/
def immS8 (s3 : BitVec 8) : Word := s3.signExtend 64

/-! ## Destinations and results in flight (R132, R137, R141) -/

/-- The destination a D field names, mapped at issue (R143). -/
def Regs.dest (r : Regs) (sl : Slot) : Opd → Dest
  | .main i => .main sl (r.phys sl i.toNat)
  | .opf i => .opf sl i.toNat
  | _ => .latch sl

/-- Whether a destination is a dead register (R146). -/
def Regs.destDead (r : Regs) : Dest → Bool
  | .main sl p => r.isDead sl p
  | _ => false

/-- Puts a fixed-latency result in flight (R137). -/
def Task.put (t : Task) (lat : Nat) (d : Dest) (v : Vec) (fl : BitVec 7) : Task :=
  { t with flight := t.flight ++ [⟨lat, t.ord, d, v, fl, t.regs.destDead d, false, false, false⟩] }

/-- A load of class 0 or 1, whose data may be late (R140). -/
def Task.putMem (t : Task) (lat : Nat) (d : Dest) (v : Vec) : Task :=
  { t with flight := t.flight ++ [⟨lat, t.ord, d, v, 0#7, t.regs.destDead d, true, false, false⟩] }

/-- A 64-bit result. -/
def Task.putW (t : Task) (lat : Nat) (sl : Slot) (d : Opd) (v : Word) : Task :=
  t.put lat (t.regs.dest sl d) (v.setWidth 1024) 0#7

/-- A 1,024-bit result. -/
def Task.putV (t : Task) (lat : Nat) (sl : Slot) (d : Opd) (v : Vec) (fl : BitVec 7) : Task :=
  t.put lat (t.regs.dest sl d) v fl

/-- A result into the guard file or a lane mask. -/
def Task.putP (t : Task) (i : BitVec 6) (b : Bool) : Task := t.put 1 (.pred i.toNat) (if b then 1#1024 else 0#1024) 0#7
def Task.putK (t : Task) (lat : Nat) (i : Nat) (m : BitVec 32) (fl : BitVec 7) : Task :=
  t.put lat (.mask i) (m.setWidth 1024) fl

/-- Puts a value through the interlocked queue (R141): the destination is pending from issue. -/
def Task.putPend (t : Task) (d : Dest) (k : PendKind) (v : Option Vec) : Task :=
  { t with pend := t.pend ++ [⟨t.nextPend, d, k, v, 0#7, t.regs.destDead d⟩], nextPend := t.nextPend + 1 }

/-- Zeroes every rotating register that is dead under the present bases and depths (R145). -/
def Regs.clearDead (r : Regs) : Regs :=
  { r with a := r.a.filter (fun e => !r.isDead .A e.1), v := r.v.filter (fun e => !r.isDead .V e.1) }

/-- Writes a value to a destination. A dead register takes nothing (R146). -/
def Regs.write (r : Regs) (d : Dest) (v : Vec) : Regs :=
  match d with
  | .main sl p => if r.isDead sl p then r else r.mainSet sl p v
  | .opf sl i => r.opfSet sl i v
  | .latch _ => r
  | .pred i => r.setPred i (v.getLsbD 0)
  | .mask i => { r with k := r.k.set i (v.setWidth 32) }
  | .lc i => { r with lc := r.lc.set i (v.setWidth 32) }
  | .rot => { r with arb := r.arb - 1#4, vrb := r.vrb - 1#5 }.clearDead
  | .depth => { r with ald := v.setWidth 5, vld := (v >>> 8).setWidth 6 }.clearDead

/-- What reaches a latch when a result lands (R132). -/
def Regs.latchLand (r : Regs) (d : Dest) (v : Vec) : Regs :=
  match d with
  | .main sl p => r.latchSet sl (if sl = .M ∧ p < 32 then (v.setWidth 64).setWidth 1024 else v)
  | .opf sl _ => r.latchSet sl v
  | .latch sl => r.latchSet sl v
  | _ => r

/-- A register written whole stops being poisoned (R440). -/
def Task.heal (t : Task) (d : Dest) : Task := { t with bad := t.bad.filter (fun e => e.1 != d) }

/-- A 64-bit word of a register that is written whole. -/
def Task.healWord (t : Task) (d : Dest) (w : Nat) : Task := { t with bad := t.bad.filter (fun e => e != (d, w)) }

/-- RESULT_LAND of one result (R137, R138, R146, R162); a poisoned one poisons its register (R440). -/
def Task.land (t : Task) (f : Flight) : Task :=
  let r := if f.dead then t.regs else t.regs.write f.dest f.val
  { t with
    regs := r.latchLand f.dest f.val
    fstat := t.fstat ||| f.fl
    bad := if f.bad then (f.dest, 0) :: (t.heal f.dest).bad else (t.heal f.dest).bad }

/-- Whether a destination is a change of bases or depths, which lands after every other result of its cycle (R144, R145). -/
def Dest.isTurn : Dest → Bool
  | .rot | .depth => true
  | _ => false

/-- Latencies advance by one issue cycle. -/
def Task.age (t : Task) : Task := { t with flight := t.flight.map (fun f => { f with rem := f.rem - 1 }) }

/-- Whether the core waits for the data of a late load (R140). -/
def Task.lateNow (t : Task) : Bool := t.flight.any (fun f => f.rem == 0 && f.late)

/-- RESULT_LAND: due results land in issue order, changes of bases and depths last (R137, R138). While one is late all wait with
it, so that their order is kept (R135, R140; log entry 33). -/
def Task.landReady (t : Task) : Task :=
  if t.lateNow then t
  else
    let due := t.flight.filter (fun f => f.rem == 0)
    let order := due.filter (fun f => !f.dest.isTurn) ++ due.filter (fun f => f.dest.isTurn)
    order.foldl Task.land { t with flight := t.flight.filter (fun f => f.rem != 0) }

/-- The end of an issue cycle. -/
def Task.landDue (t : Task) : Task := t.age.landReady

/-- An interlocked value arrives: it reaches its register and no latch, its flags are ORed in, and its queue entry is freed
(R141, R142, R162). A register that was dead at issue takes nothing (R146). -/
def Task.arrive (t : Task) (p : Pend) (v : Vec) : Task :=
  { t.heal p.dest with regs := if p.dead then t.regs else t.regs.write p.dest v, fstat := t.fstat ||| p.fl, pend := t.pend.filter (fun q => q.id != p.id) }

/-! ## Issuing a syllable -/

/-- Whether a guard passes (R114). -/
def Task.passes (t : Task) (g : Guard) : Bool := !g.on || (t.regs.pred g.gp != g.neg)

/-- A syllable that acts on its task alone: nothing happens where the guard does not pass (R114). -/
def State.issue (s : State) (g : Guard) (f : Task → Task) : Host.Outcome State Fault Refusal :=
  match s.task? s.cur with
  | some t => if t.passes g then .next (s.setTask s.cur (f t)) else .next s
  | none => .next s

/-- A syllable that acts on the state. -/
def State.issueS (s : State) (g : Guard) (f : Task → State) : Host.Outcome State Fault Refusal :=
  match s.task? s.cur with
  | some t => if t.passes g then .next (f t) else .next s
  | none => .next s

end Sys2Proof.Machine
end

