-- ==== Sys2Proof/Machine/Grid.lean ====
section
/-! DEFINITION. Coordinates, teams and ranks of a launch's grid (R70, R71, R84, R85, R100). -/

namespace Sys2Proof.Machine

/-- Component `i` of a packed coordinate (R100). -/
def coordComp (c : BitVec 48) (i : Nat) : Nat := (c.toNat / 2 ^ (16 * i)) % 2 ^ 16

/-- A packed coordinate from its components. -/
def packCoord (x y z : Nat) : BitVec 48 := BitVec.ofNat 48 (x % 65536 + y % 65536 * 65536 + z % 65536 * 2 ^ 32)

/-- Component `i` of a triple of extents. -/
def extOf (e : Nat × Nat × Nat) (i : Nat) : Nat :=
  if i = 0 then e.1 else if i = 1 then e.2.1 else e.2.2

/-- Components driven by levels of one kind, the outermost level first (R42). -/
def Image.comps (i : Image) (lkind : Nat) : List Nat := (i.loops.filter (fun l => l.lkind == lkind)).map LoopRec.comp

/-- Components driven by levels spatial over cores, and over stacks (R43). -/
def Image.coreComps (i : Image) : List Nat := i.comps 1
def Image.stackComps (i : Image) : List Nat := i.comps 2

/-- Mixed-radix number of a coordinate's components, the first the most significant (R85). -/
def mixedRadix (e : Nat × Nat × Nat) (c : BitVec 48) : List Nat → Nat → Nat
  | [], acc => acc
  | k :: t, acc => mixedRadix e c t (acc * extOf e k + coordComp c k)

/-- The team size T (R85). -/
def teamSize (i : Image) (e : Nat × Nat × Nat) : Nat := (i.coreComps.map (extOf e)).foldl (· * ·) 1

/-- The rank of a coordinate in its team (R85). -/
def rankOf (i : Image) (e : Nat × Nat × Nat) (c : BitVec 48) : Nat := mixedRadix e c i.coreComps 0

/-- The block size P: the smallest power of two that is at least T (R85). -/
def blockSize (t : Nat) : Nat :=
  if t ≤ 1 then 1 else if t ≤ 2 then 2 else if t ≤ 4 then 4 else if t ≤ 8 then 8 else 16

/-- Whether two coordinates belong to one team (R85). -/
def sameTeam (i : Image) (c d : BitVec 48) : Bool := i.stackComps.all (fun k => coordComp c k == coordComp d k)

/-- A mixed-radix number spread back over components, the last of the reversed list first. -/
def spreadRadix (e : Nat × Nat × Nat) : List Nat → Nat → Nat × Nat × Nat → Nat × Nat × Nat
  | [], _, c => c
  | k :: t, n, c =>
    let d := n % extOf e k
    let c := if k = 0 then (d, c.2.1, c.2.2) else if k = 1 then (c.1, d, c.2.2) else (c.1, c.2.1, d)
    spreadRadix e t (n / extOf e k) c

/-- The coordinate of rank `r` in the team of `c` (R85). -/
def coordOfRank (i : Image) (e : Nat × Nat × Nat) (c : BitVec 48) (r : Nat) : BitVec 48 :=
  let x := spreadRadix e i.coreComps.reverse r (coordComp c 0, coordComp c 1, coordComp c 2)
  packCoord x.1 x.2.1 x.2.2

/-- Whether a packed coordinate lies within extents (R100). -/
def inGrid (e : Nat × Nat × Nat) (c : BitVec 48) : Bool :=
  decide (coordComp c 0 < e.1) && decide (coordComp c 1 < e.2.1) && decide (coordComp c 2 < e.2.2)

/-- The trip count of temporal level `k`, counting temporal levels only; 0 where the image has fewer (R193). -/
def Image.trip (i : Image) (k : Nat) : Nat :=
  match (i.loops.filter (fun l => l.lkind == 0))[k]? with
  | some l => l.trip
  | none => 0

/-- The number of the stack's team entry and the state that `locq` reports (R100). -/
def locField (st rank tszm1 stack k : Nat) : Word :=
  BitVec.ofNat 64 (st * 2 ^ 61 + rank * 2 ^ 20 + tszm1 * 2 ^ 16 + stack * 2 ^ 10 + k * 2 ^ 6)

/-- The core of a stack on which the task of a launch at a coordinate is current or assigned. -/
def State.placedOn (s : State) (n : Nat) (c : BitVec 48) : Option Nat :=
  (s.cores.find? (fun e =>
    (match e.2.live with
      | some t => t.launch == n && t.coord == c
      | none => false) ||
    (match e.2.next with
      | some (.new _ m d _ _ _) => m == n && d == c
      | some (.resume t _) => t.launch == n && t.coord == c
      | none => false))).map Prod.fst

/-- Where a suspended task is kept: its stack and core-in-stack number (R103). -/
def State.suspendedAt (s : State) (n : Nat) (c : BitVec 48) : Option (Nat × Nat) :=
  s.stackTab.findSome? (fun x => x.2.teams.findSome? (fun tm =>
    (tm.2.susp.find? (fun e => e.2.launch == n && e.2.coord == c)).map (fun e => (x.1, e.1))))

/-- locate(launch, c) of R100. -/
def State.locate (s : State) (n : Nat) (c : Word) : Word :=
  match s.launch? n with
  | none => locField 3 0 0 0 0
  | some l =>
    let d := c.setWidth 48
    if c.toNat < 2 ^ 48 ∧ inGrid l.ext d = true then
      let r := rankOf l.img l.ext d
      let z := teamSize l.img l.ext - 1
      if l.finishedCoords.contains d then locField 2 r z 0 0
      else match s.placedOn n d with
        | some k => locField 0 r z (k / 16) (k % 16)
        | none => match s.suspendedAt n d with
          | some (st, k) => locField 4 r z st k
          | none => locField 1 r z 0 0
    else locField 3 0 0 0 0

end Sys2Proof.Machine
end

