-- ==== Sys2Proof/Machine/L2.lean ====
section
/-! DEFINITION. Physical lines, the home L2s with their cache and storage parts, and LPDDR behind them (R223, R231, R235, R236,
R238, R440, R468). -/

namespace Sys2Proof.Machine

/-! ## Physical space (R223) -/

def paWindow (pa : Nat) : Bool := decide (2 ^ 51 ≤ pa)
def paUnbacked (pa : Nat) : Bool := !paWindow pa && pa.testBit 50
def paLpddr (pa : Nat) : Bool := decide (pa < 2 ^ 40)
/-- Whether a physical address lies within the rules of R223. -/
def paValid (pa : Nat) : Bool := decide (pa < 2 ^ 52) && (paWindow pa || paUnbacked pa || paLpddr pa)

/-- The aligned 128-byte line of a physical address. -/
def lineOf (pa : Nat) : Nat := pa / 128

/-! ## Lines as data -/

/-- Replaces the bytes of a line that a list gives, from byte `o` on. -/
def mergeBytes (l : BitVec 1024) (o : Nat) : List (Option Byte) → BitVec 1024
  | [] => l
  | none :: t => mergeBytes l (o + 1) t
  | some b :: t =>
    mergeBytes ((l &&& ~~~((0xFF#1024) <<< (8 * o))) ||| ((b.setWidth 1024) <<< (8 * o))) (o + 1) t

/-- The dirty mask of a list of bytes from byte `o` on. -/
def dirtyMask (o : Nat) : List (Option Byte) → BitVec 128
  | [] => 0#128
  | none :: t => dirtyMask (o + 1) t
  | some _ :: t => BitVec.twoPow 128 o ||| dirtyMask (o + 1) t

/-- Byte `i` of a line. -/
def lineByte (l : BitVec 1024) (i : Nat) : Byte := l.extractLsb' (8 * i) 8

/-- The bytes of a line that a mask names. -/
def maskedBytes (l : BitVec 1024) (m : BitVec 128) : List (Option Byte) :=
  (List.range 128).map (fun i => if m.getLsbD i then some (lineByte l i) else none)

/-- Every byte of a line. -/
def lineBytes (l : BitVec 1024) : List (Option Byte) := (List.range 128).map (fun i => some (lineByte l i))

/-- `n` bytes of a line from its byte `o`. -/
def lineNum (d : BitVec 1024) (o n : Nat) : Nat := d.toNat / 2 ^ (8 * o) % 2 ^ (8 * n)

/-- A line of memory. -/
def Memory.line (m : List Host.Cell) (line : Nat) : BitVec 1024 := BitVec.ofNat 1024 (Memory.num m (128 * line) 128)

/-! ## Poisoned words of a line (R440) -/

/-- The poisoned words of a line after a write of the bytes of `m` that carries `nb`: a word written whole takes the write's mark,
one written in part is poisoned where either was. -/
def mixBad (old : BitVec 16) (m : BitVec 128) (nb : BitVec 16) : BitVec 16 :=
  if old = 0#16 ∧ nb = 0#16 then 0#16
  else (List.range 16).foldl (fun b i =>
    let w := m.extractLsb' (8 * i) 8
    let x := if w = 0xFF#8 then nb.getLsbD i else if w = 0#8 then old.getLsbD i else old.getLsbD i || nb.getLsbD i
    if x then b ||| BitVec.twoPow 16 i else b) 0#16

/-- The poisoned words of a line in memory. -/
def State.memBad (s : State) (line : Nat) : BitVec 16 :=
  s.poison.foldl (fun b a => if a / 128 = line then b ||| BitVec.twoPow 16 (a % 128 / 8) else b) 0#16

/-- Whether `n` bytes of a line from its byte `o` meet a poisoned word. -/
def badMeets (bad : BitVec 16) (o n : Nat) : Bool :=
  bad != 0#16 && (List.range 16).any (fun i => bad.getLsbD i && decide (8 * i < o + n) && decide (o < 8 * i + 8))

/-- Replaces the poison marks of a line in memory. -/
def State.setMemBad (s : State) (line : Nat) (bad : BitVec 16) : State :=
  { s with poison := s.poison.filter (fun a => a / 128 != line) ++
      ((List.range 16).filter (fun i => bad.getLsbD i)).map (fun i => 128 * line + 8 * i) }

/-- A whole poisoned word that is written stops being poisoned (R440). -/
def State.unpoison (s : State) (pa : Nat) (bytes : List (Option Byte)) : State :=
  { s with poison := s.poison.filter (fun w =>
      !(decide (pa ≤ w) && decide (w + 8 ≤ pa + bytes.length) &&
        ((bytes.drop (w - pa)).take 8).all Option.isSome)) }

/-- Writes bytes into memory by physical address. -/
def State.putBytes (s : State) (pa : Nat) (bytes : List (Option Byte)) : State :=
  { s with mem := Memory.putAll s.mem pa bytes }.unpoison pa bytes

/-- The same with the poison that the bytes of one line carry (R443). -/
def State.putMarked (s : State) (pa : Nat) (bytes : List (Option Byte)) (bad : BitVec 16) : State :=
  let b := mixBad (s.memBad (lineOf pa)) (dirtyMask (pa % 128) bytes) bad
  { s with mem := Memory.putAll s.mem pa bytes }.setMemBad (lineOf pa) b

/-! ## The L2 of a stack (R236, R238) -/

/-- A backed line that the L2 holds. -/
def StackS.held (x : StackS) (line : Nat) : Option L2Line := x.l2.find? (fun e => e.line == line)

/-- A line as it stands at its home: the L2's copy, else memory (R231, R236). -/
def State.homeLine (s : State) (home : StackId) (line : Nat) : BitVec 1024 :=
  match (s.stack home).held line with
  | some e => e.data
  | none => Memory.line s.mem line

/-- Its poisoned words. -/
def State.homeBad (s : State) (home : StackId) (line : Nat) : BitVec 16 :=
  match (s.stack home).held line with
  | some e => e.bad
  | none => s.memBad line

/-- A number of `b` bits at its home. -/
def State.homeNum (s : State) (home : StackId) (pa b : Nat) : Nat := lineNum (s.homeLine home (lineOf pa)) (pa % 128) (b / 8)

/-- MEMORY AS THE DEVICE'S OWN WALKS SEE IT: LPDDR with every dirty line of an L2 over it (R228; log entry 64). -/
def State.view (s : State) : List Host.Cell :=
  s.stackTab.foldl (fun m e => e.2.l2.foldl (fun m l => if l.dirty then Memory.putAll m (128 * l.line) (lineBytes l.data) else m) m)
    s.mem

/-- The context that a write is charged to later: its writer's, unless that has ended since the launch was admitted (R468). -/
def State.writerOf (s : State) (w : WrTag) : Option CtxId := if (s.ctx w.ctx).since ≤ w.launch then some w.ctx else none

/-- L2EVW of a line's writer, while its context has not ended (R468). -/
def State.chargeWriter (s : State) (w : Option CtxId) : State :=
  match w with
  | some x => s.count x ctrL2EVW 1
  | none => s

/-- A dirty line is written back to LPDDR and its copy is clean. -/
def State.cleanL2 (s : State) (home : StackId) (line : Nat) : State :=
  match (s.stack home).held line with
  | none => s
  | some e =>
    if !e.dirty then s
    else
      let x := s.stack home
      let s := s.setStack home { x with l2 := x.l2.map (fun f =>
        if f.line = line then { f with dirty := false, wr := none } else f) }
      (s.putMarked (128 * line) (lineBytes e.data) e.bad).chargeWriter e.wr

/-- A line leaves an L2, written back if dirty. -/
def State.evictL2 (s : State) (home : StackId) (line : Nat) : State :=
  let s := s.cleanL2 home line
  let x := s.stack home
  s.setStack home { x with l2 := x.l2.filter (fun f => f.line != line) }

/-- The line that the cache part gives up next: its least recently used one; lines of the storage part are not evicted (R238). -/
def StackS.lruLine (x : StackS) : Option Nat := ((x.l2.filter (fun e => !e.pin)).getLast?).map L2Line.line

/-- A line leaves the cache part, where it is the least recently used one. -/
def State.evictUnpinned (s : State) (home : StackId) (line : Nat) : State :=
  if (s.stack home).lruLine = some line then s.evictL2 home line else s

/-- Lines that the cache part has room for: CUR units of 8 MiB less what checkpoints pin there (R238, R444). -/
def StackS.cacheRoom (x : StackS) : Nat :=
  65536 * x.cu - (x.teams.map (fun m => match m.2.cp with | some c => c.charge + c.pre.length | none => 0)).foldl (· + ·) 0

/-- The lines of the cache part beyond its room, least recently used. -/
def StackS.cacheOver (x : StackS) : List L2Line :=
  if x.l2.length ≤ x.cacheRoom then [] else (x.l2.filter (fun e => !e.pin)).drop x.cacheRoom

/-- They are evicted (R238; log entry 64). -/
def State.trimL2 (s : State) (home : StackId) : State :=
  (s.stack home).cacheOver.foldl (fun (s : State) e => s.evictL2 home e.line) s

/-- Ways of a set for a number of units, and the tags of a line's sampling set. -/
def unitSpan (units : Nat) : Nat := units * (Config.unitWays + 1)
def StackS.tagsOf (x : StackS) (st : StackId) (line : Nat) : Option (Fin 1024 × List Nat) :=
  (Config.sampleSet st.val line).map (fun k => (k, x.shadow.get [] k.val))

/-- The place of a line among the tags of its sampling set, from the most recently used. -/
def StackS.tagPlace (x : StackS) (st : StackId) (line : Nat) : Option Nat :=
  (x.tagsOf st line).bind (fun k => k.2.findIdx? (fun l => l == line))

/-- THE SAMPLING OF ONE ACCESS to the cache part: a miss that the shadow ways would have hit counts in GAIN, a hit in the ways of
the last unit in LOSS, and the line becomes its set's most recently used (R239). -/
def StackS.sample (x : StackS) (st : StackId) (line : Nat) (hit : Bool) : StackS :=
  let p := x.tagPlace st line
  let within (lo hi : Nat) : Bool := match p with
    | some i => decide (unitSpan lo ≤ i) && decide (i < unitSpan hi)
    | none => false
  { x with
    gainNow := x.gainNow + (if !hit && within x.cu (x.cu + 1) then 1 else 0)
    lossNow := x.lossNow + (if hit && within (x.cu - 1) x.cu then 1 else 0)
    shadow := match x.tagsOf st line with
      | some (k, l) => x.shadow.set k.val ((line :: l.filter (fun n => n != line)).take (unitSpan (x.cu + 1)))
      | none => x.shadow }

/-- The number of the first poisoned word of a line. -/
def badWord (bad : BitVec 16) : Nat := ((List.range 16).find? (fun i => bad.getLsbD i)).getD 0

/-- An error in a clean copy of a line is absorbed where the line fetched again is good; a record says so (R442, R443). -/
def State.absorb (s : State) (u : ErrUnit) (good : Bool) : State := if good then s.soon (.absorbed u) else s

/-- AN ACCESS AT THE HOME BRINGS A BACKED LINE INTO THE L2 (R235, R236, R238, R468): a hit makes it the most recently used; a miss
fills it for the accessing context, into the storage part for a class-0 page. A clean poisoned copy is fetched again (R443), which
fills a line of the cache part once more (R465). -/
def State.touchL2 (s : State) (w : WrTag) (line : Nat) : State :=
  if paUnbacked (128 * line) then s
  else
    let x := s.stack w.home
    let pin := w.cls == 0 && w.leafPa != 0
    let rest := x.l2.filter (fun f => f.line != line)
    match x.held line with
    | some e =>
      if e.dirty || e.bad == 0#16 then
        s.setStack w.home { (if e.pin then x else x.sample w.home line true) with l2 := e :: rest }
      else
        let s' := s.setStack w.home { x with l2 := { e with data := Memory.line s.mem line, bad := s.memBad line } :: rest }
        (if e.pin then s' else s'.count w.ctx ctrL2FILL 1).absorb (.l2Line w.home line (badWord e.bad)) (s.memBad line == 0#16)
    | none =>
      let n : L2Line := ⟨line, Memory.line s.mem line, false, none, pin, w.leafPa, s.memBad line⟩
      if pin then s.setStack w.home { x with l2 := n :: rest }
      else ((s.setStack w.home { x.sample w.home line false with l2 := n :: rest }).count w.ctx ctrL2FILL 1).trimL2 w.home

/-- Bytes within a backed line are written at its home L2, which then holds the line dirty (R236). Where checkpoints leave the cache
part no room at all, they go to LPDDR at once, charged as the write-back they are (R468). -/
def State.writeL2 (s : State) (w : WrTag) (pa : Nat) (bytes : List (Option Byte)) (bad : BitVec 16) : State :=
  let line := lineOf pa
  let s := s.touchL2 w line
  let x := s.stack w.home
  if (x.held line).isNone then (s.putMarked pa bytes bad).chargeWriter (s.writerOf w)
  else s.setStack w.home { x with l2 := x.l2.map (fun f =>
    if f.line = line then { f with
      data := mergeBytes f.data (pa % 128) bytes, dirty := true, wr := s.writerOf w,
      bad := mixBad f.bad (dirtyMask (pa % 128) bytes) bad }
    else f) }

/-- `disc` of a backed line: its home L2 and LPDDR read zero, and no other L2 keeps a copy (R273). -/
def State.zeroLine (s : State) (w : WrTag) (line : Nat) : State :=
  let s := (s.touchL2 w line).putBytes (128 * line) (List.replicate 128 (some 0#8))
  { s with stackTab := s.stackTab.map (fun e => (e.1, { e.2 with
      l2 := (e.2.l2.filter (fun f => f.line != line || e.1 == w.home.val)).map (fun f =>
        if f.line = line then { f with data := 0#1024, dirty := false, wr := none, bad := 0#16 } else f) })) }

/-- The device's own write by physical address (an error record, a saved task, a table it edits): LPDDR and any L2 copy take it. -/
def State.putPhys (s : State) (pa : Nat) (bytes : List (Option Byte)) : State :=
  let patch (f : L2Line) : L2Line :=
    let a := 128 * f.line
    let part := (List.range 128).map (fun i => if pa ≤ a + i then (bytes[a + i - pa]?).getD none else none)
    if decide (a < pa + bytes.length) && decide (pa < a + 128) then
      { f with data := mergeBytes f.data 0 part, bad := mixBad f.bad (dirtyMask 0 part) 0#16 }
    else f
  { s.putBytes pa bytes with
    stackTab := s.stackTab.map (fun e => (e.1, { e.2 with l2 := e.2.l2.map patch })) }

/-- The number of `n` bytes written by the device itself. -/
def State.putPhysNum (s : State) (pa n v : Nat) : State := s.putPhys pa ((natBytes n v).map some)

end Sys2Proof.Machine
end

