-- ==== Sys2Proof/Machine/Translate.lean ====
section
/-! DEFINITION. Window addresses, page tables, the heap triple, TLBs and translation (R225 to R232). -/

namespace Sys2Proof.Machine

/-! ## Window-space fields (R232) -/

def winSocket (pa : Nat) : Nat := pa / 2 ^ 44 % 128
def winCore (pa : Nat) : Nat := pa / 2 ^ 40 % 16
def winKind (pa : Nat) : Nat := pa / 2 ^ 36 % 16
def winOff (pa : Nat) : Nat := pa % 2 ^ 36
/-- The core whose on-chip state a window address names. -/
def winCoreId (pa : Nat) : CoreId := Fin.ofNat 1024 (16 * (winSocket pa % 64) + winCore pa)

/-- A window-space address. -/
def windowPa (socket core kind off : Nat) : Nat := 2 ^ 51 + socket * 2 ^ 44 + core * 2 ^ 40 + kind * 2 ^ 36 + off

/-- Whether a window address lies in a core region (R233): kinds 0 to 5 of a stack. -/
def winIsCore (pa : Nat) : Bool := decide (winKind pa ≤ 5) && decide (winSocket pa < 64)

/-- The home stack of a window address: its own socket; a memory die has none, and 0 is given. -/
def winStack (pa : Nat) : StackId := Fin.ofNat 64 (winSocket pa % 64)

/-! ## Leaf entries (R230) -/

def leafP (e : Word) : Bool := e.getLsbD 0
def leafIsLeaf (e : Word) : Bool := e.getLsbD 8
def leafSize (e : Word) : Nat := e.toNat / 2 ^ 9 % 8
def leafFrame (e : Word) : Nat := e.toNat / 2 ^ 12 % 2 ^ 40 * 2 ^ 12
def leafHome (e : Word) : StackId := Fin.ofNat 64 (e.toNat / 2 ^ 58)
def leafClass (e : Word) : Nat := e.toNat / 2 ^ 56 % 4
def leafUnb (e : Word) : Bool := e.getLsbD 55
def leafLate (e : Word) : Bool := e.getLsbD 54
def leafAtom (e : Word) : Bool := e.getLsbD 53
def leafRo (e : Word) : Bool := e.getLsbD 7
def leafX (e : Word) : Bool := e.getLsbD 6
def leafW (e : Word) : Bool := e.getLsbD 5

/-- log2 of a page size by its code (R39, R230). -/
def pageBits : Nat → Nat
  | 0 => 12
  | 1 => 16
  | 2 => 21
  | 3 => 25
  | _ => 30

/-- How a translation ends without a mapping (R228). -/
inductive TrErr where
  | notPresent
  | failure
  deriving DecidableEq, Repr

/-- The flag rules of a leaf entry (R228, R230). A leaf that the device itself backed may carry LATE with UNB = 0 (R235,
R246; log entry 21). -/
def leafFlagsOk (e : Word) (deviceBacked : Bool) : Bool :=
  !e.getLsbD 52 && e.toNat / 2 % 16 == 0 && leafClass e != 3 &&
  !(leafRo e && leafW e) &&
  !(leafUnb e && (leafClass e != 0 || !leafW e)) &&
  (!leafLate e || leafUnb e || deviceBacked) &&
  (leafUnb e == (leafFrame e / 2 ^ 50 == 1))

/-- Whether a non-leaf entry has only its named bits (R228) and points at LPDDR memory (R227). -/
def tableOk (e : Word) : Bool :=
  e.toNat / 2 % 128 == 0 && e.toNat / 2 ^ 9 % 8 == 0 && e.toNat / 2 ^ 52 == 0 && paLpddr (leafFrame e)

/-- The 16 entries of an aligned group agree in every field, and their frames run on from an aligned first frame (R228). -/
def groupOk (m : List Host.Cell) (first : Nat) (step : Nat) : Bool :=
  let e0 := Memory.word m first
  leafFrame e0 % (16 * step) == 0 &&
  (List.range 16).all (fun j => Memory.word m (first + 8 * j) == e0 + BitVec.ofNat 64 (step * j))

/-- The mapping a leaf entry gives an address; `first` is where the entry, or its group's first, lies. -/
def leafOf (e : Word) (first va : Nat) : Leaf :=
  let b := pageBits (leafSize e)
  let base := leafFrame e
  ⟨base + va % 2 ^ b, base, va - va % 2 ^ b, b, leafHome e, leafClass e, leafUnb e, leafLate e, leafAtom e, leafRo e, leafX e,
   leafW e, false, first⟩

/-- The end of a walk at a leaf found at level `lv` in entry address `ea` (R227, R228, R230). -/
def State.walkLeaf (s : State) (lv : Nat) (e : Word) (ea va : Nat) : Except TrErr Leaf :=
  let z := leafSize e
  let grouped := z == 1 || z == 3
  let allowed := (lv == 2 && z == 4) || (lv == 1 && (z == 2 || z == 3)) || (lv == 0 && (z == 0 || z == 1))
  let first := if grouped then ea / 128 * 128 else ea
  let step := if z = 1 then 2 ^ 12 else 2 ^ 21
  if !allowed then .error .failure
  else if grouped && !groupOk s.view first step then .error .failure
  else
    let e0 := Memory.word s.view first
    let l := leafOf e0 first va
    if !leafFlagsOk e0 (s.backed.find first == some e0) then .error .failure
    else if l.base % 2 ^ l.bits != 0 then .error .failure
    else if !paValid l.pa then .error .failure
    else .ok l

/-- The page walk from the table at `tbl` (R227, R228). -/
def State.walk (s : State) (va : Nat) : Nat → Nat → Except TrErr Leaf
  | lv, tbl =>
    let ix := if lv = 4 then va / 2 ^ 48 % 256 else va / 2 ^ (12 + 9 * lv) % 512
    let ea := tbl + 8 * ix
    let e := Memory.word s.view ea
    if !paLpddr tbl then .error .failure
    else if !leafP e then .error .notPresent
    else if leafIsLeaf e then s.walkLeaf lv e ea va
    else if !tableOk e then .error .failure
    else match lv with
      | 0 => .error .failure
      | n + 1 => s.walk va n (leafFrame e)

/-! ## The heap triple (R226) -/

def heapBase (x : CtxS) : Nat := x.hb.toNat / 2 ^ 21 % 2 ^ 35 * 2 ^ 21
def heapLen (x : CtxS) : Nat := x.hl.toNat / 2 ^ 21 % 2 ^ 36 * 2 ^ 21
def heapOff (x : CtxS) : Nat := x.ho.toNat / 2 ^ 21 % 2 ^ 31 * 2 ^ 21

/-- A heap address's mapping, page by 4 KiB region (R226). -/
def heapLeaf (x : CtxS) (va : Nat) : Except TrErr Leaf :=
  let pa := (va + heapOff x) % 2 ^ 52
  let cl := x.hl.toNat % 4
  if cl = 3 ∨ paLpddr pa = false then .error .failure
  else .ok ⟨pa, pa - pa % 4096, va - va % 4096, 12, Fin.ofNat 64 (pa / 2 ^ 12 % 64), cl, false, false, x.hl.getLsbD 3,
    !x.hl.getLsbD 2, false, x.hl.getLsbD 2, true, 0⟩

/-- The table at which a context's walks begin (R227). -/
def CtxS.root (x : CtxS) : Nat := x.ptroot.toNat / 2 ^ 12 % 2 ^ 40 * 2 ^ 12

/-- TRANSLATION of a virtual address in a context by a unit that has no TLB, the dispatcher above all (R225). -/
def State.translate (s : State) (ctx : CtxId) (va : Word) : Except TrErr Leaf :=
  let x := s.ctx ctx
  let a := va.toNat
  if 2 ^ 56 ≤ a then .error .failure
  else if heapBase x ≤ a ∧ a < heapBase x + heapLen x then heapLeaf x a
  else s.walk a 4 x.root

/-! ## TLBs (R16, R18, R229) -/

/-- Whether an entry translates an address. -/
def TlbEnt.hits (e : TlbEnt) (ctx : CtxId) (va : Nat) : Bool :=
  e.ctx == ctx && decide (e.leaf.vbase ≤ va) && decide (va < e.leaf.vbase + 2 ^ e.leaf.bits)

/-- The mapping that a TLB gives an address. -/
def tlbFind (l : List TlbEnt) (ctx : CtxId) (va : Nat) : Option Leaf :=
  (l.find? (fun e => e.hits ctx va)).map (fun e => { e.leaf with pa := e.leaf.base + (va - e.leaf.vbase) })

/-- TRANSLATION of a virtual address for a core: heap triple, micro-TLB, stack TLB, page walker (R225, R229). -/
def State.translateOn (s : State) (c : CoreId) (ctx : CtxId) (va : Word) : Except TrErr Leaf :=
  let x := s.ctx ctx
  let a := va.toNat
  if 2 ^ 56 ≤ a then .error .failure
  else if heapBase x ≤ a ∧ a < heapBase x + heapLen x then heapLeaf x a
  else match tlbFind (s.core c).tlb ctx a with
    | some l => .ok l
    | none => match tlbFind (s.stack (stackOf c)).tlb ctx a with
      | some l => .ok l
      | none => s.walk a 4 x.root

/-- An entry joins a TLB of `n` places; the oldest leaves a full one (R229; log entry 13). -/
def tlbAdd (l : List TlbEnt) (e : TlbEnt) (n : Nat) : List TlbEnt :=
  if l.any (fun f => f.ctx == e.ctx && f.leaf == e.leaf) then l else (e :: l).take n

/-- The walker fills the micro-TLB of the core and the TLB of its stack with the page of an address (R229). -/
def State.fillTlb (s : State) (c : CoreId) (ctx : CtxId) (va : Word) : State :=
  match s.translateOn c ctx va with
  | .error _ => s
  | .ok l =>
    if l.heap then s
    else
      let e : TlbEnt := ⟨ctx, { l with pa := l.base }⟩
      let s := s.setCore c { s.core c with tlb := tlbAdd (s.core c).tlb e 256 }
      let x := s.stack (stackOf c)
      s.setStack (stackOf c) { x with tlb := tlbAdd x.tlb e 16384 }

/-- Every TLB of the module drops the entries of which `p` holds (R229). -/
def State.dropTlbs (s : State) (p : TlbEnt → Bool) : State :=
  { s with
    cores := s.cores.map (fun e => (e.1, { e.2 with tlb := e.2.tlb.filter (fun t => !p t) }))
    stackTab := s.stackTab.map (fun e => (e.1, { e.2 with tlb := e.2.tlb.filter (fun t => !p t) })) }

/-! ## Tables below a root (R228, R238, R246) -/

/-- 8-byte entries of a table that are not blank: their addresses, in rising order. -/
def tableEntries (m : List Host.Cell) (tbl : Nat) : List Nat :=
  ((m.filter (fun c => decide (tbl ≤ c.1) && decide (c.1 < tbl + 4096))).map (fun c => c.1 / 8 * 8)).eraseDups

/-- The leaf entries below a table, the first of each group alone, with their virtual page numbers, in rising order. -/
def leafEntries (m : List Host.Cell) : Nat → Nat → Nat → List (Nat × Nat)
  | lv, tbl, vb =>
    (tableEntries m tbl).flatMap (fun ea =>
      let e := Memory.word m ea
      let v := vb + (ea - tbl) / 8 * 2 ^ (9 * lv)
      if !leafP e then []
      else if leafIsLeaf e then
        (if (leafSize e == 1 || leafSize e == 3) && decide (ea / 8 % 16 ≠ 0) then [] else [(ea, v)])
      else match lv with
        | 0 => []
        | n + 1 => leafEntries m n (leafFrame e) v)

/-- The leaf entries of a context. -/
def State.leavesOf (s : State) (ctx : CtxId) : List (Nat × Nat) := leafEntries s.view 4 (s.ctx ctx).root 0

/-- The region a byte of a page lies in, as its least region: 4 KiB of a page, 256 bytes of a window (R360). -/
def minRegion (pa : Nat) : Nat := if paWindow pa then pa / 256 * 256 else pa / 4096 * 4096

end Sys2Proof.Machine
end

