-- ==== Sys2Proof/Machine/Tokens.lean ====
section
/-! DEFINITION. Token records: looking them up, the rights they give, allocation, and the return of a region to rest
(R252, R360 to R368, R382). -/

namespace Sys2Proof.Machine

/-! ## Regions -/

/-- Bytes of a region by its SIZE field (R366). -/
def regionBytes (size : Nat) : Nat := 256 * 2 ^ size

/-- SIZE of a region of 2^k bytes. -/
def sizeExp (k : Nat) : Nat := k - 8

def TokRec.covers (r : TokRec) (pa : Nat) : Bool := decide (r.base ≤ pa) && decide (pa < r.base + regionBytes r.size)

/-- Whether a record's region meets `n` bytes from `a`. -/
def TokRec.meets (r : TokRec) (a n : Nat) : Bool := decide (r.base < a + n) && decide (a < r.base + regionBytes r.size)

/-- Whether a record is of exactly this region. -/
def TokRec.isFor (r : TokRec) (base size : Nat) : Bool := r.base == base && r.size == size

/-- The home stack of a region's records: a core region's own stack (R365), else the page's home. -/
def regionHome (l : Leaf) : StackId := if paWindow l.pa then winStack l.pa else l.home

/-- Records of a slice that cover a byte, with their entry numbers. -/
def StackS.recsAt (x : StackS) (pa : Nat) : List (Nat × TokRec) := x.toks.filter (fun e => e.2.covers pa)

/-- Records of a slice of exactly a region. -/
def StackS.recsFor (x : StackS) (base size : Nat) : List (Nat × TokRec) := x.toks.filter (fun e => e.2.isFor base size)

/-- Whether a task is current on a core, and is this agent (R233). -/
def State.isCurrent (s : State) (ag : Agent) (c : CoreId) : Bool :=
  match s.task? c with
  | some t => ag == t.agent c
  | none => false

/-- Records of the region of a byte that wait for a place in its slice (R367). -/
def State.needsAt (s : State) (pa : Nat) : List TokRec :=
  s.toks.filterMap (fun m => match m with
    | .need _ r _ _ _ => if r.covers pa then some r else none
    | _ => none)

/-- Core regions of a suspended task stay its own while other tasks run on its core: their tokens and all that names them go by an
address of their own, the window address with the task's team above bit 52 (R233, R373, R435; log entry 48). -/
def parkShift (team : Nat) : Nat := 2 ^ 52 * (team + 1)
def winPlain (pa : Nat) : Nat := if paWindow pa then pa % 2 ^ 52 else pa

/-- The window address that an agent means by a window address of its own tables: the core region of a suspended task where it has a
record of that one. -/
def State.aim (s : State) (ag : Agent) (pa : Nat) : Nat :=
  if !(paWindow pa && winIsCore pa) then pa
  else
    let here (r : TokRec) : Bool := r.holder == ag && decide (winPlain r.base ≤ pa) && decide (pa < winPlain r.base + regionBytes r.size)
    let rs := (s.stack (winStack pa)).toks.map Prod.snd
    match rs.find? (fun r => here r && r.claimed), rs.find? here with
    | some r, _ => pa + (r.base - winPlain r.base)
    | none, some r => pa + (r.base - winPlain r.base)
    | none, none => pa

/-- Whether a region, or a part of it, is LOST, by a record of its slice or one that waits for a place there (R367, R382). -/
def State.lostIn (s : State) (st : StackId) (base n : Nat) : Bool :=
  (s.stack st).toks.any (fun e => e.2.st == .lost && e.2.meets base n) ||
  s.toks.any (fun m => match m with
    | .need h r _ _ _ => h == st && r.st == .lost && r.meets base n
    | _ => false)

/-- TRANSLATION of a virtual address for an access or a token instruction of a task on a core. -/
def State.translateFor (s : State) (c : CoreId) (t : Task) (va : Word) : Except TrErr Leaf :=
  match s.translateOn c t.ctx va with
  | .ok l => .ok { l with pa := s.aim (t.agent c) l.pa }
  | .error e => .error e

/-- Whether an agent could hold a core region from being current on its core: no record of the region exists or waits for a place
(R233, R365). -/
def State.coreAtRest (s : State) (ag : Agent) (pa : Nat) : Bool :=
  paWindow pa && winIsCore pa && s.isCurrent ag (winCoreId pa) && ((s.stack (winStack pa)).recsAt pa).isEmpty &&
  (s.needsAt pa).isEmpty

/-- The region at a byte that the task lent and has not waited for since, its token at rest: for the task it is LENT until its
own `tkwait`, whatever the receiver does (R372, R388, R393). -/
def Task.lentAt (t : Task) (pa : Nat) : Option (Nat × Nat × Nat) :=
  t.lentOut.find? (fun r => decide (r.1 ≤ pa) && decide (pa < r.1 + regionBytes r.2.1))

/-- Whether an agent holds a core region from being current on its core: no record of it, and not lent since. -/
def State.holdsCore (s : State) (ag : Agent) (pa : Nat) : Bool :=
  s.coreAtRest ag pa && (match s.task? (winCoreId pa) with
    | some t => (t.lentAt pa).isNone
    | none => true)

/-! ## Rights (R252) -/

/-- What an access needs of a region. -/
inductive Need where
  | load | store | fe
  deriving DecidableEq, Repr

/-- A record gives its holder the owner token: EXCL or SHARED, claimed, not a share. -/
def TokRec.owns (r : TokRec) (ag : Agent) : Bool :=
  r.holder == ag && !r.sh && r.claimed && (r.st == .excl || r.st == .shared)

/-- The same with no share outstanding. -/
def TokRec.ownsExcl (r : TokRec) (ag : Agent) : Bool := r.owns ag && r.st == .excl && r.nsh == 0

/-- A record gives its holder a share. -/
def TokRec.shares (r : TokRec) (ag : Agent) : Bool := r.holder == ag && r.sh && r.claimed && r.st != .lost

/-- THE TOKEN RULE of R252 on the region of a byte: an error code where the agent may not make the access. A LOST region
fails every access (R382). A record that waits for a place gives what it says (R367). -/
def State.tokenErr (s : State) (ag : Agent) (home : StackId) (pa : Nat) (need : Need) : Option Nat :=
  let rs := ((s.stack home).recsAt pa).map Prod.snd ++ s.needsAt pa
  if rs.any (fun r => r.st == .lost) then some errLost
  else
    let ok := s.holdsCore ag pa ||
      rs.any (fun r => match need with
        | .load => r.owns ag || r.shares ag
        | .store => r.ownsExcl ag
        | .fe => r.owns ag || (r.shares ag && r.at_))
    if ok then none else some errUnowned

/-! ## Record numbers (R367) -/

/-- The lowest free record from `k` on, among `n`. -/
def freeTok (t : Tab TokRec) : Nat → Nat → Option Nat
  | 0, _ => none
  | n + 1, k => if (t.find k).isNone then some k else freeTok t n (k + 1)

/-- The reserved record of a core (R367). -/
def reservedTok (c : CoreId) : Nat := 15344 + c.val

/-- The NAKs of a request after one more, as far as they matter: it has met two, or more (R408). -/
def nakUp (n : Nat) : Nat := min 3 (n + 1)

/-- A record for a request of a core that has met `naks` NAKs: a free general record; after two NAKs the core's reserved one; none
where the request waits (R367, R408). -/
def StackS.newTok (x : StackS) (c : CoreId) (naks : Nat) : Option Nat :=
  match freeTok x.toks 15344 0 with
  | some e => some e
  | none => if 2 ≤ naks ∧ (x.toks.find (reservedTok c)).isNone = true then some (reservedTok c) else none

def StackS.setTok (x : StackS) (e : Nat) (r : TokRec) : StackS := { x with toks := x.toks.set e r }
def StackS.dropTok (x : StackS) (e : Nat) : StackS := { x with toks := x.toks.drop e }

/-- A fresh record of a region held outright. -/
def TokRec.fresh (base size depth : Nat) (sc : Scope) (h : Agent) : TokRec :=
  ⟨base, size, depth, .excl, sc, false, false, 0, 0, h, false, false, false, 0, 0, [], 0⟩

/-- A fresh record of a share. -/
def TokRec.share (base size depth : Nat) (at_ : Bool) (sc : Scope) (h : Agent) : TokRec :=
  { TokRec.fresh base size depth sc h with sh := true, at_ := at_ }

/-! ## Scopes (R363, R369) -/

/-- Scopes from the narrowest to the widest. -/
def scopeRank : Scope → Nat
  | .dflt => 0
  | .co => 1
  | .cl => 2
  | .st => 3
  | .dv => 4
  | .sy => 5

/-- The wider of two scopes. -/
def scopeMax (a b : Scope) : Scope := if scopeRank a < scopeRank b then b else a

/-- The scope a field gives, with its instruction's default. -/
def scopeOr (d : Scope) : Scope → Scope
  | .dflt => d
  | s => s

/-- The core an agent is located at; engine operations, stacks and remote modules have none (R362). -/
def agentCore : Agent → Option CoreId
  | .task c _ _ _ => some c
  | _ => none

/-! ## Rest (R365, R377) -/

/-- Records the scope with which a region comes to rest. -/
def State.putRest (s : State) (base size : Nat) (sc : Scope) : State :=
  { s with rest := s.rest.filter (fun e => !(e.1 == base && e.2.1 == size)) ++ [(base, size, sc)] }

/-- A scope among others, once. -/
def addScope (l : List Scope) (sc : Scope) : List Scope := if sc = .dflt ∨ l.contains sc = true then l else l ++ [sc]

/-- The scopes of the returns to rest of any part of a region (R376, R383). -/
def State.restScopes (s : State) (base size : Nat) : List Scope :=
  (s.rest.filter (fun e => decide (base < e.1 + regionBytes e.2.1) && decide (e.1 < base + regionBytes size))).foldl
    (fun a e => addScope a e.2.2) []

/-- Takes every record of a list out of a slice. -/
def StackS.dropToks (x : StackS) (es : List Nat) : StackS :=
  { x with toks := x.toks.filter (fun e => !es.contains e.1) }

/-- Every record of a slice of a region, its splits and shares included, becomes LOST (R382). -/
def StackS.loseRegion (x : StackS) (base size : Nat) : StackS :=
  { x with toks := x.toks.map (fun e => if e.2.meets base (regionBytes size) then (e.1, { e.2 with st := .lost }) else e) }

/-- The same with the records that wait for a place there. -/
def State.loseRegion (s : State) (st : StackId) (base size : Nat) : State :=
  { s.setStack st ((s.stack st).loseRegion base size) with
    toks := s.toks.map (fun m => match m with
      | .need h r c n a => if h = st ∧ r.meets base (regionBytes size) = true then .need h { r with st := .lost } c n a else m
      | _ => m) }

end Sys2Proof.Machine
end

