-- ==== Sys2Proof/Machine/Unbacked.lean ====
section
/-! DEFINITION. Unbacked lines, reservations, frame pools, backing and migration, and the performance of a write at its home
(R241 to R246, R366, R468, R496). -/

namespace Sys2Proof.Machine

/-! ## Moving memory -/

/-- Removes every byte of a range, leaving it blank. -/
def Memory.clear (m : List Host.Cell) (a n : Nat) : List Host.Cell :=
  m.filter (fun c => !(decide (a ≤ c.1) && decide (c.1 < a + n)))

/-- Moves the bytes of a range to another, clearing both first. -/
def Memory.relocate (m : List Host.Cell) (a b n : Nat) : List Host.Cell :=
  let cs := m.filter (fun c => decide (a ≤ c.1) && decide (c.1 < a + n))
  cs.foldl (fun k c => Memory.put k (c.1 - a + b) c.2) (Memory.clear (Memory.clear m a n) b n)

/-- An address moved with its range. -/
def rebase (a b n x : Nat) : Nat := if a ≤ x ∧ x < a + n then x - a + b else x

/-- Keys of a table moved with their range, kept in order. -/
def Tab.rekey {α : Type} (t : Tab α) (f : Nat → Nat) : Tab α :=
  t.foldl (fun (u : Tab α) e => Sys2Proof.Tab.set u (f e.1) e.2) []

/-! ## Reservations (R242, R244) -/

/-- The valid reservation entry of a context. -/
def StackS.resvOf (x : StackS) (ctx : CtxId) : Option (Nat × Resv) :=
  x.resv.find? (fun e => e.2.valid && e.2.ctx == ctx)

/-- Changes the entry of a context, if it has one. -/
def StackS.mapResv (x : StackS) (ctx : CtxId) (f : Resv → Resv) : StackS :=
  match x.resvOf ctx with
  | some (i, r) => { x with resv := x.resv.set i (f r) }
  | none => x

/-- USED changed by a signed count. -/
def Resv.addUsed (r : Resv) (n : Int) : Resv := { r with used := BitVec.ofInt 32 (r.used.toNat + n) }
def Resv.addHeld (r : Resv) (n : Int) : Resv := { r with held := BitVec.ofInt 32 (r.held.toNat + n) }

/-- Reserved lines of a stack's storage part: the sum of RESV of every entry (R238). -/
def StackS.resvLines (x : StackS) : Nat := x.resv.foldl (fun a e => a + e.2.resv.toNat) 0

/-- Raises or lowers USED of a context at a stack. -/
def State.addUsed (s : State) (st : StackId) (ctx : CtxId) (n : Int) : State :=
  s.setStack st ((s.stack st).mapResv ctx (fun r => r.addUsed n))

/-! ## Live lines -/

/-- The LIVE lines of a page, by its leaf entry. -/
def State.pageLines (s : State) (leafPa : Nat) : List (Nat × LiveLine) := s.live.filter (fun e => e.2.leafPa == leafPa)

/-- Whether a page's backing waits for a frame, so that its LIVE lines count in HELD (R245). -/
def State.heldPage (s : State) (home : StackId) (leafPa : Nat) : Bool := (s.stack home).spills.any (fun p => p.leafPa == leafPa)

/-- A LIVE line of a page comes or goes: USED follows it, and HELD where the page's backing waits (R242, R245). -/
def State.countLine (s : State) (l : LiveLine) (n : Int) : State :=
  let s := s.addUsed l.home l.ctx n
  if s.heldPage l.home l.leafPa then s.setStack l.home ((s.stack l.home).mapResv l.ctx (fun r => r.addHeld n)) else s

/-- Frees a LIVE line: its bytes read zero and USED falls (R246). -/
def State.freeLine (s : State) (line : Nat) : State :=
  match s.live.find line with
  | some l =>
    { s with
      live := s.live.drop line
      mem := Memory.clear s.mem (128 * line) 128
      poison := s.poison.filter (fun a => a / 128 != line) }.countLine l (-1)
  | none => s

/-- Makes a FREE line LIVE (R246). -/
def State.makeLive (s : State) (line : Nat) (l : LiveLine) : State :=
  { s with live := s.live.set line l }.countLine l 1

/-! ## Identities that move with a page (R360) -/

/-- A waiting instruction's region follows its page. -/
def Wait.rebase (f : Nat → Nat) : Wait → Wait
  | .token sh va b z => .token sh va (f b) z
  | .recall b z => .recall (f b) z
  | .unshare b z sc => .unshare (f b) z sc
  | .split b z => .split (f b) z
  | w => w

/-- A pending full/empty load follows its word. -/
def Pend.rebase (f : Nat → Nat) (p : Pend) : Pend :=
  { p with kind := match p.kind with
      | .feWait e pa aux sc q => .feWait e (f pa) aux sc q
      | k => k }

/-- The regions a task names follow their page. -/
def Task.rebase (f : Nat → Nat) (t : Task) : Task :=
  let g (l : List (Nat × Nat)) : List (Nat × Nat) := l.map (fun r => (f r.1, r.2))
  { t with
    waits := t.waits.map (Wait.rebase f)
    pend := t.pend.map (Pend.rebase f)
    lentOut := t.lentOut.map (fun r => (f r.1, r.2))
    ops := t.ops.map (fun e => (e.1, { e.2 with cw := if e.2.cw = 0 then 0 else f e.2.cw, lent := g e.2.lent, shared := g e.2.shared, under := g e.2.under })) }

/-- So do those of the task in a core's next slot. -/
def Asg.rebase (f : Nat → Nat) : Asg → Asg
  | .resume t q => .resume (t.rebase f) q
  | a => a

/-- An operation's pages follow too. -/
def CopyOp.rebase (f : Nat → Nat) (o : CopyOp) : CopyOp :=
  let g (l : List PageMap) : List PageMap := l.map (fun m => { m with base := f m.base })
  { o with src := g o.src, dst := g o.dst, cwPa := if o.cwPa = 0 then 0 else f o.cwPa }

/-- And the records and tasks of a checkpoint, with the units of its pre-images (R445). -/
def Checkpoint.rebase (f : Nat → Nat) (c : Checkpoint) : Checkpoint :=
  { c with
    tasks := c.tasks.map (fun e => (e.1, e.2.rebase f))
    fresh := c.fresh.map (fun e => (e.1, e.2.rebase f))
    toks := c.toks.map (fun e => (e.1, e.2.1, { e.2.2 with base := f e.2.2.base }))
    fes := c.fes.map (fun a => { a with pa := f a.pa })
    rounds := c.rounds.map (fun r => { r with pa := f r.pa })
    follow := c.follow.map (CopyOp.rebase f)
    pre := c.pre.map (fun p => match p.unit with
      | .line x => { p with unit := .line (f x) }
      | _ => p) }

def Team.rebase (f : Nat → Nat) (t : Team) : Team :=
  { t with cp := t.cp.map (Checkpoint.rebase f), susp := t.susp.map (fun e => (e.1, e.2.rebase f)) }

def TokMsg.rebase (f : Nat → Nat) : TokMsg → TokMsg
  | .ret st b z d sc c n => .ret st (f b) z d sc c n
  | .unshare st b z a sc c n => .unshare st (f b) z a sc c n
  | .need st r c n a => .need st { r with base := f r.base } c n a
  | m => m

/-- Every name by physical address of a page's bytes follows the page from `a` to `b`: cached lines, posted writes, token
records, waits, messages, copy operations and pre-images. No L2 keeps a copy of the frame's former contents. -/
def State.movePage (s : State) (a b n : Nat) : State :=
  let f := rebase a b n
  let fl (l : Nat) : Nat := f (128 * l) / 128
  { s with
    mem := Memory.relocate s.mem a b n
    cores := s.cores.map (fun e => (e.1, { e.2 with
      l1 := Tab.rekey e.2.l1 fl, live := e.2.live.map (Task.rebase f), next := e.2.next.map (Asg.rebase f) }))
    clusters := s.clusters.map (fun e => (e.1, { e.2 with cc := Tab.rekey e.2.cc fl }))
    stackTab := s.stackTab.map (fun e => (e.1, { e.2 with
      toks := e.2.toks.map (fun r => (r.1, { r.2 with base := f r.2.base }))
      l2 := e.2.l2.filter (fun l => !(decide (b ≤ 128 * l.line) && decide (128 * l.line < b + n)))
      ops := e.2.ops.map (CopyOp.rebase f)
      requests := e.2.requests.map (CopyOp.rebase f)
      teams := e.2.teams.map (fun tm => (tm.1, tm.2.rebase f)) }))
    poison := (s.poison.filter (fun x => !(decide (b ≤ x) && decide (x < b + n)))).map f
    pwrites := s.pwrites.map (fun w => { w with pa := f w.pa })
    amos := s.amos.map (fun x => { x with pa := f x.pa })
    rounds := s.rounds.map (fun x => { x with pa := f x.pa })
    toks := s.toks.map (TokMsg.rebase f)
    rest := s.rest.map (fun e => (f e.1, e.2)) }

/-- Core regions of a core go by other addresses from now on, in every name of them (R233, R373; log entry 48). -/
def State.renameCore (s : State) (f : Nat → Nat) : State :=
  { s with
    cores := s.cores.map (fun e => (e.1, { e.2 with live := e.2.live.map (Task.rebase f), next := e.2.next.map (Asg.rebase f) }))
    stackTab := s.stackTab.map (fun e => (e.1, { e.2 with
      toks := e.2.toks.map (fun r => (r.1, { r.2 with base := f r.2.base }))
      ops := e.2.ops.map (CopyOp.rebase f)
      requests := e.2.requests.map (CopyOp.rebase f)
      teams := e.2.teams.map (fun tm => (tm.1, tm.2.rebase f)) }))
    poison := s.poison.map f
    fes := s.fes.map (fun a => { a with pa := f a.pa })
    toks := s.toks.map (TokMsg.rebase f)
    rest := s.rest.map (fun e => (f e.1, e.2)) }

/-- The addresses of a core's regions. -/
def corePa (c : CoreId) : Nat := windowPa (c.val / 16) (c.val % 16) 0 0
def coreSpan : Nat := 6 * 2 ^ 36

/-- The core regions of a task that leaves its core suspended take addresses of their own, and take their plain ones again when it
comes back to it. -/
def State.parkRegions (s : State) (c : CoreId) (team : Nat) : State :=
  s.renameCore (rebase (corePa c) (corePa c + parkShift team) coreSpan)
def State.unparkRegions (s : State) (c : CoreId) (team : Nat) : State :=
  s.renameCore (rebase (corePa c + parkShift team) (corePa c) coreSpan)

/-- A page-table entry as the device reads it. -/
def State.entry (s : State) (a : Nat) : Word := Memory.word s.view a

/-- The device rewrites the leaf entries of a page, each of a group with its own frame, and every TLB drops the page (R229). -/
def State.putLeaf (s : State) (leafPa : Nat) (e : Word) : State :=
  let z := leafSize e
  let step := if z = 1 then 2 ^ 12 else 2 ^ 21
  let k := if z = 1 ∨ z = 3 then 16 else 1
  ((List.range k).foldl (fun (s : State) j =>
    s.putPhysNum (leafPa + 8 * j) 8 (e + BitVec.ofNat 64 (step * j)).toNat) s).dropTlbs (fun x => x.leaf.leafPa == leafPa)

/-- A leaf entry with UNB, FRAME and HOME replaced (R230, R246). -/
def leafWith (e : Word) (unb : Bool) (frame : Nat) (home : StackId) : Word :=
  let keep := e.toNat % 2 ^ 12 + e.toNat / 2 ^ 52 % 8 * 2 ^ 52 + e.toNat / 2 ^ 56 % 4 * 2 ^ 56
  BitVec.ofNat 64 (keep + frame + (if unb then 2 ^ 55 else 0) + home.val * 2 ^ 58)

/-- The core of a task, or of the task that issued an engine operation (R367). -/
def Agent.issuer : Agent → Option CoreId
  | .task c _ _ _ => some c
  | .engine c _ _ _ _ => some c
  | _ => none

/-- A task as the sender of a message; another agent has none of its own. -/
def Agent.src : Agent → Src
  | .task c _ n co => ⟨c, n, co⟩
  | .engine c _ n co _ => ⟨c, n, co⟩
  | _ => ⟨0, 0, 0#48⟩

/-- A place for a record that a page brings: a free general one, else the reserved one of its holder's core (R367). -/
def StackS.placeFor (x : StackS) (r : TokRec) : Option Nat :=
  match freeTok x.toks 15344 0 with
  | some k => some k
  | none => match r.holder.issuer with
    | some c => if (x.toks.find (reservedTok c)).isNone then some (reservedTok c) else none
    | none => none

/-- Places the records that a page brings: the slice, the new number of each, and those that must wait for one. -/
def StackS.placeAll (x : StackS) : List (Nat × TokRec) → StackS × List (Nat × Nat) × List (Nat × TokRec)
  | [] => (x, [], [])
  | e :: t => match x.placeFor e.2 with
    | some k =>
      let (x, moved, left) := (x.setTok k e.2).placeAll t
      (x, (e.1, k) :: moved, left)
    | none =>
      let (x, moved, left) := x.placeAll t
      (x, moved, e :: left)

/-- A message about a region of a page that moves to another slice follows it; the delivery of a record that must wait for a place
goes with the record. -/
def TokMsg.rehome (a b : StackId) (here : Nat → Bool) (moved : List (Nat × Nat)) (left : List Nat) : TokMsg → Option TokMsg
  | .deliver st e c n =>
    if st = a then
      if left.contains e then none
      else match moved.find? (fun m => m.1 == e) with
        | some m => some (.deliver b m.2 c n)
        | none => some (.deliver st e c n)
    else some (.deliver st e c n)
  | .ret st x z d sc c n => some (.ret (if st = a ∧ here x = true then b else st) x z d sc c n)
  | .unshare st x z at_ sc c n => some (.unshare (if st = a ∧ here x = true then b else st) x z at_ sc c n)
  | .need st r c k n => some (.need (if st = a ∧ here r.base = true then b else st) r c k n)

/-- Token records of a page move with it to another slice, and the messages about them (R366, R367). -/
def State.moveRecs (s : State) (a b : StackId) (base n : Nat) : State :=
  if a = b then s
  else
    let rs := (s.stack a).toks.filter (fun e => e.2.meets base n)
    let s := s.setStack a ((s.stack a).dropToks (rs.map Prod.fst))
    let (x, moved, left) := (s.stack b).placeAll rs
    let here (p : Nat) : Bool := decide (base ≤ p) && decide (p < base + n)
    { s.setStack b x with
      toks := s.toks.filterMap (TokMsg.rehome a b here moved (left.map Prod.fst)) ++
        left.map (fun e => .need b e.2 e.2.holder.src 2 0) }

/-- The tag of a write to a page whose home has changed. -/
def WrTag.rehome (leafPa : Nat) (h : StackId) (w : WrTag) : WrTag := if w.leafPa = leafPa then { w with home := h } else w

/-- Writes to a page, in caches and on their way, go to its new home (R236, R246). -/
def State.rehomeWrites (s : State) (leafPa : Nat) (h : StackId) : State :=
  let ln (l : Line) : Line := { l with wr := l.wr.map (WrTag.rehome leafPa h) }
  { s with
    cores := s.cores.map (fun e => (e.1, { e.2 with l1 := e.2.l1.map (fun l => (l.1, ln l.2)) }))
    clusters := s.clusters.map (fun e => (e.1, { e.2 with cc := e.2.cc.map (fun l => (l.1, ln l.2)) }))
    pwrites := s.pwrites.map (fun w => { w with tag := w.tag.rehome leafPa h })
    amos := s.amos.map (fun x => if x.leafPa = leafPa then { x with home := h } else x)
    rounds := s.rounds.map (fun x => if x.leafPa = leafPa then { x with home := h } else x) }

/-- The device remembers the leaf entry that it wrote (R245, R246). -/
def State.setBacked (s : State) (leafPa : Nat) (e : Word) : State := { s with backed := s.backed.set leafPa e }

/-- The LIVE lines of a page leave the storage part, each charged to its writer (R246, R468). -/
def State.unlistPage (s : State) (leafPa : Nat) : State :=
  let s' := (s.pageLines leafPa).foldl (fun (s : State) l => (s.addUsed l.2.home l.2.ctx (-1)).chargeWriter l.2.wr) s
  { s' with live := s'.live.filter (fun l => l.2.leafPa != leafPa) }

/-- BACKING A PAGE with frame `f`: LIVE lines are written to it and leave the storage part, its other bytes are zero, and
the leaf gets UNB := 0, FRAME := f and HOME (R246). Each line is charged to its writer (R468). -/
def State.backPage (s : State) (leafPa f : Nat) (newHome : StackId) : State :=
  let e := s.entry leafPa
  let n := 2 ^ pageBits (leafSize e)
  let s := (s.unlistPage leafPa).movePage (leafFrame e) f n
  let s := (s.moveRecs (leafHome e) newHome f n).rehomeWrites leafPa newHome
  let e' := leafWith e false f newHome
  (s.putLeaf leafPa e').setBacked leafPa e'

/-- The pool of a die and page size: keyed 8 × die + size (R243). -/
def poolKey (die z : Nat) : Nat := 8 * die + z

/-- Takes the oldest frame of a pool (R243). -/
def State.takeFrame (s : State) (die z : Nat) : Option (Nat × State) :=
  match s.pools.get [] (poolKey die z) with
  | f :: t => some (f.toNat, { s with pools := s.pools.set (poolKey die z) t })
  | [] => none

/-- The memory die whose pool a stack uses, as its socket − 64 (R224). -/
def poolDie (st : StackId) : Nat := st.val / 8

/-- A page must be backed: at once where its pool has a frame; else its lines are held and the host receives a spill fault
(R245). Answers whether the page was backed. -/
def State.needFrame (s : State) (ctx : CtxId) (leafPa : Nat) (home : StackId) (die : Nat) (newHome : StackId) :
    State × Bool :=
  let z := leafSize (s.entry leafPa)
  if s.heldPage home leafPa then (s, false)
  else match s.takeFrame die z with
    | some (f, s) => (s.backPage leafPa f newHome, true)
    | none =>
      let n := (s.pageLines leafPa).length
      let mkRec (ent : Nat) := eventRecord 3 ctx.val 0 0#32 0#48 (BitVec.ofNat 64 (home.val * 256 + z)) 0#32 0#32 ent
      let x := (s.stack home).mapResv ctx (fun r => r.addHeld n)
      let (x, ent) := match x.putFault mkRec with
        | some (x, ent) => (x, ent)
        | none => (x, 4096)
      ((s.setStack home { x with spills := x.spills ++ [⟨ctx, leafPa, z, ent, die, newHome.val⟩] }).interrupt (.spill home),
        false)

/-! ## Writes at the home (R241, R244, R246, R496) -/

/-- Whether the tables of a context lead to a leaf entry; those of a context that is not valid, swapped out say, are left as they are
(R246; log entry 43). -/
def State.leadsTo (s : State) (ctx : CtxId) (leafPa : Nat) : Bool :=
  !(s.ctx ctx).valid || (s.leavesOf ctx).any (fun e => e.1 == leafPa)

/-- Whether a leaf entry of a context still maps an unbacked page. -/
def State.mapsUnbacked (s : State) (ctx : CtxId) (leafPa : Nat) : Bool :=
  let e := s.entry leafPa
  leafP e && leafIsLeaf e && leafUnb e && s.leadsTo ctx leafPa

/-- Whether it maps an unbacked line name (R496). -/
def State.mapsName (s : State) (ctx : CtxId) (leafPa pa : Nat) : Bool :=
  let e := s.entry leafPa
  s.mapsUnbacked ctx leafPa && decide (leafFrame e ≤ pa) && decide (pa < leafFrame e + 2 ^ pageBits (leafSize e))

/-- The unbacked page of a context that a line name belongs to, as the line would be in it. -/
def State.ownerIn (s : State) (ctx : CtxId) (pa : Nat) : Option LiveLine :=
  (s.leavesOf ctx).findSome? (fun e =>
    if s.mapsName ctx e.1 pa then
      some ⟨leafHome (s.entry e.1), ctx, e.1, e.2 + (pa - leafFrame (s.entry e.1)) / 4096, some ctx⟩
    else none)

/-- The unbacked page of the module that a line name belongs to now (R496). -/
def State.ownerOf (s : State) (pa : Nat) : Option LiveLine :=
  (s.ctxs.filter (fun e => e.2.valid)).findSome? (fun e => s.ownerIn (Fin.ofNat 4096 e.1) pa)

/-- How a write at its home ends. -/
inductive WriteEnd where
  | done
  | held
  | overrun
  deriving DecidableEq, Repr

/-- The tag of a write whose line name has been mapped anew: what the new page says (R496). -/
def State.retag (s : State) (w : WrTag) (l : LiveLine) (pa : Nat) : WrTag :=
  { w with
    ctx := l.ctx, home := l.home, leafPa := l.leafPa, late := leafLate (s.entry l.leafPa)
    va := BitVec.ofNat 64 (l.vpn * 4096 + pa % 4096 / 128 * 128), cls := leafClass (s.entry l.leafPa) }

/-- A write that overruns its reservation: fatal with LATE = 0, else the page is backed and the write goes on there, or waits
(R244, R245). -/
def State.writeOverrun (s : State) (w : WrTag) (pa : Nat) (bytes : List (Option Byte)) (bad : BitVec 16) : State × WriteEnd :=
  if !w.late then (s, .overrun)
  else
    let base := leafFrame (s.entry w.leafPa)
    let (s', ok) := s.needFrame w.ctx w.leafPa w.home (poolDie w.home) w.home
    if ok then (s'.writeL2 w (pa - base + leafFrame (s'.entry w.leafPa)) bytes bad, .done) else (s', .held)

/-- Whether the reservation of a context at a stack has a line left. -/
def State.mayAllocate (s : State) (st : StackId) (ctx : CtxId) : Bool :=
  match (s.stack st).resvOf ctx with
  | some (_, r) => decide (r.used.toNat < r.resv.toNat)
  | none => false

/-- A write of bytes within a line of an unbacked page that owns the line's name; `wr` is the writer that the line is charged to
(R241, R246, R468). -/
def State.writeUnbacked (s : State) (w : WrTag) (wr : Option CtxId) (pa : Nat) (bytes : List (Option Byte)) (disc : Bool)
    (bad : BitVec 16) : State × WriteEnd :=
  let line := lineOf pa
  if disc then (s.freeLine line, .done)
  else match s.live.find line with
    | some l => ({ s with live := s.live.set line { l with wr := wr } }.putMarked pa bytes bad, .done)
    | none =>
      if s.mayAllocate w.home w.ctx then
        ((s.makeLive line ⟨w.home, w.ctx, w.leafPa, w.va.toNat / 4096, wr⟩).putMarked pa bytes bad, .done)
      else s.writeOverrun w pa bytes bad

/-- WRITE_AT_HOME: one write, or one `disc`, of bytes within a line is performed, with the poison it carries. A write to a line name
that no page has is discarded, and one to a name mapped anew takes effect in the new page (R241, R244, R246, R443, R496). -/
def State.writeHome (s : State) (w : WrTag) (pa : Nat) (bytes : List (Option Byte)) (disc : Bool) (bad : BitVec 16) :
    State × WriteEnd :=
  if paUnbacked pa then
    if s.mapsName w.ctx w.leafPa pa then s.writeUnbacked w (s.writerOf w) pa bytes disc bad
    else match s.ownerOf pa with
      | some l => s.writeUnbacked (s.retag w l pa) (s.writerOf w) pa bytes disc bad
      | none => (s, .done)
  else if disc then (s.zeroLine w (lineOf pa), .done)
  else (s.writeL2 w pa bytes bad, .done)

/-- Performs posted write `n`: it leaves the queue, stays there held for a frame (R245), or ends its context (R244). -/
def State.performWrite (s : State) (n : Nat) : State :=
  match s.pwrites[n]? with
  | none => s
  | some w =>
    let (s', e) := s.writeHome w.tag w.pa w.bytes w.disc w.bad
    match e with
    | .done => { s' with pwrites := listDrop s'.pwrites n }
    | .held => { s' with pwrites := listSet s'.pwrites n { w with held := true } }
    | .overrun =>
      { s' with pwrites := listDrop s'.pwrites n }.fatalFor w.tag.core w.tag.ctx w.tag.launch w.tag.coord w.tag.fpos errOverrun 3
        (agentId (.task w.tag.core w.tag.ctx w.tag.launch w.tag.coord)) w.tag.va (BitVec.ofNat 64 w.pa)

/-- Whether a write of a posted write's way waits for a frame; those sent after it wait behind it (R29, R245). -/
def State.wayHeld (s : State) (w : PWrite) : Bool := s.pwrites.any (fun v => v.held && v.way == w.way)

/-- Whether a posted write has to wait: for a frame, itself or one before it (R29, R245), or for a link that is fenced (R450). -/
def State.stuck (s : State) (w : PWrite) : Bool := s.wayHeld w || s.linkShut (stackOf w.tag.core) w.tag.home

/-- Performs, in order, each posted write of which `p` holds; one that has to wait stays. -/
def State.performWhere (s : State) (p : PWrite → Bool) : Nat → Nat → State
  | 0, _ => s
  | k + 1, n =>
    match s.pwrites[n]? with
    | none => s
    | some w =>
      if p w && !s.stuck w then
        let s' := s.performWrite n
        if s'.pwrites.length < s.pwrites.length then s'.performWhere p k n else s'.performWhere p k (n + 1)
      else s.performWhere p k (n + 1)

/-- Performs every posted write of which `p` holds, with those of its way, so that they arrive in the order sent (R29). -/
def State.drain (s : State) (p : PWrite → Bool) : State :=
  s.performWhere (fun w => s.pwrites.any (fun v => p v && v.way == w.way)) s.pwrites.length 0

end Sys2Proof.Machine
end

