-- ==== Sys2Proof/Machine/Cache.lean ====
section
/-! DEFINITION. The L1 of each core and the cluster cache of each cluster: fills, writes, write-backs, evictions, and what
releases, acquires and fences do to them (R236, R237, R370, R371). -/

namespace Sys2Proof.Machine

/-! ## Lines -/

/-- The touch bit of a core in its cluster. -/
def touchBit (c : CoreId) : BitVec 4 := BitVec.twoPow 4 (coreInCluster c)

/-- Whether a write is a task's own, and none of its engine operations'. -/
def WrTag.byTask (w : WrTag) (launch : Nat) (coord : BitVec 48) : Bool :=
  w.handle.isNone && w.launch == launch && w.coord == coord

/-- A posted write that a release of a task waits for: its own, or one that it must carry on (R370, R377). -/
def PWrite.of (launch : Nat) (coord : BitVec 48) (w : PWrite) : Bool :=
  w.tag.byTask launch coord || w.covers.contains (launch, coord)

/-- The tasks current on the cores of a cluster that touch bits name. -/
def State.touchers (s : State) (cl : ClusterId) (touch : BitVec 4) : List (Nat × BitVec 48) :=
  (List.range 4).filterMap (fun k => if touch.getLsbD k then
    (s.task? (Fin.ofNat 1024 (4 * cl.val + k))).map (fun t => (t.launch, t.coord)) else none)

/-- Posted writes of one stack to a line are performed before that stack reads it (R29, R370). -/
def State.orderReads (s : State) (st : StackId) (line : Nat) : State :=
  s.drain (fun w => decide (stackOf w.tag.core = st) && lineOf w.pa == line)

/-! ## Write-backs (R370) -/

/-- Lines of a core's L1 and of a cluster cache: 64 KiB and 4 MiB (R15, R16, R33). -/
def l1Room : Nat := 512
def ccRoom : Nat := 32768

/-- One dirty line of a cluster cache is sent toward its home and is clean. -/
def State.cleanCC (s : State) (cl : ClusterId) (line : Nat) : State :=
  match (s.cluster cl).cc.find line with
  | none => s
  | some l =>
    match l.wr with
    | none => s
    | some w =>
      { s.setCluster cl { s.cluster cl with cc := (s.cluster cl).cc.set line { l with dirty := 0#128, wr := none } } with
        pwrites := s.pwrites ++ [⟨128 * line, maskedBytes l.data l.dirty, w, false, false, s.touchers cl l.touch, false, l.bad⟩] }

/-- An eviction from a cluster cache (R236). -/
def State.evictCC (s : State) (cl : ClusterId) (line : Nat) : State :=
  let s := s.cleanCC cl line
  s.setCluster cl { s.cluster cl with cc := (s.cluster cl).cc.drop line }

/-- A full cluster cache gives up a line (R236; log entry 14). -/
def State.roomCC (s : State) (cl : ClusterId) : State :=
  let cc := (s.cluster cl).cc
  if cc.length < ccRoom then s
  else match cc[Config.cacheVictim s.free % cc.length]? with
    | some e => { s with free := s.free + 1 }.evictCC cl e.1
    | none => s

/-- One line of an L1 is written to the cluster cache and is clean. -/
def State.cleanL1 (s : State) (c : CoreId) (line : Nat) : State :=
  match (s.core c).l1.find line with
  | none => s
  | some l =>
    if l.dirty = 0#128 then s
    else
      let cl := clusterOf c
      let s := if ((s.cluster cl).cc.find line).isSome then s else s.roomCC cl
      let old := ((s.cluster cl).cc.find line).getD ⟨l.data, 0#128, 0#4, none, l.bad⟩
      let nw : Line := ⟨mergeBytes old.data 0 (maskedBytes l.data l.dirty), old.dirty ||| l.dirty, old.touch ||| touchBit c,
        l.wr, mixBad old.bad l.dirty l.bad⟩
      (s.setCluster cl { s.cluster cl with cc := (s.cluster cl).cc.set line nw }).setCore c
        { s.core c with l1 := (s.core c).l1.set line { l with dirty := 0#128, wr := none } }

/-- An eviction from an L1 (R236): the line is written back if dirty, and leaves. -/
def State.evictL1 (s : State) (c : CoreId) (line : Nat) : State :=
  let s := s.cleanL1 c line
  s.setCore c { s.core c with l1 := (s.core c).l1.drop line }

/-- A full L1 gives up a line (R236; log entry 14). -/
def State.roomL1 (s : State) (c : CoreId) : State :=
  let l1 := (s.core c).l1
  if l1.length < l1Room then s
  else match l1[Config.cacheVictim s.free % l1.length]? with
    | some e => { s with free := s.free + 1 }.evictL1 c e.1
    | none => s

/-- Every dirty line of an L1 is written to the cluster cache. -/
def State.flushL1 (s : State) (c : CoreId) : State :=
  ((s.core c).l1.map Prod.fst).foldl (fun (s : State) l => s.cleanL1 c l) s

/-- Every line of an L1 leaves it, dirty ones written back. -/
def State.evictAllL1 (s : State) (c : CoreId) : State :=
  ((s.core c).l1.map Prod.fst).foldl (fun (s : State) l => s.evictL1 c l) s

/-- Every dirty line of the cluster cache that carries the core's touch bit is sent toward its home (R370). -/
def State.flushCC (s : State) (c : CoreId) : State :=
  let cl := clusterOf c
  (((s.cluster cl).cc.filter (fun e => (e.2.touch &&& touchBit c) != 0#4)).map Prod.fst).foldl
    (fun (s : State) l => s.cleanCC cl l) s

/-! ## Fills -/

/-- A clean copy that is poisoned: it is dropped and fetched again (R443). -/
def Line.spoilt (l : Line) : Bool := l.dirty == 0#128 && l.bad != 0#16

/-- A line as a stack reads it at its home: writes of its own that wait for a frame lie over it, since what one stack sends about one
line keeps its order (R29, R245, R255). -/
def State.overlay (s : State) (st : StackId) (line : Nat) (d : BitVec 1024) : BitVec 1024 :=
  s.pwrites.foldl (fun d p =>
    if s.wayHeld p && lineOf p.pa == line && stackOf p.tag.core == st then mergeBytes d (p.pa % 128) p.bytes else d) d

/-- The cluster cache holds a line and the core's touch bit in it is set (R370); the tag says whose access fills it, and from which
home. -/
def State.fillCC (s : State) (w : WrTag) (line : Nat) : State :=
  let cl := clusterOf w.core
  let fresh (s : State) : State :=
    let s := ((s.noteShut (stackOf w.core) w.home).orderReads (stackOf w.core) line).touchL2 w line
    s.setCluster cl { s.cluster cl with
      cc := (s.cluster cl).cc.set line ⟨s.overlay (stackOf w.core) line (s.homeLine w.home line), 0#128, touchBit w.core, none,
        s.homeBad w.home line⟩ }
  match (s.cluster cl).cc.find line with
  | some l =>
    if l.spoilt then
      let s := fresh s
      s.absorb (.ccLine cl line (badWord l.bad)) (s.homeBad w.home line == 0#16)
    else s.setCluster cl { s.cluster cl with cc := (s.cluster cl).cc.set line { l with touch := l.touch ||| touchBit w.core } }
  | none => fresh (s.roomCC cl)

/-- The L1 holds a line. -/
def State.fillL1 (s : State) (w : WrTag) (line : Nat) : State :=
  let c := w.core
  let fresh (s : State) : State :=
    let s := s.fillCC w line
    match (s.cluster (clusterOf c)).cc.find line with
    | some l => s.setCore c { s.core c with l1 := (s.core c).l1.set line ⟨l.data, 0#128, 0#4, none, l.bad⟩ }
    | none => s
  match (s.core c).l1.find line with
  | some l =>
    if l.spoilt then
      let s := fresh s
      s.absorb (.l1Line c line (badWord l.bad)) ((((s.core c).l1.find line).map (fun m => m.bad == 0#16)).getD false)
    else s
  | none => fresh (s.roomL1 c)

/-! ## Accesses -/

/-- A load of one line by the task that the tag names, with the line's poisoned words: through its L1 and cluster cache, or from the
home for an ATOM page (R230, R236). -/
def State.readLine (s : State) (w : WrTag) (line : Nat) (atom : Bool) : State × BitVec 1024 × BitVec 16 :=
  if atom then
    let s := ((s.noteShut (stackOf w.core) w.home).orderReads (stackOf w.core) line).touchL2 w line
    (s, s.overlay (stackOf w.core) line (s.homeLine w.home line), s.homeBad w.home line)
  else
    let s := s.fillL1 w line
    (s, match (s.core w.core).l1.find line with
      | some l => (l.data, l.bad)
      | none => (0#1024, 0#16))

/-- A store by a core of bytes within one line: into its L1, or posted to the home for an ATOM page (R230, R236, R255). -/
def State.writeLine (s : State) (w : WrTag) (pa : Nat) (bytes : List (Option Byte)) (atom : Bool) : State :=
  if atom then { s with pwrites := s.pwrites ++ [⟨pa, bytes, w, false, false, [], true, 0#16⟩] }
  else
    let line := lineOf pa
    let s := (s.fillL1 w line).fillCC w line
    match (s.core w.core).l1.find line with
    | some l => s.setCore w.core { s.core w.core with
        l1 := (s.core w.core).l1.set line
          { l with data := mergeBytes l.data (pa % 128) bytes, dirty := l.dirty ||| dirtyMask (pa % 128) bytes,
                   wr := some w, bad := mixBad l.bad (dirtyMask (pa % 128) bytes) 0#16 } }
    | none => s

/-! ## Invalidations (R371) -/

/-- The clean lines of an L1 are dropped. -/
def State.dropL1Clean (s : State) (c : CoreId) : State :=
  s.setCore c { s.core c with l1 := (s.core c).l1.filter (fun e => e.2.dirty != 0#128) }

/-- The clean lines of a cluster cache that satisfy `p` are dropped. -/
def State.dropCCClean (s : State) (cl : ClusterId) (p : Line → Bool) : State :=
  s.setCluster cl { s.cluster cl with cc := (s.cluster cl).cc.filter (fun e => e.2.dirty != 0#128 || !p e.2) }

/-- Posted writes of a stack are from now on waited for by releases of the task on a core too. -/
def State.carryPosts (s : State) (c : CoreId) (p : PWrite → Bool) : State :=
  match s.task? c with
  | none => s
  | some t => { s with pwrites := s.pwrites.map (fun w =>
      if p w && w.tag.handle.isNone && !w.of t.launch t.coord then { w with covers := w.covers ++ [(t.launch, t.coord)] } else w) }

/-- Writes that an edge of scope `.cl` or `.st` covers may not have reached their homes; releases of the acquirer carry them on, so
that they are cumulative (R377): dirty lines of its cluster cache and what its cluster has posted, or all that its stack has. -/
def State.carryWrites (s : State) (c : CoreId) (sc : Scope) : State :=
  let cl := clusterOf c
  match sc with
  | .cl =>
    let mates := s.touchers cl 0xF#4
    (s.setCluster cl { s.cluster cl with
      cc := (s.cluster cl).cc.map (fun e =>
        (e.1, if e.2.dirty = 0#128 then e.2 else { e.2 with touch := e.2.touch ||| touchBit c })) }).carryPosts c
      (fun w => clusterOf w.tag.core == cl || mates.any (fun k => w.of k.1 k.2))
  | .st => s.carryPosts c (fun w => stackOf w.tag.core == stackOf c)
  | _ => s

/-- What an acquire at a scope drops (R371). -/
def State.dropAt (s : State) (c : CoreId) (sc : Scope) : State :=
  match sc with
  | .dflt | .co => s
  | .cl => s.dropL1Clean c
  | .st | .dv | .sy => (s.dropL1Clean c).dropCCClean (clusterOf c) (fun _ => true)

/-- AN ACQUIRE on a core of several releases: it drops at the widest scope among them, and what each of them covers is carried on
(R371, R377, R383). -/
def State.acquireAll (s : State) (c : CoreId) (l : List Scope) : State :=
  (l.foldl (fun (s : State) sc => s.carryWrites c sc) s).dropAt c (l.foldl scopeMax .dflt)

/-- An acquire of one release. -/
def State.acquire (s : State) (c : CoreId) (sc : Scope) : State := s.acquireAll c [sc]

/-- The giver's copies of a region's lines are invalidated, dirty ones after they are written back: in its L1 at every scope, in its
cluster cache at `.st` and wider (R370). There a line that another core has dirtied is kept, for no write is lost (R379). -/
def State.dropRegion (s : State) (c : CoreId) (base n : Nat) (sc : Scope) : State :=
  let within (e : Nat × Line) : Bool := decide (base ≤ 128 * e.1) && decide (128 * e.1 < base + n)
  let gone (e : Nat × Line) : Bool := e.2.dirty == 0#128 && within e
  let s := (((s.core c).l1.filter within).map Prod.fst).foldl (fun (s : State) l => s.evictL1 c l) s
  if 3 ≤ scopeRank sc then
    s.setCluster (clusterOf c) { s.cluster (clusterOf c) with
      cc := (s.cluster (clusterOf c)).cc.filter (fun e => !gone e) }
  else s

/-- A line leaves every cache of the module, dirty or not (R246, R273, R447). -/
def State.dropEverywhere (s : State) (line : Nat) : State :=
  { s with
    cores := s.cores.map (fun e => (e.1, { e.2 with l1 := e.2.l1.drop line }))
    clusters := s.clusters.map (fun e => (e.1, { e.2 with cc := e.2.cc.drop line })) }

/-- Whether a cached line holds a write that no page of a valid context can take any more (R496). -/
def State.staleWrite (s : State) (e : Nat × Line) : Bool :=
  match e.2.wr with
  | some w => paUnbacked (128 * e.1) && (s.ctx w.ctx).valid &&
      s.ctxs.all (fun x => (s.ownerIn (Fin.ofNat 4096 x.1) (128 * e.1)).isNone)
  | none => false

/-- WHAT AN UNMAP TAKES WITH IT: LIVE lines that no leaf maps any more are dropped without a writeback, so that a read of their names
gives zero, and so are cached writes to names that no page has (R246, R496; log entry 43). -/
def State.unmapStale (s : State) : State :=
  let s := (s.live.filter (fun e => !s.mapsName e.2.ctx e.2.leafPa (128 * e.1))).foldl
    (fun (s : State) e => (s.dropEverywhere e.1).freeLine e.1) s
  let gone := ((s.cores.flatMap (fun e => e.2.l1)) ++ (s.clusters.flatMap (fun e => e.2.cc))).filter s.staleWrite
  gone.foldl (fun (s : State) e => s.dropEverywhere e.1) s

/-! ## Releases (R370) -/

/-- Whether an `amo` message has to wait: for a frame, itself or one before it on its way (R29, R245), or for a link that is fenced
(R450). -/
def State.amoStuck (s : State) (a : AmoMsg) : Bool :=
  s.amos.any (fun b => b.held && b.way == a.way) || s.linkShut (stackOf a.core) a.home

/-- Posted writes and `amo` messages of a task that wait for a frame, or for a link that is fenced. -/
def State.heldWrites (s : State) (launch : Nat) (coord : BitVec 48) : Bool :=
  s.pwrites.any (fun w => s.stuck w && w.of launch coord) ||
  s.amos.any (fun a => s.amoStuck a && a.launch == launch && a.coord == coord)

/-- Whether a full/empty access of a task with a number below `n` has not been performed: an access on its way or waiting at its word,
or a load that is sent again when the task resumes. A release's message leaves after them (R370). -/
def State.earlierFe (s : State) (launch : Nat) (coord : BitVec 48) (n : Nat) : Bool :=
  s.fes.any (fun a => a.launch == launch && a.coord == coord && a.handle.isNone && decide (a.seq < n)) ||
  s.stackTab.any (fun e => e.2.teams.any (fun m => m.2.susp.any (fun u => u.2.launch == launch && u.2.coord == coord &&
    u.2.pend.any (fun p => match p.kind with
      | .feWait _ _ _ _ q => p.val.isNone && decide (q < n)
      | _ => false))))

/-- A RELEASE at a scope by the task on a core, before its message leaves (R370): its own stores that no cache holds are performed;
at `.cl` and wider its L1 is written back, at `.st` and wider its cluster cache; at `.dv` and wider every write sent is performed
at its home, except one held for a frame, for which the message itself waits (R245). -/
def State.releaseData (s : State) (c : CoreId) (sc : Scope) : State :=
  let r := scopeRank sc
  let s := match s.task? c with
    | some t => if 1 ≤ r then s.drain (fun w => w.direct && w.tag.byTask t.launch t.coord) else s
    | none => s
  let s := if 2 ≤ r then s.flushL1 c else s
  let s := if 3 ≤ r then s.flushCC c else s
  match s.task? c with
  | some t => if 4 ≤ r then s.drain (PWrite.of t.launch t.coord) else s
  | none => s

end Sys2Proof.Machine
end

