-- ==== Sys2Proof/Machine/OnChip.lean ====
section
/-! DEFINITION. On-chip state of a core as its windows show it: scratchpad and tags, register files, count banks, column store,
engine registers (R232, R253, R261, R331). -/

namespace Sys2Proof.Machine

/-! ## Tasks, wherever they are -/

/-- Two ranges of bytes meet. -/
def rangesMeet (a n b m : Nat) : Bool := decide (a < b + m) && decide (b < a + n)


/-- Replaces the task current on a core by a function of it; nothing where there is none. -/
def State.mapTask (s : State) (c : CoreId) (f : Task → Task) : State :=
  match s.task? c with
  | some t => s.setTask c (f t)
  | none => s

/-- The task of a next slot, where it is one that re-enters. -/
def Asg.mapTask (f : Task → Task) : Asg → Asg
  | .resume t q => .resume (f t) q
  | a => a

/-- Changes every task of the module: current, about to re-enter, and suspended. -/
def State.mapTasks (s : State) (f : Task → Task) : State :=
  { s with
    cores := s.cores.map (fun e => (e.1, { e.2 with live := e.2.live.map f, next := e.2.next.map (Asg.mapTask f) }))
    stackTab := s.stackTab.map (fun e => (e.1, { e.2 with
      teams := e.2.teams.map (fun m => (m.1, { m.2 with susp := m.2.susp.map (fun t => (t.1, f t.2)) })) })) }

/-- Changes the task of a launch at a coordinate, wherever it is. -/
def State.mapTaskOf (s : State) (launch : Nat) (coord : BitVec 48) (f : Task → Task) : State :=
  s.mapTasks (fun t => if t.launch = launch ∧ t.coord = coord then f t else t)

/-- The task of a launch at a coordinate: current, about to re-enter, or suspended. -/
def State.taskOf (s : State) (launch : Nat) (coord : BitVec 48) : Option Task :=
  let here (t : Task) : Bool := t.launch == launch && t.coord == coord
  let now (x : CoreS) : List Task :=
    x.live.toList ++ (match x.next with | some (.resume t _) => [t] | _ => [])
  match (s.cores.flatMap (fun e => now e.2)).find? here with
  | some t => some t
  | none => (s.stackTab.flatMap (fun e => e.2.teams.flatMap (fun m => m.2.susp.map Prod.snd))).find? here

/-- The suspended task whose core regions have addresses of their own (R233, R373, R435; log entry 48). -/
def State.parkedTask (s : State) (pa : Nat) : Option Task :=
  let m := pa / 2 ^ 52 - 1
  let c := winCoreId pa
  let saved : Option Task := ((s.stack (stackOf c)).teams.find m).bind (fun tm => tm.susp.find (coreInStack c))
  match (s.core c).next with
  | some (.resume t _) => if t.team = m then some t else saved
  | _ => saved

/-- The task that a window address of a suspended task's regions names; none where the address is a plain one. -/
def State.windowKey (s : State) (pa : Nat) : Option (Nat × BitVec 48) :=
  if pa < 2 ^ 52 then none else (s.parkedTask pa).map (fun t => (t.launch, t.coord))

/-- Whether the task of a launch at a coordinate is current on a core. -/
def State.onCore (s : State) (core : CoreId) (launch : Nat) (coord : BitVec 48) : Bool :=
  match s.task? core with
  | some t => t.launch == launch && t.coord == coord
  | none => false

/-- The key of a window address as something that a task has issued names it: its own core is its own, wherever the task is, though it
has ended; another suspended task's regions there have addresses of their own. -/
def State.issuerKey (s : State) (core : CoreId) (launch : Nat) (coord : BitVec 48) (pa : Nat) : Option (Nat × BitVec 48) :=
  let mine : Bool := (s.taskOf launch coord).isNone || s.onCore core launch coord
  if pa < 2 ^ 52 ∧ winIsCore pa = true ∧ winCoreId pa = core ∧ mine = true then some (launch, coord) else s.windowKey pa

/-- The present address of a plain window address of a task's own core. -/
def State.ownPa (s : State) (core : CoreId) (launch : Nat) (coord : BitVec 48) (pa : Nat) : Nat :=
  match s.taskOf launch coord with
  | some t => if s.onCore core launch coord then pa else pa + parkShift t.team
  | none => pa

/-- The task of a key, else the task current on the core of a plain window address. -/
def State.keyTask (s : State) (pa : Nat) (k : Option (Nat × BitVec 48)) : Option Task :=
  match k with
  | some (l, co) => s.taskOf l co
  | none => if pa < 2 ^ 52 then s.task? (winCoreId pa) else none

/-- Changes that task; nothing where there is none. -/
def State.keyMap (s : State) (pa : Nat) (k : Option (Nat × BitVec 48)) (f : Task → Task) : State :=
  match k with
  | some (l, co) => s.mapTaskOf l co f
  | none => if pa < 2 ^ 52 then s.mapTask (winCoreId pa) f else s

/-- The task whose state a window address shows: the suspended owner of the region, or the task current on the core. -/
def State.windowTask (s : State) (pa : Nat) : Option Task := s.keyTask pa (s.windowKey pa)

/-- Completion words within a written range no longer hold their operations' stores. -/
def Task.cwGone (pa n : Nat) (t : Task) : Task :=
  { t with ops := t.ops.map (fun e =>
      (e.1, if e.2.cw != 0 && rangesMeet e.2.cw 4 pa n then { e.2 with stored := false } else e.2)) }

def State.cwGone (s : State) (pa n : Nat) : State := s.mapTasks (Task.cwGone pa n)

/-! ## Scratchpad -/

/-- Byte `o` of the scratchpad. -/
def Task.scrByte (t : Task) (o : Nat) : Byte := (t.scratch.get 0#32 (o / 4)).extractLsb' (8 * (o % 4)) 8

/-- Writes byte `o` of the scratchpad. -/
def Task.setScrByte (t : Task) (o : Nat) (b : Byte) : Task :=
  let w := t.scratch.get 0#32 (o / 4)
  let k := 8 * (o % 4)
  { t with scratch := t.scratch.set (o / 4) ((w &&& ~~~((0xFF#32) <<< k)) ||| ((b.setWidth 32) <<< k)) }

/-- `n` bytes of the scratchpad from offset `o`. -/
def Task.scrBytes (t : Task) (o n : Nat) : List Byte := (List.range n).map (fun i => t.scrByte (o + i))

/-- Writes bytes of the scratchpad from offset `o`. -/
def Task.setScrBytes (t : Task) (o : Nat) : List (Option Byte) → Task
  | [] => t
  | none :: l => t.setScrBytes (o + 1) l
  | some b :: l => (t.setScrByte o b).setScrBytes (o + 1) l

/-- Whether the tag of word `w` is full (R261). -/
def Task.isFull (t : Task) (w : Nat) : Bool := t.full.contains w

/-- Sets or clears the tags of `n` words from `w`. -/
def Task.setTags (t : Task) (w n : Nat) (b : Bool) : Task :=
  let rest := t.full.filter (fun x => !(decide (w ≤ x) && decide (x < w + n)))
  { t with full := if b then rest ++ (List.range n).map (fun i => w + i) else rest }

/-! ## Column store -/

/-- Writes bytes of the column store from window offset `o`. -/
def Task.setColBytes (t : Task) (o : Nat) : List (Option Byte) → Task
  | [] => t
  | none :: l => t.setColBytes (o + 1) l
  | some b :: l => ({ t with col := t.col.set o b }).setColBytes (o + 1) l

/-! ## Count banks -/

/-- Count `j` of set `k` of array `a`. -/
def Task.count (t : Task) (a k j : Nat) : BitVec 32 := (t.arr a).counts.get 0#32 (256 * k + j)

/-- Byte at offset `o` of the count-bank window (R232, kind 3). -/
def Task.countByte (t : Task) (o : Nat) : Byte :=
  (t.count (o / 0x2000) (o / 0x400 % 8) (o / 4 % 256)).extractLsb' (8 * (o % 4)) 8

/-- Writes a byte of the count-bank window. -/
def Task.setCountByte (t : Task) (o : Nat) (b : Byte) : Task :=
  let x := t.arr (o / 0x2000)
  let i := 256 * (o / 0x400 % 8) + o / 4 % 256
  let k := 8 * (o % 4)
  t.setArr (o / 0x2000)
    { x with counts := x.counts.set i ((x.counts.get 0#32 i &&& ~~~((0xFF#32) <<< k)) ||| ((b.setWidth 32) <<< k)) }

def Task.setCountBytes (t : Task) (o : Nat) : List (Option Byte) → Task
  | [] => t
  | none :: l => t.setCountBytes (o + 1) l
  | some b :: l => (t.setCountByte o b).setCountBytes (o + 1) l

/-! ## Engine registers (R331) -/

/-- The group in the IMM24 layout of `mxsel` (R317). -/
def ArrayS.grp (x : ArrayS) : Nat := x.gw * 256 + x.gcol

/-- Engine register at offset `o` of an array. -/
def ArrayS.engReg (x : ArrayS) (o : Nat) : Word :=
  if o = 0x00 then x.fmt.setWidth 64
  else if o = 0x08 then BitVec.ofNat 64 x.sl
  else if o = 0x10 then BitVec.ofNat 64 x.grp
  else if o = 0x18 then BitVec.ofNat 64 (x.drn.toNat + 2 * x.cur.isSome.toNat + 4 * x.pnd.isSome.toNat)
  else if 0x20 ≤ o ∧ o < 0x40 then x.mute.extractLsb' (8 * (o - 0x20)) 64
  else if 0x40 ≤ o ∧ o < 0x80 then
    let q := (o - 0x40) / 8
    x.thr.get 0xFFFFFFFF#32 (2 * q + 1) ++ x.thr.get 0xFFFFFFFF#32 (2 * q)
  else if o = 0x80 then x.abase
  else if o = 0x88 then x.ctrl
  else if 0xC0 ≤ o ∧ o < 0x100 then x.stat.get 0#64 ((o - 0xC0) / 8)
  else 0#64

/-- The same with one field of 64 mute bits replaced. -/
def ArrayS.setMute (x : ArrayS) (q : Nat) (v : Word) : ArrayS :=
  let m : BitVec 256 := (0xFFFFFFFFFFFFFFFF#256) <<< (64 * q)
  { x with mute := (x.mute &&& ~~~m) ||| ((v.setWidth 256) <<< (64 * q)) }

def ArrayS.setThr (x : ArrayS) (q : Nat) (v : Word) : ArrayS :=
  { x with thr := (x.thr.set (2 * q) (v.setWidth 32)).set (2 * q + 1) ((v >>> 32).setWidth 32) }

/-- A privileged write of an engine register; read-only ones ignore it. -/
def ArrayS.setEngReg (x : ArrayS) (o : Nat) (v : Word) : ArrayS :=
  if o = 0x00 then { x with fmt := v.setWidth 17 }
  else if o = 0x08 then { x with sl := v.toNat % 2 ^ 14 }
  else if o = 0x10 then { x with gw := v.toNat / 256 % 512, gcol := v.toNat % 256 }
  else if 0x20 ≤ o ∧ o < 0x40 then x.setMute ((o - 0x20) / 8) v
  else if 0x40 ≤ o ∧ o < 0x80 then x.setThr ((o - 0x40) / 8) v
  else if o = 0x80 then { x with abase := v }
  else if o = 0x88 then { x with ctrl := v }
  else x

/-! ## A core's windows -/

/-- What `n` bytes of kinds 0 to 4 of a task's core read as, physical registers for the files (R232); a dead register reads
zero. -/
def Task.winRead (t : Task) (kind o n : Nat) : Nat :=
  match kind with
  | 0 => leNat (t.scrBytes o n)
  | 1 =>
    if o < 0x2000 then (if t.regs.isDead .V (o / 128) then 0 else (t.regs.mainGet .V (o / 128)).toNat)
    else if o < 0x2400 then (t.regs.opfGet .V ((o - 0x2000) / 128)).toNat
    else (t.regs.mask ((o - 0x2400) / 4)).toNat
  | 2 =>
    if o < 0x200 then (if t.regs.isDead .A (o / 8) then 0 else (t.regs.mainGet .A (o / 8)).toNat)
    else (t.regs.opfGet .A ((o - 0x200) / 8)).toNat
  | 3 => leNat ((List.range n).map (fun i => t.countByte (o + i)))
  | 4 => leNat ((List.range n).map (fun i => t.col.get 0#8 (o + i)))
  | _ => 0

/-- The register that a window of kind 1 or 2 shows at an offset (R232). -/
def winDest (kind o : Nat) : Option Dest :=
  match kind with
  | 1 => some (if o < 0x2000 then .main .V (o / 128) else if o < 0x2400 then .opf .V ((o - 0x2000) / 128)
      else .mask ((o - 0x2400) / 4))
  | 2 => some (if o < 0x200 then .main .A (o / 8) else .opf .A ((o - 0x200) / 8))
  | _ => none

/-- A register written whole from outside. -/
def Task.setReg (t : Task) (d : Dest) (v : Vec) : Task := { t.heal d with regs := t.regs.write d v }

/-- Writes bytes through kinds 0 to 4 of a task's core (R232). -/
def Task.winWrite (t : Task) (kind o : Nat) (bytes : List (Option Byte)) : Task :=
  let v : Vec := BitVec.ofNat 1024 (leNat (bytes.map (fun b => b.getD 0#8)))
  match kind with
  | 0 => { t.setScrBytes o bytes with rel := t.rel.filter (fun e => !rangesMeet (4 * e.1) 4 o bytes.length) }
  | 1 =>
    if o < 0x2000 then t.setReg (.main .V (o / 128)) v
    else if o < 0x2400 then t.setReg (.opf .V ((o - 0x2000) / 128)) v
    else t.setReg (.mask ((o - 0x2400) / 4)) v
  | 2 =>
    if o < 0x200 then t.setReg (.main .A (o / 8)) v
    else t.setReg (.opf .A ((o - 0x200) / 8)) v
  | 3 => t.setCountBytes o bytes
  | 4 => t.setColBytes o bytes
  | _ => t

/-- Whether a window kind admits an access of `n` bytes at an offset (R232); `fe` for the full/empty forms. Kinds 5 to 8 hold
8-byte registers. -/
def winAdmits (kind o n : Nat) (store fe priv : Bool) : Bool :=
  if fe then kind == 0 && decide (o < 0x80000) && (n == 4 || n == 8 || n == 128)
  else
    match kind with
    | 0 => decide (o < 0x80000) && (n == 1 || n == 2 || n == 4 || n == 8 || n == 128)
    | 1 => if o < 0x2400 then n == 128 else decide (o < 0x2440) && n == 4
    | 2 => decide (o < 0x240) && n == 8
    | 3 => decide (o < 0x4000) && (n == 4 || n == 8 || n == 128) && (!store || priv)
    | 4 => decide (o < 0x800000) && (n == 4 || n == 8 || n == 128)
    | 5 => priv && decide (o < 0x1000) && n == 8
    | 6 => priv && decide (o < 0x10000) && n == 8
    | 7 => priv && decide (o < 0x41000) && n == 8
    | 8 => priv && decide (o < 0x10000) && n == 8
    | _ => false

/-- Whether the socket and core fields of a window address are admitted (R232). -/
def winPlaceOk (pa : Nat) : Bool :=
  let k := winKind pa
  let so := winSocket pa
  (decide (so < 64) || (decide (so < 72) && k == 5)) &&
  (decide (k < 5) || (k == 5 && (decide (so < 64) || winCore pa == 0)) || winCore pa == 0)

/-- Whether a task may reach a window of its own core: not its V file, A file or engine registers (R253, R331). -/
def ownCoreOk (kind : Nat) : Bool := kind != 1 && kind != 2 && kind != 5

/-! ## Bytes that arrays and circular buffers hold -/

/-- Width in bits of an array operand format (R48): n8, i8, n16, i16, E4M3, E5M2, N4X, FP16, BF16. -/
def fmtBits (f : Nat) : Nat :=
  match f with
  | 2 | 3 | 7 | 8 => 16
  | 6 => 4
  | _ => 8

/-- Whether a format has scale entries (R295). -/
def fmtScaled (f : Nat) : Bool := f == 4 || f == 5 || f == 6

/-- Fields of CTRL (R318). -/
def ctrlAstr (v : Word) : Nat := v.toNat / 2 ^ 18 % 2 ^ 12
def ctrlSlot (v : Word) : Nat := v.toNat / 2 ^ 13 % 32
def ctrlCset (v : Word) : Nat := v.toNat / 2 ^ 8 % 8
def ctrlNvec (v : Word) : Nat := v.toNat % 8 + 1

/-- Bytes of one A vector (R307). -/
def vecBytes (af : Nat) : Nat := 256 * fmtBits af / 8

/-- Whether a command holds bytes of a window of its core (R308, R323); `arr` is its array. -/
def Cmd.holdsBytes (k : Cmd) (arr kind o n : Nat) : Bool :=
  match kind with
  | 0 => k.vecs.any (fun v => v.any (fun a => rangesMeet a (min 128 (vecBytes (k.fmt.toNat % 16))) o n)) ||
      (match k.scale with | some a => rangesMeet a 32 o n | none => false)
  | 4 => rangesMeet (0x400000 * arr + 0x20000 * ctrlSlot k.ctrl) 0x20000 o n
  | _ => false

/-- Whether an array holds bytes of a window: sources of commands with an unjoined set, and unjoined count sets. -/
def ArrayS.holdsBytes (x : ArrayS) (arr kind o n : Nat) : Bool :=
  x.holds.any (fun h => h.1.holdsBytes arr kind o n ||
    (kind == 3 && h.2.any (fun k => rangesMeet (0x2000 * arr + 0x400 * k) 0x400 o n)))

def Task.arraysHold (t : Task) (kind o n : Nat) : Bool :=
  t.arr0.holdsBytes 0 kind o n || t.arr1.holdsBytes 1 kind o n

/-- Whether bytes of the scratchpad lie wholly in a slot that the task has taken and holds (R275). -/
def CircBuf.inHeld (b : CircBuf) (o n : Nat) : Bool :=
  decide (b.off ≤ o) && decide (o + n ≤ b.off + b.count * b.size) &&
  (let k := (o - b.off) / b.size
   decide ((o - b.off) % b.size + n ≤ b.size) && decide ((b.rd + b.count - 1 - k) % b.count < b.held))

/-- Whether a circular buffer of the task forbids an access to its own scratchpad (R248, R275). -/
def Task.bufferForbids (t : Task) (store : Bool) (o n : Nat) : Bool :=
  t.cbs.any (fun e => rangesMeet e.2.off (e.2.count * e.2.size) o n && (store || !e.2.inHeld o n))

end Sys2Proof.Machine
end

