-- ==== Sys2Proof/Machine/Hazard.lean ====
section
/-! DEFINITION. What holds a bundle back or fails it before it issues: pending registers, the queue, the scoreboard, bundle
checks, lent core regions, current weights (R124, R139, R142, R200, R233, R269, R314, R338). -/

namespace Sys2Proof.Machine

/-! ## What a syllable touches -/

/-- The storage a source operand reads; none for a latch, zero or immediate. -/
def readDest (r : Regs) (sl : Slot) (o : Opd) : Option Dest :=
  match o with
  | .main _ | .opf _ => some (r.dest sl o)
  | _ => none

/-- The storage a destination field names. -/
def dstDest (r : Regs) (d : Option (Slot × Opd)) : Option Dest :=
  match d with
  | some (sl, o) => readDest r sl o
  | none => none

/-- Sources of a syllable, its guard and old destination included. -/
def Uses.reads (u : Uses) (r : Regs) : List Dest :=
  (if u.gd.on then [Dest.pred u.gd.gp.toNat] else []) ++ u.srcs.filterMap (readDest r u.slot) ++
  u.pr.map (fun p => Dest.pred p.toNat) ++ u.kr.map Dest.mask ++
  (if u.old then (dstDest r u.dst).toList else [])

/-- Destinations a syllable names. -/
def Uses.writes (u : Uses) (r : Regs) : List Dest :=
  (dstDest r u.dst).toList ++ (match u.base with | some o => (readDest r u.slot o).toList | none => []) ++
  u.pw.map (fun p => Dest.pred p.toNat) ++ u.kw.map Dest.mask

/-- The reads of a syllable as issued: one whose guard does not pass is a `nop` that has read its guard (R114). -/
def Task.liveReads (t : Task) (i : Instr) : List Dest :=
  let u := usesOf i
  if t.passes u.gd then u.reads t.regs else [Dest.pred u.gd.gp.toNat]

/-- The destinations of a syllable as issued. -/
def Task.liveWrites (t : Task) (i : Instr) : List Dest :=
  let u := usesOf i
  if t.passes u.gd then u.writes t.regs else []

/-! ## R124: one destination named twice -/

/-- The first syllable that names a destination an earlier one names. -/
def dupSlot (r : Regs) : List Instr → List Dest → Option Slot
  | [], _ => none
  | i :: t, seen =>
    let u := usesOf i
    let w := u.writes r
    if w.any seen.contains then some u.slot else dupSlot r t (seen ++ w)

/-! ## R200: the unit occupied by an f64 bundle -/

/-- Whether a V syllable occupies the unit for two cycles (R200). -/
def occupiesV : Instr → Bool
  | .vadd f | .vsub f | .vmul f | .vfma f | .vfms f | .vfnma f | .vcmul f | .vbfly f => f.ty == .f64
  | _ => false

/-- Whether a V syllable may follow in the next issue cycle. -/
def freeV : Instr → Bool
  | .nop _ _ | .xcp _ _ => true
  | _ => false

/-! ## R314: the two checks of mxfmt -/

/-- Whether the pair of an `mxfmt` is declared for its array (R47, R314). -/
def pairDeclared (img : Image) (arr : Bool) (imm : BitVec 24) : Bool :=
  img.pairs.any (fun p =>
    p.amask.getLsbD arr.toNat && p.fmts.toNat == imm.toNat % 256 && p.ka == imm.toNat / 256 % 16 + 1 &&
    p.kb == imm.toNat / 4096 % 16 + 1 && p.pol == imm.toNat / 65536)

/-- Whether an instruction is an `mxfmt` that fails its checks (R314). -/
def mxfmtBad (img : Option Image) (t : Task) : Instr → Bool
  | .mxfmt f =>
    !(match img with | some i => pairDeclared i f.arr f.imm | none => false) || !(t.arr f.arr.toNat).drn
  | _ => false

/-! ## R139: the checking scoreboard -/

/-- Whether a read falls inside a producer's latency (R139). Lane masks, latches, dead and pending registers are not checked. -/
def Task.earlyRead (t : Task) (d : Dest) : Bool :=
  match d with
  | .mask _ => false
  | _ => !t.regs.destDead d && !(t.pend.any (fun p => p.dest == d)) &&
    t.flight.any (fun f => f.dest == d && !f.dead)

/-- The first syllable with an early read. -/
def Task.earlySlot (t : Task) (l : List Instr) : Option Slot :=
  (l.find? (fun i => (t.liveReads i).any t.earlyRead)).map (fun i => (usesOf i).slot)

/-! ## R142: pending registers and the queue -/

/-- The pending entry a bundle must wait for. -/
def Task.waitsOn (t : Task) (l : List Instr) : Option Pend :=
  t.pend.find? (fun p => l.any (fun i => (t.liveReads i).contains p.dest || (t.liveWrites i).contains p.dest))

/-- Whether the queue holds 16 entries and the bundle may need one (R142). A bundle of several queue syllables that finds fewer
issues, and the queue then holds more than 16 (DESIGN CHOICE, log entry 85). -/
def Task.queueFull (t : Task) (l : List Instr) : Bool :=
  decide (16 ≤ t.pend.length) && l.any (fun i => (usesOf i).queue && t.passes (usesOf i).gd)

/-! ## R233: registers in lent core regions -/

/-- The core region of a V or A register, an operand-file entry or a lane mask (R232). -/
def destWindow (c : CoreId) (d : Dest) : Option Nat :=
  let w (k o : Nat) := windowPa (stackOf c).val (coreInStack c) k o
  match d with
  | .main .V p => some (w 1 (128 * p))
  | .opf .V i => some (w 1 (0x2000 + 128 * i))
  | .mask i => some (w 1 (0x2400 + 4 * i))
  | .main .A p => some (w 2 (8 * p))
  | .opf .A i => some (w 2 (0x200 + 8 * i))
  | _ => none

/-- A register of the syllable that lies in a region the task has lent, by its window address (R233). -/
def State.lentTouch (s : State) (c : CoreId) (t : Task) (i : Instr) : Option Nat :=
  let x := s.stack (stackOf c)
  if x.toks.all (fun e => !paWindow e.2.base) && t.lentOut.isEmpty then none
  else ((t.liveReads i ++ t.liveWrites i).filterMap (destWindow c)).find? (fun pa =>
    (s.tokenErr (t.agent c) (stackOf c) pa .load).isSome)

/-! ## R337, R338: weights -/

/-- The weight of a bundle: syllables whose guards do not pass weigh nothing. -/
def Task.bundleWeight (t : Task) (l : List Instr) : Nat :=
  (l.map (fun i => let u := usesOf i; if t.passes u.gd then sylWeight u else 0)).foldl (· + ·) 0

/-- Whether the window of 32 cycles admits a weight (R338); the list holds the weights of the cycles before, latest first. -/
def windowAdmits (past : List Nat) (w : Nat) (lim : Nat) : Bool :=
  decide ((past.take 31).foldl (· + ·) 0 + w ≤ lim)

/-- One cycle's weight enters the window. -/
def windowPush (past : List Nat) (w : Nat) : List Nat := (w :: past).take 32

/-- STALL of a C syllable (R117). -/
def stallOf : Instr → Nat
  | .nop _ f => f.stall.toNat
  | .xcp _ f => f.stall.toNat
  | .br f | .call f | .loopRot f | .lpend f | .lpbrk f => f.stall.toNat
  | .brx f | .callx f | .ret f | .loop f | .tstamp f | .rdcyc f | .cmov f | .cadd f | .csub f | .cand f | .cor f | .cxor f
  | .ccmp f | .setld f => f.stall.toNat
  | .endTask f => f.stall.toNat
  | .svc f | .brk f => f.stall.toNat
  | .sysr f | .sysw f => f.stall.toNat
  | .cli f => f.stall.toNat
  | .pand f | .por f | .pxor f | .pmov f | .pset f => f.stall.toNat
  | _ => 0

end Sys2Proof.Machine
end

