-- ==== Sys2Proof/Machine/WaitFor.lean ====
section
/-! DEFINITION. The wait-for tables and the cycles in them (R263, R275, R408 to R411, R464). Entries are read off the blocked
agents and entered in their stacks' tables at every step. -/

namespace Sys2Proof.Machine

/-- An entry whose signaller is one agent, or none. -/
def WaitEnt.on (w : Agent) (sig : Option Agent) (wk obj : Nat) : WaitEnt := ⟨w, sig, false, 0, 0, 0, false, wk, obj⟩

/-- The agent that holds the token of the region of a byte: the holder of the record that is not lent (R364). None holds one whose
return is on its way. -/
def State.tokenHolder (s : State) (home : StackId) (pa : Nat) : Option Agent :=
  let rs := (s.stack home).recsAt pa
  match rs.find? (fun e => !e.2.sh && e.2.st != .lent) with
  | some e => some e.2.holder
  | none =>
    if rs.isEmpty && paWindow pa && winIsCore pa then (s.task? (winCoreId pa)).map (fun t => t.agent (winCoreId pa)) else none

/-- The holder at depth 0 (R410, WK 1). -/
def State.tokenOwner (s : State) (home : StackId) (pa : Nat) : Option Agent :=
  match ((s.stack home).recsAt pa).find? (fun e => !e.2.sh && e.2.depth == 0) with
  | some e => some e.2.holder
  | none => none

/-- The home slice in which the records of a region base stand: the slice that has a record of it, else a window's own. -/
def State.sliceOf (s : State) (pa : Nat) : StackId :=
  if paWindow pa then winStack pa
  else match s.stackTab.find? (fun e => !(e.2.recsAt pa).isEmpty) with
    | some e => Fin.ofNat 64 e.1
    | none => 0

/-- A phase as an object (log entry 26): socket in bits 25:20, team number in 19:4, phase in 3:0. -/
def phaseObj (st team ph : Nat) : Nat := st * 2 ^ 20 + team * 16 + ph

/-- The entry of a request of a core's task, in a slice, that has met two NAKs and waits for the core's reserved record (R408,
WK 8). -/
def State.waitForTok (s : State) (c : CoreId) (ag : Agent) (naks : Nat) (st : StackId) (base : Nat) : List WaitEnt :=
  if naks < 2 then []
  else match (s.stack st).toks.find (reservedTok c) with
    | some u => [.on ag (some u.holder) 8 base]
    | none => []

/-- The slice of a region that a task names by an address: the one that has its records, else the home of its page (R360). -/
def State.sliceFor (s : State) (c : CoreId) (t : Task) (va : Word) (base : Nat) : StackId :=
  match s.translateFor c t va with
  | .ok l => regionHome l
  | .error _ => s.sliceOf base

/-- The records of a slice, with those that wait for a place in it (R367). -/
def State.sliceRecs (s : State) (st : StackId) : List TokRec :=
  (s.stack st).toks.map Prod.snd ++ s.toks.filterMap (fun m => match m with
    | .need h r _ _ _ => if h = st then some r else none
    | _ => none)

/-- The records of the core regions of its core that have not come back to a task (R464): lent and not returned, or shared and not
given back, to others than its own copy operations, which its end joins (R182). -/
def State.regionsOut (s : State) (c : CoreId) (t : Task) : List TokRec :=
  let rs := s.sliceRecs (stackOf c)
  let ours (a : Agent) : Bool := match a with
    | .engine _ _ n co _ => n == t.launch && co == t.coord
    | _ => false
  rs.filter (fun r =>
    paWindow r.base && winIsCore r.base && winCoreId r.base == c && r.holder == t.agent c && r.claimed && !r.sh &&
      ((r.st == .lent && !r.back && !rs.any (fun d => d.isFor r.base r.size && !d.sh && d.depth == r.depth + 1 && ours d.holder)) ||
        (r.st == .shared && r.nsh != r.backSh + r.eng)))

/-- The entries of one waiting instruction (R410). -/
def State.waitOf (s : State) (c : CoreId) (t : Task) : Wait → List WaitEnt
  | .token _ va base _ =>
    let st := s.sliceFor c t va base
    let lent := (t.lentAt base).isSome ||
      ((s.stack st).recsAt base).any (fun e => e.2.holder == t.agent c && !e.2.sh && e.2.st == .lent)
    (if lent then [.on (t.agent c) (s.tokenHolder st base) 0 base] else [.on (t.agent c) (s.tokenOwner st base) 1 base]) ++
      s.waitForTok c (t.agent c) t.naks st base
  | .split base _ => s.waitForTok c (t.agent c) t.naks (s.sliceOf base) base
  | .recall base size =>
    ((s.stack (s.sliceOf base)).recsFor base size).filterMap (fun e =>
      if e.2.sh then some (.on (t.agent c) (some e.2.holder) 2 base) else none)
  | .phase ph inst => [⟨t.agent c, none, true, t.team, ph, inst, false, 3, phaseObj (stackOf c).val t.team ph⟩]
  | .unshare base _ _ => [.on (t.agent c) (some (t.agent c)) 7 base]
  | .endTask =>
    (s.regionsOut c t).flatMap (fun r =>
      if r.st = .lent then [.on (t.agent c) (s.tokenHolder (stackOf c) r.base) 0 r.base]
      else ((s.sliceRecs (stackOf c)).filter (fun f => f.isFor r.base r.size && f.sh)).map (fun f => .on (t.agent c) (some f.holder) 0 r.base))
  | _ => []

/-- The instance a round result waits for. -/
def State.roundInst (s : State) (c : CoreId) (t : Task) (p : Pend) : Option (Nat × Nat) :=
  (s.rounds.find? (fun r => r.core == c && r.launch == t.launch && r.coord == t.coord && r.pend == p.id)).map
    (fun r => (r.ph, r.inst))

/-- The pending entry on which a core is frozen (R142). -/
def Task.frozenOn (t : Task) : Option Pend :=
  match t.latched with
  | some b => match decodeBundle b with
    | .ok l => t.waitsOn l
    | .error _ => none
  | none => none

/-- The entries of the interlocked access that a task's core is frozen on. -/
def State.waitOfPend (s : State) (c : CoreId) (t : Task) : List WaitEnt :=
  match t.frozenOn with
  | some p => match p.kind with
    | .round => match s.roundInst c t p with
      | some (ph, i) => [⟨t.agent c, none, true, t.team, ph, i, true, 3, phaseObj (stackOf c).val t.team ph⟩]
      | none => []
    | .cbget b => match t.cbs.find b with
      | some x => if x.claim.isEmpty && x.queued == 0 then [.on (t.agent c) (some (t.agent c)) 5 b] else []
      | none => []
    | _ => []
  | none => []

/-- The entry of a full/empty access that waits at its word, whether its task is current or suspended (R263, R410). -/
def State.waitOfFe (s : State) (a : FeAcc) : List WaitEnt :=
  if a.waiting then [.on (.task a.core a.ctx a.launch a.coord) (s.tokenHolder (winStack a.pa) a.pa) 4 a.pa] else []

/-- A copy operation blocked on a full circular buffer waits for the task that owns it, current or suspended (R410, WK 6). -/
def State.waitOfOp (s : State) (o : CopyOp) : List WaitEnt :=
  match o.desc.cb, s.taskOf o.launch o.coord with
  | some b, some t => match t.cbs.find b with
    | some x => if o.slot.isNone && !o.ran && x.free == 0 then
        [.on (.engine o.core o.ctx o.launch o.coord o.handle) (some (t.agent o.core)) 6 b] else []
    | none => []
  | _, _ => []

/-- The task that sent a message, as an agent. -/
def State.srcAgent (s : State) (x : Src) : Option Agent :=
  (s.launch? x.launch).map (fun l => .task x.core l.ctx x.launch x.coord)

/-- A token request that waits for a reserved record: its waiter is the task that sent it (R408, WK 8). -/
def State.waitOfTok (s : State) (st : StackId) : TokMsg → List WaitEnt
  | .need h r x n _ =>
    if stackOf x.core = st then match s.srcAgent x with
      | some ag => s.waitForTok x.core ag n h r.base
      | none => []
    else []
  | _ => []

/-- A round or an arrival of a core's task that has met two NAKs waits for the core's reserved sync object (R408, WK 8). -/
def State.waitForObj (s : State) (c : CoreId) (ag : Agent) (naks : Nat) : List WaitEnt :=
  if naks < 2 then []
  else match (s.stack (stackOf c)).objs.find (4080 + coreInStack c) with
    | some (.round k n co _) =>
      match s.taskOf n co with
      | some t => [.on ag (some (t.agent k)) 8 0]
      | none => [.on ag none 8 0]
    | some (.held _ _ by_) => [.on ag by_ 8 0]
    | some (.phase _ _) => [.on ag none 8 0]
    | none => []

/-- The wait-for entries of a stack that hold now. -/
def State.waitEntries (s : State) (st : StackId) : List WaitEnt :=
  let here (c : CoreId) : Bool := stackOf c == st
  (s.cores.flatMap (fun (e : Nat × CoreS) =>
    let c : CoreId := Fin.ofNat 1024 e.1
    match (if here c then e.2.live else none) with
    | some t => t.waits.flatMap (s.waitOf c t) ++ s.waitOfPend c t
    | none => [])) ++
  (s.fes.filter (fun a => here a.core && a.handle.isNone)).flatMap s.waitOfFe ++
  (s.stack st).ops.flatMap s.waitOfOp ++ s.toks.flatMap (s.waitOfTok st) ++
  (s.rounds.filter (fun r => !r.received && here r.core)).flatMap (fun r =>
    s.waitForObj r.core (.task r.core r.ctx r.launch r.coord) r.naks) ++
  (s.arrs.filter (fun a => here a.core)).flatMap (fun a => s.waitForObj a.core (.task a.core a.ctx a.launch a.coord) a.naks)

/-! ## The table (R18, R408, R409) -/

/-- The lowest free number from `k` on, among `n`. -/
def freeIn {α : Type} (t : Tab α) : Nat → Nat → Option Nat
  | 0, _ => none
  | n + 1, k => if (t.find k).isNone then some k else freeIn t n (k + 1)

/-- The reserved entries of a waiter: its core's, or one of those for the engine queue (R408; log entry 26). -/
def waitReserve (w : Agent) (t : Tab (Nat × WaitEnt)) : Option Nat :=
  match w with
  | .task c _ _ _ => freeIn t 1 (1904 + coreInStack c)
  | _ => freeIn t 128 1920

/-- The number of a new entry: the lowest free general one, else a reserved one. -/
def waitPlace (t : Tab (Nat × WaitEnt)) (w : Agent) : Option Nat :=
  match freeIn t 1904 0 with
  | some k => some k
  | none => waitReserve w t

/-- Entries are entered in order while there is room, each with its stamp. -/
def waitEnter : Tab (Nat × WaitEnt) → Nat → List WaitEnt → Tab (Nat × WaitEnt) × Nat
  | t, n, [] => (t, n)
  | t, n, e :: l =>
    if t.any (fun f => f.2.2 == e) then waitEnter t n l
    else match waitPlace t e.waiter with
      | some k => waitEnter (t.set k (n, e)) (n + 1) l
      | none => waitEnter t n l

/-- The table of a stack follows its waits: an entry is cleared when its wait ends, and a new wait is entered (R410). -/
def State.enterStack (s : State) (st : StackId) : State :=
  let x := s.stack st
  let es := s.waitEntries st
  if es.isEmpty && x.wft.isEmpty then s
  else
    let (t, n) := waitEnter (x.wft.filter (fun e => es.contains e.2.2)) s.waitNo es
    { s.setStack st { x with wft := t } with waitNo := n }

/-- Every table follows its stack's waits. -/
def State.enterWaits (s : State) : State :=
  ((s.cores.map (fun (e : Nat × CoreS) => e.1 / 16) ++ s.stackTab.map Prod.fst : List Nat).eraseDups).foldl
    (fun (s : State) k => s.enterStack (Fin.ofNat 64 k)) s

/-- The entries of the whole module with their stamps, stack by stack. -/
def State.allWaits (s : State) : List (Nat × WaitEnt) := s.stackTab.flatMap (fun e => e.2.wft.map Prod.snd)

/-! ## Edges and cycles (R411) -/

/-- Arrivals a task has made at a phase (R397). -/
def Task.arrivals (t : Task) (ph : Nat) : Nat := t.arrived.get 0 ph

/-- The stack of an agent that is a task or an engine operation. -/
def agentStack : Agent → StackId
  | .task c _ _ _ => stackOf c
  | .engine c _ _ _ _ => stackOf c
  | .stack st => st
  | .remote _ => 0
  | .dispatcher => 0

/-- The unfinished tasks of a team with the arrivals each has made at a phase: current, about to enter, suspended, or not yet
started. -/
def State.teamArrivals (s : State) (st : StackId) (team ph : Nat) : List (Agent × Nat) :=
  let mine (c : CoreId) (t : Task) : Option (Agent × Nat) :=
    if t.team = team ∧ t.ended = false then some (t.agent c, t.arrivals ph) else none
  (List.range 16).flatMap (fun k =>
    let c := coreOf st k
    let x := s.core c
    (x.live.bind (mine c)).toList ++
    (match x.next with
      | some (.resume t _) => (mine c t).toList
      | some (.new ctx l co _ m _) => if m = team then [(.task c ctx l co, 0)] else []
      | none => []) ++
    (match (s.stack st).teams.find team with
      | some tm => match tm.susp.find k with
        | some t => (mine c t).toList
        | none => []
      | none => []))

/-- The signallers of an entry: one agent, or the tasks of the team that have made too few arrivals (R411). -/
def State.signallers (s : State) (e : WaitEnt) : List Agent :=
  if e.team then
    ((s.teamArrivals (agentStack e.waiter) e.teamNo e.ph).filter (fun p =>
      decide (p.2 < e.inst) && (e.self || p.1 != e.waiter))).map Prod.fst
  else e.sig.toList

/-- The edges of the walk, with the stamps of their entries: a team entry counts only where every task it names waits in a table
(R411). -/
def State.waitEdges (s : State) : List ((Nat × WaitEnt) × List Agent) :=
  let es := s.allWaits
  es.map (fun e =>
    let g := s.signallers e.2
    (e, if e.2.team && !(g.all (fun a => es.any (fun f => f.2.waiter == a))) then [] else g))

/-- Agents reachable from a set by edges, in at most `n` rounds. -/
def reachWaits (es : List ((Nat × WaitEnt) × List Agent)) : Nat → List Agent → List Agent
  | 0, l => l
  | n + 1, l =>
    let nxt := (es.filter (fun e => l.contains e.1.2.waiter)).flatMap Prod.snd
    let nw := nxt.filter (fun a => !l.contains a)
    if nw.isEmpty then l else reachWaits es n (l ++ nw.eraseDups)

/-- Entries that stand on a cycle: their waiters are reached from their own signallers. -/
def State.deadlocked (s : State) : List WaitEnt :=
  let es := s.waitEdges
  (es.filter (fun e => (reachWaits es es.length e.2).contains e.1.2.waiter)).map (fun e => e.1.2)

end Sys2Proof.Machine
end

