-- ==== Sys2Proof/Machine/Registers.lean ====
section
/-! DEFINITION. What every register reads as: cluster power and handshake blocks, the stack service and debug blocks, the token
and sync-object windows, engine windows of memory dies, the queue and module control blocks, and the system registers
(R60 to R67, R226, R240, R242, R243, R336, R366, R409, R411, R425, R434, R449, R452, R455, R465, R471 to R488). -/

namespace Sys2Proof.Machine

/-- A register from its fields: value and lowest bit. -/
def pack64 (l : List (Nat × Nat)) : Word := BitVec.ofNat 64 ((l.map (fun f => f.1 * 2 ^ f.2)).foldl (· + ·) 0)

def b2n (b : Bool) : Nat := b.toNat

/-! ## The L2 split (R238 to R240) -/

/-- Launches with a task current or assigned on a stack. -/
def State.stackLaunches (s : State) (st : StackId) : List Nat :=
  ((List.range 16).flatMap (fun k =>
    let x := s.core (coreOf st k)
    (match x.live with | some t => [t.launch] | none => []) ++
    (match x.next with
      | some (.new _ l _ _ _ _) => [l]
      | some (.resume t _) => [t.launch]
      | none => []))).eraseDups

/-- The [MIN, MAX] claims of those launches (R44). -/
def State.stackClaims (s : State) (st : StackId) : List (Nat × Nat) :=
  (s.stackLaunches st).filterMap (fun n => (s.launch? n).map (fun l => l.img.carve))

/-- Class-0 backed pages of a context that a stack homes, as frame and size (R238). -/
def State.pinnedPages (s : State) (st : StackId) (ctx : CtxId) : List (Nat × Nat) :=
  (s.leavesOf ctx).filterMap (fun l =>
    let e := s.entry l.1
    if leafClass e = 0 ∧ leafUnb e = false ∧ leafHome e = st then some (leafFrame e, leafSize e) else none)

/-- Bytes of class-0 backed pages homed on a stack, each frame once (R235, R238). -/
def State.pinnedBytes (s : State) (st : StackId) : Nat :=
  (((s.ctxs.filter (fun e => e.2.valid)).flatMap (fun e => s.pinnedPages st (Fin.ofNat 4096 e.1))).eraseDups).foldl
    (fun a p => a + 2 ^ pageBits p.2) 0

/-- STOR of R238 with a given sum of reserved lines. -/
def State.storWith (s : State) (st : StackId) (lines : Nat) : Nat := (s.pinnedBytes st + 128 * lines + 2 ^ 23 - 1) / 2 ^ 23

def State.stor (s : State) (st : StackId) : Nat := s.storWith st (s.stack st).resvLines

/-- LO and HI of R238. -/
def State.l2Lo (s : State) (st : StackId) : Nat := ((s.stackClaims st).map Prod.fst).foldl max 0
def State.l2Hi (s : State) (st : StackId) : Nat := ((s.stackClaims st).map Prod.snd).foldl min (64 - s.stor st)

/-- L2CS (R240). -/
def State.l2cs (s : State) (st : StackId) : Word :=
  let x := s.stack st
  pack64 [(x.loss.toNat, 48), (x.gain.toNat, 32), (min 64 (s.stor st), 22), (s.l2Hi st, 15), (s.l2Lo st, 8), (x.cu, 0)]

/-! ## Cluster blocks (R336, R480) -/

/-- Whether a core has a task current, and whether its next slot holds one. -/
def CoreS.busy (x : CoreS) : Bool := x.live.isSome
def CoreS.assigned (x : CoreS) : Bool := x.next.isSome

/-- Whether a cluster is quiesced (R481). -/
def State.quiesced (s : State) (cl : ClusterId) : Bool :=
  (s.cluster cl).req &&
  (List.range 4).all (fun k =>
    let c : CoreId := Fin.ofNat 1024 (4 * cl.val + k)
    let x := s.core c
    !x.busy && !x.assigned && ((s.stack (stackOf c)).ops.all (fun o => o.core != c)))

/-- Execution power registers of a cluster by offset (R336). PSTAT.STR and HIW read 0 while the cluster is not ON (R482). -/
def State.powerRead (s : State) (cl : ClusterId) (o : Nat) : Word :=
  let x := s.cluster cl
  let on := x.pst == 0#3
  match o with
  | 0x00 => x.lim.setWidth 64
  | 0x08 => x.drth.setWidth 64
  | 0x10 => x.dstr.setWidth 64
  | 0x18 => x.dhiw.setWidth 64
  | 0x20 => x.gap.setWidth 64
  | 0x28 => pack64 [(b2n x.busy, 63), (b2n x.ref, 62), (x.fmhz.toNat, 0)]
  | 0x30 => x.vset.setWidth 64
  | 0x38 => pack64 [(b2n x.safe, 63), (b2n x.ttrip, 62), (b2n x.ctrip, 61), (b2n (on && x.strOn), 60),
      (b2n (on && x.hiwOn), 59), (x.pre.toNat, 8), (x.drp.toNat, 0)]
  | _ => 0#64

/-- Handshake registers of a cluster by offset (R480). -/
def State.handRead (s : State) (cl : ClusterId) (o : Nat) : Word :=
  let x := s.cluster cl
  let bits (f : CoreS → Bool) : Nat :=
    ((List.range 4).map (fun k => b2n (f (s.core (Fin.ofNat 1024 (4 * cl.val + k)))) * 2 ^ k)).foldl (· + ·) 0
  match o with
  | 0x00 => pack64 [(b2n x.req, 63), (b2n (s.quiesced cl), 62), (bits CoreS.assigned, 4), (bits CoreS.busy, 0)]
  | 0x08 => x.tgt.setWidth 64
  | 0x10 => pack64 [(b2n x.pbusy, 63), (b2n x.pref, 62), (b2n x.saved, 61), (b2n x.wkp, 60), (x.pst.toNat, 0)]
  | _ => 0#64

/-! ## Debug (R435, R452, R453) -/

/-- Slot, level and index of a destination in a snapshot entry (R435). -/
def destFields : Dest → Nat × Nat × Nat
  | .main sl p => (slotIx sl, 0, p)
  | .opf sl i => (slotIx sl, 1, i)
  | .latch sl => (slotIx sl, 2, 0)
  | .pred i => (0, 3, i)
  | .mask i => (2, 4, i)
  | .lc i => (0, 5, i)
  | .rot => (0, 6, 0)
  | .depth => (0, 7, 0)

/-- Word `w` of a snapshot entry (R435). -/
def snapWord (f : Flight) (w : Nat) : Word :=
  let d := destFields f.dest
  if w = 0 then pack64 [(f.rem % 65536, 48), (d.1, 45), (d.2.1, 42), (d.2.2 % 64, 36), (f.fl.toNat, 29), (f.ord % 2 ^ 29, 0)]
  else if w = 1 then 0#64
  else f.val.extractLsb' (64 * (w - 2)) 64

/-- FILE, INDEX and WORD of DBGSEL. -/
def selFile (v : Word) : Nat := v.toNat / 2 ^ 28 % 16
def selIndex (v : Word) : Nat := v.toNat / 2 ^ 16 % 4096
def selWord (v : Word) : Nat := v.toNat % 32

/-- The slot numbered `k` (R119). -/
def slotNo : Nat → Slot
  | 0 => .C
  | 1 => .A
  | 2 => .V
  | 3 => .M
  | 4 => .E
  | _ => .Y

/-- Registers and items by FILE and INDEX; none for items that do not exist (R452). -/
def Task.dbgItem (t : Task) (sb : Bool) (file ix : Nat) : Vec :=
  let r := t.regs
  let main (sl : Slot) (n : Nat) (p : Nat) : Vec :=
    if n ≤ ix ∨ r.isDead sl p = true then 0#1024 else r.mainGet sl p
  match file with
  | 0 => main .C 16 ix
  | 1 => main .A 64 ix
  | 2 => main .V 64 ix
  | 3 => main .M 32 ix
  | 4 => main .M 16 (32 + ix)
  | 5 => main .E 16 ix
  | 6 => main .Y 16 ix
  | 7 => if ix < 48 then r.opfGet (slotNo (ix / 8)) (ix % 8) else 0#1024
  | 8 => if ix < 6 then r.latchGet (slotNo ix) else 0#1024
  | 9 => if ix < 64 ∧ r.p.getLsbD ix = true then 1#1024 else 0#1024
  | 10 => if ix < 16 then (r.mask ix).setWidth 1024 else 0#1024
  | 11 =>
    match ix with
    | 0 => (if t.latched.isSome then t.fpos else t.npos).setWidth 1024
    | 1 => BitVec.ofNat 1024 t.idle
    | 2 => (pack64 [(r.ald.toNat + 256 * r.vld.toNat, 32), (r.arb.toNat + 256 * r.vrb.toNat, 0)]).setWidth 1024
    | 3 => t.fstat.setWidth 1024
    | 4 => BitVec.ofNat 1024 (b2n sb)
    | 5 => BitVec.ofNat 1024 t.flight.length
    | 6 => BitVec.ofNat 1024 t.cyc
    | n => if 8 ≤ n ∧ n < 16 then (r.counter (n - 8)).setWidth 1024 else 0#1024
  | _ => 0#1024

/-- DBGDATA of a halted core (R453). -/
def State.dbgRead (s : State) (c : CoreId) : Word :=
  let x := s.core c
  match x.live with
  | some t =>
    if !x.hlt then 0#64
    else if selFile x.dbgsel = 12 then
      (match t.flight[selIndex x.dbgsel]? with
        | some f => if selWord x.dbgsel < 18 then snapWord f (selWord x.dbgsel) else 0#64
        | none => 0#64)
    else (t.dbgItem (s.ctx t.ctx).sbchk (selFile x.dbgsel) (selIndex x.dbgsel)).extractLsb' (64 * selWord x.dbgsel) 64
  | none => 0#64

/-! ## The stack service block (R425) -/

/-- The oldest undelivered fault record. -/
def StackS.oldestFault (x : StackS) : Option (Nat × FbEntry) :=
  x.fbOrder.findSome? (fun e => match x.fb.find e with
    | some r => if r.delivered then none else some (e, r)
    | none => none)

/-- Power-controller window of a stack by offset (R232 kind 8). -/
def State.serviceRead (s : State) (st : StackId) (o : Nat) : Word :=
  let x := s.stack st
  if 0x2000 ≤ o ∧ o < 0x2400 then s.powerRead (Fin.ofNat 256 (4 * st.val + (o - 0x2000) / 0x100)) (o % 0x100)
  else if 0x3000 ≤ o ∧ o < 0x3400 then s.handRead (Fin.ofNat 256 (4 * st.val + (o - 0x3000) / 0x100)) (o % 0x100)
  else if 0x8000 ≤ o ∧ o < 0x8400 then
    let c := coreOf st ((o - 0x8000) / 0x40)
    let y := s.core c
    match o % 0x40 with
    | 0x00 => pack64 [(b2n y.hlt, 63), (b2n y.brkh, 60), (y.cause, 0)]
    | 0x08 => y.dbgsel
    | 0x10 => s.dbgRead c
    | _ => 0#64
  else
    let rec_ (f : FbEntry → Word) : Word := match x.oldestFault with | some e => f e.2 | none => 0#64
    match o with
    | 0x4000 => x.elbase
    | 0x4008 => x.elcfg
    | 0x4010 => x.elhead.setWidth 64
    | 0x4018 => x.eltail.setWidth 64
    | 0x4020 => rec_ FbEntry.w0
    | 0x4028 => rec_ FbEntry.w1
    | 0x4030 => rec_ FbEntry.w2
    | 0x4038 => rec_ FbEntry.w3
    | 0x4048 => pack64 [(x.fb.length, 16), ((x.fb.filter (fun e => !e.2.delivered)).length, 0)]
    | 0x4050 => x.frval
    | 0x4060 => x.precmd
    | 0x4068 => pack64 [(b2n x.preBusy, 63), (b2n x.preDone, 62), (b2n x.preRef, 61), (x.preTeam.toNat, 16),
        (x.preTasks.toNat, 0)]
    | 0x4070 => pack64 [(b2n x.qui, 62), (b2n x.fen, 61), (b2n x.rstBusy, 60), (b2n x.qdone, 59)]
    | 0x4078 => x.stpark
    | _ => 0#64

/-! ## Token table (R242, R366) -/

def tokStCode : TokSt → Nat
  | .excl => 0
  | .shared => 1
  | .lent => 2
  | .lost => 3

/-- The words of a token record (R366); that of a suspended task's core region shows its window address. -/
def tokWord0 (r : TokRec) : Word :=
  pack64 [(winPlain r.base / 256, 20), (r.size, 15), (r.depth, 12), (tokStCode r.st, 10), (scopeRank r.sc, 7), (b2n r.sh, 6),
    (b2n r.at_, 5), (1, 0)]
def tokWord1 (r : TokRec) (holder : Agent) : Word := pack64 [(r.nsh, 48), (r.nat, 32), ((agentId holder).toNat, 0)]

/-- The agent that a record shows as its HOLDER: that of a region lent to another module shows the module (R478). -/
def StackS.shownHolder (x : StackS) (r : TokRec) : Agent :=
  let far (d : TokRec) : Bool := d.base == r.base && d.size == r.size && d.depth == r.depth + 1 && !d.sh && (match d.holder with
    | .remote _ => true
    | _ => false)
  if r.st = .lent ∧ r.sh = false then ((x.toks.find? (fun e => far e.2)).map (fun e => e.2.holder)).getD r.holder else r.holder

/-- The words of a reservation entry (R242). -/
def resvWord0 (r : Resv) : Word := pack64 [(r.resv.toNat, 32), (b2n r.valid, 12), (r.ctx.val, 0)]
def resvWord1 (r : Resv) : Word := pack64 [(r.used.toNat, 32), (r.held.toNat, 0)]

/-- The token-table window of a stack by offset (R232 kind 7). -/
def State.tokenRead (s : State) (st : StackId) (o : Nat) : Word :=
  let x := s.stack st
  if o < 0x40000 then
    match x.toks.find (o / 16) with
    | some r => if o % 16 = 0 then tokWord0 r else tokWord1 r (x.shownHolder r)
    | none => 0#64
  else
    match x.resv.find ((o - 0x40000) / 16) with
    | some r => if o % 16 = 0 then resvWord0 r else resvWord1 r
    | none => 0#64

/-! ## Sync objects and wait-for entries (R409) -/

/-- A phase object as the window shows it. -/
def phaseWord (p : PhaseObj) : Word := pack64 [(1, 62), (p.p, 46), (p.arv, 30), (min (2 ^ 30 - 1) p.inst, 0)]

/-- A sync object as the window shows it. -/
def StackS.objWord (x : StackS) : ObjUse → Word
  | .phase m ph => match x.teams.find m with
    | some tm => phaseWord (tm.phases.get ⟨0, 0, 0, [], []⟩ ph)
    | none => phaseWord ⟨0, 0, 0, [], []⟩
  | .round _ _ _ _ => pack64 [(2, 62)]
  | .held _ _ _ => pack64 [(3, 62)]

/-- The words of a wait-for entry (R409). -/
def waitWord0 (e : WaitEnt) : Word :=
  pack64 [(match e.sig with | some a => (agentId a).toNat | none => 0, 32), ((agentId e.waiter).toNat, 0)]
def waitWord1 (e : WaitEnt) : Word := pack64 [(1, 63), (b2n e.team, 62), (e.wk, 58), (e.obj % 2 ^ 52, 0)]

/-- The sync-object window of a stack by offset (R232 kind 6). -/
def State.syncRead (s : State) (st : StackId) (o : Nat) : Word :=
  let x := s.stack st
  if o < 0x8000 then match x.objs.find (o / 8) with
    | some u => x.objWord u
    | none => 0#64
  else match x.wft.find ((o - 0x8000) / 16) with
    | some e => if o % 16 = 0 then waitWord0 e.2 else waitWord1 e.2
    | none => 0#64

/-! ## Engine-register windows (R243, R331) -/

/-- Kind 5 by window address. -/
def State.engRead (s : State) (pa : Nat) : Word :=
  let o := winOff pa
  if winSocket pa < 64 then
    if 0x200 ≤ o then 0#64
    else match s.windowTask pa with
      | some t => (t.arr (o / 0x100)).engReg (o % 0x100)
      | none => ArrayS.reset.engReg (o % 0x100)
  else if 0x40 ≤ o ∧ o < 0x68 then
    BitVec.ofNat 64 (s.pools.get [] (poolKey (winSocket pa - 64) ((o - 0x40) / 8))).length
  else 0#64

/-- What `n` bytes of a window read as (R232). A core without a task reads zero through kinds 0 to 4. -/
def State.windowRead (s : State) (pa n : Nat) : Nat :=
  let k := winKind pa
  if k < 5 then
    match s.windowTask pa with
    | some t => t.winRead k (winOff pa) n
    | none => 0
  else if k = 5 then (s.engRead pa).toNat
  else if k = 6 then (s.syncRead (winStack pa) (winOff pa)).toNat
  else if k = 7 then (s.tokenRead (winStack pa) (winOff pa)).toNat
  else if k = 8 then (s.serviceRead (winStack pa) (winOff pa)).toNat
  else 0

/-! ## System registers (R455) -/

/-- What `sysr` reads at a number, privilege apart. -/
def State.sreg (s : State) (c : CoreId) (t : Task) (n : Nat) : Word :=
  let x := s.ctx t.ctx
  match n with
  | 0x20 => BitVec.ofNat 64 (b2n x.sbchk)
  | 0x21 => fstatWord t.fstat
  | 0x30 => x.hb
  | 0x31 => x.hl
  | 0x32 => x.ho
  | 0x33 => x.ptroot
  | 0x34 => 0#64
  | 0x35 => s.l2cs (stackOf c)
  | 0x38 => x.savea
  | 0x39 => x.saveb
  | 0x3A => pack64 [(b2n x.ok, 63), (x.slots.toNat, 0)]
  | 0x50 => pack64 [(s.dlPer.toNat, 16), (b2n s.dlEn, 8), (s.dlVict.toNat, 0)]
  | 0x51 => x.syph
  | 0x52 => s.capbase.setWidth 64
  | _ => x.ctr.get 0#64 n

/-! ## The queue block (R60 to R67) and the module control block (R471 to R488) -/

/-- Effective priority (R81): one level for every full AGE of the whole time waited. Where WAITED of R67 has saturated the aging
still goes on by that time, which the spec does not say (DESIGN CHOICE, log entry 65). -/
def State.eprio (s : State) (q : QueueS) : Nat :=
  if s.age = 0#32 then q.prio.toNat else q.prio.toNat - q.waited / 1000 / s.age.toNat

def ownCode : Option Master → Nat
  | none => 0
  | some .A => 1
  | some .B => 2

/-- The queue block as a master reads it. -/
def State.queueBlockRead (s : State) (m : Master) (o : Nat) : Word :=
  if o < 0x100 ∧ o % 8 = 0 then
    let x := s.sem (Fin.ofNat 32 (o / 8))
    pack64 [(ownCode x.own, 62), (x.lease.toNat, 0)]
  else if o = 0x100 then s.age.setWidth 64
  else if 0x1000 ≤ o ∧ o < 0x2000 then
    let q := s.queue (Fin.ofNat 64 ((o - 0x1000) / 64))
    match o % 64 with
    | 0x00 => pack64 [(b2n q.en, 63), (q.prio.toNat, 61), (b2n q.irqb, 60), (q.ctx.val, 36)]
    | 0x10 => match m with | .A => q.resA | .B => q.resB
    | 0x18 => pack64 [(min (2 ^ 32 - 1) (q.waited / 1000), 32), (q.eprio.toNat, 9), (q.recs.length, 0)]
    | _ => 0#64
  else 0#64

/-- A context register of the module control block (R474). -/
def CtxS.reg (x : CtxS) (k : Nat) : Word :=
  match k with
  | 0 => x.hb
  | 1 => x.hl
  | 2 => x.ho
  | 3 => x.ptroot
  | 8 => x.savea
  | 9 => x.saveb
  | 10 => pack64 [(b2n x.ok, 63), (x.slots.toNat, 0)]
  | 33 => x.syph
  | _ => 0#64

/-- Whether a module can be reached: its route is valid and the port of the route is trained (R476, R477). -/
def State.reaches (s : State) (m : ModuleId) : Bool :=
  let e := s.rtab.get 0#5 m.val
  e.getLsbD 4 && (s.ports.get ⟨false, false, 0#12⟩ (e.toNat % 16)).up

/-- A message leaves for its module, on the port that its route names now (R476). -/
def State.send (s : State) (m : OutMsg) : State :=
  { s with outbox := s.outbox ++ [⟨Fin.ofNat 16 ((s.rtab.get 0#5 m.to_.val).toNat % 16), m⟩] }

/-- The module control block as a master reads it. -/
def State.moduleRead (s : State) (o : Nat) : Word :=
  if o % 8 ≠ 0 then 0#64
  else if 0x100 ≤ o ∧ o < 0x180 then
    let p := s.ports.get ⟨false, false, 0#12⟩ ((o - 0x100) / 8)
    pack64 [(b2n p.en, 63), (b2n p.up, 62), (p.peer.toNat, 0)]
  else if 0x2000 ≤ o ∧ o < 0xA000 then (s.rtab.get 0#5 ((o - 0x2000) / 8)).setWidth 64
  else if 0x10000 ≤ o ∧ o < 0x18000 then
    let x := s.ctx (Fin.ofNat 4096 ((o - 0x10000) / 8))
    pack64 [(b2n x.valid, 63), (b2n x.priv, 62)]
  else if 0x200000 ≤ o ∧ o < 0x400000 then
    (s.ctx (Fin.ofNat 4096 ((o - 0x200000) / 0x200))).reg (o % 0x200 / 8)
  else match o with
    | 0x0000 => s.modid.setWidth 64
    | 0x0008 => pack64 [(b2n s.wdogExp, 32), (s.wdogLeft / 1000, 0)]
    | 0x0010 => BitVec.ofNat 64 (b2n s.pfsel)
    | 0x0018 => pack64 [(b2n s.bfail, 63), (s.stage, 0)]
    | 0x0020 => s.attFrame.setWidth 64 <<< 12
    | 0x0028 => pack64 [(b2n s.attBusy, 63), (b2n s.attDone, 62), (b2n s.attErr, 61)]
    | 0x0030 => s.capbase.setWidth 64
    | 0x0038 => pack64 [(b2n (s.drops.any TlbDrop.master), 63)]
    | _ => 0#64

end Sys2Proof.Machine
end

