-- ==== Sys2Proof/Machine/Sha3.lean ====
section
/-! DEFINITION. SHA3-256 (FIPS 202), by which an image's DIGEST is checked (R36, R57). -/

namespace Sys2Proof.Machine

/-- Lane `i` of a Keccak state of 25 lanes. -/
def lane (a : List Word) (i : Nat) : Word := (a[i]?).getD 0#64

/-- The rotation of each lane, by x + 5·y. -/
def keccakRot : List Nat :=
  [0, 1, 62, 28, 27, 36, 44, 6, 55, 20, 3, 10, 43, 25, 39, 41, 45, 15, 21, 8, 18, 2, 61, 56, 14]

/-- The round constants. -/
def keccakRc : List Word :=
  [0x0000000000000001#64, 0x0000000000008082#64, 0x800000000000808A#64, 0x8000000080008000#64, 0x000000000000808B#64,
   0x0000000080000001#64, 0x8000000080008081#64, 0x8000000000008009#64, 0x000000000000008A#64, 0x0000000000000088#64,
   0x0000000080008009#64, 0x000000008000000A#64, 0x000000008000808B#64, 0x800000000000008B#64, 0x8000000000008089#64,
   0x8000000000008003#64, 0x8000000000008002#64, 0x8000000000000080#64, 0x000000000000800A#64, 0x800000008000000A#64,
   0x8000000080008081#64, 0x8000000000008080#64, 0x0000000080000001#64, 0x8000000080008008#64]

/-- One round: θ, ρ with π, χ, ι. -/
def keccakRound (a : List Word) (rc : Word) : List Word :=
  let c := (List.range 5).map (fun x => lane a x ^^^ lane a (x + 5) ^^^ lane a (x + 10) ^^^ lane a (x + 15) ^^^ lane a (x + 20))
  let d := (List.range 5).map (fun x => lane c ((x + 4) % 5) ^^^ (lane c ((x + 1) % 5)).rotateLeft 1)
  let t := (List.range 25).map (fun i => lane a i ^^^ lane d (i % 5))
  let b := (List.range 25).map (fun i =>
    let j := (i % 5 + 3 * (i / 5)) % 5 + 5 * (i % 5)
    (lane t j).rotateLeft ((keccakRot[j]?).getD 0))
  (List.range 25).map (fun i =>
    let y := i / 5 * 5
    let v := lane b i ^^^ (~~~(lane b (y + (i + 1) % 5)) &&& lane b (y + (i + 2) % 5))
    if i = 0 then v ^^^ rc else v)

/-- The permutation. -/
def keccakF (a : List Word) : List Word := keccakRc.foldl keccakRound a

/-- Bytes as lanes, eight bytes each, the lowest first. -/
def bytesLanes : Nat → List Byte → List Word
  | 0, _ => []
  | n + 1, l => BitVec.ofNat 64 (leNat (l.take 8)) :: bytesLanes n (l.drop 8)

/-- Absorbs whole blocks of 136 bytes. -/
def absorb : Nat → List Word → List Byte → List Word
  | 0, a, _ => a
  | n + 1, a, l =>
    let b := bytesLanes 17 (l.take 136)
    absorb n (keccakF ((List.range 25).map (fun i => lane a i ^^^ lane b i))) (l.drop 136)

/-- The padding of a message whose length leaves `r` bytes in its last block. -/
def shaPad (r : Nat) : List Byte := if r = 135 then [0x86#8] else 0x06#8 :: (List.replicate (134 - r) 0#8 ++ [0x80#8])

/-- SHA3-256 of a byte string, as 256 bits with byte 0 lowest. -/
def sha3 (m : List Byte) : BitVec 256 :=
  let a := absorb (m.length / 136 + 1) (List.replicate 25 0#64) (m ++ shaPad (m.length % 136))
  lane a 3 ++ lane a 2 ++ lane a 1 ++ lane a 0

end Sys2Proof.Machine
end

