-- ==== Sys2Proof/Machine/Image.lean ====
section
/-! DEFINITION. Kernel images: reading one through a context, its records, and the checks of R57 up to code 0x0C (R35 to R53,
R57 to R59). -/

namespace Sys2Proof.Machine

/-! ## Reading through a context -/

/-- `n` bytes from a virtual address, in at most `k` pieces of a 4 KiB page; none where a byte cannot be read. The dispatcher has no
TLB, and sees dirty lines of the L2s (log entry 64). A poisoned byte is read as it is stored (DESIGN CHOICE, log entry 67): R443
names no read by the dispatcher. -/
def State.readVirt (s : State) (ctx : CtxId) : Nat → Word → Nat → Option (List Byte)
  | 0, _, n => if n = 0 then some [] else none
  | k + 1, va, n =>
    if n = 0 then some []
    else match s.translate ctx va with
      | .error _ => none
      | .ok l =>
        if paWindow l.pa then none
        else
          let m := min n (4096 - va.toNat % 4096)
          (s.readVirt ctx k (va + BitVec.ofNat 64 m) (n - m)).map (fun t => Memory.bytes s.view l.pa m ++ t)

def State.readBytes (s : State) (ctx : CtxId) (va : Word) (n : Nat) : Option (List Byte) :=
  s.readVirt ctx (n / 4096 + 2) va n

/-- The little-endian field of `n` bytes at byte `o`. -/
def fld (b : List Byte) (o n : Nat) : Nat := leNat ((b.drop o).take n)

/-- Whether `n` bytes from byte `o` are zero. -/
def zeros (b : List Byte) (o n : Nat) : Bool := ((b.drop o).take n).all (fun x => x == 0#8)

/-! ## The header (R35, R36) -/

/-- The fields of a header. -/
structure Header where
  magic : Nat
  version : Nat
  isize : Nat
  recoff : Nat
  recsize : Nat
  reccount : Nat
  dictcnt : Nat
  dictoff : Nat
  codeoff : Nat
  codewords : Nat
  entry : Nat
  constoff : Nat
  constsize : Nat
  digest : BitVec 256
  deriving DecidableEq, Repr

def headerOf (b : List Byte) : Header where
  magic := fld b 0 4
  version := fld b 4 2
  isize := fld b 8 4
  recoff := fld b 12 4
  recsize := fld b 16 4
  reccount := fld b 20 2
  dictcnt := fld b 22 2
  dictoff := fld b 24 4
  codeoff := fld b 28 4
  codewords := fld b 32 4
  entry := fld b 36 4
  constoff := fld b 40 4
  constsize := fld b 44 4
  digest := BitVec.ofNat 256 (fld b 64 32)

/-- The largest ISIZE (R36). -/
def imageLimit : Nat := 256 * 2 ^ 20

/-- The sections after the header: offset and size. -/
def Header.sections (h : Header) : List (Nat × Nat) :=
  [(h.recoff, h.recsize), (h.dictoff, 48 * h.dictcnt), (h.codeoff, 2 * h.codewords), (h.constoff, h.constsize)]

/-- Whether sections stand in order from `e` on, each at a multiple of 64, all below `top`. -/
def sectionsOk (top : Nat) : Nat → List (Nat × Nat) → Bool
  | e, [] => decide (e ≤ top)
  | e, (o, n) :: t => decide (e ≤ o) && o % 64 == 0 && sectionsOk top (o + n) t

/-- Whether the bytes between the sections are zero. -/
def paddingOk (b : List Byte) (top : Nat) : Nat → List (Nat × Nat) → Bool
  | e, [] => zeros b e (top - e)
  | e, (o, n) :: t => zeros b e (o - e) && paddingOk b top (o + n) t

/-- Check 0x02. -/
def Header.layoutOk (h : Header) (b : List Byte) : Bool :=
  decide (h.isize ≤ imageLimit) && decide (h.constsize ≤ 16 * 2 ^ 20) && decide (h.dictcnt ≤ 4096) && decide (1 ≤ h.codewords) &&
  sectionsOk h.isize 128 h.sections && paddingOk b h.isize 128 h.sections

/-- Check 0x03: the digest, with its field taken as zero. -/
def Header.digestOk (h : Header) (b : List Byte) : Bool :=
  sha3 (b.take 64 ++ List.replicate 32 0#8 ++ b.drop 96) == h.digest

/-! ## Writable mappings (R57, R59) -/

/-- Virtual addresses at which a context could map the 4 KiB frame at `p`: one in each leaf entry whose page holds it, and those that
the heap offset turns into it, modulo 2^52 (R226). -/
def State.placesOf (s : State) (ctx : CtxId) (p : Nat) : List Nat :=
  (s.leavesOf ctx).filterMap (fun e =>
    let f := leafFrame (s.entry e.1)
    if f ≤ p ∧ p < f + 2 ^ pageBits (leafSize (s.entry e.1)) then some (4096 * e.2 + (p - f)) else none) ++
  (List.range 16).map (fun j => (p + 2 ^ 52 - heapOff (s.ctx ctx)) % 2 ^ 52 + j * 2 ^ 52)

/-- Whether a context may write a 4 KiB frame: at some address that translates to it, with W = 1. -/
def State.mayWrite (s : State) (ctx : CtxId) (p : Nat) : Bool :=
  (s.placesOf ctx p).any (fun va => match s.translate ctx (BitVec.ofNat 64 va) with
    | .ok l => l.w && l.pa / 4096 * 4096 == p
    | .error _ => false)

/-- Whether some context may write a page of an image (R57, code 0x04): its pages are the 4 KiB frames that hold its bytes, whatever
the size of the page that maps them (DESIGN CHOICE, log entry 83). -/
def State.imageWritable (s : State) (ctx : CtxId) (va : Word) (n : Nat) : Bool :=
  (List.range ((va.toNat % 4096 + n + 4095) / 4096)).any (fun k =>
    match s.translate ctx (va + BitVec.ofNat 64 (4096 * k)) with
    | .ok l => (s.ctxs.filter (fun e => e.2.valid)).any (fun e => s.mayWrite (Fin.ofNat 4096 e.1) (l.pa / 4096 * 4096))
    | .error _ => false)

/-! ## Records (R38 to R51) -/

/-- LEN of a kind; none where the kind is reserved. -/
def recLen (kind : Nat) : Option Nat :=
  if kind = 1 then some 32 else if kind = 7 then some 1040 else if 2 ≤ kind ∧ kind ≤ 8 then some 16 else none

/-- Records delimited from the start of the table, and whether the delimiting went through to its end (R58). The record that ends the
delimiting is not among them: check 0x05 does not examine it (DESIGN CHOICE, log entry 68; R58 speaks of those before and after
it). -/
def delimit : Nat → List Byte → List (Nat × List Byte) × Bool
  | 0, b => ([], b.isEmpty)
  | n + 1, b =>
    let kind := fld b 0 1
    match recLen kind with
    | none => ([], false)
    | some len =>
      if b.length < 4 ∨ fld b 2 2 ≠ len ∨ b.length < len then ([], false)
      else
        let (l, ok) := delimit n (b.drop len)
        ((kind, b.take len) :: l, ok)

/-- Reserved bytes of a kind: offset and length (R37). -/
def reservedBytes : Nat → List (Nat × Nat)
  | 1 => [(1, 1), (24, 8)]
  | 2 => [(1, 1), (7, 1), (12, 4)]
  | 3 => [(1, 1), (6, 10)]
  | 4 => [(1, 1), (4, 4), (12, 4)]
  | 5 => [(1, 1), (6, 2)]
  | 6 => [(1, 1), (10, 6)]
  | 7 => [(1, 1), (5, 11)]
  | _ => [(1, 1), (6, 2), (12, 4)]

/-- Check 0x05 on one record. -/
def recZero (r : Nat × List Byte) : Bool :=
  (reservedBytes r.1).all (fun p => zeros r.2 p.1 p.2) && (r.1 != 1 || fld r.2 7 1 / 64 == 0)

/-- Records of a kind. -/
def ofKind (rs : List (Nat × List Byte)) (k : Nat) : List (List Byte) := (rs.filter (fun r => r.1 == k)).map Prod.snd

def bufOf (b : List Byte) : BufRec :=
  ⟨fld b 4 2, fld b 6 1, BitVec.ofNat 8 (fld b 7 1), fld b 8 8, fld b 16 4, fld b 20 4⟩
def loopOf (b : List Byte) : LoopRec := ⟨fld b 4 1, fld b 5 1, fld b 6 1, fld b 8 4⟩
def pairOf (b : List Byte) : PairRec :=
  ⟨fld b 4 1, BitVec.ofNat 8 (fld b 5 1), BitVec.ofNat 8 (fld b 6 1), fld b 7 1, fld b 8 1, fld b 9 1⟩
def seedOf (b : List Byte) : SeedRec :=
  ⟨BitVec.ofNat 8 (fld b 4 1), (List.range 256).map (fun i => fld b (16 + 2 * i) 2),
   (List.range 256).map (fun i => fld b (528 + 2 * i) 2)⟩
def burstOf (b : List Byte) : BurstRec := ⟨fld b 4 1, fld b 5 1, fld b 8 4⟩

/-- FLAGS of a buffer record (R39). -/
def BufRec.wr (b : BufRec) : Bool := b.flags.getLsbD 0
def BufRec.unb (b : BufRec) : Bool := b.flags.getLsbD 1
def BufRec.late (b : BufRec) : Bool := b.flags.getLsbD 2
def BufRec.atom (b : BufRec) : Bool := b.flags.getLsbD 3
def BufRec.lclass (b : BufRec) : Nat := b.flags.toNat / 16 % 4

/-- Whether a list of numbers has no repeats. -/
def noRepeat : List Nat → Bool
  | [] => true
  | a :: t => !t.contains a && noRepeat t

/-- Check 0x06 on the counts of the kinds (R38): of format pairs, at most two for each temporal level. -/
def countsOk (rs : List (Nat × List Byte)) : Bool :=
  let n (k : Nat) : Nat := (ofKind rs k).length
  let temporal := ((ofKind rs 2).filter (fun b => fld b 5 1 == 0)).map (fun b => fld b 4 1)
  let lv := ((ofKind rs 6).map (fun b => fld b 4 1)).filter temporal.contains
  decide (n 1 ≤ 256) && decide (1 ≤ n 2) && decide (n 2 ≤ 8) && decide (n 3 ≤ 1) && decide (n 4 ≤ 1) && decide (n 7 ≤ 2) &&
  decide (n 8 ≤ 64) && n 5 == ((ofKind rs 1).filter (fun b => (bufOf b).unb)).length &&
  lv.all (fun l => decide ((lv.filter (fun k => k == l)).length ≤ 2))

/-- Check 0x07 on the buffer records (R39 to R41). -/
def buffersOk (bs : List BufRec) : Bool :=
  noRepeat (bs.map BufRec.buf) &&
  bs.all (fun b =>
    let pg := 2 ^ pageBits b.pgsz
    decide (b.buf ≤ 255) && decide (b.pgsz ≤ 4) && b.size != 0 && b.size % pg == 0 && decide (b.span ≤ pg) && b.argoff % 8 == 0 &&
    b.lclass != 3 && !(b.unb && (!b.wr || b.lclass != 0)) && !(b.late && !b.unb) && !(b.atom && !b.wr))

/-- Whether the kinds of the levels go from stacks over cores to temporal (R43). -/
def nestOk : List LoopRec → Bool
  | [] => true
  | [_] => true
  | a :: b :: t => decide (b.lkind ≤ a.lkind) && nestOk (b :: t)

/-- Check 0x08 on the loop table (R42, R43). -/
def loopsOk (ls : List LoopRec) : Bool :=
  let sp := (ls.filter (fun l => l.lkind != 0)).map LoopRec.comp
  ls.map LoopRec.level == List.range ls.length &&
  ls.all (fun l => decide (l.lkind ≤ 2) && decide (1 ≤ l.trip) &&
    (if l.lkind = 0 then l.comp == 0 else decide (l.comp ≤ 2) && decide (l.trip ≤ 65536))) &&
  nestOk ls && decide (sp.length ≤ 3) && noRepeat sp && sp.all (fun k => decide (k < sp.length)) &&
  decide (((ls.filter (fun l => l.lkind == 1)).map LoopRec.trip).foldl (· * ·) 1 ≤ 16)

/-- The [MIN, MAX] claim (R44) and LINES (R45). -/
def carveOf (rs : List (Nat × List Byte)) : Nat × Nat :=
  match ofKind rs 3 with
  | b :: _ => (fld b 4 1, fld b 5 1)
  | [] => (0, 64)
def linesIn (rs : List (Nat × List Byte)) : Nat :=
  match ofKind rs 4 with
  | b :: _ => fld b 8 4
  | [] => 0

/-- Unbacked reservations by buffer (R46). -/
def unbOf (rs : List (Nat × List Byte)) : List (Nat × Nat) := (ofKind rs 5).map (fun b => (fld b 4 2, fld b 8 8))

/-- Check 0x09 (R44 to R46). -/
def claimsOk (rs : List (Nat × List Byte)) (bs : List BufRec) : Bool :=
  let c := carveOf rs
  decide (c.1 ≤ c.2) && decide (c.2 ≤ 64) && decide (linesIn rs * 128 ≤ c.1 * 2 ^ 23) && noRepeat ((unbOf rs).map Prod.fst) &&
  (unbOf rs).all (fun u => u.2 % 128 == 0 && bs.any (fun b => b.buf == u.1 && b.unb && decide (u.2 ≤ b.size)))

/-- An array mask: bits 7:2 zero, not zero (R47). -/
def amaskOk (m : BitVec 8) : Bool := m == 1#8 || m == 2#8 || m == 3#8

/-- Check 0x0A (R47 to R50). -/
def streamsOk (ls : List LoopRec) (ps : List PairRec) (ss : List SeedRec) : Bool :=
  ps.all (fun p => ls.any (fun l => l.level == p.level && l.lkind == 0) && amaskOk p.amask && decide (p.fmts.toNat % 16 ≤ 8) &&
    decide (p.fmts.toNat / 16 ≤ 8) && decide (1 ≤ p.ka) && decide (p.ka ≤ 16) && decide (1 ≤ p.kb) && decide (p.kb ≤ 16) &&
    decide (p.pol ≤ 1)) &&
  [0, 1].all (fun a => noRepeat ((ps.filter (fun p => p.amask.getLsbD a)).map PairRec.level) &&
    decide ((ss.filter (fun x => x.amask.getLsbD a)).length ≤ 1)) &&
  ss.all (fun x => amaskOk x.amask)

/-- Check 0x0B (R51). -/
def burstsOk (ps : List BurstRec) : Bool :=
  noRepeat (ps.map BurstRec.bid) && ps.all (fun p => decide (p.bid ≤ 63) && decide (p.icls ≤ 7))

/-! ## The code stream (R53) -/

/-- Index words of a byte string. -/
def indexWords : Nat → List Byte → List Nat
  | 0, _ => []
  | n + 1, b => fld b 0 2 :: indexWords n (b.drop 2)

/-- The scan: none where a word makes the image malformed, else whether it stood at ENTRY. -/
def scanCode (dict entry : Nat) : List Nat → Nat → Nat → Bool → Option Bool
  | [], _, skip, seen => if skip = 0 then some seen else none
  | w :: t, pos, 0, seen =>
    let seen := seen || pos == entry
    if w < dict then scanCode dict entry t (pos + 1) 0 seen
    else if w = 0xFFFF then scanCode dict entry t (pos + 1) 24 seen
    else none
  | _ :: t, pos, k + 1, seen => scanCode dict entry t (pos + 1) k seen

/-- Check 0x0C. -/
def codeOk (h : Header) (b : List Byte) : Bool :=
  scanCode h.dictcnt h.entry (indexWords h.codewords (b.drop h.codeoff)) 0 0 false == some true

/-! ## Validation (R57, R58) -/

/-- The code of R73 for what cannot be read. -/
def errUnreadable : Nat := 0x12

/-- The image that an accepted byte string describes. -/
def imageOf (va : Word) (h : Header) (rs : List (Nat × List Byte)) : Image where
  va := va
  isize := h.isize
  dictCnt := h.dictcnt
  dictOff := h.dictoff
  codeOff := h.codeoff
  codeWords := h.codewords
  entry := h.entry
  constOff := h.constoff
  digest := h.digest
  bufs := (ofKind rs 1).map bufOf
  loops := (ofKind rs 2).map loopOf
  carve := carveOf rs
  lines := linesIn rs
  unb := unbOf rs
  pairs := (ofKind rs 6).map pairOf
  seeds := (ofKind rs 7).map seedOf
  bursts := (ofKind rs 8).map burstOf

/-- THE CHECKS of an image that has been read, the lowest code first. -/
def checkImage (va : Word) (h : Header) (b : List Byte) (writable : Bool) : Except Nat Image :=
  if h.magic ≠ 0x374B4E47 ∨ h.version ≠ 1 then .error 0x01
  else if !h.layoutOk b then .error 0x02
  else if !h.digestOk b then .error 0x03
  else if writable then .error 0x04
  else
    let (rs, whole) := delimit h.reccount ((b.drop h.recoff).take h.recsize)
    let bufs := (ofKind rs 1).map bufOf
    let loops := (ofKind rs 2).map loopOf
    if !(zeros b 6 2 && zeros b 96 32 && rs.all recZero) then .error 0x05
    else if !whole || !countsOk rs then .error 0x06
    else if !buffersOk bufs then .error 0x07
    else if !loopsOk loops then .error 0x08
    else if !claimsOk rs bufs then .error 0x09
    else if !streamsOk loops ((ofKind rs 6).map pairOf) ((ofKind rs 7).map seedOf) then .error 0x0A
    else if !burstsOk ((ofKind rs 8).map burstOf) then .error 0x0B
    else if !codeOk h b then .error 0x0C
    else .ok (imageOf va h rs)

/-- Reads and checks the image at an address in a context, but for code 0x0D. -/
def State.validate (s : State) (ctx : CtxId) (va : Word) : Except Nat Image :=
  match s.readBytes ctx va 128 with
  | none => .error errUnreadable
  | some hb =>
    let h := headerOf hb
    if imageLimit < h.isize then .error (if h.magic ≠ 0x374B4E47 ∨ h.version ≠ 1 then 0x01 else 0x02)
    else match s.readBytes ctx va h.isize with
      | none => .error errUnreadable
      | some b => checkImage va h b (s.imageWritable ctx va h.isize)

end Sys2Proof.Machine
end

