-- ==== Sys2Proof/Machine/Protect.lean ====
section
/-! DEFINITION. Teams as their stacks hold them, protected intervals, pre-images and poison as a task's access meets it (R434,
R440, R443 to R446). -/

namespace Sys2Proof.Machine

/-! ## Teams -/

/-- The team of a task. -/
def State.team? (s : State) (c : CoreId) (t : Task) : Option Team := (s.stack (stackOf c)).teams.find t.team

/-- Replaces a team of a stack. -/
def State.setTeam (s : State) (st : StackId) (n : Nat) (tm : Team) : State :=
  s.setStack st { s.stack st with teams := (s.stack st).teams.set n tm }

/-- The image and extents of a task's launch. -/
def State.imageOf (s : State) (t : Task) : Option Image := (s.launch? t.launch).map Launch.img
def State.taskExt (s : State) (t : Task) : Nat × Nat × Nat :=
  match s.launch? t.launch with
  | some l => l.ext
  | none => (0, 0, 0)

/-! ## Protected intervals (R446) -/

/-- LINES of a launch's image (R45). -/
def State.linesOf (s : State) (launch : Nat) : Nat :=
  match s.launch? launch with
  | some l => l.img.lines
  | none => 0

/-- A write of a team without a replay record before its first cut: the phase is counted once in UNPROT (R45). Later ones have been
counted at their cuts (R444). -/
def State.noteWrite (s : State) (st : StackId) (n : Nat) : State :=
  match (s.stack st).teams.find n with
  | some tm =>
    if tm.cp.isNone && !tm.counted && s.linesOf tm.launch == 0 then
      (s.setTeam st n { tm with counted := true }).count tm.ctx ctrUNPROT 1
    else s
  | none => s

/-- The interval of a team becomes unprotected, counted once in UNPROT. Before a team's first checkpoint there is no interval (R446);
that phase is counted where the team writes without a replay record alone (R45; log entry 66). -/
def State.unprotectTeam (s : State) (st : StackId) (n : Nat) : State :=
  match (s.stack st).teams.find n with
  | some tm =>
    match tm.cp with
    | some cp =>
      if cp.prot then (s.setTeam st n { tm with cp := some { cp with prot := false } }).count tm.ctx ctrUNPROT 1 else s
    | none => s
  | none => s

/-- The same for the team of a task. -/
def State.unprotect (s : State) (c : CoreId) (t : Task) : State := s.unprotectTeam (stackOf c) t.team

/-! ## Pre-images (R445) -/

/-- The first write of an epoch to a unit of 128 bytes keeps its prior contents, with their poison, unless the team's LINES are used
up. -/
def State.preImage (s : State) (st : StackId) (n : Nat) (u : PreUnit) (data : BitVec 1024) (live : Bool) (bad : BitVec 16) : State :=
  match (s.stack st).teams.find n with
  | some tm =>
    match tm.cp with
    | some cp =>
      if !cp.prot || cp.pre.any (fun p => p.unit == u) then s
      else
        if cp.charge + cp.pre.length + 1 ≤ s.linesOf tm.launch then
          s.setTeam st n { tm with cp := some { cp with pre := cp.pre ++ [⟨u, data, live, bad⟩] } }
        else s.unprotectTeam st n
    | none => s.noteWrite st n
  | none => s

/-- Whether the team keeps pre-images at present. -/
def State.keepsPre (s : State) (st : StackId) (n : Nat) : Bool :=
  match (s.stack st).teams.find n with
  | some tm => match tm.cp with
    | some cp => cp.prot
    | none => false
  | none => false

/-- Whether a full/empty access or a round with a number is of a bundle after the team's latest cut: what was issued before it keeps
its earlier epoch (R445). -/
def State.newEpoch (s : State) (st : StackId) (n seq : Nat) : Bool :=
  match (s.stack st).teams.find n with
  | some tm => match tm.cp with
    | some cp => decide (cp.seq ≤ seq)
    | none => true
  | none => true

/-- The same for an operation of the task at a coordinate, by its handle. -/
def State.handleNew (s : State) (st : StackId) (n : Nat) (coord : BitVec 48) (h : Nat) : Bool :=
  match (s.stack st).teams.find n with
  | some tm => match tm.cp with
    | some cp => cp.tasks.all (fun e => e.2.coord != coord || decide (e.2.handles < h))
    | none => true
  | none => true

/-- Whether a line of memory holds its own data: every backed line, and a LIVE unbacked one. -/
def State.lineLive (s : State) (line : Nat) : Bool := !paUnbacked (128 * line) || (s.live.find line).isSome

/-- 128 bytes of a list as one vector. -/
def bytesVec (l : List Byte) : BitVec 1024 := BitVec.ofNat 1024 (leNat l)

/-- The pre-image unit of a window address in a scratchpad or column store of a team, with its present bytes. -/
def State.windowUnit (s : State) (st : StackId) (n : Nat) (pa : Nat) (k : Option (Nat × BitVec 48)) :
    Option (PreUnit × BitVec 1024) :=
  let c := winCoreId pa
  let o := winOff pa / 128 * 128
  match s.keyTask pa k with
  | some t =>
    if stackOf c ≠ st ∨ t.team ≠ n then none
    else if winKind pa = 0 then some (.scratch c o, bytesVec (t.scrBytes o 128))
    else if winKind pa = 4 then
      some (.column c o, bytesVec ((List.range 128).map (fun i => t.col.get 0#8 (o + i))))
    else none
  | none => none

/-- The poisoned words of the 128 bytes around a window address. -/
def State.windowMask (s : State) (pa : Nat) : BitVec 16 :=
  BitVec.ofNat 16 (((List.range 16).map (fun i => if s.poison.contains (pa / 128 * 128 + 8 * i) then 2 ^ i else 0)).foldl (· + ·) 0)

/-- The pre-image of a write through a window by the team `n`: of a team scratchpad or column store (R445). -/
def State.preWindow (s : State) (st : StackId) (n : Nat) (pa : Nat) (k : Option (Nat × BitVec 48)) : State :=
  if s.keepsPre st n then
    match s.windowUnit st n pa k with
    | some (u, d) => s.preImage st n u d true (s.windowMask pa)
    | none => s
  else s.noteWrite st n

/-- The pre-image of a write to a line of memory, whose prior contents and poison are given. -/
def State.preLine (s : State) (st : StackId) (n : Nat) (line : Nat) (d : BitVec 1024) (bad : BitVec 16) : State :=
  s.preImage st n (.line (128 * line)) d (s.lineLive line) bad

/-! ## Poison (R440, R443) -/

/-- Whether an access of `n` bytes meets a poisoned word. -/
def State.poisoned (s : State) (pa n : Nat) : Bool :=
  s.poison.any (fun w => decide (w < pa + n) && decide (pa < w + 8))

/-- Whether `n` bytes of a window meet a poisoned word, or a poisoned register of the task of a key. -/
def State.windowBadOf (s : State) (pa : Nat) (k : Option (Nat × BitVec 48)) (n : Nat) : Bool :=
  s.poisoned pa n || (match s.keyTask pa k, winDest (winKind pa) (winOff pa) with
    | some t, some d => t.bad.any (fun e => e.1 == d)
    | _, _ => false)

/-- The same for the task whose state the window shows. -/
def State.windowBad (s : State) (pa n : Nat) : Bool := s.windowBadOf pa (s.windowKey pa) n

/-- A task load of poisoned data is consumed before anything else happens (R443). -/
def State.consume (s : State) (c : CoreId) (va : Word) (pa : Nat) (bad : Bool) : State :=
  if bad then s.soon (.loadAt c false va pa) else s

end Sys2Proof.Machine
end

