-- ==== Sys2Proof/Machine/Access.lean ====
section
/-! DEFINITION. One access by a task: its checks in their order (R251 to R253, R232, R233, R248, R261, R275, R308, R323, R331),
and the bytes it reads or writes (R234, R236, R255). -/

namespace Sys2Proof.Machine

/-- The kinds of access that the rules tell apart (R230, R252): full/empty forms that load or store are kinds of their own. -/
inductive AccKind where
  | load | store | feLoad | feStore
  deriving DecidableEq, Repr

def AccKind.need : AccKind → Need
  | .load => .load
  | .store => .store
  | _ => .fe

def AccKind.stores : AccKind → Bool
  | .store | .feStore => true
  | _ => false

def AccKind.fullEmpty : AccKind → Bool
  | .feLoad | .feStore => true
  | _ => false

/-- An error of an access: code and the physical address where it is known (R427). -/
structure AccErr where
  code : Nat
  pa : Nat
  deriving DecidableEq, Repr

/-- Blocks of the power-controller window that hold registers (R425, R490). -/
def powerBlock (o : Nat) : Bool :=
  let b := o / 256
  (decide (0x20 ≤ b) && decide (b ≤ 0x23)) || (decide (0x30 ≤ b) && decide (b ≤ 0x33)) || b == 0x40 ||
    (decide (0x80 ≤ b) && decide (b ≤ 0x83))

/-- A block of the power-controller window that a task may claim and reach (R490). -/
def State.powerBlockOk (s : State) (pa : Nat) : Bool := powerBlock (winOff pa) && !(s.stack (winStack pa)).fenced

/-- Step 2 of R251: the window rules (R232, R253, R261, R331, R490). -/
def State.windowRule (s : State) (c : CoreId) (t : Task) (pa n : Nat) (k : AccKind) : Bool :=
  winPlaceOk pa && winAdmits (winKind pa) (winOff pa) n k.stores k.fullEmpty (s.privileged t.ctx) &&
  (!winIsCore pa || winCoreId pa != c || ownCoreOk (winKind pa)) &&
  (winKind pa != 8 || s.powerBlockOk pa) &&
  !(winKind pa == 5 && winIsCore pa && k.stores && !(s.core (winCoreId pa)).hlt)

/-- Windows that form no token regions, and windows that a privileged context reaches without a token: kinds 6 and 7, the engine
registers of a memory die, a core with no task (R232), a halted core (R452), and for a load the engine registers of any core
(R331). -/
def State.tokenFree (s : State) (t : Task) (pa : Nat) (k : AccKind) : Bool :=
  paWindow pa && winKind pa != 8 &&
  (!winIsCore pa ||
    (s.privileged t.ctx && ((s.task? (winCoreId pa)).isNone || (s.core (winCoreId pa)).hlt || (winKind pa == 5 && k == .load))))

/-- Bytes of a core's windows that its arrays or the task's own circular buffers withhold (R248, R275, R308, R323). -/
def State.withheld (s : State) (c : CoreId) (pa n : Nat) (store : Bool) : Bool :=
  paWindow pa && winIsCore pa &&
  (match s.windowTask pa with
    | some u => u.arraysHold (winKind pa) (winOff pa) n ||
        (winKind pa == 0 && winCoreId pa == c && u.bufferForbids store (winOff pa) n)
    | none => false)

/-- Steps 2 to 5 of R251 on a translated address. -/
def State.checkAt (s : State) (c : CoreId) (t : Task) (va : Word) (n : Nat) (k : AccKind) (l : Leaf) : Option AccErr :=
  let fail (code : Nat) : Option AccErr := some ⟨code, l.pa⟩
  if paWindow l.pa && !s.windowRule c t l.pa n k then fail errPermission
  else if !paWindow l.pa && k.fullEmpty then fail errPermission
  else if k.stores && !l.w then fail errPermission
  else if va.toNat % n != 0 then fail errPermission
  else
    match (if l.ro && k == .load || s.tokenFree t l.pa k then none else s.tokenErr (t.agent c) (regionHome l) l.pa k.need) with
    | some e => fail e
    | none => if s.withheld c l.pa n k.stores then fail errUnowned else none

/-- Whether every page that `n` bytes from an address reach translates: an access that is not aligned may reach a second one, and
pages and heap pages alike begin at multiples of 4 KiB (R251 step 1). -/
def State.pagesOk (s : State) (c : CoreId) (t : Task) (va : Word) (n : Nat) : Bool :=
  decide (va.toNat % 4096 + n ≤ 4096) || (match s.translateOn c t.ctx (va + BitVec.ofNat 64 (n - 1)) with
    | .ok _ => true
    | .error _ => false)

/-- THE CHECKS OF AN ACCESS of `n` bytes, in the order of R251. -/
def State.access (s : State) (c : CoreId) (t : Task) (va : Word) (n : Nat) (k : AccKind) : Except AccErr Leaf :=
  match s.translateFor c t va with
  | .error _ => .error ⟨errTranslation, 0⟩
  | .ok l =>
    if !s.pagesOk c t va n then .error ⟨errTranslation, 0⟩
    else match s.checkAt c t va n k l with
      | some e => .error e
      | none => .ok l

/-- An access of a syllable fails: the fatal error with its syllable, address and physical address (R427, R428). -/
def State.failAccess (s : State) (c : CoreId) (t : Task) (slot : Slot) (syl va : Word) (e : AccErr) : State :=
  s.raiseFatal c t e.code (slotIx slot) syl va (BitVec.ofNat 64 e.pa)

/-- The tag of accesses by a task through a mapping. -/
def writeTag (c : CoreId) (t : Task) (l : Leaf) (va : Word) : WrTag :=
  ⟨c, t.ctx, t.launch, t.coord, l.home, l.leafPa, l.late, va - BitVec.ofNat 64 (l.pa % 128), l.lclass, t.fpos.setWidth 32, none⟩

/-! ## Writing through windows -/

/-- A write of one 8-byte register through a window: kind 5 of a halted core acts at once, and the registers with events of
their own are queued. Sync objects and unlisted registers ignore writes (R409). -/
def State.windowReg (s : State) (pa : Nat) (v : Word) : State :=
  if winKind pa = 6 then s
  else if winKind pa = 5 ∧ winSocket pa < 64 then
    match s.task? (winCoreId pa) with
    | some t =>
      let o := winOff pa
      if o < 0x200 then
        s.setTask (winCoreId pa) (t.setArr (o / 0x100) ((t.arr (o / 0x100)).setEngReg (o % 0x100) v))
      else s
    | none => s
  else { s with regw := s.regw ++ [(pa, v)] }

/-- Bytes written through a window at once, at the unit itself (R232), into the state of the task of a key. -/
def State.windowWrite (s : State) (pa : Nat) (k : Option (Nat × BitVec 48)) (bytes : List (Option Byte)) : State :=
  if winKind pa < 5 then s.keyMap pa k (fun t => t.winWrite (winKind pa) (winOff pa) bytes)
  else s.windowReg pa (BitVec.ofNat 64 (leNat (bytes.map (fun b => b.getD 0#8))))

/-- A write through a window, with its pre-image for team `n` where `pre` says that it is of the team's present epoch (R445). A word
written whole stops being poisoned (R440), and a completion word that is written holds its operation's store no more. -/
def State.windowStore (s : State) (st : StackId) (n : Nat) (pre : Bool) (pa : Nat) (k : Option (Nat × BitVec 48))
    (bytes : List (Option Byte)) : State :=
  (((if pre then s.preWindow st n pa k else s).windowWrite pa k bytes).unpoison pa bytes).cwGone pa bytes.length

/-! ## Own full/empty stores that have not been performed (R255) -/

/-- Bytes that a full/empty access, or a plain store behind one, covers. -/
def FeAcc.len (a : FeAcc) : Nat := if a.op = .plain then a.nwords else 4 * a.nwords

/-- Whether an access writes data. -/
def FeAcc.writes (a : FeAcc) : Bool := a.op == .ste || a.op == .stf || a.op == .plain

/-- Own stores of a task to bytes of a window that have not been performed, in the order of their issue. -/
def State.feOwn (s : State) (c : CoreId) (t : Task) (pa n : Nat) : List FeAcc :=
  sortKey FeAcc.seq (s.fes.filter (fun a => a.writes && a.handle.isNone && a.core == c && a.launch == t.launch && a.coord == t.coord &&
    rangesMeet a.pa a.len pa n))

/-- `n` bytes from `pa` with such stores over them. -/
def feOver (pa n : Nat) (l : List FeAcc) (v : Nat) : Nat :=
  leNat (l.foldl (fun (b : List Byte) a =>
    let d := natBytes a.len a.data.toNat
    (List.range n).map (fun i => if a.pa ≤ pa + i then (d[pa + i - a.pa]?).getD (b.getD i 0#8) else b.getD i 0#8)) (natBytes n v))

/-! ## Reading -/

/-- A core's request to a window of another stack, which a fenced link holds back (R450). -/
def State.noteWindow (s : State) (c : CoreId) (pa : Nat) : State :=
  if winSocket pa < 64 then s.noteShut (stackOf c) (winStack pa) else s

/-- The value of an admitted load of `n` bytes, with the task's own earlier stores (R255). -/
def State.loadBytes (s : State) (c : CoreId) (t : Task) (l : Leaf) (va : Word) (n : Nat) : State × Nat :=
  if paWindow l.pa then
    ((s.noteWindow c l.pa).consume c va l.pa (s.windowBad l.pa n), feOver l.pa n (s.feOwn c t l.pa n) (s.windowRead l.pa n))
  else
    let (s, d, bad) := s.readLine (writeTag c t l va) (lineOf l.pa) l.atom
    (s.consume c va l.pa (badMeets bad (l.pa % 128) n), lineNum d (l.pa % 128) n)

/-! ## Writing -/

/-- An admitted store of bytes by a task, of its present state in `s`. Behind an own full/empty store to the bytes that still waits
it waits too (R255). -/
def State.storeBytes (s : State) (c : CoreId) (t : Task) (l : Leaf) (va : Word) (bytes : List (Option Byte)) : State :=
  if paWindow l.pa then
    if (s.feOwn c t l.pa bytes.length).isEmpty then
      (s.noteWindow c l.pa).windowStore (stackOf c) t.team true l.pa (s.windowKey l.pa) bytes
    else { s with
      fes := s.fes ++ [⟨.plain, c, t.ctx, t.launch, t.coord, 0, l.pa, bytes.length, false,
        BitVec.ofNat 1024 (leNat (bytes.map (fun b => b.getD 0#8))), .co, false, none, s.feSeq⟩]
      feSeq := s.feSeq + 1 }
  else
    let s := if s.keepsPre (stackOf c) t.team then
        let (s, d, bad) := s.readLine (writeTag c t l va) (lineOf l.pa) l.atom
        s.preLine (stackOf c) t.team (lineOf l.pa) d bad
      else s.noteWrite (stackOf c) t.team
    s.writeLine (writeTag c t l va) l.pa bytes l.atom

/-- The latency of a load by its mapping; none for class 2 (R234, R235, R254). -/
def loadLatency (c : CoreId) (l : Leaf) : Option Nat :=
  if paWindow l.pa && winKind l.pa == 0 && winIsCore l.pa && winCoreId l.pa == c then some 4
  else match l.lclass with
    | 0 => some 160
    | 1 => some 1200
    | _ => none

/-- A loaded value on its way to its destination (R254). -/
def Task.putLoad (t : Task) (c : CoreId) (l : Leaf) (d : Dest) (v : Vec) : Task :=
  match loadLatency c l with
  | some n => if n = 4 then t.put n d v 0#7 else t.putMem n d v
  | none => t.putPend d .value (some v)

end Sys2Proof.Machine
end

