-- ==== Sys2Proof/Machine/Atomics.lean ====
section
/-! DEFINITION. Words updated at their home: `amo` messages and rounds, and the RELEASE of a task, which waits for them (R370,
R398, R402, R404). -/

namespace Sys2Proof.Machine

/-! ## One update (R402, R404) -/

/-- The type a form takes where TY is 0. -/
def atomTy (t : Ty) : Ty := tyOr .n32 t

/-- A result of `w` bits extended to 64 by the type's signedness. -/
def atomExt (t : Ty) (n : Nat) : Word :=
  if tySigned t then BitVec.ofInt 64 (sval (tyWidth t) n) else BitVec.ofNat 64 (low (tyWidth t) n)

/-- The new contents of a word: operation, type, old word, operand, expected value. The flags are those of a floating sum. -/
def atomNew (op : AtomOp) (t : Ty) (w v e : Nat) : Nat × FFlags :=
  let b := tyWidth t
  match op with
  | .rmin | .min => (minmaxE false t w v, 0#7)
  | .rmax | .max => (minmaxE true t w v, 0#7)
  | .rsum => if tyIsFloat t then fadd (tyFmt t) .rne false (fdec (tyFmt t) w) (fdec (tyFmt t) v) else (low b (w + v), 0#7)
  | .redf => fadd fmtF32 .rne false (fdec fmtF32 w) (fdec fmtF32 v)
  | .amor | .add => (low b (w + v), 0#7)
  | .cas => (if low b w = low b e then low b v else low b w, 0#7)
  | .and => (low b w &&& low b v, 0#7)
  | .or => (low b w ||| low b v, 0#7)
  | .xor => (low b w ^^^ low b v, 0#7)

/-! ## amo messages -/

/-- The tag of a write at home by a Y-slot form. -/
def atomTag (core : CoreId) (ctx : CtxId) (launch : Nat) (coord : BitVec 48) (home : StackId) (leafPa : Nat) (late : Bool)
    (va : Word) (pa cls : Nat) (fpos : BitVec 32) : WrTag :=
  ⟨core, ctx, launch, coord, home, leafPa, late, va - BitVec.ofNat 64 (pa % 128), cls, fpos, none⟩

/-- An update of a word at its home. Poison in a word that an update reads stays with the word: the update does not rewrite it whole
from good data (R443). -/
def State.putHome (s : State) (w : WrTag) (pa b v : Nat) : State × WriteEnd :=
  s.writeHome w pa ((natBytes (b / 8) v).map some) false (s.homeBad w.home (lineOf pa))

/-- AMO_APPLY of message `n`: performed, held for a frame (R245), or an overrun (R244). -/
def State.applyAmo (s : State) (n : Nat) : State :=
  match s.amos[n]? with
  | none => s
  | some a =>
    let b := tyWidth a.ty
    let w := atomTag a.core a.ctx a.launch a.coord a.home a.leafPa a.late a.va a.pa a.cls a.fpos
    let new := (atomNew a.op a.ty (s.homeNum a.home a.pa b) a.v.toNat 0).1
    let (s', e) := s.putHome w a.pa b new
    match e with
    | .done => { s' with amos := listDrop s'.amos n }
    | .held => { s' with amos := listSet s'.amos n { a with held := true } }
    | .overrun =>
      { s' with amos := listDrop s'.amos n }.fatalFor a.core a.ctx a.launch a.coord a.fpos errOverrun (slotIx .Y)
        (agentId (.task a.core a.ctx a.launch a.coord)) a.va (BitVec.ofNat 64 a.pa)

/-- Applies, in order, each message of which `p` holds; one held for a frame, or by a fenced link, stays. -/
def State.applyAmosFrom (s : State) (p : AmoMsg → Bool) : Nat → Nat → State
  | 0, _ => s
  | k + 1, n =>
    match s.amos[n]? with
    | none => s
    | some a =>
      if p a && !s.amoStuck a then
        let s' := s.applyAmo n
        if s'.amos.length < s.amos.length then s'.applyAmosFrom p k n else s'.applyAmosFrom p k (n + 1)
      else s.applyAmosFrom p k (n + 1)

/-- Whether two messages arrive in the order sent (R29). -/
def AmoMsg.sameWay (a b : AmoMsg) : Bool := a.way == b.way

/-- Applies each message of which `p` holds, with those that keep their order with one (R29). -/
def State.applyAmos (s : State) (p : AmoMsg → Bool) : State :=
  s.applyAmosFrom (fun a => s.amos.any (fun b => p b && a.sameWay b)) s.amos.length 0

/-- Whether message `n` may be applied: none before it on its way is still to be (R29), and it need not wait for a frame or a link (R245,
R450). -/
def State.amoMay (s : State) (n : Nat) : Bool :=
  match s.amos[n]? with
  | some a => !s.amoStuck a && !(s.amos.take n).any (fun b => a.sameWay b)
  | none => false

/-- The merged operand of two messages (R404). -/
def amoMerge (op : AtomOp) (t : Ty) (v u : Word) : Word := atomExt t (atomNew op t v.toNat u.toNat 0).1

/-- Two messages may be merged: one operation, type and word. -/
def AmoMsg.meets (a b : AmoMsg) : Bool := a.op == b.op && a.ty == b.ty && a.pa == b.pa

/-! ## Rounds at the sync unit -/

/-- A sync object for a request of a core that has met `naks` NAKs: a free general one below 4,080; after two NAKs the core's
reserved one; none where the request waits (R408). -/
def StackS.takeObj (x : StackS) (c : CoreId) (naks : Nat) (u : ObjUse) : Option StackS :=
  match freeIn x.objs 4080 0 with
  | some k => some { x with objs := x.objs.set k u }
  | none =>
    let k := 4080 + coreInStack c
    if 2 ≤ naks ∧ (x.objs.find k).isNone = true then some { x with objs := x.objs.set k u } else none

/-- The objects of a stack that are used as `p` says are freed. -/
def StackS.dropObjs (x : StackS) (p : ObjUse → Bool) : StackS := { x with objs := x.objs.filter (fun e => !p e.2) }

/-- The word of a sync object in its stack's window (R232, R409). -/
def objPa (st : StackId) (k : Nat) : Nat := windowPa st.val 0 6 (8 * k)

/-- Whether an object that is used as `p` says is poisoned (R440). -/
def State.objBad (s : State) (st : StackId) (p : ObjUse → Bool) : Bool :=
  (s.stack st).objs.any (fun e => p e.2 && s.poison.contains (objPa st e.1))

/-- The objects that are used as `p` says have been written whole (R440). -/
def State.healObjs (s : State) (st : StackId) (p : ObjUse → Bool) : State :=
  let ks := ((s.stack st).objs.filter (fun e => p e.2)).map (fun e => objPa st e.1)
  { s with poison := s.poison.filter (fun a => !ks.contains a) }

/-- A poisoned object is consumed by the task whose request meets it, as a load of it is; R443 names no consumer of such a word
(DESIGN CHOICE, log entry 38). -/
def State.consumeObj (s : State) (st : StackId) (x : Src) (p : ObjUse → Bool) : State :=
  if s.objBad st p then s.soon (.loadOf x.core x.launch x.coord false) else s

/-- The object that holds a round. -/
def RoundMsg.use (r : RoundMsg) : ObjUse := .round r.core r.launch r.coord r.pend

/-- ROUND_RECEIVE: the sync unit takes the round into an object, or answers it with a NAK (R408). -/
def State.receiveRound (s : State) (n : Nat) : State :=
  match s.rounds[n]? with
  | some r =>
    if r.received then s
    else match (s.stack r.st).takeObj r.core r.naks r.use with
      | some x => { s.setStack r.st x with rounds := listSet s.rounds n { r with received := true } }.healObjs r.st (· == r.use)
      | none => { s with rounds := listSet s.rounds n { r with naks := nakUp r.naks } }
  | none => s

/-- Whether a round of a task with a number below `n` has not been accepted (R266, R370). -/
def State.roundsWait (s : State) (launch : Nat) (coord : BitVec 48) (n : Nat) : Bool :=
  s.rounds.any (fun r => !r.received && r.launch == launch && r.coord == coord && decide (r.seq < n))

/-- The rounds of a task that are on their way are received, with the retries that a NAK asks for. -/
def State.receiveRoundsOf (s : State) (launch : Nat) (coord : BitVec 48) : State :=
  (List.range (3 * s.rounds.length)).foldl (fun (s : State) k => match s.rounds[k / 3]? with
    | some r => if r.launch == launch && r.coord == coord then s.receiveRound (k / 3) else s
    | none => s) s

/-- Whether something that a release of a task covers is not done: a write of it waits for a frame or a link, an earlier full/empty
access has not been performed, or an earlier round has not been accepted (R245, R370). -/
def State.relWaits (s : State) (launch : Nat) (coord : BitVec 48) (after : Nat) : Bool :=
  s.heldWrites launch coord || s.earlierFe launch coord after || s.roundsWait launch coord after

/-- A message for another module that follows a release of a task leaves once what the release covers is done, and after the earlier
ones of its task (R370, R373, R478, R479). -/
def State.sendAfter (s : State) (src : Src) (after : Nat) (m : OutMsg) : State :=
  if s.relWaits src.launch src.coord after || s.remq.any (fun r => r.src == src) then
    { s with remq := s.remq ++ [⟨src, after, m⟩] }
  else s.send m

/-- Those that need no longer wait leave, in their order. -/
def State.sendWaiting (s : State) : State :=
  s.remq.foldl (fun (s : State) r => s.sendAfter r.src r.after r.msg) { s with remq := [] }

/-! ## Releases (R370) -/

/-- Whether a message of a task carries this launch and coordinate. -/
def isTask (t : Task) (launch : Nat) (coord : BitVec 48) : Bool := launch == t.launch && coord == t.coord

/-- A RELEASE at a scope by the task on a core: its data, and at `.st` and wider its `amo` forms and rounds. -/
def State.releaseFor (s : State) (c : CoreId) (t : Task) (sc : Scope) : State :=
  let s := s.releaseData c sc
  if 3 ≤ scopeRank sc then
    (s.applyAmos (fun a => isTask t a.launch a.coord)).receiveRoundsOf t.launch t.coord
  else s

/-- Own `amo` messages to a line reach it before a later access of the task to the line (R255). -/
def State.ownAmos (s : State) (t : Task) (line : Nat) : State :=
  s.applyAmos (fun a => isTask t a.launch a.coord && lineOf a.pa == line)

end Sys2Proof.Machine
end

