-- ==== Sys2Proof/Machine/Join.lean ====
section
/-! DEFINITION. Rights that a task gives to its copy operations, their joins, and completion words (R282, R284, R285). -/

namespace Sys2Proof.Machine

/-- The agent of a copy operation. -/
def engineAgent (c : CoreId) (t : Task) (h : Nat) : Agent := .engine c t.ctx t.launch t.coord h

/-- Whether a record says no more than that a task current on a core holds its core region (R365). A block of the power controller has
no owner by its place, and keeps its record (R490). -/
def TokRec.idle (r : TokRec) : Bool :=
  paWindow r.base && winIsCore r.base && r.depth == 0 && !r.sh && r.st == .excl && r.nsh == 0

/-- A record whose token has come back to its holder. -/
def TokRec.regain (r : TokRec) : TokRec := { r with st := if r.nsh = 0 then .excl else .shared, back := false }

/-- A record that says no more than being current does is freed. -/
def TokRec.unlessIdle (r : TokRec) : Option TokRec := if r.idle then none else some r

/-- The slice entries after a change of each record; `none` frees the record. -/
def StackS.editToks (x : StackS) (f : TokRec → Option TokRec) : StackS :=
  { x with toks := x.toks.filterMap (fun e => (f e.2).map (fun r => (e.1, r))) }

/-- The same with the records that wait for a place in the slice (R367). -/
def State.editToks (s : State) (st : StackId) (f : TokRec → Option TokRec) : State :=
  { s.setStack st ((s.stack st).editToks f) with
    toks := s.toks.filterMap (fun m => match m with
      | .need h r c n a => if h = st then (f r).map (fun r => .need h r c n a) else some m
      | _ => some m) }

/-- A record after a region lent to an operation has returned to its task as EXCL (R285). LOST records stay (R382). -/
def TokRec.returnLent (ag eg : Agent) (base size : Nat) (r : TokRec) : Option TokRec :=
  if !r.isFor base size || r.st == .lost then some r
  else if r.holder == eg && !r.sh then none
  else if r.holder == ag && !r.sh && r.st == .lent then r.regain.unlessIdle
  else some r

/-- A record after a share that an operation held has been given back (R285, R369). -/
def TokRec.returnShare (ag eg : Agent) (base size : Nat) (r : TokRec) : Option TokRec :=
  if !r.isFor base size || r.st == .lost then some r
  else if r.holder == eg && r.sh then none
  else if r.holder == ag && !r.sh && 0 < r.nsh then
    TokRec.unlessIdle { r with nsh := r.nsh - 1, eng := r.eng - 1, st := if r.nsh = 1 then .excl else r.st }
  else some r

/-- THE JOIN of an operation by its task (R285): tokens and shares come back, and the join is an acquire at the scope of the
completion's release, `.dv` (R277) or for a `cpyx` `.sy` (R290). -/
def State.joinOp (s : State) (c : CoreId) (h : Nat) : State :=
  match s.task? c with
  | none => s
  | some t =>
    match t.ops.find h with
    | none => s
    | some o =>
      if o.joined then s
      else
        let ag := t.agent c
        let eg := engineAgent c t h
        let s := o.lent.foldl (fun (s : State) r => s.editToks (s.sliceOf r.1) (TokRec.returnLent ag eg r.1 r.2)) s
        let s := o.shared.foldl (fun (s : State) r => s.editToks (s.sliceOf r.1) (TokRec.returnShare ag eg r.1 r.2)) s
        let used (g : GrantS) : Bool := g.holder == some ag && g.op == some h
        let sc : Scope := if s.grants.any used then .sy else .dv
        let s := { s with grants := s.grants.map (fun (g : GrantS) => if used g then { g with op := none } else g) }
        let s := s.mapTask c (fun t => { t with ops := t.ops.set h { o with joined := true } })
        s.acquire c sc

/-- The operations whose completion words lie within `n` bytes from `pa`, whose stores those words hold, and that the task has not
joined. -/
def Task.joinable (t : Task) (pa n : Nat) : List Nat :=
  (t.ops.filter (fun e => e.2.cw != 0 && decide (pa ≤ e.2.cw) && decide (e.2.cw + 4 ≤ pa + n) && e.2.stored && !e.2.joined)).map
    Prod.fst

end Sys2Proof.Machine
end

