-- ==== Sys2Proof/Machine/FullEmpty.lean ====
section
/-! DEFINITION. Full/empty accesses at their words: arrival, waiting and performance (R261 to R265, R284, R285). -/

namespace Sys2Proof.Machine

/-- The first tag of an access's word. -/
def FeAcc.tag (a : FeAcc) : Nat := winOff a.pa / 4

/-- The task in whose scratchpad the word lies. -/
def State.feKey (s : State) (a : FeAcc) : Option (Nat × BitVec 48) := s.issuerKey a.core a.launch a.coord a.pa

/-- Whether the condition of an access holds at its word (R262). A core without a task holds empty tags and no data. -/
def State.feReady (s : State) (a : FeAcc) : Bool :=
  match s.keyTask a.pa (s.feKey a) with
  | some t =>
    let tags := (List.range a.nwords).map (fun i => t.isFull (a.tag + i))
    match a.op with
    | .ldf | .lde => tags.all (fun b => b)
    | .ste => tags.all (fun b => !b)
    | .stf | .clre | .plain => true
  | none => match a.op with
    | .ldf | .lde => false
    | _ => true

/-- The value a full/empty load delivers: its bytes extended as its form says (R261). -/
def FeAcc.extend (a : FeAcc) (n : Nat) : Vec :=
  if a.nwords = 1 ∧ a.signed = true then (BitVec.ofInt 64 (sval 32 n)).setWidth 1024 else BitVec.ofNat 1024 n

/-- The team of the task that issued an access, current or suspended; 0 where it has gone. -/
def State.feTeam (s : State) (a : FeAcc) : Nat :=
  match s.taskOf a.launch a.coord with
  | some t => t.team
  | none => 0

/-- The teams of both ends of an access to a word of another team's core run on unprotected: an edge with an agent outside the team
may pass there (R446; log entry 28). -/
def State.feEdge (s : State) (a : FeAcc) : State :=
  match s.keyTask a.pa (s.feKey a), s.taskOf a.launch a.coord with
  | some u, some t =>
    let st := stackOf (winCoreId a.pa)
    if st = stackOf a.core ∧ u.team = t.team then s
    else (s.unprotectTeam (stackOf a.core) t.team).unprotectTeam st u.team
  | _, _ => s

/-- The scopes of the releases that a full/empty load reads: those of its words, and its own where none tells (R265, R371). -/
def FeAcc.reads (a : FeAcc) (u : Option Task) : List Scope :=
  let l := (List.range a.nwords).foldl (fun l i => addScope l (match u with
    | some u => u.rel.get .dflt (a.tag + i)
    | none => .dflt)) []
  if l.isEmpty then [a.sc] else l

/-- A full/empty load has its value: it reaches the queue entry of its task. It is an acquire of the releases that it has read, and
joins the operations whose stores it has, once it arrives at its destination: a bundle that issues before precedes the edge and the
join (R265, R285). -/
def State.feGive (s : State) (a : FeAcc) (scs : List Scope) (v : Vec) : State :=
  s.mapTaskOf a.launch a.coord (fun t => { t with
    pend := t.pend.map (fun p => if p.id = a.pend then
      { p with val := some v, kind := .feGot scs (t.joinable a.pa a.len) } else p) })

/-- The words of a full/empty store hold the value of a release at its scope. -/
def Task.setRel (t : Task) (w n : Nat) (sc : Scope) : Task :=
  { t with rel := (List.range n).foldl (fun r i => Sys2Proof.Tab.set r (w + i) sc) t.rel }

/-- An access that goes by its tags consumes them where their word is poisoned (R440, R443; log entry 38). -/
def State.feTagBad (s : State) (a : FeAcc) : State :=
  match a.op, s.keyTask a.pa (s.feKey a) with
  | .ldf, some t | .lde, some t | .ste, some t =>
    if t.badTags.contains (a.tag / 64) then s.soon (.loadOf a.core a.launch a.coord false) else s
  | _, _ => s

/-- One access is performed in one indivisible step (R262). -/
def State.fePerform (s : State) (a : FeAcc) : State :=
  let k := s.feKey a
  let s := (s.feEdge a).feTagBad a
  let n := a.len
  let own (f : Task → Task) (s : State) : State := s.keyMap a.pa k f
  let st := stackOf a.core
  let store (s : State) : State :=
    let fresh : Bool := match a.handle with
      | some h => s.handleNew st (s.feTeam a) a.coord h
      | none => s.newEpoch st (s.feTeam a) a.seq
    s.windowStore st (s.feTeam a) fresh a.pa k ((natBytes n a.data.toNat).map some)
  match a.op with
  | .ldf | .lde =>
    let d := match s.keyTask a.pa k with
      | some t => t.winRead 0 (winOff a.pa) n
      | none => 0
    let scs := a.reads (s.keyTask a.pa k)
    let s := s.consume a.core 0#64 a.pa (s.poisoned a.pa n)
    let s := if a.op = .lde then own (fun t => t.setTags a.tag a.nwords false) s else s
    s.feGive a scs (a.extend d)
  | .ste | .stf =>
    let s := own (fun t => (t.setTags a.tag a.nwords true).setRel a.tag a.nwords a.sc) (store s)
    match a.handle with
    | some h => s.mapTaskOf a.launch a.coord (fun t =>
        match t.ops.find h with
        | some o => { t with ops := t.ops.set h { o with stored := true } }
        | none => t)
    | none => s
  | .clre => own (fun t => t.setTags a.tag a.nwords false) s
  | .plain => store s

/-- Whether two accesses meet at a word. -/
def FeAcc.meets (a b : FeAcc) : Bool := rangesMeet a.pa a.len b.pa b.len

/-- Whether an access is one of the same task. -/
def FeAcc.mate (a b : FeAcc) : Bool := a.core == b.core && a.launch == b.launch && a.coord == b.coord

/-- The oldest waiting access whose condition now holds (R263). -/
def State.feNext (s : State) : Option Nat :=
  (List.range s.fes.length).find? (fun n => match s.fes[n]? with
    | some a => a.waiting && s.feReady a
    | none => false)

/-- Waiters are served oldest first until none is ready (R263). -/
def State.feServe (s : State) : Nat → State
  | 0 => s
  | k + 1 =>
    match s.feNext with
    | none => s
    | some n => match s.fes[n]? with
      | some a => { s with fes := listDrop s.fes n }.fePerform a |>.feServe k
      | none => s

/-- Whether an access has left its core and is on its way: every earlier access of its task to the word has reached it (R263), and
been performed where a plain store comes behind a store (R255); for a full/empty store, which is a release, no write it must wait
for waits for a frame, every earlier full/empty access of the task has been performed and its rounds have been accepted (R245,
R370); and the link toward the word is not fenced (R450). -/
def State.feLeft (s : State) (a : FeAcc) : Bool :=
  !a.waiting && !s.linkShut a.way.src a.way.dst &&
  !(a.op != .ldf && a.op != .lde && a.op != .plain && a.handle.isNone &&
    (s.heldWrites a.launch a.coord || s.earlierFe a.launch a.coord a.seq ||
      (3 ≤ scopeRank a.sc && s.roundsWait a.launch a.coord a.seq))) &&
  s.fes.all (fun b => !(a.mate b && decide (b.seq < a.seq) && a.meets b) || (b.waiting && !(a.op == .plain && b.writes)))

/-- Whether access `n` may reach its word: it is on its way, and none sent before it on the same way is (R29). -/
def State.feMayArrive (s : State) (n : Nat) : Bool :=
  match s.fes[n]? with
  | some a => s.feLeft a && s.fes.all (fun b => !(b.way == a.way && decide (b.seq < a.seq) && s.feLeft b))
  | none => false

/-- FE_ACCESS_ARRIVAL of access `n`: performed, or it joins the waiters; then waiters are served (R263). -/
def State.feArrive (s : State) (n : Nat) : State :=
  if s.feMayArrive n then
    match s.fes[n]? with
    | some a =>
      if s.feReady a then ({ s with fes := listDrop s.fes n }.fePerform a).feServe s.fes.length
      else { s with fes := listDrop s.fes n ++ [{ a with waiting := true }] }
    | none => s
  else s

/-- The accesses on their way that satisfy `p` reach their words while they may, oldest first. -/
def State.feArriveWhere (s : State) (p : FeAcc → Bool) : Nat → State
  | 0 => s
  | k + 1 =>
    match (List.range s.fes.length).find? (fun i => match s.fes[i]? with
      | some a => !a.waiting && p a && s.feMayArrive i
      | none => false) with
    | some i => (s.feArrive i).feArriveWhere p k
    | none => s

/-- The same for those of a task (R255). -/
def State.feArriveOwn (s : State) (c : CoreId) (t : Task) (p : FeAcc → Bool) (k : Nat) : State :=
  s.feArriveWhere (fun a => a.core == c && isTask t a.launch a.coord && p a) k

/-- Those to a range of bytes. -/
def State.feOwnFirst (s : State) (c : CoreId) (t : Task) (pa n : Nat) (fuel : Nat) : State :=
  s.feArriveOwn c t (fun a => rangesMeet a.pa a.len pa n) fuel

/-- Before a plain access of a task, its own earlier full/empty accesses and `amo` forms to the bytes take effect (R255). -/
def State.ownFirst (s : State) (c : CoreId) (t : Task) (pa n : Nat) (atom : Bool) : State :=
  if paWindow pa then s.feOwnFirst c t pa n s.fes.length
  else if atom then s.ownAmos t (lineOf pa) else s

end Sys2Proof.Machine
end

