-- ==== Sys2Proof/Machine/MemInstr.lean ====
section
/-! DEFINITION. The M slot: loads and stores, element-wise forms, full/empty forms, fences, `probe`, hints, `disc`, circular
buffers and register moves (R249 to R276). -/

namespace Sys2Proof.Machine

/-! ## Addresses and data -/

/-- A 64-bit source of the M slot; the format has no immediate (R250). -/
def Task.srcM (t : Task) (o : Opd) : Word := t.regs.readW .M 0#64 o

/-- EA of R250. -/
def Task.ea (t : Task) (f : FmtML) : Word := t.srcM f.s1 + f.off.signExtend 64

/-- A w-bit value extended by its type's signedness (R257). -/
def loadExt (ty : Ty) (n : Nat) : Vec := (atomExt ty n).setWidth 1024

/-- A w-bit value in every element (R257). -/
def loadBcast (ty : Ty) (n : Nat) : Vec := ofElems (tyWidth ty) (List.replicate (1024 / tyWidth ty) n)

/-- An access is checked, what its task did before to its bytes takes effect, and its mapping is taken again, since a page may
have been backed meanwhile (R246, R251, R255). -/
def State.settle (s : State) (c : CoreId) (t : Task) (va : Word) (n : Nat) (k : AccKind) : Except AccErr (State × Leaf) :=
  match s.access c t va n k with
  | .error e => .error e
  | .ok l =>
    let s := s.ownFirst c t l.pa n l.atom
    match s.translateFor c t va with
    | .ok l => .ok (s, l)
    | .error _ => .error ⟨errTranslation, 0⟩

/-- A load of `n` bytes into `d` (R254, R257). -/
def State.loadTo (s : State) (c : CoreId) (t : Task) (syl va : Word) (n : Nat) (d : Opd) (ext : Nat → Vec) : State :=
  match s.settle c t va n .load with
  | .error e => s.failAccess c t .M syl va e
  | .ok (s, l) =>
    let (s, v) := s.loadBytes c t l va n
    s.mapTask c (fun t => t.putLoad c l (t.regs.dest .M d) (ext v))

/-- A store of the low `n` bytes of a value (R257). -/
def State.storeFrom (s : State) (c : CoreId) (t : Task) (syl va : Word) (n v : Nat) : State :=
  match s.settle c t va n .store with
  | .error e => s.failAccess c t .M syl va e
  | .ok (s, l) => s.storeBytes c t l va ((natBytes n v).map some)

/-- The type of `ld` and `st`, and that of `ldb`. -/
def ldTy (f : FmtML) : Ty := tyOr .n64 (tyOfBits f.aux)
def ldbTy (f : FmtML) : Ty := tyOr .n32 (tyOfBits f.aux)

/-! ## Contiguous loads and stores (R257) -/

def execLd (f : FmtML) (s : State) : Host.Outcome State Fault Refusal :=
  s.issueS f.gd fun t =>
    s.loadTo s.cur t (encode (.ld f)) (t.ea f) (tyWidth (ldTy f) / 8) f.d (loadExt (ldTy f))

def execSt (f : FmtML) (s : State) : Host.Outcome State Fault Refusal :=
  s.issueS f.gd fun t =>
    s.storeFrom s.cur t (encode (.st f)) (t.ea f) (tyWidth (ldTy f) / 8) (t.srcM f.s2).toNat

def execLdv (f : FmtML) (s : State) : Host.Outcome State Fault Refusal :=
  s.issueS f.gd fun t => s.loadTo s.cur t (encode (.ldv f)) (t.ea f) 128 f.d (BitVec.ofNat 1024)

def execStv (f : FmtML) (s : State) : Host.Outcome State Fault Refusal :=
  s.issueS f.gd fun t =>
    s.storeFrom s.cur t (encode (.stv f)) (t.ea f) 128 (t.regs.read .M 0#1024 f.s2).toNat

def execLdb (f : FmtML) (s : State) : Host.Outcome State Fault Refusal :=
  s.issueS f.gd fun t =>
    s.loadTo s.cur t (encode (.ldb f)) (t.ea f) (tyWidth (ldbTy f) / 8) f.d (loadBcast (ldbTy f))

/-! ## Stepping forms (R258) -/

/-- The base register takes base + inc at latency 1, unless the access failed. -/
def State.stepBase (s : State) (c : CoreId) (f : FmtML) (a : Word) : State :=
  s.mapTask c (fun t => if t.failed then t else t.putW 1 .M f.s1 (a + f.off.signExtend 64))

def execLdpi (f : FmtML) (s : State) : Host.Outcome State Fault Refusal :=
  s.issueS f.gd fun t =>
    (s.loadTo s.cur t (encode (.ldpi f)) (t.srcM f.s1) (tyWidth (ldTy f) / 8) f.d (loadExt (ldTy f))).stepBase s.cur f
      (t.srcM f.s1)

def execStpi (f : FmtML) (s : State) : Host.Outcome State Fault Refusal :=
  s.issueS f.gd fun t =>
    (s.storeFrom s.cur t (encode (.stpi f)) (t.srcM f.s1) (tyWidth (ldTy f) / 8) (t.srcM f.s2).toNat).stepBase s.cur f
      (t.srcM f.s1)

/-! ## Element-wise forms (R259, R260) -/

/-- Element width in bits. -/
def mgWidth (f : FmtMG) : Nat := tyWidth (tyOr .n32 f.ty)

/-- The mask a form reads; 0xC0 enables every element. -/
def Task.mgEnabled (t : Task) (f : FmtMG) (i : Nat) : Bool :=
  f.s3 == 0xC0#8 || elem 32 (t.regs.read .M 0#1024 (s3Opd f.s3)) (laneOf (mgWidth f) i) != 0

/-- Element addresses of the three pairs of forms. -/
def Task.mgIndexed (t : Task) (f : FmtMG) (i : Nat) : Word :=
  t.srcM f.s1 + BitVec.ofInt 64 (sval 32 (elem 32 (t.regs.read .M 0#1024 f.s2) i) * 2 ^ f.lg.toNat)

def Task.mgStrided (t : Task) (f : FmtMG) (i : Nat) : Word := t.srcM f.s1 + BitVec.ofNat 64 i * t.srcM f.s2

def Task.mgMasked (t : Task) (f : FmtMG) (i : Nat) : Word := t.srcM f.s1 + BitVec.ofNat 64 (i * mgWidth f / 8)

/-- The enabled elements with their addresses. -/
def Task.mgList (t : Task) (f : FmtMG) (addr : Nat → Word) : List (Nat × Word) :=
  ((List.range (1024 / mgWidth f)).filter (t.mgEnabled f)).map (fun i => (i, addr i))

/-- The first enabled element that fails its checks. -/
def State.mgError (s : State) (c : CoreId) (t : Task) (n : Nat) (k : AccKind) : List (Nat × Word) → Option (Word × AccErr)
  | [] => none
  | (_, va) :: l => match s.access c t va n k with
    | .error e => some (va, e)
    | .ok _ => s.mgError c t n k l

/-- The elements read, in rising order. -/
def State.mgRead (s : State) (c : CoreId) (t : Task) (n : Nat) : List (Nat × Word) → Vec → State × Vec
  | [], v => (s, v)
  | (i, va) :: l, v =>
    match s.settle c t va n .load with
    | .error _ => s.mgRead c t n l v
    | .ok (s, lf) =>
      let (s, x) := s.loadBytes c t lf va n
      let m : Vec := (BitVec.ofNat 1024 (2 ^ (8 * n) - 1)) <<< (8 * n * i)
      s.mgRead c t n l ((v &&& ~~~m) ||| (BitVec.ofNat 1024 x <<< (8 * n * i)))

/-- The elements written, in rising order, so that the highest-indexed is kept. -/
def State.mgWrite (s : State) (c : CoreId) (t : Task) (n : Nat) (data : Vec) : List (Nat × Word) → State
  | [] => s
  | (i, va) :: l =>
    match s.settle c t va n .store with
    | .error _ => s.mgWrite c t n data l
    | .ok (s, lf) => (s.storeBytes c t lf va ((natBytes n (elem (8 * n) data i)).map some)).mgWrite c t n data l

/-- A masked form's base must be a multiple of 128 (R260). -/
def State.mgLoad (s : State) (c : CoreId) (t : Task) (f : FmtMG) (syl : Word) (aligned : Bool) (addr : Nat → Word) : State :=
  let n := mgWidth f / 8
  let l := t.mgList f addr
  if aligned && (t.srcM f.s1).toNat % 128 != 0 then s.failAccess c t .M syl (t.srcM f.s1) ⟨errPermission, 0⟩
  else match s.mgError c t n .load l with
    | some (va, e) => s.failAccess c t .M syl va e
    | none =>
      let (s, v) := s.mgRead c t n l (t.regs.read .M 0#1024 f.d)
      s.mapTask c (fun t => t.putPend (t.regs.dest .M f.d) .value (some v))

def State.mgStore (s : State) (c : CoreId) (t : Task) (f : FmtMG) (syl : Word) (aligned : Bool) (addr : Nat → Word) : State :=
  let n := mgWidth f / 8
  let l := t.mgList f addr
  if aligned && (t.srcM f.s1).toNat % 128 != 0 then s.failAccess c t .M syl (t.srcM f.s1) ⟨errPermission, 0⟩
  else match s.mgError c t n .store l with
    | some (va, e) => s.failAccess c t .M syl va e
    | none => s.mgWrite c t n (t.regs.read .M 0#1024 f.d) l

def execGth (f : FmtMG) (s : State) : Host.Outcome State Fault Refusal :=
  s.issueS f.gd fun t => s.mgLoad s.cur t f (encode (.gth f)) false (t.mgIndexed f)

def execSct (f : FmtMG) (s : State) : Host.Outcome State Fault Refusal :=
  s.issueS f.gd fun t => s.mgStore s.cur t f (encode (.sct f)) false (t.mgIndexed f)

def execLdvs (f : FmtMG) (s : State) : Host.Outcome State Fault Refusal :=
  s.issueS f.gd fun t => s.mgLoad s.cur t f (encode (.ldvs f)) false (t.mgStrided f)

def execStvs (f : FmtMG) (s : State) : Host.Outcome State Fault Refusal :=
  s.issueS f.gd fun t => s.mgStore s.cur t f (encode (.stvs f)) false (t.mgStrided f)

def execLdvm (f : FmtMG) (s : State) : Host.Outcome State Fault Refusal :=
  s.issueS f.gd fun t => s.mgLoad s.cur t f (encode (.ldvm f)) true (t.mgMasked f)

def execStvm (f : FmtMG) (s : State) : Host.Outcome State Fault Refusal :=
  s.issueS f.gd fun t => s.mgStore s.cur t f (encode (.stvm f)) true (t.mgMasked f)

/-! ## Full/empty forms (R261, R262, R265) -/

/-- Words of an AUX code (R261). -/
def feWords (aux : BitVec 4) : Nat := if aux = 2#4 then 2 else if aux = 3#4 then 32 else 1

/-- A full/empty load: interlocked, sent to its word. -/
def State.feLoad (s : State) (c : CoreId) (t : Task) (f : FmtML) (syl : Word) (op : FeOp) : State :=
  match s.access c t (t.ea f) (4 * feWords f.aux) .feLoad with
  | .error e => s.failAccess c t .M syl (t.ea f) e
  | .ok l =>
    let s := s.mapTask c (fun t =>
      t.putPend (t.regs.dest .M f.d) (.feWait (op == .lde) l.pa f.aux (scopeOr .st f.sc) s.feSeq) none)
    { s with
      fes := s.fes ++ [⟨op, c, t.ctx, t.launch, t.coord, t.nextPend, l.pa, feWords f.aux, f.aux == 1#4, 0#1024,
        scopeOr .st f.sc, false, none, s.feSeq⟩]
      feSeq := s.feSeq + 1 }

/-- Full/empty loads that were withdrawn at a pre-emption are sent again (R256). -/
def State.reissueFe (s : State) (c : CoreId) (t : Task) : State :=
  { s with fes := s.fes ++ t.pend.filterMap (fun p => match p.kind, p.val with
      | .feWait e pa aux sc q, none => some (⟨if e then .lde else .ldf, c, t.ctx, t.launch, t.coord, p.id, pa, feWords aux,
          aux == 1#4, 0#1024, sc, false, none, q⟩ : FeAcc)
      | _, _ => none) }

/-- A full/empty store: a release at its scope, then posted. -/
def State.feStore (s : State) (c : CoreId) (t : Task) (f : FmtML) (syl : Word) (op : FeOp) : State :=
  match s.access c t (t.ea f) (4 * feWords f.aux) .feStore with
  | .error e => s.failAccess c t .M syl (t.ea f) e
  | .ok l =>
    let s := s.releaseFor c t (scopeOr .st f.sc)
    let d : Vec := if op = .clre then 0#1024 else t.regs.read .M 0#1024 f.s2
    { s with
      fes := s.fes ++ [⟨op, c, t.ctx, t.launch, t.coord, 0, l.pa, feWords f.aux, false, d, scopeOr .st f.sc, false,
        none, s.feSeq⟩]
      feSeq := s.feSeq + 1 }

def execLdf (f : FmtML) (s : State) : Host.Outcome State Fault Refusal :=
  s.issueS f.gd fun t => s.feLoad s.cur t f (encode (.ldf f)) .ldf

def execLde (f : FmtML) (s : State) : Host.Outcome State Fault Refusal :=
  s.issueS f.gd fun t => s.feLoad s.cur t f (encode (.lde f)) .lde

def execSte (f : FmtML) (s : State) : Host.Outcome State Fault Refusal :=
  s.issueS f.gd fun t => s.feStore s.cur t f (encode (.ste f)) .ste

def execStf (f : FmtML) (s : State) : Host.Outcome State Fault Refusal :=
  s.issueS f.gd fun t => s.feStore s.cur t f (encode (.stf f)) .stf

def execClre (f : FmtML) (s : State) : Host.Outcome State Fault Refusal :=
  s.issueS f.gd fun t => s.feStore s.cur t f (encode (.clre f)) .clre

/-! ## Fences (R266, R267) -/

/-- `fence` waits; FENCE_COMPLETE ends it. -/
def execFence (f : FmtML) (s : State) : Host.Outcome State Fault Refusal :=
  s.issue f.gd fun t => { t with waits := t.waits ++ [.fence (scopeOr .dv f.sc) t.ord] }

/-- Whether every full/empty store of the task, and every plain store behind one, has been performed (R266). -/
def State.fenceReady (s : State) (c : CoreId) (t : Task) : Bool :=
  s.fes.all (fun a => !(a.core == c && isTask t a.launch a.coord && a.handle.isNone && a.op != .ldf && a.op != .lde))

/-- What a fence at a scope does (R266): its own stores, and at `.cl` and wider its L1, are written to the level of the scope, at
`.st` and wider every write it must wait for is performed at its home; `amo` forms and rounds are accepted; clean lines of the
caches are invalidated. -/
def State.fenceAct (s : State) (c : CoreId) (t : Task) (sc : Scope) : State :=
  let r := scopeRank sc
  let s := s.releaseData c (if 3 ≤ r then .dv else sc)
  let s := (s.applyAmos (fun a => isTask t a.launch a.coord)).receiveRoundsOf t.launch t.coord
  let s := if 2 ≤ r then s.dropL1Clean c else s
  if 3 ≤ r then s.dropCCClean (clusterOf c) (fun l => (l.touch &&& touchBit c) != 0#4) else s

/-- Whether a fence still waits after it has acted: for a write held for a frame, or for a round that is not accepted (R245, R266). -/
def State.fenceHeld (s : State) (t : Task) : Bool := s.heldWrites t.launch t.coord || s.roundsWait t.launch t.coord s.feSeq

/-- FENCE_COMPLETE: the fence the task waits for is done, once its conditions hold. -/
def execFenceComplete (core : CoreId) (s : State) : Host.Outcome State Fault Refusal :=
  match s.task? core with
  | none => .next s
  | some t =>
    match t.waits.find? (fun w => match w with | .fence _ _ => true | _ => false) with
    | some (.fence sc n) =>
      if s.fenceReady core t then
        let s := s.fenceAct core t sc
        .next (if s.fenceHeld t then s else s.mapTask core (fun t => { t with waits := t.waits.erase (.fence sc n) }))
      else .next s
    | _ => .next s

/-! ## probe (R268 to R271) -/

/-- How far a probe got. -/
inductive ProbeEnd where
  | result (w : Word)
  | missing (page : Word)
  deriving DecidableEq, Repr

/-- A result word: the bit that is set and the page. -/
def probeWord (bit : Nat) (va : Nat) : Word := BitVec.ofNat 64 (2 ^ bit + va / 4096 % 2 ^ 44 * 4096)

/-- The pages of `[a, e)` in rising order (R270). -/
def State.probeFrom (s : State) (c : CoreId) (ctx : CtxId) (aux : BitVec 4) (e : Nat) : Nat → Nat → ProbeEnd
  | 0, _ => .result (2#64 ^ 63)
  | k + 1, a =>
    if e ≤ a then .result (probeWord 63 0)
    else match s.translateOn c ctx (BitVec.ofNat 64 a) with
      | .error .notPresent => .missing (BitVec.ofNat 64 (a / 4096 * 4096))
      | .error .failure => .result (probeWord 60 a)
      | .ok l =>
        if (aux.getLsbD 1 && !l.w) || (aux.getLsbD 2 && !l.atom) then .result (probeWord 61 l.vbase)
        else s.probeFrom c ctx aux e k (l.vbase + 2 ^ l.bits)

/-- The queue entry of a probe that has no result yet. -/
def Task.probePend (t : Task) (d : Dest) : Option Pend := t.pend.find? (fun p => p.dest == d && p.kind == .value && p.val.isNone)

/-- A waiting probe is examined: its result goes into the queue, or its fault is raised (R270, R271). After a refusal it completes
with NP for the refused page. The next bundle waits until the result arrives (R269). -/
def State.probeRun (s : State) (c : CoreId) (va len : Word) (aux : BitVec 4) (d : Dest) : State :=
  match s.task? c with
  | none => s
  | some t =>
    match t.probePend d with
    | none => s
    | some q =>
      let give (w : Word) : State := s.setTask c { t with
        probeRefused := none
        pend := t.pend.map (fun p => if p.id = q.id then { p with val := some (w.setWidth 1024) } else p) }
      match t.probeRefused with
      | some pg => give (probeWord 62 pg.toNat)
      | none =>
        let n := len.toNat % 2 ^ 32
        match s.probeFrom c t.ctx aux (va.toNat + n) (n / 4096 + 2) va.toNat with
        | .result w => give w
        | .missing pg =>
          if t.event.isSome then s else s.raiseEvent c t 0 (BitVec.ofNat 64 (pg.toNat % 2 ^ 56 + aux.toNat % 8))

/-- The result of a probe has arrived: its wait ends (R269). -/
def Task.probeDone (t : Task) (d : Dest) : Task :=
  { t with waits := t.waits.filter (fun w => match w with
    | .probe _ _ _ e => e != d
    | _ => true) }

def execProbe (f : FmtML) (s : State) : Host.Outcome State Fault Refusal :=
  s.issueS f.gd fun t =>
    let d := t.regs.dest .M f.d
    (s.setTask s.cur { t.putPend d .value none with
      waits := t.waits ++ [.probe (t.ea f) (t.srcM f.s2) f.aux d] }).probeRun s.cur (t.ea f) (t.srcM f.s2) f.aux d

/-! ## Hints and disc (R249, R272, R273) -/

/-- The mapping of a hint that is carried out; none where it is dropped (R249). -/
def State.hintLeaf (s : State) (c : CoreId) (ctx : CtxId) (va : Word) : Option Leaf :=
  match s.translateOn c ctx va with
  | .error _ => none
  | .ok l =>
    if l.atom || paWindow l.pa || l.lclass == 0 || (l.unb && (s.live.find (lineOf l.pa)).isNone) then none else some l

/-- `pref`: the line moves into the cluster cache, or the hint is dropped and counted (R249, R272). -/
def execPref (f : FmtML) (s : State) : Host.Outcome State Fault Refusal :=
  s.issueS f.gd fun t => match s.hintLeaf s.cur t.ctx (t.ea f) with
    | some l => s.fillCC (writeTag s.cur t l (t.ea f)) (lineOf l.pa)
    | none => s.count t.ctx ctrHINTDROP 1

/-- The mappings of the `k` lines from `va`, or the first address that does not translate (R251 step 1). -/
def State.discLeaves (s : State) (c : CoreId) (t : Task) : Nat → Word → Except Word (List (Word × Leaf))
  | 0, _ => .ok []
  | k + 1, va => match s.translateOn c t.ctx va with
    | .error _ => .error va
    | .ok l => match s.discLeaves c t k (va + 128#64) with
      | .error e => .error e
      | .ok r => .ok ((va, l) :: r)

/-- The last of `len` bytes from an address, where it does not translate: that of an address or a length which is no multiple of 128
may lie in a page that no line of the first bytes reaches. -/
def State.discTail (s : State) (c : CoreId) (t : Task) (va : Word) (len : Nat) : Option Word :=
  let a := va + BitVec.ofNat 64 (len - 1)
  match s.translateOn c t.ctx a with
  | .error _ => some a
  | .ok _ => none

/-- The first error of a `disc` of `len` bytes, over `k` lines, from `va`, step by step over all of them (R251, R273); `bad` says that
its address or length is. -/
def State.discError (s : State) (c : CoreId) (t : Task) (bad : Bool) (len k : Nat) (va : Word) : Option (Word × AccErr) :=
  match s.discLeaves c t k va, s.discTail c t va len with
  | .error a, _ => some (a, ⟨errTranslation, 0⟩)
  | .ok _, some a => some (a, ⟨errTranslation, 0⟩)
  | .ok ls, none =>
    let first (p : Leaf → Bool) : Option (Word × AccErr) :=
      (ls.find? (fun e => p e.2)).map (fun e => (e.1, ⟨errPermission, e.2.pa⟩))
    match first (fun l => paWindow l.pa), first (fun l => !l.w), (if bad then first (fun _ => true) else none) with
    | some e, _, _ => some e
    | none, some e, _ => some e
    | none, none, some e => some e
    | none, none, none => ls.findSome? (fun e =>
        (s.tokenErr (t.agent c) (regionHome e.2) e.2.pa .store).map (fun x => (e.1, ⟨x, e.2.pa⟩)))

/-- One line reads zero: its copies leave every cache, and the write goes to its home behind earlier ones (R255, R273). -/
def State.discLine (s : State) (c : CoreId) (t : Task) (va : Word) : State :=
  match s.translateOn c t.ctx va with
  | .error _ => s
  | .ok l =>
    let line := lineOf l.pa
    let w := writeTag c t l va
    let s := if s.keepsPre (stackOf c) t.team then
        let (s, d, b) := s.readLine w line l.atom
        s.preLine (stackOf c) t.team line d b
      else s.noteWrite (stackOf c) t.team
    let s := (s.applyAmos (fun a => isTask t a.launch a.coord && lineOf a.pa == line)).dropEverywhere line
    let held := s.pwrites.any (fun w => w.held && lineOf w.pa == line)
    let s := { s with pwrites := s.pwrites ++
      [⟨128 * line, List.replicate 128 (some 0#8), w, true, held, [], true, 0#16⟩] }
    if held then s else s.drain (fun w => lineOf w.pa == line)

def State.discLines (s : State) (c : CoreId) (t : Task) : Nat → Word → State
  | 0, _ => s
  | k + 1, va => (s.discLine c t va).discLines c t k (va + 128#64)

def execDisc (f : FmtML) (s : State) : Host.Outcome State Fault Refusal :=
  s.issueS f.gd fun t =>
    let va := t.ea f
    let len := (t.srcM f.s2).toNat % 2 ^ 32
    let bad : Bool := va.toNat % 128 != 0 || len == 0 || len % 128 != 0
    match s.discError s.cur t bad len (max 1 (len / 128)) va with
    | some (a, e) => s.failAccess s.cur t .M (encode (.disc f)) a e
    | none => s.discLines s.cur t (len / 128) va

/-! ## Circular buffers (R247, R248, R274, R275) -/

/-- A permission violation of a circular-buffer instruction. -/
def State.cbFail (s : State) (c : CoreId) (t : Task) (syl va : Word) : State := s.failAccess c t .M syl va ⟨errPermission, 0⟩

/-- Whether a buffer has a claimed, filled or held slot. -/
def CircBuf.busy (b : CircBuf) : Bool := !b.claim.isEmpty || decide (0 < b.filled) || decide (0 < b.held)

/-- Whether the configuration word keeps its limits (R274). -/
def cbCfgOk (v : Word) : Bool :=
  v.toNat / 2 ^ 26 == 0 && v.toNat / 2 ^ 9 % 2 ^ 7 == 0 &&
  (v.toNat % 512 == 0 || (decide (v.toNat % 512 ≤ 256) && decide (1 ≤ v.toNat / 2 ^ 16 % 1024) &&
    decide (v.toNat / 2 ^ 16 % 1024 ≤ 512)))

/-- Copies of a task that have not claimed a slot of buffer `b` keep the definition `x` that they were issued under (R274), each
with its slot of it: `k` is the place of the next. -/
def keepBuf (launch : Nat) (coord : BitVec 48) (b : Nat) (x : CircBuf) : Nat → List CopyOp → List CopyOp
  | _, [] => []
  | k, o :: l =>
    if o.launch = launch ∧ o.coord = coord ∧ o.desc.cb = some b ∧ o.slot = none ∧ o.buf = none then
      { o with buf := some { x with wr := (x.wr + k) % x.count } } :: keepBuf launch coord b x (k + 1) l
    else o :: keepBuf launch coord b x k l

/-- The same for the operations and then the requests of a stack. -/
def StackS.keepBufs (y : StackS) (t : Task) (b : Nat) (x : CircBuf) : StackS :=
  let ops := keepBuf t.launch t.coord b x 0 y.ops
  let n := ((y.ops.filter (fun o => o.launch == t.launch && o.coord == t.coord && o.desc.cb == some b && o.slot.isNone &&
    o.buf.isNone)).length)
  { y with ops := ops, requests := keepBuf t.launch t.coord b x n y.requests }

/-- Buffer `b` becomes `x`; copies of the same bundle still see what it was (R274). -/
def Task.cbChange (t : Task) (b : Nat) (x : Option CircBuf) : Task :=
  { t with
    cbs := match x with
      | some y => t.cbs.set b y
      | none => t.cbs.drop b
    cbChanged := some (b, t.cbs.find b) }

/-- The same of the task on a core, and of its copies that have not claimed. -/
def State.cbChange (s : State) (c : CoreId) (t : Task) (b : Nat) (x : Option CircBuf) : State :=
  let s := match t.cbs.find b with
    | some old => s.setStack (stackOf c) ((s.stack (stackOf c)).keepBufs t b old)
    | none => s
  s.setTask c (t.cbChange b x)

def execCbdef (f : FmtML) (s : State) : Host.Outcome State Fault Refusal :=
  s.issueS f.gd fun t =>
    let c := s.cur
    let syl := encode (.cbdef f)
    let b := f.aux.toNat
    let v := t.srcM f.s2
    let va := t.ea f
    let count := v.toNat % 512
    let size := 128 * (v.toNat / 2 ^ 16 % 1024)
    let old := t.cbs.find b
    let busy := match old with | some x => x.busy | none => false
    if !cbCfgOk v then s.cbFail c t syl va
    else if count = 0 then
      if busy then s.cbFail c t syl va else s.cbChange c t b none
    else match s.translateOn c t.ctx va with
      | .error _ => s.cbFail c t syl va
      | .ok l =>
        let o := winOff l.pa
        let own := paWindow l.pa && winKind l.pa == 0 && winPlaceOk l.pa && winCoreId l.pa == c
        let clash := t.cbs.any (fun e => e.1 != b && rangesMeet e.2.off (e.2.count * e.2.size) o (count * size))
        if !own || o % 128 != 0 || decide (0x80000 < o + count * size) || clash || busy then
          s.failAccess c t .M syl va ⟨errPermission, l.pa⟩
        else
          s.cbChange c t b (some ⟨va, o, size, count, count, 0, 0, 0, 0, [], 0⟩)

/-- The oldest `cbget` of buffer `b` that waits. -/
def Task.cbWaiter (t : Task) (b : Nat) : Option Pend := t.pend.find? (fun p => p.kind == .cbget b && p.val.isNone)

/-- A waiting `cbget` takes the next counted slot, and joins the copy that filled it (R275, R285). -/
def State.cbServe (s : State) (c : CoreId) (b : Nat) : State :=
  match s.task? c with
  | none => s
  | some t =>
    match t.cbs.find b, t.cbWaiter b with
    | some x, some p =>
      if x.filled = 0 then s
      else
        let v := x.base + BitVec.ofNat 64 (x.rd * x.size)
        let h := (t.ops.find? (fun e => e.2.cb == some b && e.2.slot == some x.rd && e.2.done && !e.2.joined)).map Prod.fst
        let s := s.setTask c { t with
          cbs := t.cbs.set b { x with filled := x.filled - 1, held := x.held + 1, rd := (x.rd + 1) % x.count }
          pend := t.pend.map (fun q => if q.id = p.id then { q with val := some (v.setWidth 1024) } else q) }
        match h with
        | some h => s.joinOp c h
        | none => s
    | _, _ => s

def execCbget (f : FmtML) (s : State) : Host.Outcome State Fault Refusal :=
  s.issueS f.gd fun t =>
    let b := f.aux.toNat
    match t.cbs.find b with
    | none => s.cbFail s.cur t (encode (.cbget f)) 0#64
    | some _ => (s.setTask s.cur (t.putPend (t.regs.dest .M f.d) (.cbget b) none)).cbServe s.cur b

def execCbput (f : FmtML) (s : State) : Host.Outcome State Fault Refusal :=
  s.issueS f.gd fun t =>
    let b := f.aux.toNat
    match t.cbs.find b with
    | none => s.cbFail s.cur t (encode (.cbput f)) 0#64
    | some x =>
      if x.held = 0 then s.cbFail s.cur t (encode (.cbput f)) 0#64
      else s.setTask s.cur { t with cbs := t.cbs.set b { x with held := x.held - 1, free := x.free + 1 } }

/-- The state word of a buffer (R247). -/
def CircBuf.word (x : CircBuf) : Word :=
  pack64 [(1, 63), (x.filled, 47), (x.free, 38), (x.rd, 30), (x.wr, 22), (x.held, 13)]

def execCbqry (f : FmtML) (s : State) : Host.Outcome State Fault Refusal :=
  s.issue f.gd fun t =>
    t.putW 1 .M f.d (match t.cbs.find f.aux.toNat with | some x => x.word | none => 0#64)

/-! ## Register moves (R276) -/

def execXli (f : FmtMI) (s : State) : Host.Outcome State Fault Refusal :=
  s.issue f.gd fun t => t.putW 1 .M f.d (f.imm.signExtend 64)

def execXadd (f : FmtMI) (s : State) : Host.Outcome State Fault Refusal :=
  s.issue f.gd fun t => t.putW 1 .M f.d (t.srcM f.s1 + f.imm.signExtend 64)

def execXmov (f : FmtMI) (s : State) : Host.Outcome State Fault Refusal :=
  s.issue f.gd fun t => t.putW 1 .M f.d (t.srcM f.s1)

def execMmov (f : FmtMI) (s : State) : Host.Outcome State Fault Refusal :=
  s.issue f.gd fun t => t.putV 1 .M f.d (t.regs.read .M 0#1024 f.s1) 0#7

end Sys2Proof.Machine
end

