-- ==== Sys2Proof/Machine/Stream.lean ====
section
/-! DEFINITION. Stream arrays: the Yarrow generator, converters, products and the confidence comparison (R293 to R309), commands,
joins and the E-slot instructions that drive an array (R310 to R331). -/

namespace Sys2Proof.Machine

/-! ## The Yarrow generator (R294) -/

/-- Dimension 1: the 16 bits of the index reversed. -/
def yarrowRev (t : Nat) : Nat := bitRev 16 t

/-- Bit 15 - i of dimension 2: the parity of the index bits j with (j and i) = i. -/
def pascalBit (t i : Nat) : Bool :=
  ((List.range 16).filter (fun j => j &&& i == i && t.testBit j)).length % 2 == 1

/-- Dimension 2. -/
def pascal (t : Nat) : Nat := ((List.range 16).map (fun i => if pascalBit t i then 2 ^ (15 - i) else 0)).foldl (· + ·) 0

def yarrow1 (t : Nat) (seed : BitVec 16) : Nat := yarrowRev t ^^^ seed.toNat
def yarrow2 (t : Nat) (seed : BitVec 16) : Nat := pascal t ^^^ seed.toNat

/-! ## Format pairs (R314) -/

def pairAf (f : BitVec 17) : Nat := f.toNat % 16
def pairBf (f : BitVec 17) : Nat := f.toNat / 16 % 16
def pairKa (f : BitVec 17) : Nat := f.toNat / 256 % 16 + 1
def pairKb (f : BitVec 17) : Nat := f.toNat / 4096 % 16 + 1
def pairPol (f : BitVec 17) : Bool := f.getLsbD 16

/-! ## Converters (R295, R296) -/

/-- The real value of an element: format, code, scale entry, code of the paired element. A read of it by an array sets no FMT: the
spec names FSTAT's flag for reads, and for arrays QNAN and QSAT (DESIGN CHOICE, log entry 86). -/
def elemValue (f code en nb : Nat) : FVal :=
  match f with
  | 0 => .fin false (low 8 code) (-8)
  | 1 => fscale (-7) (fOfInt (sval 8 code))
  | 2 => .fin false (low 16 code) (-16)
  | 3 => fscale (-15) (fOfInt (sval 16 code))
  | 4 => (fp8Read .e4m3 en code).1
  | 5 => (fp8Read .e5m2 en code).1
  | 6 => (n4xRead en (low 4 code) (low 4 nb)).1
  | 7 => fdec fmtF16 code
  | _ => fdec fmtBF16 code

/-- A converted element: its code of k bits, and the indicators QNAN and QSAT. -/
structure Conv where
  u : Nat
  nan : Bool
  sat : Bool
  deriving DecidableEq, Repr

/-- Clamps an integer and offsets it to a code. -/
def convClamp (lo hi v : Int) : Conv :=
  let c := if v < lo then lo else if hi < v then hi else v
  ⟨(c - lo).toNat, false, c != v⟩

/-- Quantisation to k bits under a polarity (R296): unipolar codes count from 0, bipolar ones from the most negative value. -/
def quantise (bip : Bool) (k : Nat) (x : FVal) : Conv :=
  let lo : Int := if bip then -(2 ^ (k - 1) : Int) else 0
  let hi : Int := if bip then 2 ^ (k - 1) - 1 else 2 ^ k - 1
  let sh : Int := if bip then k - 1 else k
  match x with
  | .nan => { convClamp lo hi 0 with nan := true }
  | .inf s => ⟨((if s then lo else hi) - lo).toNat, false, true⟩
  | .fin s m e => convClamp lo hi (rndInt .rne s m (e + sh)).1

/-- A byte of the scratchpad, and one of the column store, as a command holds it: what it read when the command was issued (R308). -/
def Cmd.scrByte (k : Cmd) (o : Nat) : Byte := (k.scr.get 0#32 (o / 4)).extractLsb' (8 * (o % 4)) 8
def Cmd.colByte (k : Cmd) (o : Nat) : Nat := (k.cols.get 0#8 o).toNat

/-- Byte `b` of the vector in progress of a command. -/
def Cmd.vecByte (k : Cmd) (v b : Nat) : Nat := (k.scrByte (((k.vecs.getD v []).getD (b / 128) 0) + b % 128)).toNat

/-- Code of element `i` of vector `v` (R307, R151). -/
def Cmd.aCode (k : Cmd) (v i : Nat) : Nat :=
  match fmtBits (pairAf k.fmt) with
  | 4 => k.vecByte v (i / 2) / 2 ^ (4 * (i % 2)) % 16
  | 16 => k.vecByte v (2 * i) + 256 * k.vecByte v (2 * i + 1)
  | _ => k.vecByte v i

/-- Scale entry of element `i` of vector `v` (R295, R319). -/
def Cmd.aScale (k : Cmd) (v i : Nat) : Nat :=
  match k.scale with
  | some a => scaleEntry k.gr v i (BitVec.ofNat 1024 (leNat ((List.range 32).map (fun i => k.scrByte (a + i)))))
  | none => 0x7F00

/-- Converted element of row `i`. -/
def Cmd.aConv (k : Cmd) (v i : Nat) : Conv :=
  quantise (pairPol k.fmt) (pairKa k.fmt)
    (elemValue (pairAf k.fmt) (k.aCode v i) (k.aScale v i) (k.aCode v (i ^^^ 1)))

/-- Offset of a cell of the column store (R306). -/
def cellOff (arr slot i j : Nat) : Nat := 0x400000 * arr + 0x20000 * slot + 512 * i + 2 * j

/-- Code of the B element of row `i`, column `j`. -/
def Cmd.bCode (k : Cmd) (arr i j : Nat) : Nat :=
  let o := cellOff arr (ctrlSlot k.ctrl) i j
  match fmtBits (pairBf k.fmt) with
  | 16 => k.colByte o + 256 * k.colByte (o + 1)
  | 4 => k.colByte o % 16
  | _ => k.colByte o

/-- Scale entry of a column for the 16 rows around `i` (R306). -/
def Cmd.bScale (k : Cmd) (arr i j : Nat) : Nat :=
  let o (r : Nat) : Nat := cellOff arr (ctrlSlot k.ctrl) r j + 1
  k.colByte (o (i / 16 * 16)) + 256 * k.colByte (o (i / 16 * 16 + 1))

/-- Converted B element of a cell. -/
def Cmd.bConv (k : Cmd) (arr i j : Nat) : Conv :=
  quantise (pairPol k.fmt) (pairKb k.fmt)
    (elemValue (pairBf k.fmt) (k.bCode arr i j) (k.bScale arr i j) (k.bCode arr (i ^^^ 1) j))

/-! ## Products and counts (R297, R298) -/

/-- Rows that are not muted. -/
def Cmd.rows (k : Cmd) : List Nat := (List.range 256).filter (fun i => !k.mute.getLsbD i)

/-- Stream bits of row `i` and of cell `(i, j)`. -/
def Cmd.aBit (k : Cmd) (i u t : Nat) : Bool :=
  decide (yarrow1 t (k.seed1.get 0#16 i) / 2 ^ (16 - pairKa k.fmt) < u)
def Cmd.bBit (k : Cmd) (j u t : Nat) : Bool :=
  decide (yarrow2 t (k.seed2.get 0#16 j) / 2 ^ (16 - pairKb k.fmt) < u)

/-- A cell's product bit. -/
def prodBit (bip a b : Bool) : Bool := if bip then a == b else a && b

/-- What column `j` gains in step `st` (from 1) of vector `v`. -/
def Cmd.stepGain (k : Cmd) (arr v st j : Nat) : Nat :=
  (k.rows.map (fun i =>
    let ua := (k.aConv v i).u
    let ub := (k.bConv arr i j).u
    ((List.range 8).filter (fun d =>
      let x := 8 * (st - 1) + d
      prodBit (pairPol k.fmt) (k.aBit i ua x) (k.bBit j ub x))).length)).foldl (· + ·) 0

/-! ## The confidence comparison (R303, R304) -/

/-- The column group's columns. -/
def Cmd.group (k : Cmd) : List Nat := (List.range k.gw).map (fun i => k.gcol + i)

/-- BEST, the lead, and whether another column ties. -/
def bestOf (c : Nat → Nat) (g : List Nat) : Nat × Nat × Bool :=
  let m := (g.map c).foldl max 0
  let b := (g.find? (fun j => c j == m)).getD 0
  let o := ((g.filter (fun j => j != b)).map c).foldl max 0
  (b, m - o, (g.filter (fun j => j != b)).any (fun j => c j == m))

/-! ## Status words (R322) -/

def stSteps (w : Word) : Nat := w.toNat / 2 ^ 40
def stBit (w : Word) (i : Nat) : Bool := w.getLsbD i

/-- The status a vector leaves in its set: achieved steps, best, stop, tie, indicators. -/
def Cmd.status (k : Cmd) (old : Word) (st : Nat) (best : Nat) (stop tie nan sat csat : Bool) : Word :=
  let acc := k.form == .goa
  let keep (i : Nat) : Bool := acc && stBit old i
  pack64 [(if acc then min (2 ^ 24 - 1) (stSteps old + st) else st, 40), (if k.gw = 0 then 0 else best, 32), (b2n stop, 31),
    (b2n (tie && k.gw != 0), 30), (b2n (k.gw != 0), 29), (b2n (nan || keep 28), 28), (b2n (sat || keep 27), 27),
    (b2n (csat || keep 26), 26), (k.rows.length, 16), (b2n (pairPol k.fmt), 15)]

/-- Indicators that a vector's conversions raise: its A elements and the command's B elements of unmuted rows (R321). -/
def Cmd.indicators (k : Cmd) (arr v : Nat) : Bool × Bool :=
  let cs := k.rows.map (k.aConv v) ++ k.rows.flatMap (fun i => (List.range 256).map (k.bConv arr i))
  (cs.any Conv.nan, cs.any Conv.sat)

/-! ## Steps (R293, R321) -/

/-- The counts of set `cs` after step `st`, and whether one saturated. -/
def ArrayS.addStep (x : ArrayS) (k : Cmd) (arr cs st : Nat) : ArrayS × Bool :=
  let fresh := st = 1 ∧ k.form ≠ .goa
  (List.range 256).foldl (fun (r : ArrayS × Bool) j =>
    let old := if fresh then 0 else (r.1.counts.get 0#32 (256 * cs + j)).toNat
    let n := old + k.stepGain arr k.v st j
    ({ r.1 with counts := r.1.counts.set (256 * cs + j) (BitVec.ofNat 32 (min n 0xFFFFFFFF)) },
      r.2 || decide (0xFFFFFFFF < n))) (x, false)

/-- CSAT of a set is raised at once (R321). -/
def ArrayS.markCsat (x : ArrayS) (cs : Nat) (b : Bool) : ArrayS :=
  if b then { x with stat := x.stat.set cs (x.stat.get 0#64 cs ||| BitVec.twoPow 64 26) } else x

/-- One step of the current command of array `arr` of a task. -/
def Task.arrayStep (t : Task) (arr : Nat) : Task :=
  let x := t.arr arr
  match x.cur with
  | none => t
  | some k =>
    let st := k.t + 1
    let cs := ctrlCset k.ctrl + k.v
    let x := if st = 1 ∧ k.form ≠ .goa then { x with stat := x.stat.set cs 0#64 } else x
    let (x, sat) := x.addStep k arr cs st
    let x := x.markCsat cs sat
    let c (j : Nat) : Nat := (x.counts.get 0#32 (256 * cs + j)).toNat
    let (best, lead, tie) := bestOf c k.group
    let stop := decide (st < k.sl) && k.gw != 0 && decide ((k.thr.get 0xFFFFFFFF#32 (min st 16 - 1)).toNat < lead)
    if stop || decide (k.sl ≤ st) then
      let old := x.stat.get 0#64 cs
      let (nan, qs) := k.indicators arr k.v
      let w := k.status old st best stop tie nan qs (stBit old 26)
      let last := decide (ctrlNvec k.ctrl ≤ k.v + 1)
      t.setArr arr { x with
        stat := x.stat.set cs w
        cur := some { k with v := k.v + 1, t := 0, load := if last then 0 else 4, ended := last } }
    else t.setArr arr { x with cur := some { k with t := st } }

/-! ## Commands and joins -/

/-- The region of an array's engine registers (R286, R331). -/
def engRegion (c : CoreId) (arr : Nat) : Nat := windowPa (stackOf c).val (coreInStack c) 5 (0x100 * arr)

/-- The first check of every instruction that names an array: its registers' region is not lent (R313). -/
def State.mxError (s : State) (c : CoreId) (t : Task) (arr : Nat) : Option AccErr :=
  (s.tokenErr (t.agent c) (stackOf c) (engRegion c arr) .load).map (fun e => ⟨e, engRegion c arr⟩)

/-- The mappings of a list of addresses (R251 step 1). -/
def State.transAll (s : State) (c : CoreId) (t : Task) : List Word → Except AccErr (List Leaf)
  | [] => .ok []
  | va :: r => match s.translateOn c t.ctx va with
    | .error _ => .error ⟨errTranslation, 0⟩
    | .ok l => match s.transAll c t r with
      | .ok m => .ok (l :: m)
      | .error e => .error e

/-- The scratchpad offset of a mapping in the task's own scratchpad window. -/
def ownScratch (c : CoreId) (l : Leaf) : Except AccErr Nat :=
  if paWindow l.pa && winKind l.pa == 0 && winPlaceOk l.pa && winCoreId l.pa == c && decide (winOff l.pa < 0x80000) then
    .ok (winOff l.pa)
  else .error ⟨errPermission, l.pa⟩

/-- Those of a list of mappings. -/
def ownScratchAll (c : CoreId) : List Leaf → Except AccErr (List Nat)
  | [] => .ok []
  | l :: r => match ownScratch c l, ownScratchAll c r with
    | .ok o, .ok m => .ok (o :: m)
    | .error e, _ => .error e
    | _, .error e => .error e

/-- The addresses of the 128-byte parts of `n` vectors, vector by vector (R307, R320). -/
def partAddrs (abase : Word) (stride parts n : Nat) : List Word :=
  (List.range n).flatMap (fun v => (List.range parts).map (fun j => abase + BitVec.ofNat 64 (128 * (stride * v + j))))

/-- A list cut into `n` pieces of `k`. -/
def cutList {α : Type} (k : Nat) : Nat → List α → List (List α)
  | 0, _ => []
  | n + 1, l => l.take k :: cutList k n (l.drop k)

/-- A region of the task's own core within a window range that the task does not hold: regions without a record are held by
being current (R233). -/
def State.lentWithin (s : State) (c : CoreId) (t : Task) (kind o n : Nat) : Option AccErr :=
  let a := windowPa (stackOf c).val (coreInStack c) kind o
  let bases := ((s.stack (stackOf c)).toks.filter (fun e => e.2.meets a n)).map (fun e => e.2.base) ++
    (t.lentOut.filter (fun r => decide (r.1 < a + n) && decide (a < r.1 + regionBytes r.2.1))).map Prod.fst
  bases.findSome? (fun b => (s.tokenErr (t.agent c) (stackOf c) b .load).map (fun x => ⟨x, b⟩))

/-- The first of a list that is present. -/
def firstSome {α : Type} : List (Option α) → Option α
  | [] => none
  | some a :: _ => some a
  | none :: l => firstSome l

/-- What a command reads, as it stands in its task's scratchpad and column store now (R308). -/
def Cmd.capture (k : Cmd) (t : Task) (arr : Nat) : Cmd :=
  let src (o : Nat) : Bool := k.vecs.any (fun v => v.any (fun a => rangesMeet a 128 o 4)) ||
    (match k.scale with | some a => rangesMeet a 32 o 4 | none => false)
  { k with
    scr := t.scratch.filter (fun e => src (4 * e.1))
    cols := t.col.filter (fun e => rangesMeet (cellOff arr (ctrlSlot k.ctrl) 0 0) 0x20000 e.1 1) }

/-- THE CHECKS OF A COMMIT and the copies it takes (R311, R319, R320); `scale` is the scale operand, none for 0xC0. -/
def State.mxCapture (s : State) (c : CoreId) (t : Task) (arr : Nat) (form : MxForm) (scale : Option Word) (gr : Nat) :
    Except AccErr Cmd :=
  let x := t.arr arr
  let v := x.ctrl
  let af := pairAf x.fmt
  let n := ctrlNvec v
  if v.toNat / 2 ^ 30 != 0 || v.toNat / 2 ^ 11 % 4 != 0 || v.toNat / 2 ^ 3 % 32 != 0 || decide (8 < ctrlCset v + n) then
    .error ⟨errPermission, 0⟩
  else
    let vb := vecBytes af
    let parts := (vb + 127) / 128
    let reads : Option Word := if fmtScaled af then scale else none
    match s.transAll c t (partAddrs x.abase (ctrlAstr v) parts n), s.transAll c t reads.toList with
    | .error e, _ => .error e
    | _, .error e => .error e
    | .ok ls, .ok sl => match ownScratchAll c ls, ownScratchAll c sl with
      | .error e, _ => .error e
      | _, .error e => .error e
      | .ok os, .ok sos =>
        let vecs := cutList parts n os
        let so := sos.head?
        if x.abase.toNat % 128 != 0 || (match reads with | some a => a.toNat % 32 != 0 | none => false) then
          .error ⟨errPermission, 0⟩
        else
          let bad := firstSome
            ((vecs.flatten.map (fun o => s.lentWithin c t 0 o (min 128 vb))) ++
             (match so with | some o => [s.lentWithin c t 0 o 32] | none => []) ++
             [s.lentWithin c t 4 (0x400000 * arr + 0x20000 * ctrlSlot v) 0x20000,
              s.lentWithin c t 3 (0x2000 * arr + 0x400 * ctrlCset v) (0x400 * n)])
          match bad with
          | some e => .error e
          | none => .ok (Cmd.capture (⟨x.nextCmd, form, x.fmt, x.sl, x.thr, x.seed1, x.seed2, x.mute, x.gcol, x.gw, vecs, v, so, gr, 0, 0, 0,
              false, none, false, false, false, [], []⟩ : Cmd) t arr)

/-- The sets a command names. -/
def Cmd.sets (k : Cmd) : List Nat := (List.range (ctrlNvec k.ctrl)).map (fun i => ctrlCset k.ctrl + i)

/-- A COMMIT (R319): the command becomes current, or pending behind it. A pending command loads B ahead (R329). -/
def ArrayS.commit (x : ArrayS) (k : Cmd) : ArrayS :=
  let k := { k with id := x.nextCmd, load := if x.cur.isNone then 68 else 4 }
  { x with
    cur := if x.cur.isNone then some k else x.cur
    pnd := if x.cur.isNone then x.pnd else some k
    holds := x.holds ++ [(k, k.sets)]
    drn := false
    nextCmd := x.nextCmd + 1 }

/-- A join of set `n` (R323). -/
def ArrayS.joinSet (x : ArrayS) (n : Nat) : ArrayS :=
  { x with holds := (x.holds.map (fun h => (h.1, h.2.filter (· != n)))).filter (fun h => !h.2.isEmpty) }

/-- A join of every set: the array is drained (R323). -/
def ArrayS.joinAll (x : ArrayS) : ArrayS := { x with holds := [], drn := true }

/-- Whether command `id` has ended: it is neither current nor pending. -/
def ArrayS.hasEnded (x : ArrayS) (id : Nat) : Bool :=
  (match x.cur with | some k => k.id != id || k.ended | none => true) && (match x.pnd with | some k => k.id != id | none => true)

/-- Whether every committed command that names set `n` has ended. -/
def ArrayS.setEnded (x : ArrayS) (n : Nat) : Bool := x.holds.all (fun h => !h.1.sets.contains n || x.hasEnded h.1.id)

/-- Whether the array has no current and no pending command. -/
def ArrayS.idle (x : ArrayS) : Bool := x.cur.isNone && x.pnd.isNone

/-- `mxstop` (R328): commands are abandoned, and every unjoined set reads zero with ABT. -/
def ArrayS.stop (x : ArrayS) : ArrayS :=
  let sets := x.holds.flatMap Prod.snd
  let x := sets.foldl (fun (x : ArrayS) n => { x with
    counts := x.counts.filter (fun e => e.1 / 256 != n)
    stat := x.stat.set n (BitVec.twoPow 64 25) }) x
  { x with cur := none, pnd := none }.joinAll

/-- The word of `mxst` (R325). -/
def ArrayS.stWord (x : ArrayS) : Word :=
  pack64 [(((List.range 256).filter (fun i => !x.mute.getLsbD i)).length, 55), (x.gw, 46), (x.gcol, 38), (x.sl, 24),
    (x.fmt.toNat, 0)]

/-- A queue entry that waits for its value takes it. -/
def Task.give (t : Task) (d : Dest) (v : Vec) : Task :=
  { t with pend := t.pend.map (fun p => if p.dest = d ∧ p.val = none then { p with val := some v } else p) }

/-- A waiting array instruction completes where its condition holds (R319, R323 to R328). -/
def State.mxTry (s : State) (c : CoreId) (w : Wait) : State :=
  match s.task? c with
  | none => s
  | some t =>
    if !t.waits.contains w then s
    else
      let drop (t : Task) : Task := { t with waits := t.waits.erase w }
      match w with
      | .commit a form sc gr scr cols =>
        if (t.arr a).pnd.isSome then s
        else match s.mxCapture c t a form (if sc.toNat = 2 ^ 64 - 1 then none else some sc) gr with
          | .error e => s.failAccess c (drop t) .E 0#64 0#64 e
          | .ok k =>
            let t := drop (t.setArr a ((t.arr a).commit { k with scr := scr, cols := cols }))
            s.setTask c (if form = .gos then { t with waits := t.waits ++ [.joinCmd a ((t.arr a).nextCmd - 1)] } else t)
      | .joinSet a n d =>
        if (t.arr a).setEnded n then
          s.setTask c ((drop (t.setArr a ((t.arr a).joinSet n))).give d (((t.arr a).stat.get 0#64 n).setWidth 1024))
        else s
      | .joinAll a d _ =>
        if (t.arr a).idle then
          let t := drop (t.setArr a (t.arr a).joinAll)
          s.setTask c (match d with
            | some d => t.give d (((t.arr a).stWord).setWidth 1024)
            | none => t)
        else s
      | .joinCmd a id =>
        if (t.arr a).hasEnded id then s.setTask c (drop (t.setArr a (t.arr a).joinAll)) else s
      | _ => s

/-- A waiting instruction starts to wait, and completes at once where it can. -/
def State.mxWait (s : State) (c : CoreId) (w : Wait) : State :=
  (s.mapTask c (fun t => { t with waits := t.waits ++ [w] })).mxTry c w

/-! ## E-slot instructions -/

/-- A 64-bit source of the E slot; formats E-M and E-C have no immediate. -/
def Task.srcE (t : Task) (o : Opd) : Word := t.regs.readW .E 0#64 o

/-- An array instruction that acts on its task alone, after the check of R313. -/
def State.mxIssue (s : State) (gd : Guard) (arr : Bool) (syl : Word) (f : Task → ArrayS → State) :
    Host.Outcome State Fault Refusal :=
  s.issueS gd fun t =>
    match s.mxError s.cur t arr.toNat with
    | some e => s.failAccess s.cur t .E syl 0#64 e
    | none => f t (t.arr arr.toNat)

/-- Replaces the named array. -/
def State.putArr (s : State) (t : Task) (arr : Bool) (x : ArrayS) : State := s.setTask s.cur (t.setArr arr.toNat x)

/-- `mxfmt` (R314); its two checks stand with those of R123. -/
def execMxfmt (f : FmtEI) (s : State) : Host.Outcome State Fault Refusal :=
  s.mxIssue f.gd f.arr (encode (.mxfmt f)) fun t x => s.putArr t f.arr { x with fmt := f.imm.setWidth 17 }

def execMxlen (f : FmtEI) (s : State) : Host.Outcome State Fault Refusal :=
  s.mxIssue f.gd f.arr (encode (.mxlen f)) fun t x => s.putArr t f.arr { x with sl := f.imm.toNat }

/-- Seeds in arithmetic progression for 256 rows or columns (R317). -/
def seedRun (v : Word) : Tab (BitVec 16) :=
  (List.range 256).map (fun i => (i, BitVec.ofNat 16 (v.toNat % 65536 + i * (v.toNat / 65536 % 65536))))

def execMxseed (f : FmtEM) (s : State) : Host.Outcome State Fault Refusal :=
  s.mxIssue f.gd f.arr (encode (.mxseed f)) fun t x =>
    let v := t.srcE f.s1
    let i := v.toNat / 65536 % 256
    s.putArr t f.arr (match f.set.toNat with
      | 0 => { x with seed1 := seedRun v }
      | 1 => { x with seed2 := seedRun v }
      | 2 => { x with seed1 := x.seed1.set i (v.setWidth 16) }
      | _ => { x with seed2 := x.seed2.set i (v.setWidth 16) })

def execMxthr (f : FmtEM) (s : State) : Host.Outcome State Fault Refusal :=
  s.mxIssue f.gd f.arr (encode (.mxthr f)) fun t x => s.putArr t f.arr (x.setThr f.set.toNat (t.srcE f.s1))

def execMxset (f : FmtEM) (s : State) : Host.Outcome State Fault Refusal :=
  s.mxIssue f.gd f.arr (encode (.mxset f)) fun t x =>
    s.putArr t f.arr (if f.set = 0#3 then { x with abase := t.srcE f.s1 } else { x with ctrl := t.srcE f.s1 })

def execMxmute (f : FmtEM) (s : State) : Host.Outcome State Fault Refusal :=
  s.mxIssue f.gd f.arr (encode (.mxmute f)) fun t x => s.putArr t f.arr (x.setMute f.set.toNat (t.srcE f.s1))

def execMxsel (f : FmtEI) (s : State) : Host.Outcome State Fault Refusal :=
  s.mxIssue f.gd f.arr (encode (.mxsel f)) fun t x =>
    s.putArr t f.arr { x with gw := f.imm.toNat / 256 % 512, gcol := f.imm.toNat % 256 }

/-- The scale operand of a commit: none for 0xC0 (R319). -/
def Task.scaleOpd (t : Task) (s3 : BitVec 8) : Option Word := if s3 = 0xC0#8 then none else some (t.srcE (s3Opd s3))

/-- The `mxgo` family (R319): the checks of R320, then the commit, at once or after the pending slot is free. -/
def State.mxCommit (s : State) (t : Task) (f : FmtEM) (syl : Word) (form : MxForm) : State :=
  let a := f.arr.toNat
  match s.mxCapture s.cur t a form (t.scaleOpd f.s3) f.gr.toNat with
  | .error e => s.failAccess s.cur t .E syl (t.arr a).abase e
  | .ok k => s.mxWait s.cur (.commit a form ((t.scaleOpd f.s3).getD (BitVec.ofNat 64 (2 ^ 64 - 1))) f.gr.toNat k.scr k.cols)

/-- Commits that a suspended task waited for are issued again, on what they then read (R319). -/
def Task.reissueCommits (t : Task) : Task :=
  { t with waits := t.waits.map (fun w => match w with
      | .commit a form sc gr _ _ => .commit a form sc gr t.scratch t.col
      | w => w) }

def execMxgo (f : FmtEM) (s : State) : Host.Outcome State Fault Refusal :=
  s.mxIssue f.gd f.arr (encode (.mxgo f)) fun t _ => s.mxCommit t f (encode (.mxgo f)) .go

def execMxgos (f : FmtEM) (s : State) : Host.Outcome State Fault Refusal :=
  s.mxIssue f.gd f.arr (encode (.mxgos f)) fun t _ => s.mxCommit t f (encode (.mxgos f)) .gos

def execMxgoa (f : FmtEM) (s : State) : Host.Outcome State Fault Refusal :=
  s.mxIssue f.gd f.arr (encode (.mxgoa f)) fun t _ => s.mxCommit t f (encode (.mxgoa f)) .goa

def execMxdrain (f : FmtEI) (s : State) : Host.Outcome State Fault Refusal :=
  s.mxIssue f.gd f.arr (encode (.mxdrain f)) fun _ _ => s.mxWait s.cur (.joinAll f.arr.toNat none false)

def execMxrd (f : FmtEM) (s : State) : Host.Outcome State Fault Refusal :=
  s.mxIssue f.gd f.arr (encode (.mxrd f)) fun t _ =>
    let d := t.regs.dest .E f.d
    (s.setTask s.cur (t.putPend d .value none)).mxWait s.cur (.joinSet f.arr.toNat f.set.toNat d)

def execMxst (f : FmtEM) (s : State) : Host.Outcome State Fault Refusal :=
  s.mxIssue f.gd f.arr (encode (.mxst f)) fun t _ =>
    let d := t.regs.dest .E f.d
    (s.setTask s.cur (t.putPend d .value none)).mxWait s.cur (.joinAll f.arr.toNat (some d) false)

/-- `mxclr` (R327): a lent or held set makes it an unowned access (R233, R323). -/
def execMxclr (f : FmtEI) (s : State) : Host.Outcome State Fault Refusal :=
  s.mxIssue f.gd f.arr (encode (.mxclr f)) fun t x =>
    let sets := (List.range 8).filter (fun n => f.imm.getLsbD n)
    match sets.findSome? (fun n => s.lentWithin s.cur t 3 (0x2000 * f.arr.toNat + 0x400 * n) 0x400) with
    | some e => s.failAccess s.cur t .E (encode (.mxclr f)) 0#64 e
    | none =>
    if sets.any (fun n => x.holds.any (fun h => h.2.contains n)) then
      s.failAccess s.cur t .E (encode (.mxclr f)) 0#64 ⟨errUnowned, 0⟩
    else s.putArr t f.arr (sets.foldl (fun (x : ArrayS) n => { x with
      counts := x.counts.filter (fun e => e.1 / 256 != n), stat := x.stat.drop n }) x)

/-- `mxstop` (R328): a count set that it clears and that is lent makes it an unowned access (R233). -/
def execMxstop (f : FmtEI) (s : State) : Host.Outcome State Fault Refusal :=
  s.mxIssue f.gd f.arr (encode (.mxstop f)) fun t x =>
    match (x.holds.flatMap Prod.snd).findSome? (fun n => s.lentWithin s.cur t 3 (0x2000 * f.arr.toNat + 0x400 * n) 0x400) with
    | some e => s.failAccess s.cur t .E (encode (.mxstop f)) 0#64 e
    | none => s.putArr t f.arr x.stop

/-! ## Events of an array -/

/-- The core and the array in it of an array number (R20). -/
def arrCore (a : ArrayId) : CoreId := Fin.ofNat 1024 (a.val / 2)
def arrIn (a : ArrayId) : Nat := a.val % 2

/-- What a launch has used on a stack, raised (R469). -/
def State.charge (s : State) (launch : Nat) (st : StackId) (f : Acct → Acct) : State :=
  match s.launch? launch with
  | some l => s.setLaunch launch { l with acct := l.acct.set st.val (f (l.acct.get Acct.zero st.val)) }
  | none => s

/-- ARRAY_STEP: every cell advances by 8 stream bits and the counts take the products (R293, R298); nothing where no command is
streaming. -/
def execArrayStep (arr : ArrayId) (s : State) : Host.Outcome State Fault Refusal :=
  let c := arrCore arr
  match s.task? c with
  | none => .next s
  | some t =>
    match (t.arr (arrIn arr)).cur with
    | none => .next s
    | some k =>
      if !k.started || k.ended || k.load != 0 then .next s
      else
        let s := (s.setTask c (t.arrayStep (arrIn arr))).count t.ctx ctrASTEP 1
        .next (s.charge t.launch (stackOf c) (fun a => { a with astep := a.astep + 1 }))

/-- ARRAY_COMMAND_END: a command whose last vector is done gives way to the pending one (R321). -/
def execArrayCommandEnd (arr : ArrayId) (s : State) : Host.Outcome State Fault Refusal :=
  let c := arrCore arr
  match s.task? c with
  | none => .next s
  | some t =>
    let x := t.arr (arrIn arr)
    match x.cur with
    | some k => .next (if k.ended then s.setTask c (t.setArr (arrIn arr) { x with cur := x.pnd, pnd := none }) else s)
    | none => .next s

end Sys2Proof.Machine
end

