-- ==== Sys2Proof/Machine/Power.lean ====
section
/-! DEFINITION. Execution power: declarations, array starts, pre-positioning, droops, trips, the clock and the rails (R336 to
R355). -/

namespace Sys2Proof.Machine

/-! ## The clock of a cluster -/

/-- Whether a cluster has cycles: ON, no power-state transition, no relock (R349, R482). -/
def ClusterS.clocked (x : ClusterS) : Bool := x.pst == 0#3 && !x.pbusy && !x.busy

/-- Cycles of a running clock that have begun before a moment and that the model has not run one by one, since the cluster had
nothing to do in them (R32). -/
def ClusterS.skipped (x : ClusterS) (now : Nat) : Nat :=
  if x.edge < now then ((now - x.edge) * x.fmhz.toNat - x.sub + 999) / 1000 else 0

/-- The count of cycles and the next cycle's beginning, brought up to a moment. -/
def ClusterS.catchUp (x : ClusterS) (now : Nat) : ClusterS :=
  let n := x.skipped now
  let u := x.sub + 1000 * n
  { x with cyc := x.cyc + n, edge := x.edge + u / x.fmhz.toNat, sub := u % x.fmhz.toNat }

/-- Whether a trip freezes the cluster (R354). -/
def ClusterS.tripped (x : ClusterS) : Bool := x.hot || x.overCur

/-- Whether the present cycle of a cluster is a freeze cycle for all its cores and arrays (R346, R354). -/
def ClusterS.frozen (x : ClusterS) : Bool := x.tripped || (!x.strOn && x.hiwOn && x.hiwPos % 2 == 0)

/-- A core of a cluster by its number in it. -/
def clusterCore (cl : ClusterId) (k : Nat) : CoreId := Fin.ofNat 1024 (4 * cl.val + k)

/-- `n` cycles in which a core issues nothing leave its window of weights (R338). -/
def CoreS.idleFor (x : CoreS) (n : Nat) : CoreS :=
  { x with weights := (List.range (min n 32)).foldl (fun l _ => if l.isEmpty then [] else windowPush l 0) x.weights }

/-- Contexts with a task current in a cluster, each once. -/
def State.clusterCtxs (s : State) (cl : ClusterId) : List CtxId :=
  ((List.range 4).filterMap (fun k => (s.task? (clusterCore cl k)).map Task.ctx)).eraseDups

/-! ## Pre-positioning (R343, R353) -/

/-- Whether a declaration's window is not over at a cycle count; a VOID one has none. -/
def Decl.ahead (d : Decl) (cyc : Nat) : Bool := !d.isVoid && decide (cyc < d.to_)

/-- Whether the rail stands at its target for a declaration: its window has opened and is not over, or is within 64 cycles of
opening and ONSET left the regulator the time to reach the target before (R343; log entry 30). -/
def Decl.inForce (d : Decl) (cyc : Nat) : Bool := d.ahead cyc && (d.opened || (d.early && decide (d.from_ ≤ cyc + 64)))

/-- Classes of the covered commands that run on a core. -/
def CoreS.coveredClasses (x : CoreS) : List Nat :=
  match x.live with
  | none => []
  | some t => [t.arr0.cur, t.arr1.cur].filterMap (fun k => match k with
    | some k => if k.started && !k.ended then k.cov.map (fun i => i.toNat) else none
    | none => none)

/-- PRE of a cluster at its present cycle (log entry 30). -/
def State.preTarget (s : State) (cl : ClusterId) : Nat :=
  let x := s.cluster cl
  let cs := (List.range 4).map (fun k => s.core (clusterCore cl k))
  let running := cs.flatMap CoreS.coveredClasses
  let open_ := cs.filterMap (fun c => c.decl.map (fun d => d.icls.toNat))
  let now := !running.isEmpty || cs.any (fun c => match c.decl with | some d => d.inForce x.cyc | none => false)
  if s.fwRun && now then min (6 * ((open_ ++ running).foldl max 0 + 1)) (950 - x.vset.toNat) else 0

/-- The regulator takes up the present target. -/
def State.reposition (s : State) (cl : ClusterId) : State :=
  s.setCluster cl { s.cluster cl with pre := BitVec.ofNat 8 (s.preTarget cl) }

/-! ## phase and phq (R339, R340, R344) -/

/-- The highest class of an image's profile (R51). -/
def Image.topClass (i : Image) : Nat := (i.bursts.map BurstRec.icls).foldl max 0

/-- The declaration a `phase` opens at a cycle; none closes it. -/
def declare (i : Option Image) (cyc len : Nat) (f : FmtEP) : Option Decl :=
  if len = 0 then none
  else
    match i with
    | none => some ⟨true, 0, 0, f.icls, f.bid, false, false⟩
    | some i =>
      match i.bursts.find? (fun r => r.bid == f.bid.toNat) with
      | none => some ⟨true, 0, 0, f.icls, f.bid, false, false⟩
      | some r =>
        if i.topClass < f.icls.toNat then some ⟨true, 0, 0, f.icls, f.bid, false, false⟩
        else
          let a := cyc + f.onset.toNat
          some ⟨false, a, a + min len r.steps, f.icls, f.bid, false, decide (64 ≤ f.onset.toNat)⟩

def execPhase (f : FmtEP) (s : State) : Host.Outcome State Fault Refusal :=
  s.issueS f.gd fun t =>
    let cl := clusterOf s.cur
    let d := declare (s.imageOf t) (s.cluster cl).cyc ((t.srcE f.s1).toNat % 2 ^ 32) f
    (s.setCore s.cur { s.core s.cur with decl := d }).reposition cl

/-- The word `phq` reads (R344). -/
def declWord (d : Option Decl) (k : Option Cmd) (cyc : Nat) : Word :=
  let cov := match k with | some k => k.started && k.cov.isSome | none => false
  let half := match k with | some k => k.started && k.half | none => false
  match d with
  | none => pack64 [(b2n cov, 60), (b2n half, 59)]
  | some d => pack64 [(1, 63), (b2n d.isVoid, 62), (b2n d.opened, 61), (b2n cov, 60), (b2n half, 59), (d.icls.toNat, 56),
      (d.bid.toNat, 50), ((d.to_ - cyc) % 2 ^ 32, 0)]

def execPhq (f : FmtEI) (s : State) : Host.Outcome State Fault Refusal :=
  s.issue f.gd fun t =>
    t.putW 1 .E f.d (declWord (s.core s.cur).decl (t.arr f.arr.toNat).cur (s.cluster (clusterOf s.cur)).cyc)

/-! ## Array starts (R341, R342, R353) -/

/-- Whether an array streams at full rate: its command has started covered and not ended. -/
def ArrayS.fullRate (x : ArrayS) : Bool :=
  match x.cur with
  | some k => k.started && !k.half && !k.ended
  | none => false

/-- The class a start requires: that of the other array's streaming. -/
def Task.requiredClass (t : Task) (arr : Nat) : Nat := if (t.arr (1 - arr)).fullRate then 7 else 3

/-- How a start stands in the present cycle: held, waiting for the stagger, or due, with the class that covers it. -/
inductive StartAns where
  | held
  | stagger
  | due (cov : Option (BitVec 3))
  deriving DecidableEq, Repr

/-- The verdict on a start (R341): held until the window opens, then spaced by GAP, and covered within the window. -/
def State.startAns (s : State) (c : CoreId) (t : Task) (arr : Nat) : StartAns :=
  let cl := clusterOf c
  let x := s.cluster cl
  let fit : Option Decl := match (s.core c).decl with
    | some d => if s.fwRun && !d.isVoid && decide (t.requiredClass arr ≤ d.icls.toNat) then some d else none
    | none => none
  let early := match fit with | some d => decide (x.cyc < d.from_) | none => false
  if early then .held
  else
    let near := match x.lastStart with | some n => decide (x.cyc < n + x.gap.toNat) | none => false
    if near then .stagger
    else .due (match fit with | some d => if x.cyc < d.to_ then some d.icls else none | none => none)

/-- ARRAY_START of array `arr` of a core's task: it starts in the present cycle, or stays held or staggered. -/
def State.arrayStart (s : State) (c : CoreId) (arr : Nat) : State :=
  match s.task? c with
  | none => s
  | some t =>
    match (t.arr arr).cur with
    | none => s
    | some k =>
      if k.started || k.ended || !(s.cluster (clusterOf c)).clocked then s
      else
        match s.startAns c t arr with
        | .held | .stagger => s
        | .due cov =>
          let s := s.setTask c (t.setArr arr { t.arr arr with
            cur := some { k with started := true, cov := cov, half := cov.isNone } })
          let cl := clusterOf c
          let s := s.setCluster cl { s.cluster cl with lastStart := some (s.cluster cl).cyc }
          let s := if cov.isNone && s.fwRun then s.count t.ctx ctrUNDECL 1 else s
          s.reposition cl

def execArrayStart (arr : ArrayId) (s : State) : Host.Outcome State Fault Refusal :=
  .next (s.arrayStart (arrCore arr) (arrIn arr))

/-! ## Windows (R341, R343) -/

/-- The window of a core's declaration opens at its onset. -/
def State.openWindow (s : State) (core : CoreId) : State :=
  let x := s.core core
  match x.decl with
  | some d =>
    if d.isVoid || d.opened || decide ((s.cluster (clusterOf core)).cyc < d.from_) then s
    else (s.setCore core { x with decl := some { d with opened := true } }).reposition (clusterOf core)
  | none => s

/-- PHASE_WINDOW_OPEN. -/
def execPhaseWindowOpen (core : CoreId) (s : State) : Host.Outcome State Fault Refusal := .next (s.openWindow core)

/-- The windows of a cluster's cores that have come open at its present cycle. -/
def State.openWindows (s : State) (cl : ClusterId) : State :=
  [0, 1, 2, 3].foldl (fun (s : State) k => s.openWindow (clusterCore cl k)) s

/-- PHASE_WINDOW_END: the rail target is taken again, without the windows that are over and whose commands have ended. -/
def execPhaseWindowEnd (core : CoreId) (s : State) : Host.Outcome State Fault Refusal := .next (s.reposition (clusterOf core))

/-- THE CLOCK OF A CLUSTER BROUGHT UP to the present moment: the cycles of a running clock in which the cluster had nothing to do
count in its cycles, leave the weight windows of its cores, and open the windows of declarations (R32, R338, R340). -/
def State.catchUp (s : State) (cl : ClusterId) : State :=
  let x := s.cluster cl
  let n := x.skipped s.ns
  if !x.clocked || n = 0 then s
  else
    let s := s.setCluster cl (x.catchUp s.ns)
    ((List.range 4).foldl (fun (s : State) k =>
      s.setCore (clusterCore cl k) ((s.core (clusterCore cl k)).idleFor n)) s).openWindows cl

/-! ## Droop (R345, R346) -/

/-- DROOP_ALARM: counted at once in PSTAT.DRP and in DRPEV of each context present. The stretch begins, or begins again, after the
next cycle, which is an ordinary one: R345 has it begin within 2 cycles of the alarm, and R357's table shows the alarm in cycle 79
and the stretch from 81 on (DEDUCED, log entry 87). -/
def execDroopAlarm (cl : ClusterId) (s : State) : Host.Outcome State Fault Refusal :=
  let x := s.cluster cl
  if !x.clocked then .next s
  else
    let s := s.setCluster cl { x with alarm := true, drp := if x.drp = 255#8 then x.drp else x.drp + 1#8 }
    .next ((s.clusterCtxs cl).foldl (fun (s : State) c => s.count c ctrDRPEV 1) s)

/-- STRETCH_END: the last stretched cycle has passed, and the half-issue window begins (R346). -/
def execStretchEnd (cl : ClusterId) (s : State) : Host.Outcome State Fault Refusal :=
  let x := s.cluster cl
  if x.strOn && x.stretch == 0 then
    .next (s.setCluster cl { x with strOn := false, hiwOn := x.dhiw != 0#10, hiw := x.dhiw.toNat, hiwPos := 0 })
  else .next s

/-- HALF_ISSUE_WINDOW_END: the window's cycles have run out. -/
def execHalfIssueWindowEnd (cl : ClusterId) (s : State) : Host.Outcome State Fault Refusal :=
  let x := s.cluster cl
  if x.hiwOn && x.hiw == 0 then .next (s.setCluster cl { x with hiwOn := false, hiwPos := 0 }) else .next s

/-! ## Trips (R350, R354) -/

def execThermalTrip (cl : ClusterId) (s : State) : Host.Outcome State Fault Refusal :=
  .next ((s.setCluster cl { s.cluster cl with hot := true, ttrip := true }).interrupt (.trip cl))

/-- CURRENT_TRIP; the gap monitor is masked while the rail is off (R482). -/
def execCurrentTrip (cl : ClusterId) (s : State) : Host.Outcome State Fault Refusal :=
  if 2 ≤ (s.cluster cl).pst.toNat then .next s
  else .next ((s.setCluster cl { s.cluster cl with overCur := true, ctrip := true }).interrupt (.trip cl))

def execTripClear (cl : ClusterId) (s : State) : Host.Outcome State Fault Refusal :=
  .next (s.setCluster cl { s.cluster cl with hot := false, overCur := false })

/-! ## Clock and rail (R348, R349, R355, R482) -/

/-- Whether a clock and a set point keep R348. -/
def pointOk (f v : Nat) : Bool :=
  decide (600 ≤ f) && decide (f ≤ 1800) && f % 25 == 0 && decide (550 ≤ v) && decide (v ≤ 950) && decide (f + 1050 ≤ 3 * v)

/-- Whether a cluster is ON with no transition in progress: a write of its point acts at once. -/
def ClusterS.isOn (x : ClusterS) : Bool := x.pst == 0#3 && !x.pbusy

/-- Whether writes of the point wait: a relock or a wake is in progress (R348; for a wake DEDUCED, log entry 88). -/
def ClusterS.pointHeld (x : ClusterS) : Bool := x.busy || (x.pbusy && x.goal == 0#3)

/-- A change of FMHZ of a running cluster: its clock stops at the given moment for a relock (R349). -/
def ClusterS.setClock (x : ClusterS) (now f : Nat) : ClusterS := { x with fmhz := BitVec.ofNat 12 f, busy := true, stopAt := now }

/-- The point that a cluster has, or that its next wake takes: what was written since it left ON, the safe point where the watchdog
has expired meanwhile, else what its registers hold (R482, R485). -/
def ClusterS.effF (x : ClusterS) : Nat := x.nextF.getD (if x.safePend then 1000 else x.fmhz.toNat)
def ClusterS.effV (x : ClusterS) : Nat := x.nextV.getD (if x.safePend then 800 else x.vset.toNat)

/-- A write to CFREQ or VSET that nothing holds: checked by R348 and R355, and applied, in a cluster that is not ON at its next wake
(R482); `fw` says that firmware runs. -/
def ClusterS.pointWrite (x : ClusterS) (fw freq : Bool) (now : Nat) (v : Word) : ClusterS :=
  let f := if freq then v.toNat % 4096 else x.effF
  let mv := if freq then x.effV else v.toNat % 1024
  let x := if freq && v.getLsbD 62 then { x with ref := false } else x
  if !pointOk f mv || ((x.safe || x.safePend) && !fw) then { x with ref := true }
  else if !x.isOn then (if freq then { x with nextF := some f } else { x with nextV := some mv })
  else if f = x.fmhz.toNat ∧ mv = x.vset.toNat then x
  else
    let x := { x with safe := false, vset := BitVec.ofNat 10 mv }
    if f = x.fmhz.toNat then x else x.setClock now f

/-- The safe operating point of a cluster that is ON, in the order of R348: a faster clock is lowered first and VSET follows when the
relock ends; else the rail comes first (R355). -/
def ClusterS.safePoint (x : ClusterS) (now : Nat) : ClusterS :=
  let y := { x with safe := true, safePend := false }
  if 1000 < x.fmhz.toNat then { y.setClock now 1000 with safeV := true }
  else if x.fmhz = 1000#12 then { y with vset := 800#10 }
  else { y with vset := 800#10 }.setClock now 1000

/-- Writes that waited for a relock or a wake, in their order, until one starts another relock (R348). -/
def ClusterS.pointWrites (fw : Bool) (now : Nat) (x : ClusterS) : List (Bool × Word) → ClusterS
  | [] => x
  | w :: l =>
    if x.busy then { x with pendW := x.pendW ++ (w :: l) } else (x.pointWrite fw w.1 now w.2).pointWrites fw now l

/-- What waited for the end of a relock or of a wake acts: the safe point, then the writes. -/
def ClusterS.afterHold (x : ClusterS) (fw : Bool) (now : Nat) : ClusterS :=
  let l := x.pendW
  let x := { x with pendW := [] }
  let x := if x.safePend && x.isOn then x.safePoint now else x
  x.pointWrites fw now l

/-- A write to CFREQ or VSET of a cluster, now or once nothing holds it. -/
def State.pointWrite (s : State) (cl : ClusterId) (freq : Bool) (v : Word) : State :=
  let s := s.catchUp cl
  let x := s.cluster cl
  (s.setCluster cl (if x.pointHeld then { x with pendW := x.pendW ++ [(freq, v)] } else x.pointWrite s.fwRun freq s.ns v)).reposition cl

def execClockSet (cl : ClusterId) (v : Word) (s : State) : Host.Outcome State Fault Refusal := .next (s.pointWrite cl true v)

def execVsetWrite (cl : ClusterId) (v : Word) (s : State) : Host.Outcome State Fault Refusal := .next (s.pointWrite cl false v)

/-- The longest that a relock stops a clock, in ns (R349). -/
def relockMost : Nat := 2000

/-- RELOCK_DONE: it comes about where the clock has stood for `stopped` ns, at most 2 µs. The clock restarts at the present moment,
counts of cycles are raised, and what waited acts, but in a wake, whose end it waits for (R348, R349, R355, R483). -/
def execRelockDone (cl : ClusterId) (stopped : Nat) (s : State) : Host.Outcome State Fault Refusal :=
  let x := s.cluster cl
  if !x.busy || stopped != s.ns - x.stopAt || decide (relockMost < stopped) then .next s
  else
    let n := stopped * x.fmhz.toNat / 1000
    let x := { x with
      busy := false, cyc := x.cyc + n, lastStart := x.lastStart.map (fun k => k + n), edge := s.ns, sub := 0
      vset := if x.safeV then 800#10 else x.vset, safeV := false }
    let s := s.setCluster cl (if x.pointHeld then x else x.afterHold s.fwRun s.ns)
    let s := (List.range 4).foldl (fun (s : State) k =>
      s.mapTask (clusterCore cl k) (fun t => { t with cyc := t.cyc + n })) s
    .next ((s.openWindows cl).reposition cl)

/-- A write of one of the other execution power registers (R336). -/
def ClusterS.powerWrite (x : ClusterS) (o : Nat) (v : Word) : ClusterS :=
  match o with
  | 0x00 => { x with lim := BitVec.ofNat 10 (max (v.toNat % 1024) 96) }
  | 0x08 => { x with drth := BitVec.ofNat 8 (max (v.toNat % 256) 8) }
  | 0x10 => { x with dstr := BitVec.ofNat 4 (max (v.toNat % 16) 1) }
  | 0x18 => { x with dhiw := v.setWidth 10 }
  | 0x20 => { x with gap := BitVec.ofNat 6 (max (v.toNat % 64) 1) }
  | 0x38 => { x with ttrip := x.ttrip && !v.getLsbD 62, ctrip := x.ctrip && !v.getLsbD 61 }
  | _ => x

/-- WATCHDOG_EXPIRE: EXP, the masters' interrupt, and the safe point of every cluster (R355, R485; log entry 31). -/
def execWatchdogExpire (s : State) : Host.Outcome State Fault Refusal :=
  if !s.wdogRun || s.wdogLeft != 0 then .next s
  else
  let s := { s with wdogExp := true, wdogRun := false, fwRun := false }
  let s := (List.range 256).foldl (fun (s : State) n =>
    let cl : ClusterId := Fin.ofNat 256 n
    let s := s.catchUp cl
    let x := s.cluster cl
    (s.setCluster cl (if x.clocked then x.safePoint s.ns else
      { x with safePend := true, nextF := none, nextV := none })).reposition cl) s
  .next (s.interrupt .watchdog)

end Sys2Proof.Machine
end

