-- ==== Sys2Proof/Machine/Copy.lean ====
section
/-! DEFINITION. Copy engines: descriptors, the checks and transfers of an issue, the engine queue, running, completion, migration,
remote copies and the query (R277 to R292, R246, R248). -/

namespace Sys2Proof.Machine

/-! ## The descriptor (R280) -/

/-- A number of `n` bytes at offset `o` of a descriptor. -/
def descNum (d : List Byte) (o n : Nat) : Nat := leNat ((d.drop o).take n)

/-- The descriptor in 64 bytes. -/
def descOf (d : List Byte) : Desc :=
  let ctl := descNum d 52 2
  ⟨BitVec.ofNat 64 (descNum d 0 8), BitVec.ofNat 64 (descNum d 8 8), descNum d 16 4, descNum d 20 4,
   (BitVec.ofNat 64 (descNum d 24 8)).toInt, (BitVec.ofNat 64 (descNum d 32 8)).toInt, BitVec.ofNat 64 (descNum d 40 8),
   BitVec.ofNat 32 (descNum d 48 4), if ctl % 2 = 1 then some (ctl / 2 % 16) else none, descNum d 54 2⟩

/-- Bytes of a side (R281): the span of its rows. -/
def spanOf (stride : Int) (rows rlen : Nat) : Nat := (rows - 1) * stride.natAbs + rlen

/-- The lowest byte of a side. -/
def lowByte (a : Nat) (stride : Int) (rows : Nat) : Int :=
  if 0 ≤ stride then (a : Int) else (a : Int) + ((rows - 1 : Nat) : Int) * stride

/-- The address of row `i` of a side. -/
def rowByte (a : Nat) (stride : Int) (i : Nat) : Nat := ((a : Int) + (i : Int) * stride).toNat

/-- Check 1 of R281 on the descriptor's bytes, for a kind of copy. -/
def descOk (k : CopyKind) (d : List Byte) (modid : Nat) : Bool :=
  let x := descOf d
  let ctlOk := descNum d 52 2 / 32 == 0 && descNum d 56 8 == 0
  let cbOk := match x.cb with | some _ => x.dst == 0#64 && x.cw == 0#64 | none => true
  match k with
  | .mig => ctlOk && x.cb.isNone && x.rlen == 0 && x.rows == 0 && x.sstr == 0 && x.dstr == 0 && x.rmod == 0
  | _ =>
    ctlOk && cbOk && x.rlen % 4 == 0 && decide (4 ≤ x.rlen) && decide (x.rlen ≤ 65536) && decide (1 ≤ x.rows) &&
      decide (x.rows ≤ 65536) && x.sstr % 4 == 0 && x.dstr % 4 == 0 && x.src.toNat % 4 == 0 && x.dst.toNat % 4 == 0 &&
      (match k with
        | .remote => x.cb.isNone && decide (x.rmod < 4096) && x.rmod != modid
        | _ => x.rmod == 0)

/-! ## Sides (R281) -/

/-- A mapping with what the checks need of it. -/
structure SidePage where
  map : PageMap
  w : Bool
  ro : Bool
  deriving DecidableEq, Repr

/-- The page of an address, or the whole heap (R281). -/
def sidePage (x : CtxS) (l : Leaf) : SidePage :=
  if l.heap then ⟨⟨heapBase x, l.base - (l.vbase - heapBase x), heapLen x, l.home, 0, false, true, l.lclass⟩, l.w, l.ro⟩
  else ⟨⟨l.vbase, l.base, 2 ^ l.bits, if paWindow l.pa then winStack l.pa else l.home, l.leafPa, l.late, false, l.lclass⟩, l.w, l.ro⟩

/-- The home of a byte of a mapping: in the heap, page by 4 KiB region (R226). -/
def PageMap.homeAt (m : PageMap) (pa : Nat) : StackId := if m.heap then Fin.ofNat 64 (pa / 2 ^ 12 % 64) else m.home

/-- The byte after a mapping. -/
def PageMap.vend (m : PageMap) : Nat := m.vbase + m.len

/-- One page, or two adjacent ones, from byte `lo` to byte `hi` (R281, checks 2 and 3). -/
def State.sidePages (s : State) (c : CoreId) (ctx : CtxId) (lo : Int) (span : Nat) : Except AccErr (List SidePage) :=
  let x := s.ctx ctx
  if lo < 0 ∨ 2 ^ 56 ≤ lo + (span : Int) - 1 then .error ⟨errTranslation, 0⟩
  else
    let a := lo.toNat
    let e := a + span - 1
    match s.translateOn c ctx (BitVec.ofNat 64 a) with
    | .error _ => .error ⟨errTranslation, 0⟩
    | .ok l =>
      let p := sidePage x l
      if e < p.map.vend then .ok [p]
      else if l.heap then .error ⟨errPermission, l.pa⟩
      else match s.translateOn c ctx (BitVec.ofNat 64 p.map.vend) with
        | .error _ => .error ⟨errTranslation, 0⟩
        | .ok l' =>
          let q := sidePage x l'
          if l'.heap ∨ q.map.vend ≤ e then .error ⟨errPermission, l'.pa⟩ else .ok [p, q]

/-- The physical address of a byte of a side. -/
def sidePa (ms : List PageMap) (va : Nat) : Nat :=
  match ms.find? (fun m => decide (m.vbase ≤ va) && decide (va < m.vend)) with
  | some m => m.base + (va - m.vbase)
  | none => 0

/-- The mapping of a byte of a side. -/
def sideMap (ms : List PageMap) (va : Nat) : Option PageMap :=
  ms.find? (fun m => decide (m.vbase ≤ va) && decide (va < m.vend))

/-- A range of virtual addresses cut where a mapping ends: addresses with lengths. -/
def cutRange (ms : List PageMap) (va n : Nat) : List (Nat × Nat) :=
  match sideMap ms va with
  | some m => if va + n ≤ m.vend then [(va, n)] else [(va, m.vend - va), (m.vend, n - (m.vend - va))]
  | none => []

/-- The row ranges of a side. -/
def rowRanges (ms : List PageMap) (a : Nat) (stride : Int) (rows rlen : Nat) : List (Nat × Nat) :=
  (List.range rows).flatMap (fun i => cutRange ms (rowByte a stride i) rlen)

/-- Width of the accesses into which a range of a window breaks (R232). -/
def winUnit (kind o : Nat) : Nat :=
  match kind with
  | 1 => if o < 0x2400 then 128 else 4
  | 2 | 5 | 6 | 7 | 8 => 8
  | _ => 4

/-- A range of a window as runs of accesses of one width each: address, bytes, width. The V file's registers are followed by the
masks (R232). -/
def winRuns (pa n : Nat) : List (Nat × Nat × Nat) :=
  let o := winOff pa
  if winKind pa = 1 ∧ o < 0x2400 ∧ 0x2400 < o + n then
    [(pa, 0x2400 - o, 128), (pa + (0x2400 - o), n - (0x2400 - o), 4)]
  else [(pa, n, winUnit (winKind pa) o)]

/-- Those accesses one by one: address and width. -/
def winParts (pa n : Nat) : List (Nat × Nat) :=
  (winRuns pa n).flatMap (fun r => (List.range (r.2.1 / r.2.2)).map (fun i => (r.1 + r.2.2 * i, r.2.2)))

/-- Whether a range of a window breaks into admitted accesses (R281, check 4). -/
def winRange (pa n : Nat) (store priv : Bool) : Bool :=
  winPlaceOk pa && !(store && winKind pa == 3) &&
  (winRuns pa n).all (fun r =>
    let o := winOff r.1
    let u := r.2.2
    o % u == 0 && r.2.1 % u == 0 && winAdmits (winKind pa) o u store false priv &&
      winAdmits (winKind pa) (o + r.2.1 - u) u store false priv)

/-- The window rules of a side: widths, a block that may be reached (R490), engine registers of a halted core (R331). -/
def State.sideWindows (s : State) (c : CoreId) (t : Task) (ms : List PageMap) (rs : List (Nat × Nat)) (store : Bool) : Bool :=
  rs.all (fun r =>
    let pa := sidePa ms r.1
    !paWindow pa ||
      (winRange pa r.2 store (s.privileged t.ctx) && (winKind pa != 8 || s.powerBlockOk pa) &&
        !(winKind pa == 5 && winIsCore pa && (winCoreId pa == c || (store && !(s.core (winCoreId pa)).hlt)))))

/-- Bytes of one least region: 256 in a window, 4 KiB elsewhere (R281). -/
def leastBytes (pa : Nat) : Nat := if paWindow pa then 256 else 4096

/-- The least regions that ranges touch, by their first bytes, each once where neighbours repeat. -/
def touched (ms : List PageMap) (rs : List (Nat × Nat)) : List Nat :=
  (rs.foldl (fun acc r =>
    let pa := sidePa ms r.1
    let u := leastBytes pa
    (List.range ((pa + r.2 - 1) / u - pa / u + 1)).foldl (fun (acc : List Nat) i =>
      let b := (pa / u + i) * u
      match acc with
      | a :: l => if a = b then a :: l else if l.contains b then a :: l else b :: a :: l
      | [] => [b]) acc) []).reverse

/-- The same as the agent means them: regions of a suspended task have addresses of their own. -/
def State.touchedBy (s : State) (ag : Agent) (ms : List PageMap) (rs : List (Nat × Nat)) : List Nat := (touched ms rs).map (s.aim ag)

/-! ## Rights (R281, R282) -/

/-- A region, with its slice and whether a record of it exists: a core region held by being current has none. -/
structure Held where
  st : StackId
  base : Nat
  size : Nat
  rec_ : Bool
  deriving DecidableEq, Repr

/-- The stack whose slice holds the records of a byte of a side. -/
def sideHome (ms : List PageMap) (pa : Nat) : StackId :=
  if paWindow pa then winStack pa
  else match ms.find? (fun m => decide (m.base ≤ pa) && decide (pa < m.base + m.len)) with
    | some m => m.homeAt pa
    | none => 0

/-- The task's record of a byte that satisfies `p`, or its core region without one. -/
def State.heldAt (s : State) (ag : Agent) (st : StackId) (pa : Nat) (p : TokRec → Bool) : Option Held :=
  match (((s.stack st).recsAt pa).map Prod.snd ++ s.needsAt pa).find? p with
  | some r => some ⟨st, r.base, r.size, true⟩
  | none => if s.holdsCore ag pa then some ⟨st, pa / 256 * 256, 0, false⟩ else none

/-- Whether windows of a side need no token (R232, R331, R452). -/
def State.sideFree (s : State) (t : Task) (pa : Nat) (need : Need) : Bool :=
  s.tokenFree t pa (if need = .load then .load else .store)

/-- Check 6 for one side: the regions the operation takes, or the error of the first that fails. -/
def State.sideHeld (s : State) (c : CoreId) (t : Task) (ms : List PageMap) (need : Need) (p : TokRec → Bool) :
    List Nat → Except AccErr (List Held)
  | [] => .ok []
  | pa :: l =>
    if s.sideFree t pa need then s.sideHeld c t ms need p l
    else
      let st := sideHome ms pa
      match s.tokenErr (t.agent c) st pa need with
      | some e => .error ⟨e, pa⟩
      | none =>
        match s.heldAt (t.agent c) st pa p, s.sideHeld c t ms need p l with
        | _, .error e => .error e
        | some h, .ok r => .ok (if r.any (fun x => x.base == h.base && x.size == h.size) then r else h :: r)
        | none, .ok r => .ok r

/-- Whether bytes of a window are withheld from a copy: from a destination what is withheld from a store; from a source the count sets
that are held, and what a circular buffer withholds from a load. An array's sources may be read (R248, R275, R308, R323). -/
def State.copyWithheld (s : State) (c : CoreId) (pa n : Nat) (dst : Bool) : Bool :=
  if dst then s.withheld c pa n true
  else paWindow pa && winIsCore pa &&
    (match s.windowTask pa with
      | some u => (winKind pa == 3 && u.arraysHold 3 (winOff pa) n) ||
          (winKind pa == 0 && winCoreId pa == c && u.bufferForbids false (winOff pa) n)
      | none => false)

/-- The first range of a side of which that holds. -/
def State.sideWithheld (s : State) (c : CoreId) (ag : Agent) (ms : List PageMap) (rs : List (Nat × Nat)) (dst : Bool) : Option AccErr :=
  (rs.find? (fun r => s.copyWithheld c (s.aim ag (sidePa ms r.1)) r.2 dst)).map (fun r => ⟨errUnowned, s.aim ag (sidePa ms r.1)⟩)

/-- Check 5 of R281: CW in a scratchpad, EXCL or an atomic share of its region; every failure is a permission violation. -/
def State.cwCheck (s : State) (c : CoreId) (t : Task) (cw : Word) : Except AccErr Leaf :=
  match s.translateFor c t cw with
  | .error _ => .error ⟨errPermission, 0⟩
  | .ok l =>
    if (s.checkAt c t cw 4 .feStore l).isNone &&
        (s.tokenFree t l.pa .feStore || s.holdsCore (t.agent c) l.pa ||
          ((s.stack (regionHome l)).recsAt l.pa).any (fun e =>
            e.2.ownsExcl (t.agent c) || (e.2.shares (t.agent c) && e.2.at_))) then .ok l
    else .error ⟨errPermission, l.pa⟩

/-! ## Records for an operation (R282, R367, R408) -/

/-- A new record: in a free general place of its slice, or a request that has met one NAK. -/
def State.addRec (s : State) (st : StackId) (r : TokRec) (src : Src) : State :=
  match freeTok (s.stack st).toks 15344 0 with
  | some e => s.setStack st ((s.stack st).setTok e r)
  | none => { s with toks := s.toks ++ [.need st r src 1 0] }

/-- The task's own record of a core region that has none yet (R233). -/
def State.ensureRec (s : State) (c : CoreId) (t : Task) (h : Held) : State :=
  if h.rec_ then s
  else s.addRec h.st { TokRec.fresh h.base h.size 0 .dflt (t.agent c) with claimed := true, arr := true } (t.agent c).src

/-- Changes the task's own record of a region, wherever it stands. -/
def State.editOwn (s : State) (st : StackId) (ag : Agent) (base size : Nat) (f : TokRec → TokRec) : State :=
  s.editToks st (fun r => some (if r.isFor base size && r.holder == ag && !r.sh then f r else r))

/-- The task's own record of a region. -/
def State.ownRec (s : State) (st : StackId) (ag : Agent) (base size : Nat) : Option TokRec :=
  (((s.stack st).recsAt base).map Prod.snd ++ s.needsAt base).find? (fun r => r.isFor base size && r.holder == ag && !r.sh)

/-- Its depth. -/
def State.ownDepth (s : State) (st : StackId) (ag : Agent) (base size : Nat) : Nat :=
  match s.ownRec st ag base size with
  | some r => r.depth
  | none => 0

/-- A destination region is lent to the operation. -/
def State.engineLend (s : State) (c : CoreId) (t : Task) (h : Nat) (r : Held) : State :=
  let ag := t.agent c
  let s := s.ensureRec c t r
  let d := s.ownDepth r.st ag r.base r.size
  let s := s.editOwn r.st ag r.base r.size (fun x => { x with st := .lent })
  (s.addRec r.st { TokRec.fresh r.base r.size (d + 1) .dv (engineAgent c t h) with claimed := true, arr := true } ag.src).dropRegion
    c r.base (regionBytes r.size) .dv

/-- A source region held as owner: the operation takes a read share. -/
def State.engineShare (s : State) (c : CoreId) (t : Task) (h : Nat) (r : Held) : State :=
  let s := s.ensureRec c t r
  let s := s.editOwn r.st (t.agent c) r.base r.size (fun x => { x with st := .shared, nsh := x.nsh + 1, eng := x.eng + 1 })
  s.addRec r.st { TokRec.share r.base r.size 0 false .dv (engineAgent c t h) with claimed := true, arr := true } (t.agent c).src

/-! ## Issue (R281 to R283) -/

/-- What an issue has found: mappings, regions and the completion word. -/
structure CopyPlan where
  desc : Desc
  src : List PageMap
  dst : List PageMap
  lend : List Held
  share : List Held
  under : List Held
  cwPa : Nat
  deriving DecidableEq, Repr

/-- The descriptor of a copy instruction (R280): 64 bytes of the issuing core's own scratchpad. A breach of R280 is a permission
violation (R281); a touch of a lent region, or of bytes that an array or a buffer withholds, is an unowned access (R233, R248,
R308). -/
def State.copyDesc (s : State) (c : CoreId) (t : Task) (va : Word) : Except AccErr (List Byte) :=
  match s.translateOn c t.ctx va with
  | .error _ => .error ⟨errPermission, 0⟩
  | .ok l => match ownScratch c l with
    | .error e => .error e
    | .ok o =>
      if va.toNat % 64 != 0 then .error ⟨errPermission, l.pa⟩
      else match s.lentWithin c t 0 o 64 with
        | some e => .error e
        | none => if s.withheld c l.pa 64 false then .error ⟨errUnowned, l.pa⟩ else .ok (t.scrBytes o 64)

/-- Whether the span of a copy into a circular buffer fits its slots. -/
def CircBuf.fits (b : CircBuf) (d : Desc) : Bool := decide (spanOf d.dstr d.rows d.rlen ≤ b.size)

/-- The scratchpad offset of row `i` in a slot (R280). -/
def CircBuf.rowOff (x : CircBuf) (d : Desc) (slot i : Nat) : Nat :=
  let base := x.off + slot * x.size
  if 0 ≤ d.dstr then base + i * d.dstr.natAbs else base + (d.rows - 1 - i) * d.dstr.natAbs

/-- A buffer as the copies of the issuing bundle see it: a `cbdef` of that bundle counts for later bundles alone (R274). -/
def Task.bufFor (t : Task) (b : Nat) : Option CircBuf :=
  match t.cbChanged with
  | some (k, old) => if k = b then old else t.cbs.find b
  | none => t.cbs.find b

/-- The definition that a copy of that bundle keeps, with its slot of it. -/
def Task.oldBuf (t : Task) (b : Nat) : Option CircBuf :=
  match t.cbChanged with
  | some (k, some x) => if k = b then some { x with wr := (x.wr + x.queued) % x.count } else none
  | _ => none

/-- Checks of a copy into a circular buffer: a defined one, a span within a slot (R280, R281), and a slot to be claimed in whose bytes
no array has a source or a scale block (R308). -/
def Task.bufErr (t : Task) (d : Desc) (b : Nat) : Option AccErr :=
  match t.bufFor b with
  | none => some ⟨errPermission, 0⟩
  | some x =>
    if !x.fits d then some ⟨errPermission, 0⟩
    else
      let slot := (x.wr + x.queued) % x.count
      if (List.range d.rows).any (fun i => t.arraysHold 0 (x.rowOff d slot i) d.rlen) then some ⟨errUnowned, 0⟩ else none

/-- A claimed grant of a remote module that the task holds and no operation uses (R290, R478). -/
def GrantS.usable (g : GrantS) (ag : Agent) (ctx : CtxId) (m : Nat) : Bool :=
  g.lender.val == m && g.ctx == ctx && g.holder == some ag && g.op.isNone

/-- Whether a grant meets `n` bytes of the lender's addresses from `a`. -/
def GrantS.meets (g : GrantS) (a n : Nat) : Bool := rangesMeet g.va.toNat (2 ^ g.sizeExp) a n

/-- Whether grants together cover the addresses from `a` to `e`; each step goes to the end of one. -/
def grantsCover (gs : List GrantS) : Nat → Nat → Nat → Bool
  | 0, a, e => decide (e ≤ a)
  | k + 1, a, e =>
    if e ≤ a then true
    else match gs.find? (fun g => g.meets a 1) with
      | some g => grantsCover gs k (g.va.toNat + 2 ^ g.sizeExp) e
      | none => false

/-- The remote address a DST names: plain, or through a grant alias (R478). -/
def remoteVa (w : Word) : Option Nat :=
  if w.toNat / 2 ^ 56 = 0 ∨ w.toNat / 2 ^ 56 = 0x80 then some (w.toNat % 2 ^ 56) else none

/-- The rights of a remote destination (R290): every row within the grants of its module that the task holds. -/
def State.remoteErr (s : State) (c : CoreId) (t : Task) (d : Desc) : Option AccErr :=
  match remoteVa d.dst with
  | none => some ⟨errTranslation, 0⟩
  | some a =>
    let gs := s.grants.filter (fun g => g.usable (t.agent c) t.ctx d.rmod)
    if (List.range d.rows).all (fun i => grantsCover gs (gs.length + 1) (rowByte a d.dstr i) (rowByte a d.dstr i + d.rlen)) then none
    else some ⟨errUnowned, 0⟩

/-- The rights of a task on a destination that its records give: EXCL, at depth 6 or less. -/
def lendable (ag : Agent) (r : TokRec) : Bool := r.ownsExcl ag && decide (r.depth ≤ 6)

/-- Destination regions, or the error: a region at the deepest depth cannot be lent (R364). -/
def State.dstHeld (s : State) (c : CoreId) (t : Task) (ms : List PageMap) (pas : List Nat) : Except AccErr (List Held) :=
  match s.sideHeld c t ms .store (fun r => r.ownsExcl (t.agent c)) pas with
  | .error e => .error e
  | .ok hs =>
    match hs.find? (fun h => decide (6 < s.ownDepth h.st (t.agent c) h.base h.size)) with
    | some h => .error ⟨errUnowned, h.base⟩
    | none => .ok hs

/-- The source side: mappings, and the regions held as owner and as a share; pages with RO = 1 need none. -/
def State.srcPlan (s : State) (c : CoreId) (t : Task) (d : Desc) (ps : List SidePage) :
    Except AccErr (List PageMap × List Held × List Held) :=
  let ms := ps.map SidePage.map
  let rs := rowRanges ms d.src.toNat d.sstr d.rows d.rlen
  let own := ms.filter (fun m => ps.any (fun p => p.map == m && !p.ro))
  let pas := ((touched ms rs).filter (fun pa => own.any (fun m => decide (m.base ≤ pa + 4095) && decide (pa < m.base + m.len)))).map
    (s.aim (t.agent c))
  match s.sideHeld c t ms .load (fun r => r.owns (t.agent c)) pas, s.sideHeld c t ms .load (fun r => r.shares (t.agent c)) pas with
  | .error e, _ => .error e
  | _, .error e => .error e
  | .ok a, .ok b => .ok (ms, a, b.filter (fun h => !a.any (fun x => x.base == h.base)))

/-- THE CHECKS OF A COPY in the order of R281. -/
def State.copyPlan (s : State) (c : CoreId) (t : Task) (k : CopyKind) (bytes : List Byte) : Except AccErr CopyPlan :=
  let d := descOf bytes
  let ag := t.agent c
  if !descOk k bytes s.modid.toNat then .error ⟨errPermission, 0⟩
  else
    match s.sidePages c t.ctx (lowByte d.src.toNat d.sstr d.rows) (spanOf d.sstr d.rows d.rlen) with
    | .error e => .error e
    | .ok sp =>
      let dstSide : Except AccErr (List SidePage) :=
        if d.cb.isSome || k == .remote then .ok []
        else s.sidePages c t.ctx (lowByte d.dst.toNat d.dstr d.rows) (spanOf d.dstr d.rows d.rlen)
      match dstSide with
      | .error e => .error e
      | .ok dp =>
        let sm := sp.map SidePage.map
        let dm := dp.map SidePage.map
        let srs := rowRanges sm d.src.toNat d.sstr d.rows d.rlen
        let drs := if dp.isEmpty then [] else rowRanges dm d.dst.toNat d.dstr d.rows d.rlen
        if dp.any (fun p => !p.w) || !s.sideWindows c t sm srs false || !s.sideWindows c t dm drs true then
          .error ⟨errPermission, 0⟩
        else
          let cw : Except AccErr Nat :=
            if d.cw = 0#64 then .ok 0
            else match s.cwCheck c t d.cw with
              | .error e => .error e
              | .ok l => if (s.touchedBy ag dm drs).contains (l.pa / 256 * 256) then .error ⟨errPermission, l.pa⟩ else .ok l.pa
          match cw with
          | .error e => .error e
          | .ok cwPa =>
            let buf : Option AccErr := d.cb.bind (t.bufErr d)
            let rem : Option AccErr := if k == .remote then s.remoteErr c t d else none
            match firstSome [buf, rem], s.dstHeld c t dm (s.touchedBy ag dm drs), s.srcPlan c t d sp with
            | some e, _, _ => .error e
            | _, .error e, _ => .error e
            | _, _, .error e => .error e
            | none, .ok lend, .ok (ms, own, shr) =>
              match firstSome [s.sideWithheld c (t.agent c) dm drs true, s.sideWithheld c (t.agent c) ms srs false] with
              | some e => .error e
              | none =>
                let lent (h : Held) : Bool := lend.any (fun x => x.base == h.base && x.size == h.size)
                .ok ⟨d, ms, dm, lend, own.filter (fun h => !lent h), shr.filter (fun h => !lent h), cwPa⟩

/-- Bytes of a page that records held outright cover. -/
def heldBytes (hs : List TokRec) : Nat := (hs.map (fun r => regionBytes r.size)).foldl (· + ·) 0

/-- THE CHECKS OF A MIGRATION (R289): EXCL of every region of the page that holds SRC; a page with RO = 1 has none (R360; log
entry 22). -/
def State.migPlan (s : State) (c : CoreId) (t : Task) (bytes : List Byte) : Except AccErr CopyPlan :=
  let d := descOf bytes
  if !descOk .mig bytes s.modid.toNat then .error ⟨errPermission, 0⟩
  else
    match s.translateOn c t.ctx d.src with
    | .error _ => .error ⟨errTranslation, 0⟩
    | .ok l =>
      if l.heap || paWindow l.pa then .error ⟨errPermission, l.pa⟩
      else
        let cw : Except AccErr Nat :=
          if d.cw = 0#64 then .ok 0 else match s.cwCheck c t d.cw with
            | .error e => .error e
            | .ok l => .ok l.pa
        match cw with
        | .error e => .error e
        | .ok cwPa =>
          let n := 2 ^ l.bits
          let rs := if l.ro then [] else (s.stack l.home).toks.filter (fun e => e.2.meets l.base n)
          if rs.any (fun e => e.2.st == .lost) then .error ⟨errLost, l.base⟩
          else
            let mine := rs.filter (fun e => lendable (t.agent c) e.2)
            if !l.ro && heldBytes (mine.map Prod.snd) != n then .error ⟨errUnowned, l.base⟩
            else .ok ⟨d, [(sidePage (s.ctx t.ctx) l).map], [], mine.map (fun e => ⟨l.home, e.2.base, e.2.size, true⟩), [],
              [], cwPa⟩

/-- A region of a plan by base and SIZE. -/
def Held.key (h : Held) : Nat × Nat := (h.base, h.size)

/-- The checks of a copy of a kind. -/
def State.planOf (s : State) (c : CoreId) (t : Task) (k : CopyKind) (bytes : List Byte) : Except AccErr CopyPlan :=
  if k = .mig then s.migPlan c t bytes else s.copyPlan c t k bytes

/-- The fork of an operation is a release at `.dv` of what the task has done (R277). -/
def State.forkRelease (s : State) (c : CoreId) (t : Task) : State :=
  (s.feOwnFirst c t (2 ^ 51) (2 ^ 51) s.fes.length).releaseFor c t .dv

/-- An operation is created after its fork (R282, R283): the transfers, the handle's queue entry, and the request. -/
def State.launchCopy (s : State) (c : CoreId) (t : Task) (k : CopyKind) (p : CopyPlan) (d : Opd) (arr : Nat)
    (follow : Option Cmd) : State :=
  let s := if k == .mig || k == .remote then s.unprotect c t else s
  let h := t.handles + 1
  let eng : List Held := match follow with
    | some _ => [⟨stackOf c, engRegion c arr, 0, (s.ownRec (stackOf c) (t.agent c) (engRegion c arr) 0).isSome⟩]
    | none => []
  let s := (p.lend ++ eng).foldl (fun (s : State) r => s.engineLend c t h r) s
  let s := p.share.foldl (fun (s : State) r => s.engineShare c t h r) s
  let s := if k == .remote then
      { s with grants := s.grants.map (fun (g : GrantS) =>
          if g.usable (t.agent c) t.ctx p.desc.rmod && (List.range p.desc.rows).any (fun i =>
            g.meets (rowByte ((remoteVa p.desc.dst).getD 0) p.desc.dstr i) p.desc.rlen)
          then { g with op := some h } else g) }
    else s
  let s := s.mapTask c (fun t =>
    let t := match p.desc.cb with
      | some b => match t.cbs.find b with
        | some x => if (t.oldBuf b).isSome then t else { t with cbs := t.cbs.set b { x with queued := x.queued + 1 } }
        | none => t
      | none => t
    { (t.putPend (t.regs.dest .E d) (.handle h) none) with
      handles := h
      ops := t.ops.set h ⟨false, false, 0, p.cwPa, false, p.desc.cb, none, (p.lend ++ eng).map Held.key, p.share.map Held.key,
        p.under.map Held.key, follow.map (fun _ => arr)⟩ })
  let op : CopyOp := ⟨c, t.ctx, t.launch, t.coord, t.team, h, k, p.desc, p.cwPa, p.src, p.dst,
    if k == .remote then (remoteVa p.desc.dst).getD 0 else p.desc.dst.toNat, t.nextPend, 0, arr, follow, none, none, false, false, false,
    false, s.feSeq, t.fpos.setWidth 32, p.desc.cb.bind t.oldBuf⟩
  s.setStack (stackOf c) { s.stack (stackOf c) with requests := (s.stack (stackOf c)).requests ++ [op] }

/-- The task consumes the descriptor's bytes (R443). -/
def State.consumeDesc (s : State) (c : CoreId) (t : Task) (va : Word) : State :=
  match s.translateOn c t.ctx va with
  | .ok l => s.consume c va l.pa (s.windowBad l.pa 64)
  | .error _ => s

/-- A copy whose checks pass forks, and is created with its mappings as they are after the fork: its release may have backed a page
(R246). -/
def State.forkCopy (s : State) (c : CoreId) (t : Task) (k : CopyKind) (bytes : List Byte) (d : Opd) (arr : Nat)
    (follow : Option Cmd) : State :=
  let s := s.forkRelease c t
  match s.planOf c t k bytes with
  | .ok p => s.launchCopy c t k p d arr follow
  | .error _ => s

/-- A copy instruction: its checks, then the operation. -/
def State.issueCopy (s : State) (t : Task) (k : CopyKind) (f : FmtEC) (syl : Word) : State :=
  let c := s.cur
  let va := t.srcE f.s1
  match s.copyDesc c t va with
  | .error e => s.failAccess c t .E syl va e
  | .ok bytes =>
    let s := s.consumeDesc c t va
    match s.planOf c t k bytes with
    | .error e => s.failAccess c t .E syl va e
    | .ok _ => s.forkCopy c t k bytes f.d 0 none

def execCpy (f : FmtEC) (s : State) : Host.Outcome State Fault Refusal :=
  s.issueS f.gd fun t => s.issueCopy t .cpy f (encode (.cpy f))

def execCpyMig (f : FmtEC) (s : State) : Host.Outcome State Fault Refusal :=
  s.issueS f.gd fun t => s.issueCopy t .mig f (encode (.cpyMig f))

def execCpyx (f : FmtEC) (s : State) : Host.Outcome State Fault Refusal :=
  s.issueS f.gd fun t => s.issueCopy t .remote f (encode (.cpyx f))

/-- The scale operand of a follow-on command: S2, none at 0xC0 (R279, R319). -/
def Task.followScale (t : Task) (o : Opd) : Option Word := if o = .zero then none else some (t.srcE o)

/-- `cpymx` (R286): the copy's checks, then those of the captured command. -/
def execCpymx (f : FmtEC) (s : State) : Host.Outcome State Fault Refusal :=
  s.issueS f.gd fun t =>
    let c := s.cur
    let syl := encode (.cpymx f)
    let va := t.srcE f.s1
    let a := f.arr.toNat
    match s.copyDesc c t va with
    | .error e => s.failAccess c t .E syl va e
    | .ok bytes =>
      let s := s.consumeDesc c t va
      match s.planOf c t .mx bytes with
      | .error e => s.failAccess c t .E syl va e
      | .ok _ =>
        match s.mxError c t a with
        | some e => s.failAccess c t .E syl va e
        | none =>
          match s.mxCapture c t a .go (t.followScale f.s2) (f.s3.toNat % 4) with
          | .error e => s.failAccess c t .E syl (t.arr a).abase e
          | .ok k => s.forkCopy c t .mx bytes f.d a (some k)

/-- `cpyq` (R291). -/
def Task.opWord (t : Task) (h : Nat) : Word :=
  match t.ops.find h with
  | none => 0#64
  | some o => pack64 [(if o.joined then 3 else if o.done then 2 else 1, 62), (min (2 ^ 32 - 1) o.bytes, 0)]

def execCpyq (f : FmtEC) (s : State) : Host.Outcome State Fault Refusal :=
  s.issue f.gd fun t =>
    t.putPend (t.regs.dest .E f.d) .value (some ((t.opWord (t.srcE f.s1).toNat).setWidth 1024))

/-! ## The engine queue (R283, R408) -/

/-- Requests of every stack, with their stacks and places. -/
def State.copyRequests (s : State) : List (StackId × Nat × CopyOp) :=
  s.stackTab.flatMap (fun e => (List.range e.2.requests.length).filterMap (fun i =>
    (e.2.requests[i]?).map (fun o => (Fin.ofNat 64 e.1, i, o))))

/-- Whether an operation is of one task. -/
def CopyOp.ofTask (o : CopyOp) (launch : Nat) (coord : BitVec 48) : Bool := o.launch == launch && o.coord == coord

/-- Whether a request is accepted: with a general place of the 128, or with its core's reserved one after two NAKs; and whether
it takes the reserved one. -/
def StackS.acceptOp (x : StackS) (o : CopyOp) : Option Bool :=
  if 64 ≤ (x.ops.filter (fun p => p.ofTask o.launch o.coord)).length then none
  else if (x.ops.filter (fun p => !p.resv)).length < 112 then some false
  else if 2 ≤ o.naks ∧ x.ops.all (fun p => !(p.resv && p.core == o.core)) then some true
  else none

/-- A handle reaches its register's queue entry. -/
def Task.giveHandle (t : Task) (h : Nat) : Task :=
  { t with pend := t.pend.map (fun p =>
      if p.kind = .handle h then { p with val := some (BitVec.ofNat 1024 h) } else p) }

/-- COPY_ACCEPT of request `n`: the handle is written, or the request is NAKed and stays. Earlier requests of its task go
first, and so do earlier full/empty accesses and rounds, which its fork releases (R370, R376). -/
def execCopyAccept (n : Nat) (s : State) : Host.Outcome State Fault Refusal :=
  match s.copyRequests[n]? with
  | none => .next s
  | some (st, i, o) =>
    let x := s.stack st
    if (x.requests.take i).any (fun p => p.ofTask o.launch o.coord) || s.earlierFe o.launch o.coord o.after || s.roundsWait o.launch o.coord o.after then .next s
    else match x.acceptOp o with
      | some r =>
        .next ((s.setStack st { x with requests := listDrop x.requests i, ops := x.ops ++ [{ o with resv := r }] }).mapTaskOf
          o.launch o.coord (fun t => t.giveHandle o.handle))
      | none => .next (s.setStack st { x with requests := listSet x.requests i { o with naks := nakUp o.naks } })

/-! ## Starting (R248, R278) -/

/-- Whether every earlier operation of the task on the same buffer has claimed its slot. -/
def StackS.claimTurn (x : StackS) (o : CopyOp) : Bool :=
  (x.ops ++ x.requests).all (fun p =>
    !(p.ofTask o.launch o.coord && p.desc.cb == o.desc.cb && decide (p.handle < o.handle) && p.slot.isNone))

/-- Whether a side of an operation lies behind a link that is fenced: the operation waits (R450). -/
def State.opShut (s : State) (o : CopyOp) : Bool :=
  (s.stackTab.filter (fun e => e.2.linkFen && e.1 != (stackOf o.core).val)).any (fun e =>
    (o.src ++ o.dst).any (fun m => m.heap || m.home.val == e.1))

/-- Whether an operation's records stand, its fork's writes have been performed, and no fenced link holds it (R277, R408, R450). -/
def State.opReady (s : State) (o : CopyOp) : Bool :=
  !s.heldWrites o.launch o.coord && !s.opShut o &&
  s.toks.all (fun m => match m with
    | .need _ r _ _ _ => !(r.holder == .engine o.core o.ctx o.launch o.coord o.handle)
    | _ => true)

/-- Claims slot WR of the buffer (R248). A copy issued under a definition that has been replaced since has its slot of that one, whose
counters are gone (R274; log entry 90). -/
def State.claimSlot (s : State) (st : StackId) (n : Nat) (o : CopyOp) (b : Nat) : State :=
  match o.buf with
  | some x => s.setStack st { s.stack st with ops := listSet (s.stack st).ops n { o with slot := some x.wr } }
  | none =>
  match s.taskOf o.launch o.coord with
  | none => s
  | some t =>
    match t.cbs.find b with
    | none => s
    | some x =>
      if x.free = 0 then s
      else
        let s := s.mapTaskOf o.launch o.coord (fun t => { t with
          cbs := t.cbs.set b { x with free := x.free - 1, wr := (x.wr + 1) % x.count, claim := x.claim ++ [(x.wr, false)],
                                      queued := x.queued - 1 }
          ops := match t.ops.find o.handle with
            | some p => t.ops.set o.handle { p with slot := some x.wr }
            | none => t.ops })
        s.setStack st { s.stack st with ops := listSet (s.stack st).ops n { o with slot := some x.wr } }

/-- COPY_START of operation `n` of a stack on an engine: the engine takes it, and claims its slot where it names a buffer; with no
free slot the engine is blocked, and a later COPY_START claims. -/
def execCopyStart (st : StackId) (eng : Fin 2) (n : Nat) (s : State) : Host.Outcome State Fault Refusal :=
  let x := s.stack st
  match x.ops[n]? with
  | none => .next s
  | some o =>
    match o.eng with
    | none =>
      if x.engFenced.getLsbD eng.val || s.tests.any (fun u => u.1 == .engine st eng) || x.ops.any (fun p => p.eng == some eng) ||
        !s.opReady o then .next s
      else match o.desc.cb with
        | none => .next (s.setStack st { x with ops := listSet x.ops n { o with eng := some eng } })
        | some b =>
          if !x.claimTurn o then .next s
          else .next ((s.setStack st { x with ops := listSet x.ops n { o with eng := some eng } }).claimSlot st n
            { o with eng := some eng } b)
    | some e =>
      match o.desc.cb with
      | some b => if e = eng ∧ o.slot = none then .next (s.claimSlot st n o b) else .next s
      | none => .next s

/-! ## Moving bytes (R278, R282) -/

/-- Whose state a window of a core shows to an operation: of its own core, its task's, wherever that is. -/
def State.opKey (s : State) (o : CopyOp) (pa : Nat) : Option (Nat × BitVec 48) := s.issuerKey o.core o.launch o.coord pa

/-- The window address that an operation means: by its own records, else by those of its task. -/
def State.opAim (s : State) (o : CopyOp) (pa : Nat) : Nat :=
  let p := s.aim (.engine o.core o.ctx o.launch o.coord o.handle) pa
  if p = pa then s.aim (.task o.core o.ctx o.launch o.coord) pa else p

/-- The value of one access to a window by an operation. -/
def State.opRead (s : State) (o : CopyOp) (pa n : Nat) : Nat :=
  if winIsCore pa && decide (winKind pa < 5) then
    match s.keyTask pa (s.opKey o pa) with
    | some t => t.winRead (winKind pa) (winOff pa) n
    | none => 0
  else s.windowRead pa n

/-- The tag of an operation's accesses to a line. -/
def CopyOp.tag (o : CopyOp) (m : PageMap) (pa va : Nat) : WrTag :=
  ⟨o.core, o.ctx, o.launch, o.coord, m.homeAt pa, m.leafPa, m.late, BitVec.ofNat 64 (va - pa % 128), m.cls, o.fpos, some o.handle⟩

/-- What an operation has read: bytes, and the first poisoned ones (R443). -/
structure SideRead where
  bytes : List Byte
  bad : Option Nat
  deriving DecidableEq, Repr

def SideRead.add (a : SideRead) (b : List Byte) (bad : Option Nat) : SideRead := ⟨a.bytes ++ b, a.bad.orElse (fun _ => bad)⟩

/-- Bytes of memory read at their homes, line by line (R278). -/
def State.readLines (s : State) (o : CopyOp) (m : PageMap) (pa va : Nat) : Nat → Nat → SideRead → State × SideRead
  | 0, _, r => (s, r)
  | k + 1, n, r =>
    if n = 0 then (s, r)
    else
      let j := min n (128 - pa % 128)
      let w := o.tag m pa va
      let s := s.touchL2 w (lineOf pa)
      let d := natBytes j (lineNum (s.homeLine w.home (lineOf pa)) (pa % 128) j)
      let bad := if badMeets (s.homeBad w.home (lineOf pa)) (pa % 128) j then some pa else none
      s.readLines o m (pa + j) (va + j) k (n - j) (r.add d bad)

/-- `n` bytes of a side from a virtual address, at their homes. -/
def State.readSide (s : State) (o : CopyOp) (ms : List PageMap) (va n : Nat) : State × SideRead :=
  (cutRange ms va n).foldl (fun (x : State × SideRead) r =>
    let (s, a) := x
    let pa := sidePa ms r.1
    if paWindow pa then
      (s, (winParts pa r.2).foldl (fun a p =>
        let q := s.opAim o p.1
        a.add (natBytes p.2 (s.opRead o q p.2)) (if s.windowBadOf q (s.opKey o q) p.2 then some q else none)) a)
    else match sideMap ms r.1 with
      | some m => s.readLines o m pa r.1 (r.2 / 128 + 2) r.2 a
      | none => (s, a)) (s, ⟨[], none⟩)

/-- Whether an operation was issued in the present checkpoint epoch of its team: only then do its writes keep pre-images (R445). -/
def State.opNew (s : State) (o : CopyOp) : Bool :=
  s.handleNew (stackOf o.core) o.team o.coord o.handle

/-- The pre-image of an operation's write through a window. -/
def State.preOp (s : State) (o : CopyOp) (pa : Nat) : State :=
  if s.opNew o then s.preWindow (stackOf o.core) o.team pa (s.opKey o pa) else s

/-- Bytes written by an operation through a window, in accesses of the widths admitted. Completion words among them hold their
operations' stores no more. -/
def State.copyWindow (s : State) (o : CopyOp) : List (Nat × Nat) → List Byte → State
  | [], _ => s
  | (pa, n) :: l, d =>
    let b := (d.take n).map some
    let q := s.opAim o pa
    ((((s.preOp o q).windowWrite q (s.opKey o q) b).unpoison q b).cwGone q n).copyWindow o l (d.drop n)

/-- The mapping of a byte as it stands now: a page may have been backed since the issue (R246). -/
def State.nowMaps (s : State) (st : StackId) (o : CopyOp) : List PageMap :=
  match (s.stack st).ops.find? (fun p => p.ofTask o.launch o.coord && p.handle == o.handle) with
  | some p => p.dst
  | none => o.dst

/-- Bytes written by an operation to memory, line by line, each at the mapping it has then: a line before it may have backed the page
(R241, R244, R246). A line that waits for a frame is held (R245). -/
def State.copyMemory (s : State) (st : StackId) (o : CopyOp) (va : Nat) : Nat → List Byte → State
  | 0, _ => s
  | k + 1, l =>
    if l.isEmpty then s
    else
      let ms := s.nowMaps st o
      match sideMap ms va with
      | none => s
      | some m =>
        let pa := sidePa ms va
        let n := 128 - pa % 128
        let b := (l.take n).map some
        let line := lineOf pa
        let w := o.tag m pa va
        let s := if s.opNew o then s.preLine (stackOf o.core) o.team line (s.homeLine w.home line) (s.homeBad w.home line) else s
        let p : PWrite := ⟨pa, b, w, false, true, [], false, 0#16⟩
        let (s, e) := if s.wayHeld p then (s, .held) else s.writeHome w pa b false 0#16
        let s := match e with
          | .done => s
          | .held => { s with pwrites := s.pwrites ++ [p] }
          | .overrun => s.fatalFor o.core o.ctx o.launch o.coord o.fpos errOverrun slotEngine
              (agentId (.engine o.core o.ctx o.launch o.coord o.handle)) (BitVec.ofNat 64 va) (BitVec.ofNat 64 pa)
        s.copyMemory st o (va + n) k (l.drop n)

/-- One row written. -/
def State.copyRow (s : State) (st : StackId) (o : CopyOp) (va : Nat) (bytes : List Byte) : State :=
  (cutRange o.dst va bytes.length).foldl (fun (s : State) r =>
    let b := (bytes.drop (r.1 - va)).take r.2
    let pa := sidePa (s.nowMaps st o) r.1
    if paWindow pa then s.copyWindow o (winParts pa r.2) b
    else s.copyMemory st o r.1 (r.2 / 128 + 2) b) s

/-- One row written into a circular buffer's slot. -/
def State.slotRow (s : State) (o : CopyOp) (b slot i : Nat) (bytes : List Byte) : State :=
  match s.taskOf o.launch o.coord with
  | none => s
  | some t =>
    match o.buf.orElse (fun _ => t.cbs.find b) with
    | none => s
    | some x =>
      let a := x.rowOff o.desc slot i
      let pa := s.ownPa o.core o.launch o.coord (windowPa (stackOf o.core).val (coreInStack o.core) 0 a)
      s.copyWindow o (winParts pa bytes.length) bytes

/-- The rows of an operation, in their order, from the source bytes read before. -/
def State.copyRows (s : State) (st : StackId) (o : CopyOp) : Nat → List (List Byte) → State
  | _, [] => s
  | i, r :: l =>
    let s := match o.kind with
      | .remote => s.send (.write (Fin.ofNat 4096 o.desc.rmod) o.ctx (BitVec.ofNat 56 (rowByte o.dstVa o.desc.dstr i)) r)
      | _ => match o.desc.cb, o.slot with
        | some b, some k => s.slotRow o b k i r
        | _, _ => s.copyRow st o (rowByte o.dstVa o.desc.dstr i) r
    s.copyRows st o (i + 1) l

/-! ## Migration (R246, R289) -/

/-- The stack a migration moves its page to; none where it moves nothing. -/
def State.migTarget (s : State) (o : CopyOp) (home : StackId) : Option StackId :=
  let w := s.locate o.launch o.desc.dst
  let st := w.toNat / 2 ^ 61
  let t : StackId := Fin.ofNat 64 (w.toNat / 2 ^ 10 % 64)
  if (st = 0 ∨ st = 4) ∧ t ≠ home then some t else none

/-- Mappings of a page in copy operations follow its home. -/
def CopyOp.rehome (leafPa : Nat) (h : StackId) (o : CopyOp) : CopyOp :=
  let g (l : List PageMap) : List PageMap := l.map (fun m => if m.leafPa = leafPa then { m with home := h } else m)
  { o with src := g o.src, dst := g o.dst }

/-- Gives a leaf entry a new home, keeping the rest; writes on their way and operations follow, and every TLB drops the page. -/
def State.rehome (s : State) (leafPa : Nat) (t : StackId) : State :=
  let e := s.entry leafPa
  let e' := leafWith e (leafUnb e) (leafFrame e) t
  let s := (s.putLeaf leafPa e').rehomeWrites leafPa t
  { s with
    backed := if s.backed.find leafPa == some e then s.backed.set leafPa e' else s.backed
    stackTab := s.stackTab.map (fun x => (x.1, { x.2 with
      ops := x.2.ops.map (CopyOp.rehome leafPa t), requests := x.2.requests.map (CopyOp.rehome leafPa t) })) }

/-- The old home L2 writes back its dirty lines of a backed page and drops them all (R289). -/
def State.dropPage (s : State) (home : StackId) (base n : Nat) : State :=
  (((s.stack home).l2.map L2Line.line).filter (fun l => decide (base ≤ 128 * l) && decide (128 * l < base + n))).foldl
    (fun (s : State) l => s.evictL2 home l) s

/-- Whether a slice has room for the records of a page; a migration waits for it (R366). -/
def State.recRoom (s : State) (a b : StackId) (base n : Nat) : Bool :=
  decide (((s.stack a).toks.filter (fun e => e.2.meets base n)).length + ((s.stack b).toks.filter (fun e => e.1 < 15344)).length ≤ 15344)

/-- Runs a migration; answers whether it has ended (it waits for places for its records, and while a backing of its page waits for a
frame: transitions at one home go one at a time, R246). -/
def State.migrate (s : State) (o : CopyOp) : State × Bool :=
  match o.src with
  | m :: _ =>
    let e := s.entry m.leafPa
    let home := leafHome e
    match s.migTarget o home with
    | none => (s, true)
    | some t =>
      if s.heldPage home m.leafPa || !s.recRoom home t m.base m.len then (s, false)
      else if !leafUnb e then (((s.dropPage home m.base m.len).rehome m.leafPa t).moveRecs home t m.base m.len, true)
      else
        let ls := s.pageLines m.leafPa
        let n := ls.length
        let room : Bool := match (s.stack t).resvOf o.ctx with
          | some (_, r) => decide (r.used.toNat + n ≤ r.resv.toNat)
          | none => decide (n = 0)
        if room then
          let s := (s.addUsed home o.ctx (-(n : Int))).addUsed t o.ctx n
          let s := { s with live := s.live.map (fun (l : Nat × LiveLine) => if l.2.leafPa = m.leafPa then (l.1, { l.2 with home := t }) else l) }
          ((s.rehome m.leafPa t).moveRecs home t m.base m.len, true)
        else if !leafLate e then
          (s.fatalFor o.core o.ctx o.launch o.coord o.fpos errOverrun slotEngine
            (agentId (.engine o.core o.ctx o.launch o.coord o.handle)) o.desc.src (BitVec.ofNat 64 m.base), true)
        else s.needFrame o.ctx m.leafPa home (poolDie t) t
  | [] => (s, true)

/-! ## Running and completing (R284, R288) -/

/-- Destination bytes of an operation. -/
def CopyOp.bytes (o : CopyOp) : Nat := if o.kind = .mig then 0 else o.desc.rlen * o.desc.rows

/-- Whether a write of the operation still waits for a frame. -/
def State.opHeld (s : State) (o : CopyOp) : Bool :=
  s.pwrites.any (fun w => w.held && w.tag.core == o.core && w.tag.launch == o.launch && w.tag.coord == o.coord &&
    o.dst.any (fun m => decide (m.base < w.pa + 128) && decide (w.pa < m.base + m.len)))

/-- Whether the engine that runs an operation is fenced or in its self-test: nothing of the operation goes on (R292, R441). -/
def State.opStopped (s : State) (st : StackId) (o : CopyOp) : Bool :=
  o.failed || (match o.eng with
    | some e => (s.stack st).engFenced.getLsbD e.val || s.tests.any (fun u => u.1 == .engine st e)
    | none => false)

/-- The rows of the source, each read whole before any byte is written (R282), and the first poisoned address. -/
def State.readRows (s : State) (o : CopyOp) : Nat → Nat → State × List (List Byte) × Option Nat
  | 0, _ => (s, [], none)
  | k + 1, i =>
    let (s, r) := s.readSide o o.src (rowByte o.desc.src.toNat o.desc.sstr i) o.desc.rlen
    let (s, l, bad) := s.readRows o k (i + 1)
    (s, r.bytes :: l, r.bad.orElse (fun _ => bad))

/-- Changes operation `n` of a stack. -/
def State.mapOp (s : State) (st : StackId) (n : Nat) (f : CopyOp → CopyOp) : State :=
  match (s.stack st).ops[n]? with
  | some p => s.setStack st { s.stack st with ops := listSet (s.stack st).ops n (f p) }
  | none => s

/-- The operation's bytes are read, then written; poison in its source stops it (R443), as does
a module that no port reaches (R477). -/
def State.runOp (s : State) (st : StackId) (n : Nat) : State :=
  match (s.stack st).ops[n]? with
  | none => s
  | some o =>
    if o.ran || s.opStopped st o || s.opShut o || o.eng.isNone || (o.desc.cb.isSome && o.slot.isNone) then s
    else if o.kind = .mig then
      let (s, e) := s.migrate o
      if e then s.mapOp st n (fun p => { p with ran := true }) else s
    else if o.kind == .remote && !s.reaches (Fin.ofNat 4096 o.desc.rmod) then
      (s.mapOp st n (fun p => { p with failed := true })).soon (.copyAt st n true 0)
    else
      let (s, rows, bad) := s.readRows o o.desc.rows 0
      match bad with
      | some pa => (s.mapOp st n (fun p => { p with failed := true })).soon (.copyAt st n false pa)
      | none =>
        let s := s.copyRows st o 0 rows
        let s := (s.count o.ctx ctrCEBYTE o.bytes).charge o.launch st (fun a => { a with cebyte := a.cebyte + o.bytes })
        let s := s.mapTaskOf o.launch o.coord (fun t => match t.ops.find o.handle with
          | some p => { t with ops := t.ops.set o.handle { p with bytes := o.bytes } }
          | none => t)
        s.mapOp st n (fun p => { p with ran := true })

/-- FOLLOW_ON_COMMIT of operation `n`: its last byte has landed, and the captured command is committed unless the pending slot is
taken (R288). -/
def execFollowOnCommit (st : StackId) (n : Nat) (s : State) : Host.Outcome State Fault Refusal :=
  let s := s.runOp st n
  match (s.stack st).ops[n]? with
  | none => .next s
  | some o =>
    match o.follow with
    | none => .next s
    | some k =>
      if !o.ran || o.committed || s.opStopped st o || s.opHeld o then .next s
      else
        let done := s.mapOp st n (fun p => { p with committed := true })
        match s.task? o.core with
        | some t =>
          if isTask t o.launch o.coord then
            if (t.arr o.arr).pnd.isSome then .next s
            else .next (done.setTask o.core (t.setArr o.arr ((t.arr o.arr).commit (k.capture t o.arr))))
          else .next (if (s.taskOf o.launch o.coord).isNone then done else s)
        | none => .next (if (s.taskOf o.launch o.coord).isNone then done else s)

/-- The slots at the head of a claim list that are filled are counted (R248). -/
def CircBuf.countFilled (x : CircBuf) : Nat → CircBuf
  | 0 => x
  | k + 1 => match x.claim with
    | (_, true) :: l => ({ x with claim := l, filled := x.filled + 1 }).countFilled k
    | _ => x

/-- A slot is filled. -/
def CircBuf.fill (x : CircBuf) (slot : Nat) : CircBuf :=
  let x := { x with claim := x.claim.map (fun (e : Nat × Bool) => if e.1 = slot then (e.1, true) else e) }
  x.countFilled x.claim.length

/-- The completion steps of R284 on the task's side, the slot and the completion word. -/
def State.completeOp (s : State) (o : CopyOp) : State :=
  let s := s.mapTaskOf o.launch o.coord (fun t =>
    let t := match t.ops.find o.handle with
      | some p => { t with ops := t.ops.set o.handle { p with done := true } }
      | none => t
    match o.desc.cb, o.slot with
    | some b, some k => match t.cbs.find b with
      | some x => if o.buf.isSome then t else { t with cbs := t.cbs.set b (x.fill k) }
      | none => t
    | _, _ => t)
  let s := match o.desc.cb, s.task? o.core with
    | some b, some t => if isTask t o.launch o.coord then s.cbServe o.core b else s
    | _, _ => s
  if o.cwPa = 0 then s
  else { s with fes := s.fes ++ [⟨.stf, o.core, o.ctx, o.launch, o.coord, 0, o.cwPa, 1, false, o.desc.tag.setWidth 1024,
      if o.kind = .remote then .sy else .dv, false, some o.handle, s.feSeq⟩] }

/-- Records of a region held for an operation whose task is gone are cleared (R429). -/
def State.clearOpRecs (s : State) (o : CopyOp) : State :=
  let eg : Agent := .engine o.core o.ctx o.launch o.coord o.handle
  let rs := s.stackTab.flatMap (fun e => (e.2.toks.filter (fun r => r.2.holder == eg)).map (fun r => (r.2.base, r.2.size)))
  let mine (g : GrantS) : Bool := g.op == some o.handle && g.ctx == o.ctx && g.holder == some (.task o.core o.ctx o.launch o.coord)
  let stays (r : TokRec) : Bool := !rs.contains (r.base, r.size) || r.st == .lost
  let s' := { s with
    toks := s.toks.filter (fun m => match m with
      | .need _ r _ _ _ => r.holder != eg && stays r
      | _ => true)
    stackTab := s.stackTab.map (fun e => (e.1, { e.2 with toks := e.2.toks.filter (fun r => stays r.2) }))
    grants := s.grants.filter (fun g => !mine g) }
  (s.grants.filter mine).foldl (fun (s : State) g =>
    if s.reaches g.lender then s.send (.giveBack g.lender g.ctx g.va g.sizeExp) else s) s'

/-- COPY_COMPLETE of operation `n`: its writes are acknowledged, and the steps of R284 run; those of an ended context are skipped
(R429). -/
def execCopyComplete (st : StackId) (n : Nat) (s : State) : Host.Outcome State Fault Refusal :=
  let s := s.runOp st n
  match (s.stack st).ops[n]? with
  | none => .next s
  | some o =>
    if !o.ran || s.opStopped st o || s.opHeld o || (o.follow.isSome && !o.committed) then .next s
    else
      let s := s.setStack st { s.stack st with ops := listDrop (s.stack st).ops n }
      .next (if (s.taskOf o.launch o.coord).isSome then s.completeOp o else s.clearOpRecs o)

end Sys2Proof.Machine
end

