-- ==== Sys2Proof/Machine/Transfers.lean ====
section
/-! DEFINITION. Token transfers: the receiver of a lend, messages and their arrival, claims, recalls and unshares as waits, records
that wait for a place (R364 to R374, R384 to R391, R408, R446, R463, R464, R478). -/

namespace Sys2Proof.Machine

/-! ## Agents -/

/-- The task of a launch at a coordinate as an agent: on the core where it is or is kept, else core 0 until it is placed. -/
def State.taskAgent (s : State) (ctx : CtxId) (launch : Nat) (coord : BitVec 48) : Agent :=
  match s.placedOn launch coord with
  | some k => .task (Fin.ofNat 1024 k) ctx launch coord
  | none => match s.suspendedAt launch coord with
    | some (st, k) => .task (coreOf (Fin.ofNat 64 st) k) ctx launch coord
    | none => .task 0 ctx launch coord

/-- Whether an agent is a task that has finished, or has settled what it held at its end (R388, R463). -/
def State.agentGone (s : State) : Agent → Bool
  | .task _ _ n co => match s.launch? n with
    | some l => l.finishedCoords.contains co || (s.taskOf n co).any (fun t => t.settled)
    | none => true
  | _ => false

/-- Whether two agents are tasks of one team (R446). -/
def State.teamMates (s : State) : Agent → Agent → Bool
  | .task _ _ n a, .task _ _ m b => n == m && (match s.launch? n with
    | some l => sameTeam l.img a b
    | none => false)
  | .engine _ _ n a _, .task _ _ m b => n == m && (match s.launch? n with
    | some l => sameTeam l.img a b
    | none => false)
  | _, _ => false

/-- The team of a task, wherever it is: current, suspended, or not yet started. -/
def State.teamOfTask (s : State) (c : CoreId) (launch : Nat) (coord : BitVec 48) : Option Nat :=
  match s.taskOf launch coord with
  | some t => some t.team
  | none => match (s.core c).next with
    | some (.new _ n co _ m _) => if n = launch ∧ co = coord then some m else none
    | _ => none

/-- The team of an agent that is a task runs unprotected from now on (R446). -/
def State.unprotectAgent (s : State) : Agent → State
  | .task c _ n co => match s.teamOfTask c n co with
    | some m => s.unprotectTeam (stackOf c) m
    | none => s
  | _ => s

/-- A transfer between two agents makes both teams unprotected unless they are one (R446; log entry 28). -/
def State.outsideEdge (s : State) (a b : Agent) : State :=
  if s.teamMates a b then s else (s.unprotectAgent a).unprotectAgent b

/-! ## Rest -/

/-- A lender that lives keeps the region as LENT until its own `tkwait` (R372, R393). -/
def State.keepLent (s : State) (r : TokRec) : State :=
  match r.holder with
  | .task _ _ n co =>
    if r.st = .lent ∧ r.sh = false then
      s.mapTaskOf n co (fun t => { t with lentOut := t.lentOut ++ [(r.base, r.size, r.depth)] })
    else s
  | _ => s

/-- Every record of a region is cleared, and the region is at rest with the scope of its last return (R365, R388); records of a
LOST one stay until V = 0 is written to each (R382). -/
def State.toRest (s : State) (st : StackId) (base size : Nat) (sc : Scope) : State :=
  let rs : List (Nat × TokRec) := (s.stack st).recsFor base size
  if rs.any (fun e => e.2.st == TokSt.lost) then s
  else
    let s := rs.foldl (fun (s : State) e => s.keepLent e.2) s
    (s.setStack st { s.stack st with toks := (s.stack st).toks.filter (fun e => !e.2.isFor base size) }).putRest base size sc

/-- Whether a return to rest of any part of a region is on its way. -/
def State.restComing (s : State) (base size : Nat) : Bool :=
  s.toks.any (fun m => match m with
    | .ret _ b z 0 _ _ _ => rangesMeet b (regionBytes z) base (regionBytes size)
    | .need _ r _ _ _ => rangesMeet r.base (regionBytes r.size) base (regionBytes size)
    | _ => false)

/-- Whether every part of a region is at rest; a core region of a core rests with its current task (R365, R390). -/
def State.atRest (s : State) (st : StackId) (base size : Nat) : Bool :=
  !(paWindow base && winIsCore base) && !((s.stack st).toks.any (fun e => e.2.meets base (regionBytes size))) &&
    !s.restComing base size

/-- The home stack's share count has fallen to nothing: a depth-0 token goes to rest, a deeper one to its lender (R463). -/
def State.stackEmpty (s : State) (st : StackId) (r : TokRec) : State :=
  if r.depth = 0 then s.toRest st r.base r.size .dv
  else
    let x := s.stack st
    let x := { x with toks := x.toks.filter (fun (e : Nat × TokRec) =>
      !(e.2.isFor r.base r.size && e.2.depth == r.depth && !e.2.sh && e.2.st != TokSt.lost)) }
    match x.toks.find? (fun e => e.2.isFor r.base r.size && !e.2.sh && e.2.depth + 1 == r.depth) with
    | some (e, l) =>
      if s.agentGone l.holder then (s.setStack st x).toRest st r.base r.size .dv
      else s.setStack st (x.setTok e { l with back := true, backSc := [.dv] })
    | none => s.setStack st x

/-- One share given back: counted for the owner's next `tkrcl`, or lowered at once where the stack holds the token (R374,
R463). -/
def State.shareBack (s : State) (st : StackId) (base size : Nat) (at_ : Bool) (sc : Scope) : State :=
  let x := s.stack st
  match x.toks.find? (fun e => e.2.isFor base size && !e.2.sh && decide (0 < e.2.nsh)) with
  | none => s
  | some (e, r) =>
    match r.holder with
    | .stack _ =>
      let r := { r with nsh := r.nsh - 1, nat := r.nat - b2n at_ }
      let s := s.setStack st (x.setTok e r)
      if r.nsh = 0 then s.stackEmpty st r else s
    | _ => s.setStack st (x.setTok e { r with backSh := r.backSh + 1, backAt := r.backAt + b2n at_,
                                              backSc := addScope r.backSc sc })

/-! ## Messages -/

/-- The region a message is about. -/
def TokMsg.region (s : State) : TokMsg → Option (Nat × Nat)
  | .deliver st e _ _ => ((s.stack st).toks.find e).map (fun r => (r.base, r.size))
  | .ret _ b z _ _ _ _ => some (b, z)
  | .unshare _ b z _ _ _ _ => some (b, z)
  | .need _ r _ _ _ => some (r.base, r.size)

/-- The task that sent a message. -/
def TokMsg.src : TokMsg → Src
  | .deliver _ _ c _ => c
  | .ret _ _ _ _ _ c _ => c
  | .unshare _ _ _ _ _ c _ => c
  | .need _ _ c _ _ => c

/-- The stack whose slice a message is for. -/
def TokMsg.home : TokMsg → StackId
  | .deliver st _ _ _ => st
  | .ret st _ _ _ _ _ _ => st
  | .unshare st _ _ _ _ _ _ => st
  | .need st _ _ _ _ => st

/-- The number below which full/empty accesses go before a message. -/
def TokMsg.after : TokMsg → Nat
  | .deliver _ _ _ n => n
  | .ret _ _ _ _ _ _ n => n
  | .unshare _ _ _ _ _ _ n => n
  | .need _ _ _ _ n => n

/-- The scope of a message's release. -/
def TokMsg.scope (s : State) : TokMsg → Scope
  | .deliver st e _ _ => match (s.stack st).toks.find e with
    | some r => r.sc
    | none => .dflt
  | .ret _ _ _ _ sc _ _ => sc
  | .unshare _ _ _ _ sc _ _ => sc
  | .need _ r _ _ _ => r.sc

/-- Whether message `n` may arrive: transfers of one region arrive in their order (R373), the writes it covers wait for no
frame (R245), the full/empty accesses and rounds before it have been performed and accepted (R370), and no fenced link holds it
(R450). -/
def State.msgMayArrive (s : State) (n : Nat) : Bool :=
  match s.toks[n]? with
  | some m =>
    let x := m.src
    !s.heldWrites x.launch x.coord && !s.earlierFe x.launch x.coord m.after &&
      !(decide (3 ≤ scopeRank (m.scope s)) && s.roundsWait x.launch x.coord m.after) && !s.linkShut (stackOf x.core) m.home &&
      (s.toks.take n).all (fun k => k.region s != m.region s || (k.region s).isNone)
  | none => false

/-- A transfer reaches a task that has finished: a token goes to rest, a share is given back (R388, R463). A LOST record stays
(R382). -/
def State.deadDelivery (s : State) (st : StackId) (e : Nat) (r : TokRec) : State :=
  if r.st = .lost then s
  else if r.sh then (s.setStack st ((s.stack st).dropTok e)).shareBack st r.base r.size r.at_ .dv
  else s.toRest st r.base r.size r.sc

/-- TOKEN_MESSAGE_ARRIVAL of message `n` (R369, R372, R388). -/
def State.tokArrive (s : State) (n : Nat) : State :=
  if !s.msgMayArrive n then s
  else
    match s.toks[n]? with
    | none => s
    | some m =>
      let s' := { s with toks := listDrop s.toks n }
      match m with
      | .deliver st e _ _ =>
        match (s.stack st).toks.find e with
        | none => s'
        | some r =>
          if s.agentGone r.holder then s'.deadDelivery st e r
          else s'.setStack st ((s'.stack st).setTok e { r with arr := true })
      | .ret st base size depth sc _ _ =>
        if depth = 0 then s'.putRest base size sc
        else
          match (s.stack st).toks.find? (fun e => e.2.isFor base size && !e.2.sh && e.2.depth + 1 == depth) with
          | some (e, r) =>
            if s.agentGone r.holder then s'.toRest st base size sc
            else
              match r.holder with
              | .stack _ => s'.stackEmpty st r
              | _ => s'.setStack st ((s'.stack st).setTok e { r with back := true, backSc := [sc] })
          | none => s'
      | .unshare st base size a sc _ _ => s'.shareBack st base size a sc
      | .need _ _ _ _ _ => s

def execTokenMessageArrival (n : Nat) (s : State) : Host.Outcome State Fault Refusal := .next (s.tokArrive n)

/-- NAK_RETRY of request `n`, which arrives as a message does: a free general record, or after two NAKs the reserved record of its
core (R367, R373, R408). A transfer to a task that has finished then goes to rest (R388). -/
def execNakRetry (n : Nat) (s : State) : Host.Outcome State Fault Refusal :=
  match s.toks[n]? with
  | some (.need st r c k a) =>
    if !s.msgMayArrive n then .next s
    else match (s.stack st).newTok c.core k with
      | some e =>
        let s' := { s.setStack st ((s.stack st).setTok e { r with arr := true }) with toks := listDrop s.toks n }
        .next (if s.agentGone r.holder && !r.claimed then s'.deadDelivery st e r else s')
      | none => .next { s with toks := listSet s.toks n (.need st r c (nakUp k) a) }
  | _ => .next s

/-- TOKEN_RECORD_CLEAR: V = 0 written to a LOST record (R366, R382, R384). -/
def execTokenRecordClear (st : StackId) (e : Fin 16384) (s : State) : Host.Outcome State Fault Refusal :=
  match (s.stack st).toks.find e.val with
  | some r => .next (if r.st = .lost then s.setStack st ((s.stack st).dropTok e.val) else s)
  | none => .next s

/-! ## Claims (R371, R372, R390) -/

/-- The record of a region that a task holds outright or has been sent. -/
def StackS.ownRec (x : StackS) (ag : Agent) (base size : Nat) : Option (Nat × TokRec) :=
  x.toks.find? (fun e => e.2.isFor base size && e.2.holder == ag && !e.2.sh)

/-- A share of a region that a task holds or has been sent. -/
def StackS.shareRec (x : StackS) (ag : Agent) (base size : Nat) (claimed : Bool) : Option (Nat × TokRec) :=
  x.toks.find? (fun e => e.2.isFor base size && e.2.holder == ag && e.2.sh && e.2.claimed == claimed)

/-- The deepest record of a region that is not a share. -/
def StackS.deepest (x : StackS) (base size : Nat) : Option TokRec :=
  (x.toks.find? (fun e => e.2.isFor base size && !e.2.sh && e.2.st != .lent)).map Prod.snd

/-- How a `tkwait` stands: still waiting, answered with a NAK for want of a record, complete, or the region is LOST (R384, R390,
R408). -/
inductive ClaimEnd where
  | waits
  | nak
  | done (s : State)
  | lost

/-- The agent whose record lies one depth above a record. -/
def StackS.lenderOf (x : StackS) (r : TokRec) : Option Agent :=
  (x.toks.find? (fun e => e.2.isFor r.base r.size && !e.2.sh && e.2.depth + 1 == r.depth)).map (fun e => e.2.holder)

/-- Writes a record, or frees it where it says no more than that the current task holds a core region. -/
def State.putRec (s : State) (st : StackId) (e : Nat) (r : TokRec) : State :=
  s.setStack st (if r.idle then (s.stack st).dropTok e else (s.stack st).setTok e r)

/-- Whether a share of a region can be claimed from its stack: at rest, or held SHARED at depth 0 (R369). -/
def State.sharable (s : State) (st : StackId) (base size : Nat) : Option (Nat × TokRec) :=
  (s.stack st).toks.find? (fun e => e.2.isFor base size && !e.2.sh && e.2.depth == 0 && e.2.holder == .stack st && e.2.st != .lost)

/-- A share from rest, the stack holding SHARED(n + 1) at depth 0 (R369), by a request that has met `naks` NAKs; none where a record
is wanting. -/
def State.restShare (s : State) (st : StackId) (c : CoreId) (naks : Nat) (ag : Agent) (base size : Nat) : Option State :=
  let x := s.stack st
  let mine := { TokRec.share base size 0 false .dflt ag with claimed := true, arr := true }
  match s.sharable st base size with
  | some (e, r) => (x.newTok c naks).map (fun k =>
      s.setStack st ((x.setTok e { r with st := .shared, nsh := r.nsh + 1 }).setTok k mine))
  | none => (x.newTok c naks).bind (fun k =>
      let y := x.setTok k { TokRec.fresh base size 0 .dflt (.stack st) with claimed := true, arr := true, st := .shared, nsh := 1 }
      (y.newTok c naks).map (fun j => s.setStack st (y.setTok j mine)))

/-- A claim of a region by the task on a core, for the token or for a share (R390). -/
def State.claim (s : State) (c : CoreId) (t : Task) (share : Bool) (st : StackId) (base size : Nat) : ClaimEnd :=
  let ag := t.agent c
  let x := s.stack st
  let view := t.lentOut.any (fun r => r.1 == base && r.2.1 == size)
  let took (s : State) (scs : List Scope) (from_ : Option Agent) : ClaimEnd :=
    let s := (s.mapTask c (fun t => { t with lentOut := t.lentOut.filter (fun r => !(r.1 == base && r.2.1 == size)) })).acquireAll c scs
    .done (match from_ with
      | some g => s.outsideEdge ag g
      | none => s.unprotect c t)
  if s.lostIn st base (regionBytes size) then .lost
  else
    match x.ownRec ag base size with
    | some (e, r) =>
      if r.claimed && r.st != .lent then .done s
      else if r.claimed then
        match x.deepest base size with
        | some d =>
          match d.holder with
          | .engine k _ n co h =>
            if k == c && isTask t n co then
              match t.ops.find h with
              | some o => if o.done then .done (s.joinOp c h) else .waits
              | none => .waits
            else .waits
          | _ => if r.back then took (s.putRec st e r.regain) r.backSc none else .waits
        | none =>
          if r.back then took (s.putRec st e r.regain) r.backSc none else .waits
      else if r.arr && !share then
        took (s.setStack st (x.setTok e { r with claimed := true })) [r.sc] (x.lenderOf r)
      else if share && (x.shareRec ag base size true).isSome then .done s
      else .waits
    | none =>
      if share && view then .waits
      else if share then
        match x.shareRec ag base size true with
        | some _ => .done s
        | none =>
          match x.shareRec ag base size false with
          | some (e, r) =>
            if r.arr then
              took (s.setStack st (x.setTok e { r with claimed := true })) [r.sc]
                ((x.toks.find? (fun e => e.2.isFor base size && !e.2.sh && decide (0 < e.2.nsh))).map (fun e => e.2.holder))
            else .waits
          | none =>
            if s.holdsCore ag base then .done s
            else if (s.sharable st base size).isNone && !s.atRest st base size then .waits
            else match s.restShare st c t.naks ag base size with
              | some s' => took s' (s.restScopes base size) none
              | none => .nak
      else if s.holdsCore ag base then .done s
      else if view && s.coreAtRest ag base then took s (s.restScopes base size) none
      else if s.atRest st base size then
        match x.newTok c t.naks with
        | some k =>
          took (s.setStack st (x.setTok k { TokRec.fresh base size 0 .dflt ag with claimed := true, arr := true }))
            (s.restScopes base size) none
        | none => .nak
      else .waits

/-! ## Grants of other modules (R478) -/

/-- Bytes of a grant. -/
def GrantS.bytes (g : GrantS) : Nat := 2 ^ g.sizeExp

/-- The grant an alias names: VA[63:62] = 0b10, VA[61:56] = 0. -/
def isAlias (va : Word) : Bool := va.toNat / 2 ^ 56 == 0x80

def GrantS.covers (g : GrantS) (ctx : CtxId) (a : Nat) : Bool :=
  g.ctx == ctx && decide (g.va.toNat ≤ a) && decide (a < g.va.toNat + g.bytes)

/-- Replaces the first grant of a list that satisfies `p`. -/
def mapFirst {α : Type} (p : α → Bool) (f : α → α) : List α → List α
  | [] => []
  | a :: l => if p a then f a :: l else a :: mapFirst p f l

/-- A claim of a grant by an address of its alias: the grant of the region of that size that contains the address (R390, R478). -/
def State.claimGrant (s : State) (c : CoreId) (t : Task) (a size : Nat) : ClaimEnd :=
  let ag := t.agent c
  let is (g : GrantS) : Bool := g.covers t.ctx (a % 2 ^ 56) && g.bytes == regionBytes size
  match s.grants.find? is with
  | some g =>
    match g.holder with
    | none =>
      .done (({ s with grants := mapFirst is (fun g => { g with holder := some ag }) s.grants }.acquire c .sy).unprotect c t)
    | some h =>
      if h == ag then
        match g.op with
        | none => .done s
        | some o => match t.ops.find o with
          | some p => if p.done then .done (s.joinOp c o) else .waits
          | none => .done s
      else .waits
  | none => .waits

/-- A grant goes back to its lender behind a release at `.sy` of a task (R370, R478); where no route leads there, the answer is an
error completion (R477). -/
def State.giveGrant (s : State) (src : Src) (g : GrantS) : State :=
  let s := { s with grants := s.grants.erase g }
  if s.reaches g.lender then s.sendAfter src s.feSeq (.giveBack g.lender g.ctx g.va g.sizeExp)
  else s.soon (.load src.core true)

/-! ## Splits (R392, R408) -/

/-- Records `l` of a slice each get a second one for the upper half of their region; none where a record is wanting. -/
def StackS.splitUp (x : StackS) (c : CoreId) (naks base size : Nat) : List (Nat × TokRec) → Option StackS
  | [] => some x
  | e :: l => (x.newTok c naks).bind (fun k =>
      (x.setTok k { e.2 with base := base + regionBytes size, size := size }).splitUp c naks base size l)

/-- Every record of a region that is not a share is replaced by records of its two halves; none where a record is wanting. -/
def State.splitRegion (s : State) (c : CoreId) (naks : Nat) (st : StackId) (base size : Nat) : Option State :=
  let x := s.stack st
  let half := size - 1
  let y := { x with toks := x.toks.map (fun (e : Nat × TokRec) => if e.2.isFor base size then (e.1, { e.2 with size := half }) else e) }
  (y.splitUp c naks base half (x.toks.filter (fun e => e.2.isFor base size && !e.2.sh))).map (s.setStack st)

/-! ## Waiting token instructions -/

/-- A wait of the task on a core has completed. -/
def State.endWait (s : State) (c : CoreId) (w : Wait) : State :=
  s.mapTask c (fun t => { t with waits := t.waits.erase w, naks := 0 })

/-- The waiting request of the task on a core has met one more NAK (R408). -/
def State.nakTask (s : State) (c : CoreId) : State := s.mapTask c (fun t => { t with naks := nakUp t.naks })

/-- A `tkwait`, `tkrcl`, `tkunsh` or `tksplit` that waits is tried (R282, R384, R390, R391, R408). -/
def State.tokTry (s : State) (c : CoreId) (w : Wait) : State :=
  match s.task? c with
  | none => s
  | some t =>
    if !t.waits.contains w then s
    else
      let lost (base : Nat) : State :=
        (s.endWait c w).fatalAt c errLost (slotIx .Y) 0#64 0#64 (BitVec.ofNat 64 base)
      match w with
      | .token share va base size =>
        let e := if isAlias va then s.claimGrant c t va.toNat size
          else match s.translateFor c t va with
            | .ok l =>
              if s.linkShut (stackOf c) (regionHome l) then .waits
              else s.claim c t share (regionHome l) (l.pa / regionBytes size * regionBytes size) size
            | .error _ => s.claim c t share (s.sliceOf base) base size
        match e with
        | .waits => s
        | .nak => s.nakTask c
        | .done s' => s'.endWait c w
        | .lost => lost base
      | .split base size =>
        let st := s.sliceOf base
        if s.lostIn st base (regionBytes size) then lost base
        else if s.linkShut (stackOf c) st then s
        else match s.splitRegion c t.naks st base size with
          | some s' => s'.endWait c w
          | none => s.nakTask c
      | .recall base size =>
        let st := s.sliceOf base
        if s.linkShut (stackOf c) st then s
        else match (s.stack st).ownRec (t.agent c) base size with
        | some (e, r) =>
          if r.st = .lost then lost base
          else if r.nsh = r.backSh + r.eng then
            let r' := { r with nsh := r.eng, nat := 0, backSh := 0, backAt := 0, backSc := [],
                               st := if r.eng = 0 then .excl else .shared }
            ((s.putRec st e r').acquireAll c r.backSc).endWait c w
          else s
        | none => if (s.ownRec st (t.agent c) base size).isSome then s else s.endWait c w
      | .unshare base size sc =>
        if t.ops.any (fun o => !o.2.joined && o.2.under.contains (base, size)) || s.linkShut (stackOf c) (s.sliceOf base) then s
        else
          let st := s.sliceOf base
          match (s.stack st).shareRec (t.agent c) base size true with
          | some (e, r) =>
            if r.st = .lost then lost base
            else
              let s := s.releaseFor c t sc
              let b := (((s.stack st).toks.find e).map TokRec.base).getD base
              let s := s.dropRegion c b (regionBytes size) sc
              let s := s.setStack st ((s.stack st).dropTok e)
              { s with toks := s.toks ++ [TokMsg.unshare st b size r.at_ sc (t.agent c).src s.feSeq] }.endWait c (.unshare b size sc)
          | none => s.endWait c w
      | _ => s

/-- A waiting token instruction starts, and completes at once where it can. -/
def State.tokWait (s : State) (c : CoreId) (w : Wait) : State :=
  (s.mapTask c (fun t => { t with waits := t.waits ++ [w] })).tokTry c w

end Sys2Proof.Machine
end

