-- ==== Sys2Proof/Machine/TokInstr.lean ====
section
/-! DEFINITION. The token instructions and register moves of the Y slot (R385 to R393, R407, R478). -/

namespace Sys2Proof.Machine

/-! ## Operands and regions (R385) -/

/-- A 64-bit source of the Y slot; 0xC1 reads S3 sign-extended. -/
def Task.srcY (t : Task) (s3 : BitVec 8) (o : Opd) : Word := t.regs.readW .Y (immS8 s3) o

/-- Bytes of a core's window of a kind (R232). -/
def winExtent : Nat → Nat
  | 0 => 0x80000
  | 1 => 0x2440
  | 2 => 0x240
  | 3 => 0x4000
  | 4 => 0x800000
  | _ => 0x1000

/-- Whether a window address names a region: a core region, or a block of the power-controller window for a privileged context
(R360, R490). -/
def State.windowNames (s : State) (t : Task) (pa : Nat) : Bool :=
  winPlaceOk pa &&
  ((winIsCore pa && decide (winOff pa < winExtent (winKind pa))) ||
    (winKind pa == 8 && s.privileged t.ctx && s.powerBlockOk pa))

/-- The mapping of an address that names a region. -/
def State.regionLeaf (s : State) (c : CoreId) (t : Task) (va : Word) : Except AccErr Leaf :=
  match s.translateFor c t va with
  | .error _ => .error ⟨errTranslation, 0⟩
  | .ok l =>
    if l.ro then .error ⟨errPermission, l.pa⟩
    else if paWindow l.pa && !s.windowNames t l.pa then .error ⟨errPermission, l.pa⟩
    else .ok l

/-- A region as an instruction names it: its mapping, slice, base and SIZE. -/
structure Named where
  leaf : Leaf
  st : StackId
  base : Nat
  size : Nat
  deriving DecidableEq, Repr

/-- The region of the task's own record that contains the byte; without one, the least region there. -/
def State.named (s : State) (c : CoreId) (t : Task) (va : Word) (p : TokRec → Bool) : Except AccErr Named :=
  match s.regionLeaf c t va with
  | .error e => .error e
  | .ok l =>
    let st := regionHome l
    match ((s.stack st).recsAt l.pa).find? (fun e => e.2.holder == t.agent c && p e.2) with
    | some e => .ok ⟨l, st, e.2.base, e.2.size⟩
    | none => match t.lentAt l.pa with
      | some (b, z, _) => .ok ⟨l, st, b, z⟩
      | none => .ok ⟨l, st, minRegion l.pa, if paWindow l.pa then 0 else 4⟩

/-- A failure of a token instruction. -/
def State.tokFail (s : State) (c : CoreId) (t : Task) (syl va : Word) (code pa : Nat) : State :=
  s.failAccess c t .Y syl va ⟨code, pa⟩

/-- What an instruction names, then what it does there. -/
def State.onRegion (s : State) (c : CoreId) (t : Task) (syl va : Word) (f : Named → State) : State :=
  match s.named c t va (fun r => r.claimed) with
  | .error e => s.failAccess c t .Y syl va e
  | .ok r => (f r).noteShut (stackOf c) r.st

/-- The giver's own record of a region; a core region held by being current stands for EXCL at depth 0 (R233). -/
def State.giverRec (s : State) (c : CoreId) (t : Task) (r : Named) : Option TokRec :=
  match s.ownRec r.st (t.agent c) r.base r.size with
  | some x => if x.claimed then some x else none
  | none =>
    if s.holdsCore (t.agent c) r.base then
      some { TokRec.fresh r.base r.size 0 .dflt (t.agent c) with claimed := true, arr := true }
    else none

/-- Whether a region, or a part of it, is LOST (R384). -/
def State.lostRegion (s : State) (r : Named) : Bool :=
  s.lostIn r.st r.base (regionBytes r.size)

/-- The checks of a giver: LOST, then what the table of R389 asks. -/
def State.giver (s : State) (c : CoreId) (t : Task) (syl va : Word) (r : Named) (ok : TokRec → Bool) (f : TokRec → State) :
    State :=
  if s.lostRegion r then s.tokFail c t syl va errLost r.base
  else match s.giverRec c t r with
    | some x => if ok x then f x else s.tokFail c t syl va errUnowned r.base
    | none => s.tokFail c t syl va errUnowned r.base

/-- A region named again by the task, after something that may have backed its page and moved its records (R244, R360). -/
def State.again (s : State) (c : CoreId) (t : Task) (va : Word) (r : Named) : Named :=
  match s.named c t va (fun x => x.claimed) with
  | .ok n => n
  | .error _ => r

/-- The release of a transfer (R370): the scope's actions, then the giver's copies of the region go; with the region as it then is. -/
def State.transferRelease (s : State) (c : CoreId) (t : Task) (va : Word) (r : Named) (sc : Scope) : State × Named :=
  let s := (s.feOwnFirst c t r.base (regionBytes r.size) s.fes.length).releaseFor c t sc
  let r := s.again c t va r
  (s.dropRegion c r.base (regionBytes r.size) sc, r)

/-- A coordinate agent of R388: in the grid now, other than the issuer. -/
def State.coordAgent (s : State) (t : Task) (v : Word) : Option (BitVec 48) :=
  let d := v.setWidth 48
  if v.toNat / 2 ^ 48 = 0 ∧ inGrid (s.taskExt t) d = true ∧ d ≠ t.coord then some d else none

/-- The new record of a transfer and its message: the record's number where it has a place, else the request of R408. -/
def State.sendRec (s : State) (src : Src) (st : StackId) (r : TokRec) : State :=
  match freeTok (s.stack st).toks 15344 0 with
  | some e => { s.setStack st ((s.stack st).setTok e r) with toks := s.toks ++ [.deliver st e src s.feSeq] }
  | none => { s with toks := s.toks ++ [.need st r src 1 s.feSeq] }

/-- The region as it was held by a record or by being current. -/
def State.heldOf (s : State) (c : CoreId) (t : Task) (r : Named) : Held :=
  ⟨r.st, r.base, r.size, (s.ownRec r.st (t.agent c) r.base r.size).isSome⟩

/-- The task's own record of a region is freed, wherever it stands. -/
def State.dropOwn (s : State) (st : StackId) (ag : Agent) (base size : Nat) : State :=
  s.editToks st (fun y => if y.isFor base size && y.holder == ag && !y.sh then none else some y)

/-! ## tklend and tkret (R387 to R389, R478) -/

/-- EXCL, claimed, with no share outstanding. -/
def TokRec.exclusive (r : TokRec) : Bool := r.claimed && r.st == .excl && r.nsh == 0

/-- A lend to an agent of this module. -/
def State.lendTo (s : State) (c : CoreId) (t : Task) (va : Word) (r : Named) (x : TokRec) (to_ : Agent) (sc : Scope) : State :=
  let (s, r) := s.transferRelease c t va r sc
  let s := s.ensureRec c t (s.heldOf c t r)
  let s := s.editOwn r.st (t.agent c) r.base r.size (fun y => { y with st := .lent })
  (s.sendRec (t.agent c).src r.st (TokRec.fresh r.base r.size (x.depth + 1) sc to_)).outsideEdge (t.agent c) to_

/-- A lend at `.sy` to another module: LENT here, a grant there, whose message waits for what the release covers (R370, R373, R478);
toward an unreachable module the token is LOST (R477). -/
def State.lendRemote (s : State) (c : CoreId) (t : Task) (va : Word) (r : Named) (x : TokRec) (m : ModuleId) : State :=
  let (s, r) := s.transferRelease c t va r .sy
  let s := s.unprotect c t
  let s := s.ensureRec c t (s.heldOf c t r)
  let s := s.editOwn r.st (t.agent c) r.base r.size (fun y => { y with st := .lent })
  let s := s.addRec r.st
    { TokRec.fresh r.base r.size (x.depth + 1) .sy (.remote m) with claimed := true, arr := true } (t.agent c).src
  if s.reaches m then
    s.sendAfter (t.agent c).src s.feSeq (.lend m t.ctx (BitVec.ofNat 56 (r.leaf.vbase + (r.base - r.leaf.base))) (r.size + 8) x.depth)
  else s.loseRegion r.st r.base r.size

def execTklend (f : FmtYT) (s : State) : Host.Outcome State Fault Refusal :=
  s.issueS f.gd fun t =>
    let c := s.cur
    let syl := encode (.tklend f)
    let va := t.srcY f.s3 f.s1
    let v := t.srcY f.s3 f.s2
    s.onRegion c t syl va fun r =>
      let ok (x : TokRec) : Bool := x.exclusive && decide (x.depth ≤ 6)
      if f.shk.getLsbD 1 then
        if v.toNat / 2 ^ 12 != 0 || v.toNat == s.modid.toNat then s.tokFail c t syl va errPermission r.leaf.pa
        else s.giver c t syl va r ok fun x => s.lendRemote c t va r x (Fin.ofNat 4096 v.toNat)
      else
        match s.coordAgent t v with
        | none => s.tokFail c t syl va errPermission r.leaf.pa
        | some d => s.giver c t syl va r ok fun x => s.lendTo c t va r x (s.taskAgent t.ctx t.launch d) (scopeOr .dv f.sc)

/-- A return to the lender, or to rest at depth 0. A core region returned by its core's own task stays with that task (R365). -/
def State.returnTok (s : State) (c : CoreId) (t : Task) (va : Word) (r : Named) (x : TokRec) (sc : Scope) : State :=
  let (s, r) := s.transferRelease c t va r sc
  let s := match (s.stack r.st).lenderOf { x with base := r.base } with
    | some g => s.outsideEdge (t.agent c) g
    | none => s.unprotect c t
  if (s.ownRec r.st (t.agent c) r.base r.size).isNone then s
  else
    let s := s.dropOwn r.st (t.agent c) r.base r.size
    { s with toks := s.toks ++ [.ret r.st r.base r.size x.depth sc (t.agent c).src s.feSeq] }

def execTkret (f : FmtYT) (s : State) : Host.Outcome State Fault Refusal :=
  s.issueS f.gd fun t =>
    let c := s.cur
    let syl := encode (.tkret f)
    let va := t.srcY f.s3 f.s1
    if isAlias va then
      match s.grants.find? (fun g => g.covers t.ctx (va.toNat % 2 ^ 56) && g.holder == some (t.agent c) && g.op.isNone) with
      | some g => ((s.releaseFor c t .sy).unprotect c t).giveGrant (t.agent c).src g
      | none => s.tokFail c t syl va errUnowned 0
    else
      s.onRegion c t syl va fun r =>
        s.giver c t syl va r TokRec.exclusive fun x => s.returnTok c t va r x (scopeOr .dv f.sc)

/-! ## tkshr, tkunsh, tkrcl (R389, R391) -/

def execTkshr (f : FmtYT) (s : State) : Host.Outcome State Fault Refusal :=
  s.issueS f.gd fun t =>
    let c := s.cur
    let syl := encode (.tkshr f)
    let va := t.srcY f.s3 f.s1
    s.onRegion c t syl va fun r =>
      match s.coordAgent t (t.srcY f.s3 f.s2) with
      | none => s.tokFail c t syl va errPermission r.leaf.pa
      | some d =>
        let sc := scopeOr .dv f.sc
        let at_ := f.shk.getLsbD 0
        let to_ := s.taskAgent t.ctx t.launch d
        s.giver c t syl va r (fun x => x.claimed && (x.st == .excl || x.st == .shared)) fun x =>
          if 65535 ≤ x.nsh then s.tokFail c t syl va errPermission r.base
          else
            let (s, r) := s.transferRelease c t va r sc
            let s := s.ensureRec c t (s.heldOf c t r)
            let s := s.editOwn r.st (t.agent c) r.base r.size (fun y =>
              { y with st := .shared, nsh := y.nsh + 1, nat := y.nat + b2n at_ })
            (s.sendRec (t.agent c).src r.st (TokRec.share r.base r.size 0 at_ sc to_)).outsideEdge (t.agent c) to_

/-- `tkunsh` waits for the join of an operation that reads under the share (R282). -/
def execTkunsh (f : FmtYT) (s : State) : Host.Outcome State Fault Refusal :=
  s.issueS f.gd fun t =>
    let c := s.cur
    let syl := encode (.tkunsh f)
    let va := t.srcY f.s3 f.s1
    s.onRegion c t syl va fun r =>
      if s.lostRegion r then s.tokFail c t syl va errLost r.base
      else match (s.stack r.st).shareRec (t.agent c) r.base r.size true with
        | none => s.tokFail c t syl va errUnowned r.base
        | some _ =>
          let own := (((s.stack r.st).toks.find? (fun e => e.2.isFor r.base r.size && !e.2.sh && decide (0 < e.2.nsh))).map
            (fun e => e.2.holder)).getD (.stack r.st)
          ((s.feOwnFirst c t r.base (regionBytes r.size) s.fes.length).outsideEdge (t.agent c) own).tokWait c
            (.unshare r.base r.size (scopeOr .dv f.sc))

def execTkrcl (f : FmtYT) (s : State) : Host.Outcome State Fault Refusal :=
  s.issueS f.gd fun t =>
    let c := s.cur
    let syl := encode (.tkrcl f)
    let va := t.srcY f.s3 f.s1
    s.onRegion c t syl va fun r =>
      s.giver c t syl va r (fun x => x.claimed && (x.st == .excl || x.st == .shared)) fun _ =>
        s.tokWait c (.recall r.base r.size)

/-! ## tkwait (R390) -/

/-- Whether a size exponent is admitted for a mapping. -/
def waitSizeOk (l : Leaf) (e : Nat) : Bool :=
  if paWindow l.pa then e == 8 else if l.heap then e == 12 else decide (12 ≤ e) && decide (e ≤ min 30 l.bits)

/-- `tkwait` for the token or for a share. -/
def State.tkwaitFor (s : State) (t : Task) (f : FmtYT) (syl : Word) (share : Bool) : State :=
  let c := s.cur
  let va := t.srcY f.s3 f.s1
  let v := t.srcY f.s3 f.s2
  let e := v.toNat % 256
  if isAlias va then
    if v.toNat / 256 != 0 || !(e == 8 || (decide (12 ≤ e) && decide (e ≤ 30))) || share then s.tokFail c t syl va errPermission 0
    else s.tokWait c (.token share va 0 (sizeExp e))
  else
    match s.regionLeaf c t va with
    | .error x => s.failAccess c t .Y syl va x
    | .ok l =>
      if v.toNat / 256 != 0 || !waitSizeOk l e then s.tokFail c t syl va errPermission l.pa
      else s.tokWait c (.token share va (l.pa / 2 ^ e * 2 ^ e) (sizeExp e))

def execTkwait (f : FmtYT) (s : State) : Host.Outcome State Fault Refusal :=
  s.issueS f.gd fun t => s.tkwaitFor t f (encode (.tkwait f)) false

def execTkwaitSh (f : FmtYT) (s : State) : Host.Outcome State Fault Refusal :=
  s.issueS f.gd fun t => s.tkwaitFor t f (encode (.tkwaitSh f)) true

/-! ## tksplit and tkjoin (R361, R392) -/

/-- `tksplit`: a split that finds no record is retried, and the next bundle waits for it (R408). -/
def execTksplit (f : FmtYT) (s : State) : Host.Outcome State Fault Refusal :=
  s.issueS f.gd fun t =>
    let c := s.cur
    let syl := encode (.tksplit f)
    let va := t.srcY f.s3 f.s1
    s.onRegion c t syl va fun r =>
      if s.lostRegion r then s.tokFail c t syl va errLost r.base
      else if paWindow r.leaf.pa || r.leaf.heap then s.tokFail c t syl va errPermission r.base
      else s.giver c t syl va r (fun _ => true) fun x =>
        if r.size ≤ 4 then s.tokFail c t syl va errPermission r.base
        else if x.exclusive then s.tokWait c (.split r.base r.size)
        else s.tokFail c t syl va errUnowned r.base

/-- Holders of a region's records by depth below `d`. -/
def StackS.chainOf (x : StackS) (base size d : Nat) : List (Option Agent) :=
  (List.range d).map (fun k => (x.toks.find? (fun e => e.2.isFor base size && !e.2.sh && e.2.depth == k)).map (fun e => e.2.holder))

/-- The records of two halves are replaced by those of the whole. -/
def State.joinRegion (s : State) (r : Named) (lo : Nat) : State :=
  let x := s.stack r.st
  let hi := lo + regionBytes r.size
  s.setStack r.st { x with toks := (x.toks.filter (fun e => !(e.2.isFor hi r.size && !e.2.sh))).map (fun e =>
    if e.2.isFor lo r.size then (e.1, { e.2 with size := r.size + 1 }) else e) }

def execTkjoin (f : FmtYT) (s : State) : Host.Outcome State Fault Refusal :=
  s.issueS f.gd fun t =>
    let c := s.cur
    let syl := encode (.tkjoin f)
    let va := t.srcY f.s3 f.s1
    s.onRegion c t syl va fun r =>
      if paWindow r.leaf.pa || r.leaf.heap then
        s.tokFail c t syl va (if s.lostRegion r then errLost else errPermission) r.base
      else
        let n := regionBytes r.size
        let lo := r.base / (2 * n) * (2 * n)
        let x := s.stack r.st
        let a := x.ownRec (t.agent c) lo r.size
        let b := x.ownRec (t.agent c) (lo + n) r.size
        if s.lostRegion { r with base := lo, size := r.size + 1 } then s.tokFail c t syl va errLost r.base
        else match a, b with
          | some (_, a), some (_, b) =>
            if a.exclusive && b.exclusive && a.depth == b.depth && decide (2 * n ≤ 2 ^ r.leaf.bits) &&
                x.chainOf lo r.size a.depth == x.chainOf (lo + n) r.size a.depth then s.joinRegion r lo
            else s.tokFail c t syl va errUnowned r.base
          | _, _ => s.tokFail c t syl va errUnowned r.base

/-! ## tkqry (R393) -/

/-- The word of a task's state for a region. -/
def State.tokWord (s : State) (c : CoreId) (t : Task) (r : Named) : Word :=
  let x := s.stack r.st
  let ag := t.agent c
  let own := (s.ownRec r.st ag r.base r.size).filter TokRec.claimed
  let shr := (x.shareRec ag r.base r.size true).map Prod.snd
  let arr := x.toks.any (fun e => e.2.holder == ag && e.2.covers r.leaf.pa && ((!e.2.claimed && e.2.arr) || e.2.back))
  let word (st depth at_ size nsh nat : Nat) : Word :=
    pack64 [(st, 61), (depth, 58), (at_, 57), (b2n arr, 56), (size, 51), (nsh, 35), (nat, 19)]
  if s.lostRegion r then match own with
    | some y => word 5 y.depth 0 r.size y.nsh y.nat
    | none => word 5 0 0 r.size 0 0
  else match own, shr with
    | some y, _ => word (match y.st with | .excl => 1 | .shared => 2 | .lent => 3 | .lost => 5) y.depth 0 r.size y.nsh y.nat
    | none, some y => word 4 0 (b2n y.at_) r.size 0 0
    | none, none => match t.lentOut.find? (fun v => v.1 == r.base && v.2.1 == r.size) with
      | some (_, z, d) => word 3 d 0 z 0 0
      | none => if s.holdsCore ag r.base then word 1 0 0 r.size 0 0 else word 0 0 0 0 0 0

/-- The word of a task's state for a grant named by its alias (R478). -/
def State.grantWord (s : State) (c : CoreId) (t : Task) (a : Nat) : Word :=
  match s.grants.find? (fun g => g.covers t.ctx a) with
  | some g =>
    if g.holder = some (t.agent c) then
      pack64 [(if g.op.isSome then 3 else 1, 61), (g.depth + 1, 58), (g.sizeExp - 8, 51)]
    else pack64 [(b2n g.holder.isNone, 56)]
  | none => 0#64

def execTkqry (f : FmtYT) (s : State) : Host.Outcome State Fault Refusal :=
  s.issueS f.gd fun t =>
    let c := s.cur
    let syl := encode (.tkqry f)
    let va := t.srcY f.s3 f.s1
    let give (w : Word) : State := s.setTask c (t.putPend (t.regs.dest .Y f.d) .value (some (w.setWidth 1024)))
    if isAlias va then give (s.grantWord c t (va.toNat % 2 ^ 56))
    else s.onRegion c t syl va fun r => give (s.tokWord c t r)

/-! ## Register moves (R407) -/

def execYli (f : FmtYI) (s : State) : Host.Outcome State Fault Refusal :=
  s.issue f.gd fun t => t.putW 1 .Y f.d (f.imm.signExtend 64)

def execYmov (f : FmtYS) (s : State) : Host.Outcome State Fault Refusal :=
  s.issue f.gd fun t => t.putW 1 .Y f.d (t.srcY f.s3 f.s1)

def execYadd (f : FmtYS) (s : State) : Host.Outcome State Fault Refusal :=
  s.issue f.gd fun t => t.putW 1 .Y f.d (t.srcY f.s3 f.s1 + t.srcY f.s3 f.s2)

end Sys2Proof.Machine
end

