-- ==== Sys2Proof/Machine/Phases.lean ====
section
/-! DEFINITION. Phases, rounds, router-merged atomics, triggers and growth requests, and the deadlock walk (R394 to R406, R410,
R411, R444, R446, R479). -/

namespace Sys2Proof.Machine

/-! ## Teams by coordinate -/

/-- The team of a launch to which a coordinate belongs, if a stack has accepted it. -/
def State.findTeam (s : State) (launch : Nat) (coord : BitVec 48) : Option (StackId × Nat × Team) :=
  match s.launch? launch with
  | none => none
  | some l => s.stackTab.findSome? (fun x =>
      (x.2.teams.find? (fun m => m.2.launch == launch && sameTeam l.img m.2.coord coord)).map
        (fun m => (Fin.ofNat 64 x.1, m.1, m.2)))

/-- Tasks of a team by core-in-stack number: current, about to re-enter, or suspended; one whose `end` has issued is the team's
until its drain point. -/
def State.teamAll (s : State) (st : StackId) (m : Nat) : Tab Task :=
  (List.range 16).filterMap (fun k =>
    let x := s.core (coreOf st k)
    let mine (o : Option Task) : Option Task := match o with
      | some t => if t.team = m then some t else none
      | none => none
    let nx : Option Task := match x.next with
      | some (.resume t _) => some t
      | _ => none
    let sp : Option Task := match (s.stack st).teams.find m with
      | some tm => tm.susp.find k
      | none => none
    match mine x.live, mine nx, sp with
    | some t, _, _ => some (k, t)
    | none, some t, _ => some (k, t)
    | none, none, some t => some (k, t)
    | none, none, none => none)

/-- The tasks of a team that wait in their cores' next slots and have not started, by core-in-stack number. -/
def State.teamFresh (s : State) (st : StackId) (m : Nat) : Tab Asg :=
  (List.range 16).filterMap (fun k => match (s.core (coreOf st k)).next with
    | some (.new x n co rk tm q) => if tm = m then some (k, .new x n co rk tm q) else none
    | _ => none)

/-- Whether a coordinate of a launch is of a team. -/
def State.ofTeam (s : State) (tm : Team) (launch : Nat) (coord : BitVec 48) : Bool :=
  launch == tm.launch && (match s.launch? launch with
    | some l => sameTeam l.img tm.coord coord
    | none => false)

/-- Whether an agent is a task of a team or an operation of one. -/
def State.agentOfTeam (s : State) (tm : Team) : Agent → Bool
  | .task _ _ n co => s.ofTeam tm n co
  | .engine _ _ n co _ => s.ofTeam tm n co
  | _ => false

/-! ## Team checkpoints (R444) -/

/-- The token records of a team's agents, by stack and entry; one that waits for a place has none, and 16,384 stands for it. -/
def State.teamToks (s : State) (tm : Team) : List (Nat × Nat × TokRec) :=
  s.stackTab.flatMap (fun x => (x.2.toks.filter (fun e => s.agentOfTeam tm e.2.holder)).map (fun e => (x.1, e.1, e.2))) ++
  s.toks.filterMap (fun m => match m with
    | .need st r _ _ _ => if s.agentOfTeam tm r.holder then some (st.val, 16384, r) else none
    | _ => none)

/-- Lines that the checkpoint of some tasks, and of `fresh` tasks that have not started, is charged. -/
def checkpointLines (ts : Tab Task) (fresh : Nat) : Nat :=
  384 * fresh + (ts.map (fun e => 384 + 2 * e.2.flight.length)).foldl (· + ·) 0

/-- Token messages that a team's tasks have sent arrive, so that none is on its way at the cut. -/
def State.settleToks (s : State) (st : StackId) (ts : Tab Task) : Nat → State
  | 0 => s
  | k + 1 =>
    match (List.range s.toks.length).find? (fun n => s.msgMayArrive n && (match s.toks[n]? with
      | some (.need _ _ _ _ _) => false
      | some m => ts.any (fun e => isTask e.2 m.src.launch m.src.coord)
      | none => false)) with
    | some n => (s.tokArrive n).settleToks st ts k
    | none => s

/-- THE TEAM CHECKPOINT at the close of an instance, before its results land (R398 step 2). Where its charge alone is more than
LINES none is kept, and the interval counts once in UNPROT. -/
def State.takeCheckpoint (s : State) (st : StackId) (m : Nat) : State :=
  let s := s.settleToks st (s.teamAll st m) s.toks.length
  match (s.stack st).teams.find m with
  | none => s
  | some tm =>
    let ts := s.teamAll st m
    let fr := s.teamFresh st m
    let n := checkpointLines ts fr.length
    if n ≤ s.linesOf tm.launch then
      let cp : Checkpoint := {
        tasks := ts
        fresh := fr
        toks := s.teamToks tm
        phases := tm.phases
        early := tm.early
        arrs := s.arrs.filter (fun a => s.ofTeam tm a.launch a.coord)
        fes := s.fes.filter (fun a => s.ofTeam tm a.launch a.coord)
        rounds := s.rounds.filter (fun r => s.ofTeam tm r.launch r.coord)
        follow := ((s.stack st).ops ++ (s.stack st).requests).filter (fun o =>
          s.ofTeam tm o.launch o.coord && o.follow.isSome && !o.committed)
        charge := n
        pre := []
        prot := true
        replays := 0
        seq := s.feSeq }
      s.setTeam st m { tm with cp := some cp, counted := true }
    else (s.setTeam st m { tm with cp := none, counted := true }).count tm.ctx ctrUNPROT 1

/-! ## Rounds at the close of an instance (R398, R402) -/

/-- The components of a launch's spatial levels, the outermost first (R80). -/
def Image.spatialComps (i : Image) : List Nat := (i.loops.filter (fun l => l.lkind != 0)).map LoopRec.comp

/-- The place of a coordinate in tile-coordinate order (R80). -/
def State.coordKey (s : State) (launch : Nat) (coord : BitVec 48) : Nat :=
  match s.launch? launch with
  | some l => mixedRadix (65536, 65536, 65536) coord l.img.spatialComps 0
  | none => 0

/-- Whether a round is bound to an instance of a team's phase. -/
def RoundMsg.boundTo (r : RoundMsg) (st : StackId) (m ph inst : Nat) : Bool :=
  r.received && r.st == st && r.team == m && r.ph == ph && r.inst == inst

/-- The positions of the rounds of an instance in the order in which they are applied. -/
def State.roundOrder (s : State) (st : StackId) (m ph inst : Nat) : List Nat :=
  sortKey (fun n => match s.rounds[n]? with
      | some r => s.coordKey r.launch r.coord
      | none => 0)
    ((List.range s.rounds.length).filter (fun n => match s.rounds[n]? with
      | some r => r.boundTo st m ph inst
      | none => false))

/-- The flags of a sum as FSTAT holds them. -/
def roundFlags (op : AtomOp) (t : Ty) (f : FFlags) : BitVec 7 :=
  match op with
  | .redf => f
  | .rsum => if tyIsFloat t then f else 0#7
  | _ => 0#7

/-- Applies round `n`: what it found, its flags, and its word, with the pre-image of a round of the team's present epoch (R445); a
page that its write backs moves the round's name too (R244). False where its write waits for a frame (R245). -/
def State.applyRound (s : State) (n : Nat) : State × Bool :=
  match s.rounds[n]? with
  | none => (s, true)
  | some r =>
    if r.applied then (s, true)
    else
      let b := tyWidth r.ty
      let w := atomTag r.core r.ctx r.launch r.coord r.home r.leafPa r.late r.va r.pa r.cls r.fpos
      let s := s.touchL2 w (lineOf r.pa)
      let old := s.homeNum r.home r.pa b
      let (new, f) := atomNew r.op r.ty old r.v.toNat r.expected.toNat
      let s := if s.newEpoch r.st r.team r.seq then
          s.preLine r.st r.team (lineOf r.pa) (s.homeLine r.home (lineOf r.pa)) (s.homeBad r.home (lineOf r.pa))
        else s
      let (s', e) := s.putHome w r.pa b new
      let q := (s'.rounds[n]?).getD r
      let q : RoundMsg := { q with applied := true, res := BitVec.ofNat 64 old, fl := roundFlags r.op r.ty f }
      let done := { s' with rounds := listSet s'.rounds n q }
      match e with
      | .done => (done, true)
      | .held => (s', false)
      | .overrun =>
        (done.fatalFor r.core r.ctx r.launch r.coord r.fpos errOverrun slotSync
          (agentId (.task r.core r.ctx r.launch r.coord)) r.va (BitVec.ofNat 64 r.pa), true)

/-- Applies rounds in order until one has to wait. -/
def State.applyRounds (s : State) : List Nat → State × Bool
  | [] => (s, true)
  | n :: l =>
    let (s', ok) := s.applyRound n
    if ok then s'.applyRounds l else (s', false)

/-- The value a round delivers once every round of its instance has been applied. -/
def State.roundResult (s : State) (rs : List RoundMsg) (k : Nat) (r : RoundMsg) : Word :=
  let b := tyWidth r.ty
  match r.op with
  | .redf =>
    let same (q : RoundMsg) : Bool := q.pa == r.pa
    pack64 [((rs.filter same).length % 65536, 48), (((rs.take k).filter same).length % 65536, 32), (r.res.toNat % 2 ^ 32, 0)]
  | .amor | .cas => atomExt r.ty r.res.toNat
  | _ => atomExt r.ty (s.homeNum r.home r.pa b)

/-- A round's result reaches the queue entry of its task. -/
def State.giveRound (s : State) (r : RoundMsg) (v : Word) : State :=
  s.mapTaskOf r.launch r.coord (fun t => { t with
    pend := t.pend.map (fun p => if p.id = r.pend then { p with val := some (v.setWidth 1024), fl := r.fl } else p) })

/-- Results of the rounds of an instance, which leave the sync unit and free their objects. -/
def State.giveRounds (s : State) (st : StackId) (m ph inst : Nat) (order : List Nat) : State :=
  let rs := order.filterMap (fun n => s.rounds[n]?)
  let s' := (List.range rs.length).foldl (fun (u : State) k => match rs[k]? with
    | some r => u.giveRound r (s.roundResult rs k r)
    | none => u) s
  let us := rs.map RoundMsg.use
  { s'.setStack st ((s'.stack st).dropObjs (fun u => us.contains u)) with
    rounds := s'.rounds.filter (fun r => !r.boundTo st m ph inst) }

/-- An undefined phase (R394). -/
def PhaseObj.none : PhaseObj := ⟨0, 0, 0, [], []⟩

/-- An instance is complete (R398 step 3): results land, and arrivals beyond P count in the next one. The scopes are those of the
releases counted in this one (R371, R397). -/
def State.completeInstance (s : State) (st : StackId) (m ph : Nat) : State :=
  match (s.stack st).teams.find m with
  | none => s
  | some tm =>
    let p := tm.phases.get .none ph
    let s := s.giveRounds st m ph (p.inst + 1) (s.roundOrder st m ph (p.inst + 1))
    match (s.stack st).teams.find m with
    | none => s
    | some tm =>
      let q : PhaseObj := { p with arv := p.arv - p.p, inst := p.inst + 1,
                                   doneSc := if p.openSc = [] then p.doneSc else p.doneSc.set (p.inst + 1) p.openSc,
                                   openSc := if p.arv = p.p then [] else p.openSc }
      s.setTeam st m { tm with phases := tm.phases.set ph q }

/-- Closes an instance whose arrivals have reached P (R398): its rounds are applied, the checkpoint is taken, and it is complete. -/
def State.closeInstance (s : State) (st : StackId) (m ph : Nat) : State × Bool :=
  match (s.stack st).teams.find m with
  | none => (s, false)
  | some tm =>
    let p := tm.phases.get .none ph
    if p.p = 0 ∨ p.arv < p.p then (s, false)
    else
      let (s, ok) := s.applyRounds (s.roundOrder st m ph (p.inst + 1))
      if !ok then (s, false) else ((s.takeCheckpoint st m).completeInstance st m ph, true)

/-- Closes every instance that is full. -/
def State.closeAll (s : State) (st : StackId) (m ph : Nat) : Nat → State
  | 0 => s
  | k + 1 =>
    let (s', ok) := s.closeInstance st m ph
    if ok then s'.closeAll st m ph k else s'

/-- Every full instance of the module closes: one that waited while a round of it was held for a frame closes once the frame has come
(R245, R398). -/
def State.closeFull (s : State) : State :=
  s.stackTab.foldl (fun (s : State) e => e.2.teams.foldl (fun (s : State) m => m.2.phases.foldl (fun (s : State) p =>
    if p.2.p ≠ 0 ∧ p.2.p ≤ p.2.arv then s.closeAll (Fin.ofNat 64 e.1) m.1 p.1 (p.2.arv + 1) else s) s) s) s

/-! ## Arrivals (R395, R396) -/

/-- An object for an arrival that must be held: a task's request as R408 has it, one from outside the module a general one. -/
def StackS.holdObj (x : StackS) (by_ : Option Agent) (naks m ph : Nat) : Option StackS :=
  match by_.bind agentCore with
  | some c => x.takeObj c naks (.held m ph by_)
  | none => (freeIn x.objs 4080 0).map (fun k => { x with objs := x.objs.set k (.held m ph by_) })

/-- Whether an object holds an arrival at a phase of a team. -/
def ObjUse.holds (m ph : Nat) : ObjUse → Bool
  | .held a b _ => a == m && b == ph
  | _ => false

/-- An arrival counts at a phase of a team, or is held in an object while the phase is undefined; none where no object is free (R395,
R408). A poisoned phase object is consumed by the task that arrives (log entry 38). -/
def State.countArrival (s : State) (st : StackId) (m ph : Nat) (sc : Scope) (by_ : Option Agent) (naks : Nat) : Option State :=
  match (s.stack st).teams.find m with
  | none => some s
  | some tm =>
    let p := tm.phases.get .none ph
    if p.p = 0 then
      ((s.stack st).holdObj by_ naks m ph).map (fun x => (s.setStack st x).setTeam st m { tm with early := tm.early ++ [(ph, sc)] })
    else
      let q : PhaseObj := { p with arv := p.arv + 1, openSc := addScope p.openSc sc }
      let s := match by_ with
        | some a => s.consumeObj st a.src (· == ObjUse.phase m ph)
        | none => s
      some ((s.setTeam st m { tm with phases := tm.phases.set ph q }).closeAll st m ph 2)

/-- Whether arrival `n` may be counted: every earlier one of its task has been, its earlier rounds have been received, the writes
it releases wait for no frame, the full/empty accesses before its release have been performed (R245, R370, R403), and no fenced link
holds it (R450). -/
def State.arrMay (s : State) (n : Nat) (a : ArrMsg) : Bool :=
  !(a.rel && 3 ≤ scopeRank a.sc && s.heldWrites a.launch a.coord) && !(a.rel && s.earlierFe a.launch a.coord a.after) &&
  (match s.findTeam a.launch a.target with
    | some (st, _, _) => !s.linkShut (stackOf a.core) st
    | none => true) &&
  (s.arrs.take n).all (fun b => !(b.launch == a.launch && b.coord == a.coord)) &&
  ((a.outside && !(a.rel && 3 ≤ scopeRank a.sc)) || !s.roundsWait a.launch a.coord a.after)

/-- PHASE_ARRIVAL of message `n`. -/
def State.phaseArrival (s : State) (n : Nat) : State :=
  match s.arrs[n]? with
  | none => s
  | some a =>
    let s := if a.outside then s else s.receiveRoundsOf a.launch a.coord
    if !s.arrMay n a then s
    else
      let nak := { s with arrs := listSet s.arrs n { a with naks := nakUp a.naks } }
      let s := { s with arrs := listDrop s.arrs n }
      let sc := if a.rel then a.sc else .dflt
      match s.findTeam a.launch a.target with
      | some (st, m, _) =>
        let s := if a.outside then s.unprotectTeam st m else s
        (s.countArrival st m a.ph sc (some (.task a.core a.ctx a.launch a.coord)) a.naks).getD nak
      | none => match s.launch? a.launch with
        | none => s
        | some l =>
          if l.finishedCoords.contains a.target then s
          else s.setLaunch a.launch { l with heldArr := l.heldArr ++ [(a.target, a.ph, sc)] }

def execPhaseArrival (n : Nat) (s : State) : Host.Outcome State Fault Refusal := .next (s.phaseArrival n)

/-- A selector of R396: phase, whether of another team, coordinate; none where bits 14:4 are not zero. -/
def phaseSel (v : Word) : Option (Nat × Bool × BitVec 48) :=
  if v.toNat / 16 % 2048 = 0 then some (v.toNat % 16, v.getLsbD 15, (v >>> 16).setWidth 48) else none

/-- An arrival is sent to a team of this module. -/
def State.sendArrival (s : State) (c : CoreId) (t : Task) (ph : Nat) (target : BitVec 48) (rel : Bool) (sc : Scope) : State :=
  let own := match s.imageOf t with
    | some i => sameTeam i t.coord target
    | none => true
  let s := if own then s.mapTask c (fun u => { u with arrived := u.arrived.set ph (u.arrivals ph + 1) }) else s.unprotect c t
  { s with arrs := s.arrs ++ [⟨c, t.ctx, t.launch, t.coord, target, ph, rel, sc, !own, s.feSeq, 0⟩] }

/-- A system-scope arrival leaves for the partner module; toward an unreachable one it gets an error completion (R477,
R479). -/
def State.sendRemote (s : State) (c : CoreId) (t : Task) (ph : Nat) (target : BitVec 48) (m : ModuleId) : State :=
  let s := s.unprotect c t
  if s.reaches m then
    let s := { s with syArrs := s.syArrs ++ [(⟨c, t.ctx, t.launch, t.coord, t.fpos.setWidth 32⟩ : SyArr)] }
    s.sendAfter (t.agent c).src s.feSeq (.arrival m t.ctx (s.lid t.launch) target ph)
  else s.soon (.load c true)

/-- SYPH of a context (R479). -/
def CtxS.syphOn (x : CtxS) : Bool := x.syph.getLsbD 63
def CtxS.syphModule (x : CtxS) : ModuleId := Fin.ofNat 4096 x.syph.toNat

/-- `arrive` and `arrive.rel`: the selector's checks, the release, the message. -/
def State.arriveAct (s : State) (c : CoreId) (t : Task) (syl v : Word) (rel : Bool) (sc : Scope) : State :=
  match phaseSel v with
  | none => s.raiseFatal c t errPermission (slotIx .Y) syl 0#64 0#64
  | some (ph, oth, d) =>
    let x := s.ctx t.ctx
    if oth && rel && sc == .sy && x.syphOn then (s.releaseFor c t .sy).sendRemote c t ph d x.syphModule
    else if oth && !inGrid (s.taskExt t) d then s.raiseFatal c t errPermission (slotIx .Y) syl 0#64 0#64
    else
      let s := if rel then s.releaseFor c t sc else s
      s.sendArrival c t ph (if oth then d else t.coord) rel sc

def execArrive (f : FmtYS) (s : State) : Host.Outcome State Fault Refusal :=
  s.issueS f.gd fun t => s.arriveAct s.cur t (encode (.arrive f)) (t.srcY f.s3 f.s1) false .dflt

def execArriveRel (f : FmtYS) (s : State) : Host.Outcome State Fault Refusal :=
  s.issueS f.gd fun t => s.arriveAct s.cur t (encode (.arriveRel f)) (t.srcY f.s3 f.s1) true (scopeOr .st f.sc)

/-- A `waitph` that waits is tried: once its instance is complete, it is the acquire of the arrivals counted there (R397). -/
def State.phaseTry (s : State) (c : CoreId) (w : Wait) : State :=
  match w, s.task? c with
  | .phase ph inst, some t =>
    if !t.waits.contains w then s
    else match s.team? c t with
      | some tm =>
        let p := tm.phases.get .none ph
        if inst ≤ p.inst then (s.acquireAll c (p.doneSc.get [] inst)).endWait c w else s
      | none => s
  | _, _ => s

def execWaitph (f : FmtYS) (s : State) : Host.Outcome State Fault Refusal :=
  s.issueS f.gd fun t =>
    let c := s.cur
    match phaseSel (t.srcY f.s3 f.s1) with
    | some (ph, false, _) =>
      let w : Wait := .phase ph (max (t.arrivals ph) 1)
      (s.setTask c { t with waits := t.waits ++ [w] }).phaseTry c w
    | _ => s.raiseFatal c t errPermission (slotIx .Y) (encode (.waitph f)) 0#64 0#64

/-- Arrivals held at a phase count once it is defined, in the order in which they came. -/
def State.countEarly (s : State) (st : StackId) (m ph : Nat) : State :=
  match (s.stack st).teams.find m with
  | none => s
  | some tm =>
    let mine := tm.early.filter (fun e => e.1 == ph)
    let s := s.setTeam st m { tm with early := tm.early.filter (fun e => e.1 != ph) }
    let s := s.setStack st ((s.stack st).dropObjs (ObjUse.holds m ph))
    mine.foldl (fun (s : State) e => (s.countArrival st m ph e.2 none 0).getD s) s

def execPhdef (f : FmtYS) (s : State) : Host.Outcome State Fault Refusal :=
  s.issueS f.gd fun t =>
    let c := s.cur
    let v := (t.srcY f.s3 f.s1).toNat
    let ph := v % 16
    let p := v / 65536 % 65536
    let fail := s.raiseFatal c t errPermission (slotIx .Y) (encode (.phdef f)) 0#64 0#64
    match s.team? c t with
    | none => s
    | some tm =>
      if v / 16 % 4096 != 0 || v / 2 ^ 32 != 0 || ph == 0 || p == 0 || (tm.phases.get .none ph).p != 0 then fail
      else
        (s.setTeam (stackOf c) t.team { tm with phases := tm.phases.set ph { PhaseObj.none with p := p } }).countEarly
          (stackOf c) t.team ph

/-! ## Issuing rounds and amo forms (R400, R401, R404) -/

/-- The checks of R401 on a word, in their order. -/
def State.atomAccess (s : State) (c : CoreId) (t : Task) (va : Word) (n : Nat) : Except AccErr Leaf :=
  match s.translateOn c t.ctx va with
  | .error _ => .error ⟨errTranslation, 0⟩
  | .ok l =>
    if paWindow l.pa || l.pa % n != 0 || !l.w || !l.atom then .error ⟨errPermission, l.pa⟩
    else match s.tokenErr (t.agent c) (regionHome l) l.pa .fe with
      | some e => .error ⟨e, l.pa⟩
      | none => .ok l

/-- The task's own writes and `amo` forms to a line reach it before a later atomic of the task (R255). -/
def State.ownLine (s : State) (t : Task) (line : Nat) : State :=
  (s.drain (fun w => isTask t w.tag.launch w.tag.coord && lineOf w.pa == line)).ownAmos t line

/-- The mapping of a word whose checks have passed, after the task's own earlier writes to it: they may have backed its page (R244).
-/
def State.leafNow (s : State) (c : CoreId) (t : Task) (va : Word) (l : Leaf) : Leaf :=
  match s.translateOn c t.ctx va with
  | .ok n => n
  | .error _ => l

/-- A round is sent to the sync unit, and its destination waits for its instance (R401). -/
def State.roundAct (s : State) (t : Task) (f : FmtYS) (syl : Word) (op : AtomOp) : State :=
  let c := s.cur
  let ty := atomTy f.ty
  let va := t.srcY f.s3 f.s1
  match s.atomAccess c t va (tyWidth ty / 8) with
  | .error e => s.failAccess c t .Y syl va e
  | .ok l =>
    let ph := f.s3.toNat % 16
    let v := t.regs.readW .Y 0#64 f.s2
    let x := if op = .cas then t.regs.readW .Y 0#64 f.d else 0#64
    let s := s.ownLine t (lineOf l.pa)
    let l := s.leafNow c t va l
    let s := s.mapTask c (fun t => t.putPend (t.regs.dest .Y f.d) .round none)
    let r : RoundMsg := ⟨c, t.ctx, t.launch, t.coord, stackOf c, t.team, ph, t.arrivals ph + 1, op, ty, l.pa, va, l.home,
      l.leafPa, l.late, v, x, t.nextPend, false, false, 0#64, 0#7, l.lclass, 0, s.feSeq, t.fpos.setWidth 32⟩
    { s with rounds := s.rounds ++ [r], feSeq := s.feSeq + 1 }

def execRmin (f : FmtYS) (s : State) : Host.Outcome State Fault Refusal :=
  s.issueS f.gd fun t => s.roundAct t f (encode (.rmin f)) .rmin

def execRmax (f : FmtYS) (s : State) : Host.Outcome State Fault Refusal :=
  s.issueS f.gd fun t => s.roundAct t f (encode (.rmax f)) .rmax

def execRsum (f : FmtYS) (s : State) : Host.Outcome State Fault Refusal :=
  s.issueS f.gd fun t => s.roundAct t f (encode (.rsum f)) .rsum

def execRedf (f : FmtYS) (s : State) : Host.Outcome State Fault Refusal :=
  s.issueS f.gd fun t => s.roundAct t f (encode (.redf f)) .redf

def execAmor (f : FmtYS) (s : State) : Host.Outcome State Fault Refusal :=
  s.issueS f.gd fun t => s.roundAct t f (encode (.amor f)) .amor

def execCas (f : FmtYS) (s : State) : Host.Outcome State Fault Refusal :=
  s.issueS f.gd fun t => s.roundAct t f (encode (.cas f)) .cas

/-- ROUND_RECEIVE of round `n` (R401). -/
def execRoundReceive (n : Nat) (s : State) : Host.Outcome State Fault Refusal := .next (s.receiveRound n)

/-- An `amo` is sent to the home of its word (R404); its interval runs unprotected (R446). -/
def State.amoAct (s : State) (t : Task) (f : FmtYS) (syl : Word) (op : AtomOp) : State :=
  let c := s.cur
  let ty := atomTy f.ty
  let va := t.srcY f.s3 f.s1
  match s.atomAccess c t va (tyWidth ty / 8) with
  | .error e => s.failAccess c t .Y syl va e
  | .ok l =>
    let s := ((s.unprotect c t).noteWrite (stackOf c) t.team).drain (fun w => isTask t w.tag.launch w.tag.coord && lineOf w.pa == lineOf l.pa)
    let l := s.leafNow c t va l
    let m : AmoMsg := ⟨c, t.ctx, t.launch, t.coord, op, ty, l.pa, va, l.home, l.leafPa, l.late, t.srcY f.s3 f.s2, false, l.lclass, t.fpos.setWidth 32⟩
    { s with amos := s.amos ++ [m] }

def execAmoAdd (f : FmtYS) (s : State) : Host.Outcome State Fault Refusal :=
  s.issueS f.gd fun t => s.amoAct t f (encode (.amoAdd f)) .add

def execAmoMin (f : FmtYS) (s : State) : Host.Outcome State Fault Refusal :=
  s.issueS f.gd fun t => s.amoAct t f (encode (.amoMin f)) .min

def execAmoMax (f : FmtYS) (s : State) : Host.Outcome State Fault Refusal :=
  s.issueS f.gd fun t => s.amoAct t f (encode (.amoMax f)) .max

def execAmoAnd (f : FmtYS) (s : State) : Host.Outcome State Fault Refusal :=
  s.issueS f.gd fun t => s.amoAct t f (encode (.amoAnd f)) .and

def execAmoOr (f : FmtYS) (s : State) : Host.Outcome State Fault Refusal :=
  s.issueS f.gd fun t => s.amoAct t f (encode (.amoOr f)) .or

def execAmoXor (f : FmtYS) (s : State) : Host.Outcome State Fault Refusal :=
  s.issueS f.gd fun t => s.amoAct t f (encode (.amoXor f)) .xor

/-- Message `n` takes up the next one that it may be merged with and that overtakes none of its own way (R29, R404). -/
def State.mergeAmo (s : State) (n : Nat) : State :=
  match s.amos[n]? with
  | none => s
  | some a =>
    match (List.range s.amos.length).find? (fun k => decide (n < k) && (match s.amos[k]? with
      | some b => a.meets b && !b.held && !((s.amos.take k).drop (n + 1)).any (fun x => x.sameWay b)
      | none => false)) with
    | none => s
    | some k => match s.amos[k]? with
      | some b => { s with amos := listSet (listDrop s.amos k) n { a with v := amoMerge a.op a.ty a.v b.v } }
      | none => s

/-- AMO_APPLY of message `n`, merged with another where `merge` says so. -/
def execAmoApply (n : Nat) (merge : Bool) (s : State) : Host.Outcome State Fault Refusal :=
  .next (if s.amoMay n then (if merge then s.mergeAmo n else s).applyAmo n else s)

/-! ## Triggers and growth (R405, R406) -/

/-- A task triggers: its release at `.dv`, then its message. A later one has no effect but that its interval runs unprotected too
(R446). -/
def State.trigger (s : State) (c : CoreId) (t : Task) : State :=
  if t.trig then s.unprotect c t
  else
    let s := ((s.unprotect c t).releaseFor c t .dv).mapTask c (fun t => { t with trig := true })
    { s with trigs := s.trigs ++ [⟨c, t.launch, t.coord, s.feSeq⟩] }

def execTrig (f : FmtYS) (s : State) : Host.Outcome State Fault Refusal := s.issueS f.gd fun t => s.trigger s.cur t

def execGrow (f : FmtYS) (s : State) : Host.Outcome State Fault Refusal :=
  s.issueS f.gd fun t =>
    let s := s.unprotect s.cur t
    let g : GrowMsg := ⟨t.launch, (t.srcY f.s3 f.s1).toNat % 2 ^ 32, t.trig⟩
    { s with grows := s.grows ++ [g] }

/-! ## The deadlock walk (R410, R411) -/

/-- The context, launch and coordinate of an agent that is a task or an operation of one. -/
def agentTask : Agent → Option (CoreId × CtxId × Nat × BitVec 48)
  | .task c x n co => some (c, x, n, co)
  | .engine c x n co _ => some (c, x, n, co)
  | _ => none

/-- The slot an error record names for a wait of a kind (R410, R427). -/
def waitSlot (wk : Nat) : Nat := if wk = 4 ∨ wk = 5 then slotIx .M else if wk = 6 then slotEngine else slotIx .Y

/-- The entry of a list with the greatest key. -/
def bestEnt (key : Nat × WaitEnt → Int) (es : List (Nat × WaitEnt)) : Option (Nat × WaitEnt) :=
  es.foldl (fun b e => match b with
    | none => some e
    | some f => if key f < key e then some e else some f) none

/-- The victim of a cycle by VICT: the wait entered last, the lowest WAITER, or the highest. -/
def pickVictim (vict : BitVec 2) (es : List (Nat × WaitEnt)) : Option WaitEnt :=
  let id (e : Nat × WaitEnt) : Int := (agentId e.2.waiter).toNat
  (if vict = 1#2 then bestEnt (fun e => -id e) es
   else if vict = 2#2 then bestEnt id es
   else bestEnt (fun e => e.1) es).map Prod.snd

/-- The fetch position of the bundle of a task, or of the bundle that issued an engine operation (R427). -/
def State.agentFpos (s : State) : Agent → BitVec 32
  | .task _ _ n co => ((s.taskOf n co).map (fun t => t.fpos.setWidth 32)).getD 0#32
  | .engine c _ n co h =>
    (((s.stack (stackOf c)).ops.find? (fun o => o.ofTask n co && o.handle == h)).map CopyOp.fpos).getD 0#32
  | _ => 0#32

/-- The victim's wait ends in a fatal deadlock error. -/
def State.endVictim (s : State) (e : WaitEnt) : State :=
  match agentTask e.waiter with
  | none => s
  | some (c, x, n, co) =>
    let pa := BitVec.ofNat 64 (if e.wk = 3 ∨ e.wk = 5 ∨ e.wk = 6 then 0 else e.obj)
    match s.task? c with
    | some t =>
      if isTask t n co && e.wk != 6 then s.raiseFatal c t errDeadlock (waitSlot e.wk) 0#64 0#64 pa
      else s.fatalFor c x n co (s.agentFpos e.waiter) errDeadlock (waitSlot e.wk) (agentId e.waiter) 0#64 pa
    | none => s.fatalFor c x n co (s.agentFpos e.waiter) errDeadlock (waitSlot e.wk) (agentId e.waiter) 0#64 pa

/-- The context of a waiting agent. -/
def WaitEnt.ctx (e : WaitEnt) : Option CtxId := (agentTask e.waiter).map (fun p => p.2.1)

/-- Entries on one cycle with the first entry that stands on any, of the edges that remain. -/
def oneCycle (es : List ((Nat × WaitEnt) × List Agent)) : List (Nat × WaitEnt) :=
  let on (a : Agent) (l : List Agent) : Bool := (reachWaits es es.length l).contains a
  match es.find? (fun e => on e.1.2.waiter e.2) with
  | none => []
  | some e => (es.filter (fun f => on f.1.2.waiter e.2 && on e.1.2.waiter f.2)).map Prod.fst

/-- One victim from each cycle; the waits of a context that ends are no edges any more. -/
def State.walkCycles (s : State) : Nat → List ((Nat × WaitEnt) × List Agent) → State
  | 0, _ => s
  | k + 1, es =>
    match pickVictim s.dlVict (oneCycle es) with
    | none => s
    | some v => (s.endVictim v).walkCycles k (es.filter (fun e => e.1.2.ctx != v.ctx))

/-- DEADLOCK_WALK of the tables as they stand: nothing while EN is 0. The next is a period later (R411). -/
def execDeadlockWalk (s : State) : Host.Outcome State Fault Refusal :=
  let s := { s.enterWaits with dlAt := s.ns }
  .next (if s.dlEn then let es := s.waitEdges; s.walkCycles es.length es else s)

end Sys2Proof.Machine
end

