-- ==== Sys2Proof/Machine/System.lean ====
section
/-! DEFINITION. The system instructions: `svc`, `brk`, `sysr` and `sysw`, and a drop of translations (R139, R161, R229, R411,
R454, R455). -/

namespace Sys2Proof.Machine

/-! ## svc and brk (R454) -/

/-- `svc` raises an event, and its interval runs unprotected (R446). -/
def execSvc (f : FmtCK) (s : State) : Host.Outcome State Fault Refusal :=
  s.issueS f.gd fun t => (s.raiseEvent s.cur t 1 (f.code.setWidth 64)).unprotect s.cur t

/-- `brk` raises an event, or where BRKH is 1 halts its core at the bundle boundary (R452). -/
def execBrk (f : FmtCK) (s : State) : Host.Outcome State Fault Refusal :=
  s.issueS f.gd fun t =>
    if (s.core s.cur).brkh then s.setCore s.cur { s.core s.cur with haltReq := 2 }
    else (s.raiseEvent s.cur t 2 (f.code.setWidth 64)).unprotect s.cur t

/-! ## Drops of translations (R229) -/

/-- The page and context a TLBINV value names. -/
def dropOf (v : Word) (id : Nat) (master : Bool) : TlbDrop :=
  ⟨id, Fin.ofNat 4096 (v.toNat / 2 ^ 52), BitVec.ofNat 44 v.toNat, master⟩

/-- A drop starts in every TLB. -/
def State.startDrop (s : State) (v : Word) (master : Bool) : State :=
  { s with drops := s.drops ++ [dropOf v s.nextDrop master], nextDrop := s.nextDrop + 1 }

/-- TLBINV: a master's write of the register. -/
def execTlbinv (v : Word) (s : State) : Host.Outcome State Fault Refusal := .next (s.startDrop v true)

/-- Whether a drop names the page of a translation. -/
def TlbDrop.names (d : TlbDrop) (e : TlbEnt) : Bool :=
  e.ctx == d.ctx && (d.vpn == BitVec.allOnes 44 ||
    (decide (e.leaf.vbase ≤ 4096 * d.vpn.toNat) && decide (4096 * d.vpn.toNat < e.leaf.vbase + 2 ^ e.leaf.bits)))

/-- Whether a leaf entry maps a line as one of a class-0 backed page (R235). -/
def State.pinsLine (s : State) (leafPa line : Nat) : Bool :=
  let e := s.entry leafPa
  leafP e && leafIsLeaf e && !leafUnb e && leafClass e == 0 && decide (leafFrame e ≤ 128 * line) &&
    decide (128 * line < leafFrame e + 2 ^ pageBits (leafSize e))

/-- Lines of class-0 pages that have been unmapped leave the storage part, written back where dirty (R235). -/
def State.unpinUnmapped (s : State) : State :=
  (s.stackTab.flatMap (fun x => (x.2.l2.filter (fun l => l.pin && !s.pinsLine l.leafPa l.line)).map (fun l => (x.1, l.line)))).foldl
    (fun (s : State) p => s.evictL2 (Fin.ofNat 64 p.1) p.2) s

/-- TLB_DROP_COMPLETE of drop `n`: every TLB has dropped the page, and the `sysw` that waits for it completes, its task current or
suspended (R229, R436). -/
def execTlbDropComplete (n : Nat) (s : State) : Host.Outcome State Fault Refusal :=
  let s := (s.drops.filter (fun d => d.id == n)).foldl (fun (s : State) d => s.dropTlbs d.names) s
  .next ({ s with drops := s.drops.filter (fun d => d.id != n) }.unpinUnmapped.mapTasks
    (fun t => { t with waits := t.waits.filter (fun w => w != Wait.tlbinv n) }))

/-! ## sysr and sysw (R455) -/

def sregSBCHK : Nat := 0x20
def sregFSTAT : Nat := 0x21
def sregTLBINV : Nat := 0x34
def sregDLPOL : Nat := 0x50

/-- Registers that only a privileged service context reads (R411). -/
def sregReadPriv (n : Nat) : Bool := n == sregDLPOL

/-- Registers that only a privileged service context writes (R229, R411). -/
def sregWritePriv (n : Nat) : Bool := n == sregTLBINV || n == sregDLPOL

def execSysr (f : FmtCS) (s : State) : Host.Outcome State Fault Refusal :=
  s.issueS f.gd fun t =>
    let n := f.sreg.toNat
    if sregReadPriv n && !s.privileged t.ctx then s.raiseFatal s.cur t errPermission (slotIx .C) (encode (.sysr f)) 0#64 0#64
    else s.setTask s.cur (t.putW 2 .C f.d (s.sreg s.cur t n))

/-- DLPOL as a write leaves it (R411). -/
def State.writeDlpol (s : State) (v : Word) : State :=
  let per := BitVec.ofNat 16 (v.toNat / 2 ^ 16)
  let vict := BitVec.ofNat 2 v.toNat
  { s with
    dlPer := if per = 0#16 then 1#16 else per
    dlEn := v.getLsbD 8
    dlVict := if vict = 3#2 then 0#2 else vict }

/-- An admitted write of a system register by a task; every other register takes none. -/
def State.writeSreg (s : State) (c : CoreId) (t : Task) (n : Nat) (v : Word) : State :=
  if n = sregSBCHK then s.setCtx t.ctx { s.ctx t.ctx with sbchk := v.getLsbD 0 }
  else if n = sregFSTAT then s.setTask c { t with fstat := t.fstat &&& ~~~(v.setWidth 7) }
  else if n = sregDLPOL then s.writeDlpol v
  else if n = sregTLBINV then
    (s.setTask c { t with waits := t.waits ++ [.tlbinv s.nextDrop] }).startDrop v false
  else s

def execSysw (f : FmtCS) (s : State) : Host.Outcome State Fault Refusal :=
  s.issueS f.gd fun t =>
    let n := f.sreg.toNat
    if sregWritePriv n && !s.privileged t.ctx then s.raiseFatal s.cur t errPermission (slotIx .C) (encode (.sysw f)) 0#64 0#64
    else s.writeSreg s.cur t n (t.regs.readW .C 0#64 f.s1)

end Sys2Proof.Machine
end

