-- ==== Sys2Proof/Machine/Log.lean ====
section
/-! DEFINITION. The error-log ring of a stack: fatal, soft-error and accounting records, and ELTAIL (R427, R442, R469). -/

namespace Sys2Proof.Machine

/-- The bytes of a record from its fields, each with its size. -/
def recBytes (l : List (Nat × Nat)) : List Byte := l.flatMap (fun f => natBytes f.1 f.2)

/-- ELCFG: ring size and EN. -/
def StackS.elSize (x : StackS) : Nat := x.elcfg.toNat % 2 ^ 17
def StackS.elOn (x : StackS) : Bool := x.elcfg.getLsbD 63

/-- Whether the ring takes a record now. -/
def StackS.elRoom (x : StackS) : Bool := x.elOn && (x.elhead - x.eltail).toNat != x.elSize

/-- Where the ring's next record goes. -/
def StackS.elPlace (x : StackS) : Nat := x.elbase.toNat / 4096 % 2 ^ 40 * 4096 + 64 * (x.elhead.toNat % x.elSize)

/-- Writes one record into the ring. -/
def State.writeEl (s : State) (st : StackId) (b : List Byte) : State :=
  let s := s.putPhys (s.stack st).elPlace (b.map some)
  s.setStack st { s.stack st with elhead := (s.stack st).elhead + 1#32 }

/-- Whether a stack can take one more record: into the ring, or among the 64 that wait on chip. -/
def StackS.elTakes (x : StackS) : Bool := x.elheld.isEmpty && ((x.elwait.isEmpty && x.elRoom) || decide (x.elwait.length < 64))
def State.elTakes (s : State) (st : StackId) : Bool := (s.stack st).elTakes

/-- Whether the ring of a stack takes a record at once, nothing waiting before it. -/
def State.elReady (s : State) (st : StackId) : Bool := (s.stack st).elwait.isEmpty && (s.stack st).elheld.isEmpty && (s.stack st).elRoom

/-- A record whose event waited joins those that wait on chip, while there is room. -/
def StackS.admitHeld (x : StackS) : StackS :=
  match x.elheld with
  | h :: t => if x.elwait.length < 64 then { x with elwait := x.elwait ++ [h.2], elheld := t } else x
  | [] => x

/-- Records that wait on chip are written while the ring has room, at most so many of them; those whose events waited follow. -/
def State.drainEl (s : State) (st : StackId) : Nat → State
  | 0 => s
  | k + 1 =>
    let x := s.stack st
    match x.elwait with
    | [] => s
    | b :: t =>
      if x.elRoom then ((s.setStack st { x with elwait := t }.admitHeld).writeEl st b).drainEl st k
      else s

/-- Records of a stack that the ring has not taken. -/
def StackS.elPending (x : StackS) : Nat := x.elwait.length + x.elheld.length

/-- A record whose bytes are given but for SEQ, with its time, goes to the ring, or waits on chip, and the host is interrupted.
Beyond 64 waiting records its event waits, with its core frozen (R427). A record that the ring does not take counts once in the
FBOVF of its context. -/
def State.logRecord (s : State) (st : StackId) (l : List (Nat × Nat)) (time : Nat) (ctx : Option CtxId) (core : Option CoreId) : State :=
  let x := s.stack st
  let b := recBytes (l ++ [(8, time), (4, x.elseq.toNat), (4, 0)])
  let x := { x with elseq := x.elseq + 1#32 }
  if x.elPending = 0 ∧ x.elRoom = true then (s.setStack st x).writeEl st b
  else
    let x := if x.elTakes then { x with elwait := x.elwait ++ [b] } else { x with elheld := x.elheld ++ [(core, b)] }
    let s := (s.setStack st x).interrupt (.errorLog st)
    match ctx with
    | some c => s.count c ctrFBOVF 1
    | none => s

/-- The ring takes what waits, as far as it has room. -/
def State.drainLog (s : State) (st : StackId) : State := s.drainEl st (s.stack st).elPending

/-- The record of a fatal context error. -/
def Fatal.fields (f : Fatal) : List (Nat × Nat) :=
  [(1, f.code), (1, f.slot), (2, f.ctx.val), (4, f.lid.toNat), (4, f.agent.toNat), (4, f.fpos.toNat), (8, f.coord.toNat),
   (8, f.syl.toNat), (8, f.va.toNat), (8, f.detail.toNat)]

/-- A soft-error record (R442). -/
def softFields (code : Nat) (u : ErrUnit) : List (Nat × Nat) :=
  [(1, code), (1, slotNone), (2, 0), (4, 0), (4, 0), (4, 0), (8, 0), (8, 0), (8, 0), (8, (Config.softDetail u).toNat)]

/-- The core that a unit belongs to. -/
def errCore : ErrUnit → Option CoreId
  | .scratchWord c _ | .planeBank c _ | .coreBank c | .coreLogic c | .register c _ _ _ _ | .snapshot c _ | .l1Line c _ _ |
    .tagWord c _ => some c
  | .memWord _ | .engine _ _ | .tokenRecord _ _ | .stackUnit _ | .windowWord _ | .ccLine _ _ _ | .l2Line _ _ _ => none

def State.logSoft (s : State) (st : StackId) (code : Nat) (u : ErrUnit) : State :=
  s.logRecord st (softFields code u) s.ns none (errCore u)

/-- An accounting record (R469). -/
def acctFields (ctx : CtxId) (lid : BitVec 32) (errc : Nat) (a : Acct) : List (Nat × Nat) :=
  [(1, 0x30), (1, slotNone), (2, ctx.val), (4, lid.toNat), (4, a.tasks), (1, errc), (3, 0), (8, a.issued), (8, a.astep),
   (8, a.cebyte), (8, a.frz)]

/-- ELTAIL_WRITE: room for records that wait. -/
def execEltailWrite (st : StackId) (v : Word) (s : State) : Host.Outcome State Fault Refusal :=
  .next ((s.setStack st { s.stack st with eltail := v.setWidth 32 }).drainLog st)

end Sys2Proof.Machine
end

