-- ==== Sys2Proof/Machine/Launch.lean ====
section
/-! DEFINITION. The queue block: semaphores, queues and pushes; the stages of a launch record up to admission; completion and
trigger words, growth, and retirement (R60 to R83, R469, R470). -/

namespace Sys2Proof.Machine

/-! ## Semaphores (R63) -/

/-- When a lease of some µs that starts now ends. -/
def State.leaseEnd (s : State) (lease : BitVec 32) : Option Nat := if lease = 0#32 then none else some (s.ns + 1000 * lease.toNat)

/-- A master's write of a semaphore register. Whoever gets semaphore 0 is the dispatcher last active (R82). The holder's write of
LEASE alone changes the field and leaves the end of the lease that runs (DESIGN CHOICE, log entry 69). -/
def State.semWrite (s : State) (m : Master) (n : SemId) (acq rel : Bool) (lease : BitVec 32) : State :=
  let x := s.sem n
  let mine := x.own == some m
  if acq && rel then s
  else if acq then
    if mine || x.own == none then
      { s.setSem n { own := some m, lease := lease, ends := s.leaseEnd lease } with disp := if n = 0 then some m else s.disp }
    else s
  else if !mine then s
  else if rel then s.setSem n { own := none, lease := lease, ends := none }
  else s.setSem n { x with lease := lease }

def execSemAcquire (m : Master) (n : SemId) (lease : BitVec 32) (s : State) : Host.Outcome State Fault Refusal :=
  .next (s.semWrite m n true false lease)

def execSemRelease (m : Master) (n : SemId) (lease : BitVec 32) (s : State) : Host.Outcome State Fault Refusal :=
  .next (s.semWrite m n false true lease)

/-- SEM_LEASE_EXPIRE: a lease whose time has run out frees the semaphore. -/
def execSemLeaseExpire (n : SemId) (s : State) : Host.Outcome State Fault Refusal :=
  let x := s.sem n
  .next (match x.ends with
    | some e => if e ≤ s.ns then s.setSem n { x with own := none, ends := none } else s
    | none => s)

/-- The active dispatcher: the die that holds semaphore 0 (R64, R82). -/
def State.active (s : State) : Option Master := (s.sem 0).own

/-- DISPATCHER_TAKEOVER: where no die holds semaphore 0, the one that was not last active takes it with a lease of 500 µs; a die that
stayed in its ROM takes nothing (R82, R489). -/
def execDispatcherTakeover (s : State) : Host.Outcome State Fault Refusal :=
  .next (match s.active with
    | some _ => s
    | none =>
      let m : Master := match s.rom, s.disp with
        | some .A, _ => .B
        | some .B, _ => .A
        | none, some .A => .B
        | none, _ => .A
      s.semWrite m 0 true false 500#32)

/-- The active dispatcher renews its lease (R82). -/
def State.renewLease (s : State) : State :=
  match s.active with
  | some m => s.semWrite m 0 true false 500#32
  | none => s

/-- CAMPION_RESET: every semaphore the die holds becomes free (R63). -/
def execCampionReset (m : Master) (s : State) : Host.Outcome State Fault Refusal :=
  .next { s with sems := s.sems.map (fun e => (e.1, if e.2.own = some m then { e.2 with own := none, ends := none } else e.2)) }

/-! ## Completion and trigger words (R72 to R74) -/

/-- The mapping of a word that the dispatcher writes. -/
def State.wordLeaf (s : State) (ctx : CtxId) (va : Word) : Option Leaf :=
  match s.translate ctx va with
  | .ok l => if paWindow l.pa || !l.w then none else some l
  | .error _ => none

/-- A word's value. -/
def wordValue (done gref : Bool) (code count : Nat) : Nat :=
  b2n done * 2 ^ 63 + (if code = 0 then 0 else 2 ^ 62) + b2n gref * 2 ^ 61 + code % 256 * 2 ^ 48 + count % 2 ^ 48

/-- The dispatcher writes a word at its home, behind what has been sent to its line before (R29). -/
def State.putWord (s : State) (ctx : CtxId) (launch : Nat) (va : Word) (v : Nat) : State :=
  match s.wordLeaf ctx va with
  | none => s
  | some l =>
    let w : PWrite := ⟨l.pa, (natBytes 8 v).map some,
      ⟨0, ctx, launch, 0#48, l.home, l.leafPa, l.late, va - BitVec.ofNat 64 (l.pa % 128), l.lclass, 0#32, none⟩, false, false, [],
      false, 0#16⟩
    let s' := { s with pwrites := s.pwrites ++ [w] }
    if s.stuck w || s.pwrites.any (fun v => v.way == w.way) then s' else s'.performWrite s.pwrites.length

/-- Both words of a launch, the trigger word first. -/
def State.putWords (s : State) (ctx : CtxId) (launch : Nat) (r : LaunchRec) (tdone cdone gref : Bool) (code trig fin : Nat) :
    State :=
  let s := if r.tcnt = 0#64 then s else s.putWord ctx launch r.tcnt (wordValue tdone gref code trig)
  s.putWord ctx launch r.ccnt (wordValue cdone gref code fin)

/-- Whether the word that a job wrote last has not been performed: it waits for a frame, or behind another write (R29, R245). -/
def State.jobWaits (s : State) (j : WordJob) : Bool :=
  match j.last with
  | some va => s.pwrites.any (fun w => w.tag.va + BitVec.ofNat 64 (w.pa % 128) == va && w.tag.ctx == j.ctx &&
      w.tag.launch == j.launch && !w.direct)
  | none => false

/-- A job's words are written in order until one waits: what is left of it. -/
def State.stepJob (s : State) : Nat → WordJob → State × WordJob
  | 0, j => (s, j)
  | k + 1, j =>
    if s.jobWaits j then (s, j)
    else match j.steps with
      | [] => (s, j)
      | (va, v) :: t =>
        (s.putWord j.ctx j.launch va v).stepJob k { j with steps := t, last := some va }

/-- Whether a launch is on its way to DONE. -/
def State.ending (s : State) (n : Nat) : Bool := s.jobs.any (fun j => j.retires && j.launch == n)

/-! ## Launch records (R69 to R71) -/

/-- A dependence entry. -/
def depOf (b : List Byte) : Word × Nat := (BitVec.ofNat 64 (fld b 0 8), fld b 8 1)

/-- A launch record from its 128 bytes. -/
def launchRecOf (va : Word) (b : List Byte) : LaunchRec :=
  let n := min 4 (fld b 56 1)
  let dep (k : Nat) : List Byte := (b.drop (64 + 16 * k)).take 16
  let depBad (k : Nat) : Bool :=
    if k < n then fld (dep k) 0 8 % 8 != 0 || decide (1 < fld (dep k) 8 1) || !zeros (dep k) 9 7 else !zeros (dep k) 0 16
  { bad := fld b 0 8 % 64 != 0 || fld b 8 8 % 8 != 0 || fld b 16 4 % 8 != 0 || decide (4096 < fld b 16 4) ||
      fld b 24 4 == 0 || fld b 28 4 == 0 || fld b 32 4 == 0 || !zeros b 36 4 || fld b 40 8 % 8 != 0 || fld b 48 8 % 8 != 0 ||
      decide (4 < fld b 56 1) || decide (1 < fld b 57 1) || !zeros b 58 6 || (List.range 4).any depBad
    va := va
    image := BitVec.ofNat 64 (fld b 0 8)
    args := BitVec.ofNat 64 (fld b 8 8)
    argsize := fld b 16 4
    lid := BitVec.ofNat 32 (fld b 20 4)
    ext := (fld b 24 4, fld b 28 4, fld b 32 4)
    ccnt := BitVec.ofNat 64 (fld b 40 8)
    tcnt := BitVec.ofNat 64 (fld b 48 8)
    irq := fld b 57 1 % 2 == 1
    deps := (List.range n).map (fun k => depOf (dep k)) }

/-- The record at the head of a queue, as far as it has been read. -/
def HeadSt.rcd : HeadSt → Option LaunchRec
  | .raw => none
  | .read r => some r
  | .valid r _ => some r
  | .ready r _ => some r

/-- The record that a queue holds at an address. -/
def State.recordAt (s : State) (ctx : CtxId) (va : Word) : Option LaunchRec :=
  (s.readBytes ctx va 128).map (launchRecOf va)

/-- The interrupt of a launch that is finished (R72). -/
def launchIrq (irqb : Bool) (r : LaunchRec) (code : Nat) : Option Irq :=
  if r.irq || code != 0 then some (.launch (if irqb then .B else .A) r.lid.toNat) else none

/-- The writes that finish both words of a launch, the trigger word first (R72). -/
def finishJob (ctx : CtxId) (launch : Nat) (r : LaunchRec) (gref : Bool) (code trig fin : Nat) (irq : Option Irq) (retires : Bool) :
    WordJob :=
  ⟨ctx, launch, (if r.tcnt = 0#64 then [] else [(r.tcnt, wordValue true gref code trig)]) ++ [(r.ccnt, wordValue true gref code fin)],
    none, irq, retires, none⟩

/-! ## Jobs that end (R72, R74) -/

/-- The 4 KiB regions of a record's words: home slice and base. -/
def State.wordRegions (s : State) (ctx : CtxId) (r : LaunchRec) : List (StackId × Nat) :=
  (([r.ccnt] ++ (if r.tcnt = 0#64 then [] else [r.tcnt])).filterMap (fun va =>
    (s.wordLeaf ctx va).map (fun l => (regionHome l, l.pa / 4096 * 4096)))).eraseDups

/-- The dispatcher gives back the regions of a retired launch's words that no other launch needs. -/
def State.freeRegions (s : State) (l : Launch) : State :=
  (s.wordRegions l.ctx l.rcd).foldl (fun (s : State) p =>
    if s.launches.any (fun e => !e.2.done && (s.wordRegions e.2.ctx e.2.rcd).contains p) then s
    else
      (s.setStack p.1 { s.stack p.1 with toks := (s.stack p.1).toks.filter (fun e =>
        !(e.2.isFor p.2 4 && e.2.holder == .dispatcher)) }).putRest p.2 4 .dv) s

/-- A launch whose words are DONE has retired, and its regions go to rest (R74). -/
def State.retired (s : State) (n : Nat) : State :=
  match s.launch? n with
  | none => s
  | some l => (s.setLaunch n { l with done := true, pendTeams := [] }).freeRegions l

/-- What follows the last word of a job: the interrupt, once DONE is set, and the retirement (R72). -/
def State.endJob (s : State) (j : WordJob) : State :=
  let s := match j.irq with
    | some i => s.interrupt i
    | none => s
  if j.retires then s.retired j.launch else s

/-- Whether every stack that ran a task of a launch can take its accounting record into its ring at once: a master that sees DONE then
finds each at or below ELHEAD (R469). -/
def State.acctRoom (s : State) (l : Launch) : Bool := l.acct.all (fun e => s.elReady (Fin.ofNat 64 e.1))

/-- The accounting records of a launch. -/
def State.writeAcct (s : State) (l : Launch) (code : Nat) : State :=
  l.acct.foldl (fun (s : State) e =>
    s.logRecord (Fin.ofNat 64 e.1) (acctFields l.ctx l.rcd.lid code e.2) s.ns none none) s

/-- A job's accounting records are written once they all have room, before its words (R469). -/
def State.acctJob (s : State) (j : WordJob) : State × WordJob :=
  match j.acct, s.launch? j.launch with
  | some code, some l => if s.acctRoom l then (s.writeAcct l code, { j with acct := none }) else (s, j)
  | _, _ => (s, { j with acct := none })

/-- A job goes on as far as it can, and ends or stays. -/
def State.runJob (s : State) (j : WordJob) : State :=
  let (s, j) := s.acctJob j
  if j.acct.isSome then { s with jobs := s.jobs ++ [j] }
  else
    let (s, k) := s.stepJob 3 j
    if k.steps.isEmpty && !s.jobWaits k then s.endJob k else { s with jobs := s.jobs ++ [k] }

/-- Every job goes on as far as it can. -/
def State.runJobs (s : State) : State := s.jobs.foldl State.runJob { s with jobs := [] }

/-- A record that is not admitted is finished with a code: COUNT 0 in both words (R73). A word that cannot be written is left out,
and the interrupt is raised without it; of a record that cannot be read nothing is written and no interrupt raised (DESIGN CHOICE,
log entry 71). -/
def State.refuseRec (s : State) (q : QueueS) (r : Option LaunchRec) (code : Nat) : State :=
  match r with
  | none => s
  | some r =>
    { s with
      jobs := s.jobs ++ [finishJob q.ctx s.nextLaunch r false code 0 0 (launchIrq q.irqb r code) false]
      nextLaunch := s.nextLaunch + 1 }.runJobs

/-- The head record of a queue is refused, and the next one becomes the head. -/
def State.refuseHead (s : State) (n : QueueId) (code : Nat) : State :=
  let q := s.queue n
  match q.recs with
  | [] => s
  | va :: t =>
    let r := match q.head.rcd with
      | some r => some r
      | none => s.recordAt q.ctx va
    (s.refuseRec q r code).setQueue n { q with recs := t, head := .raw }

/-- Every record of a queue is dropped (R68, R83). -/
def State.dropRecords (s : State) (n : QueueId) (code : Nat) : Nat → State
  | 0 => s
  | k + 1 => if (s.queue n).recs.isEmpty then s else (s.refuseHead n code).dropRecords n code k

/-! ## Queue registers (R65, R66, R68) -/

/-- Whether a launch of a queue is admitted and not retired. -/
def State.queueActive (s : State) (n : QueueId) : Bool := s.launches.any (fun e => e.2.q == n && !e.2.done)

/-- A master's write of QCFG: it needs semaphore 1; the records that EN = 0 drops interrupt the master that IRQB named before this
write (DESIGN CHOICE, log entry 84); a change of CTX is ignored while the queue is in use, and EN = 1 before bring-up is complete
(R489). -/
def State.qcfgWrite (s : State) (m : Master) (n : QueueId) (v : Word) : State :=
  let q := s.queue n
  let en := v.getLsbD 63
  let ctx : CtxId := Fin.ofNat 4096 (v.toNat / 2 ^ 36)
  if (s.sem 1).own != some m || (ctx != q.ctx && (!q.recs.isEmpty || s.queueActive n)) || (en && s.stage != 4) then s
  else
    let s := if en then s else s.dropRecords n 0x13 q.recs.length
    s.setQueue n { s.queue n with en := en, prio := BitVec.ofNat 2 (v.toNat / 2 ^ 61), irqb := v.getLsbD 60, ctx := ctx }

def execQueueEnable (m : Master) (q : QueueId) (v : Word) (s : State) : Host.Outcome State Fault Refusal :=
  .next (s.qcfgWrite m q (v ||| BitVec.twoPow 64 63))

def execQueueDisable (m : Master) (q : QueueId) (v : Word) (s : State) : Host.Outcome State Fault Refusal :=
  .next (s.qcfgWrite m q (v &&& ~~~BitVec.twoPow 64 63))

def execQueueConfigure (m : Master) (q : QueueId) (v : Word) (s : State) : Host.Outcome State Fault Refusal :=
  .next (s.qcfgWrite m q v)

/-- The answer of a push in a bank of QRES: V, RES, PN, SEQ. -/
def qresAfter (old : Word) (res : Nat) (seq : BitVec 16) : Word :=
  pack64 [(1, 63), (res, 60), ((old.toNat / 65536 + 1) % 65536, 16), (if res = 0 then seq.toNat else old.toNat % 65536, 0)]

/-- QUEUE_PUSH: the first condition that applies is reported, in the order RES 3, 2, 1 (R66). The first record that a queue accepts
has acceptance number 1 (DESIGN CHOICE, log entry 11). -/
def execQueuePush (m : Master) (n : QueueId) (v : Word) (s : State) : Host.Outcome State Fault Refusal :=
  let q := s.queue n
  let res := if v.toNat / 2 ^ 56 ≠ 0 ∨ v.toNat % 128 ≠ 0 then 3 else if !q.en then 2 else if 256 ≤ q.recs.length then 1 else 0
  let q := if res = 0 then { q with recs := q.recs ++ [v], seq := q.seq + 1#16 } else q
  .next (s.setQueue n (match m with
    | .A => { q with resA := qresAfter q.resA res q.seq }
    | .B => { q with resB := qresAfter q.resB res q.seq }))

/-! ## The stages of the head record (R76) -/

/-- The launch of a queue with coordinates still to be issued: the earliest admitted. -/
def State.pendingLaunch (s : State) (n : QueueId) : Option (Nat × Launch) :=
  s.launches.find? (fun e => e.2.q == n && !e.2.done && !e.2.pendTeams.isEmpty)

/-- Whether the head record of a queue may go on: the queue is enabled, the dispatcher active, and every coordinate of the
queue's launches issued (R77). -/
def State.headMay (s : State) (n : QueueId) : Bool :=
  s.active.isSome && (s.queue n).en && (s.pendingLaunch n).isNone

/-- The lowest of some codes. -/
def lowest : List Nat → Option Nat
  | [] => none
  | a :: t => match lowest t with
    | some b => some (min a b)
    | none => some a

/-- Codes of the context of a record, at every stage: not valid, or save areas that have not passed their check (R437, R473). -/
def State.ctxCodes (s : State) (ctx : CtxId) : List Nat :=
  (if (s.ctx ctx).valid then [] else [0x15]) ++ (if (s.ctx ctx).ok then [] else [0x16])

/-- Codes of a record by itself (R76 stage 1): what R69 to R71 say of it, and its argument block and words that cannot be read or
written. -/
def State.recCodes (s : State) (ctx : CtxId) (r : LaunchRec) : List Nat :=
  let args := decide (4096 < r.argsize) || (s.readBytes ctx r.args r.argsize).isSome
  let words := (s.wordLeaf ctx r.ccnt).isSome && (r.tcnt == 0#64 || (s.wordLeaf ctx r.tcnt).isSome)
  (if r.bad then [0x10] else []) ++ (if args && words then [] else [errUnreadable])

/-- LAUNCH_RECORD_READ: stage 1. The lowest code found at a stage is written, and a record refused there goes no further (R73, R76;
log entry 72). -/
def execLaunchRecordRead (n : QueueId) (s : State) : Host.Outcome State Fault Refusal :=
  let q := s.queue n
  .next (match q.head, q.recs with
    | .raw, va :: _ =>
      if !s.headMay n then s
      else if !(s.ctx q.ctx).valid then s.refuseHead n 0x15
      else match s.recordAt q.ctx va with
        | none => s.refuseHead n errUnreadable
        | some r => match lowest (s.recCodes q.ctx r ++ s.ctxCodes q.ctx) with
          | some c => s.refuseHead n c
          | none => s.setQueue n { q with head := .read r }
    | _, _ => s)

/-- How the dependences of a record stand (R75): codes of those that fail it, and whether all are met. -/
def State.depCodes (s : State) (ctx : CtxId) (r : LaunchRec) : List Nat :=
  r.deps.filterMap (fun d => match s.readBytes ctx d.1 8 with
    | none => some errUnreadable
    | some b => if leNat b / 2 ^ 62 % 2 = 1 then some 0x11 else none)
def State.depsMet (s : State) (ctx : CtxId) (r : LaunchRec) : Bool :=
  r.deps.all (fun d => match s.readBytes ctx d.1 8 with
    | none => false
    | some b => leNat b / 2 ^ 62 == 2)

/-- Codes of a record against its image: extents and argument block (R57 0x0D, R69, R71). -/
def shapeCodes (i : Image) (r : LaunchRec) (args : Option (List Byte)) : List Nat :=
  ([0, 1, 2].flatMap (fun k => match i.loops.find? (fun l => l.lkind != 0 && l.comp == k) with
    | some l => if l.trip < extOf r.ext k then [0x0D] else []
    | none => if extOf r.ext k = 1 then [] else [0x10])) ++
  (i.bufs.flatMap (fun b => if r.argsize < b.argoff + 8 then [0x10] else match args with
    | some a => if fld a b.argoff 8 % 2 ^ pageBits b.pgsz = 0 then [] else [0x0D]
    | none => []))

/-- Every code that applies to a record at stage 2, and its image (R73, R76): its dependences are not judged before stage 3. -/
def State.launchCodes (s : State) (ctx : CtxId) (r : LaunchRec) : List Nat × Option Image :=
  let base := s.recCodes ctx r ++ s.ctxCodes ctx
  match s.validate ctx r.image with
  | .error c => (c :: base, none)
  | .ok i => (shapeCodes i r (s.readBytes ctx r.args r.argsize) ++ base, some i)

/-- IMAGE_VALIDATE: stage 2; of the codes that apply the lowest is written. -/
def execImageValidate (n : QueueId) (s : State) : Host.Outcome State Fault Refusal :=
  let q := s.queue n
  .next (match q.head with
    | .read r =>
      if !s.headMay n then s
      else
        let (cs, i) := s.launchCodes q.ctx r
        match lowest cs, i with
        | some c, _ => s.refuseHead n c
        | none, some i => s.setQueue n { q with head := .valid r i }
        | none, none => s
    | _ => s)

/-- DEPENDENCE_MET: stage 3. -/
def execDependenceMet (n : QueueId) (s : State) : Host.Outcome State Fault Refusal :=
  let q := s.queue n
  .next (match q.head with
    | .valid r i =>
      if !s.headMay n then s
      else match lowest (s.depCodes q.ctx r ++ s.ctxCodes q.ctx) with
        | some c => s.refuseHead n c
        | none => if s.depsMet q.ctx r then s.setQueue n { q with head := .ready r i } else s
    | _ => s)

/-! ## Admission (R74, R76, R77) -/

/-- Whether the dispatcher holds a region already. -/
def State.dispatcherHolds (s : State) (p : StackId × Nat) : Bool :=
  ((s.stack p.1).recsFor p.2 4).any (fun e => e.2.holder == .dispatcher)

/-- Whether the dispatcher can take the word regions of a record: those it does not hold rest, and each slice has a general record for
every one of them (R74, R367). -/
def State.canTake (s : State) (ctx : CtxId) (r : LaunchRec) : Bool :=
  let ps := (s.wordRegions ctx r).filter (fun p => !s.dispatcherHolds p)
  ps.all (fun p => s.atRest p.1 p.2 4 &&
    decide ((ps.filter (fun q => q.1 == p.1)).length + ((s.stack p.1).toks.filter (fun e => e.1 < 15344)).length ≤ 15344))

/-- The dispatcher takes a region from rest. -/
def State.takeRegion (s : State) (p : StackId × Nat) : State :=
  if s.dispatcherHolds p then s
  else match freeTok (s.stack p.1).toks 15344 0 with
    | some e => s.setStack p.1 ((s.stack p.1).setTok e
        { TokRec.fresh p.2 4 0 .dflt .dispatcher with claimed := true, arr := true })
    | none => s

/-- The teams of a grid in loop-table order, each by the coordinate of its rank 0 (R80). -/
def teamCoords (e : Nat × Nat × Nat) : List Nat → Nat × Nat × Nat → List (BitVec 48)
  | [], c => [packCoord c.1 c.2.1 c.2.2]
  | k :: t, c => (List.range (extOf e k)).flatMap (fun v =>
      teamCoords e t (if k = 0 then (v, c.2.1, c.2.2) else if k = 1 then (c.1, v, c.2.2) else (c.1, c.2.1, v)))

/-- Tasks of a grid. -/
def gridSize (e : Nat × Nat × Nat) : Nat := e.1 * e.2.1 * e.2.2

/-- Whether the head record of a queue is ready for admission and a place is free, or its context has since failed it (R73, R437,
R473). One that waits in stage 4 does not make its queue issuable, so WAITED does not run (DESIGN CHOICE, log entry 84). -/
def State.mayAdmit (s : State) (n : QueueId) : Bool :=
  let q := s.queue n
  match q.head with
  | .ready r _ => s.headMay n && (!(s.ctxCodes q.ctx).isEmpty ||
      (s.canTake q.ctx r && decide ((s.launches.filter (fun e => !e.2.done)).length < 1024)))
  | _ => false

/-- ADMITTING the head record of a queue: the word regions are taken and the argument block is captured (R194); or it is refused. A
block that can no longer be read is captured as empty (DESIGN CHOICE, log entry 83). -/
def State.admitHead (s : State) (n : QueueId) : State :=
  let q := s.queue n
  match q.head with
  | .ready r i =>
    if !s.mayAdmit n then s
    else match lowest (s.ctxCodes q.ctx) with
    | some c => s.refuseHead n c
    | none =>
      let s := (s.wordRegions q.ctx r).foldl State.takeRegion s
      let l : Launch := {
        ctx := q.ctx
        q := n
        rcd := r
        img := i
        argb := (s.readBytes q.ctx r.args r.argsize).getD []
        ext := r.ext
        total := gridSize r.ext
        pendTeams := teamCoords r.ext i.stackComps (0, 0, 0)
        finished := 0
        triggered := 0
        finishedCoords := []
        gref := false
        done := false
        heldArr := []
        acct := [] }
      { s.setQueue n { q with recs := q.recs.drop 1, head := .raw } with
        launches := s.launches.set s.nextLaunch l
        nextLaunch := s.nextLaunch + 1 }
  | _ => s

/-! ## Retirement (R72, R469, R470) -/

/-- A launch is finished, with a code where it ends in error: its accounting, then its words, the trigger word's DONE first, and it
retires when they have been performed (R72, R469). -/
def State.retire (s : State) (n code : Nat) : State :=
  match s.launch? n with
  | none => s
  | some l =>
    if l.done || s.ending n then s
    else
      let s := s.setLaunch n { l with pendTeams := [] }
      let s := match s.hold with
        | some (_, _, m, _) => if m = n then { s with hold := none } else s
        | none => s
      { s with jobs := s.jobs ++ [{ finishJob l.ctx n l.rcd l.gref code l.triggered l.finished
          (launchIrq (s.queue l.q).irqb l.rcd code) true with acct := some code }] }.runJobs

/-- The words of a launch after a count has changed; it retires once every task has finished and the records have room. -/
def State.updateWords (s : State) (n : Nat) : State :=
  match s.launch? n with
  | none => s
  | some l =>
    if l.done || s.ending n then s
    else
      let td := l.pendTeams.isEmpty && decide (l.total ≤ l.triggered)
      if td && decide (l.total ≤ l.finished) && s.acctRoom l then s.retire n 0
      else
        s.putWords l.ctx n l.rcd td false l.gref 0 l.triggered l.finished

/-! ## Growth and triggers (R72, R78, R79, R405, R406) -/

/-- Applies a grow request to its launch. -/
def State.applyGrow (s : State) (g : GrowMsg) : State :=
  match s.launch? g.launch with
  | none => s
  | some l =>
    if l.done || s.ending g.launch || g.n == 0 then s
    else match l.img.loops.find? (fun x => x.lkind == 2) with
      | none => (s.setLaunch g.launch { l with gref := true }).updateWords g.launch
      | some x =>
        if g.triggered then (s.setLaunch g.launch { l with gref := true }).updateWords g.launch
        else
          let old := Sys2Proof.Machine.extOf l.ext x.comp
          let new := min (old + g.n) x.trip
          let ext := if x.comp = 0 then (new, l.ext.2.1, l.ext.2.2) else if x.comp = 1 then (l.ext.1, new, l.ext.2.2)
            else (l.ext.1, l.ext.2.1, new)
          let added := (teamCoords ext l.img.stackComps (0, 0, 0)).filter (fun c => decide (old ≤ coordComp c x.comp))
          s.setLaunch g.launch { l with ext := ext, total := gridSize ext, pendTeams := l.pendTeams ++ added }

/-- GROW_APPLY of request `n`: requests of one launch are applied in their order. -/
def execGrowApply (n : Nat) (s : State) : Host.Outcome State Fault Refusal :=
  .next (match s.grows[n]? with
    | none => s
    | some g =>
      if (s.grows.take n).any (fun k => k.launch == g.launch) then s
      else { s with grows := listDrop s.grows n }.applyGrow g)

/-- Every request of a launch that is on its way is applied. -/
def State.applyGrows (s : State) (launch : Nat) : State :=
  (s.grows.filter (fun g => g.launch == launch)).foldl State.applyGrow
    { s with grows := s.grows.filter (fun g => g.launch != launch) }

/-- One task has triggered: COUNT in the trigger word. -/
def State.countTrigger (s : State) (launch : Nat) : State :=
  let s := s.applyGrows launch
  match s.launch? launch with
  | some l => (s.setLaunch launch { l with triggered := l.triggered + 1 }).updateWords launch
  | none => s

/-- TRIGGER_COUNT of message `n`, once the writes it covers wait for no frame, and the full/empty accesses and rounds before it have
been performed and accepted (R245, R370). -/
def State.triggerCount (s : State) (n : Nat) : State :=
  match s.trigs[n]? with
  | none => s
  | some m => if s.relWaits m.launch m.coord m.after then s else { s with trigs := listDrop s.trigs n }.countTrigger m.launch

def execTriggerCount (n : Nat) (s : State) : Host.Outcome State Fault Refusal := .next (s.triggerCount n)

/-- The end of a context as its launches and queues see it (R83): `cause` is the launch whose task caused it. -/
def State.endLaunches (s : State) (ctx : CtxId) (cause : Option Nat) : State :=
  let s := (List.range 64).foldl (fun (s : State) k =>
    let n : QueueId := Fin.ofNat 64 k
    let q := s.queue n
    if q.ctx = ctx ∧ (q.en = true ∨ q.recs ≠ []) then
      let s := s.dropRecords n 0x15 q.recs.length
      s.setQueue n { s.queue n with en := false }
    else s) s
  ((s.launches.filter (fun e => e.2.ctx == ctx && !e.2.done && !s.ending e.1)).map Prod.fst).foldl (fun (s : State) n =>
    s.retire n (if cause = some n then 0x14 else 0x15)) s

end Sys2Proof.Machine
end

