-- ==== Sys2Proof/Machine/Save.lean ====
section
/-! DEFINITION. Save slots: what a suspended task's slot holds, its save and the read of it on resume (R435 to R440). -/

namespace Sys2Proof.Machine

/-! ## Slots (R437, R438) -/

/-- The first byte of a save area by its register. -/
def areaBase (v : Word) : Nat := v.toNat / 2 ^ 24 % 2 ^ 28 * 2 ^ 24

/-- Bytes of a slot. -/
def slotSpan : Nat := 2 ^ 24

/-- The slots of a context that are taken, by suspended tasks and tasks about to re-enter (R438). -/
def State.slotsTaken (s : State) (ctx : CtxId) : List Nat :=
  s.stackTab.flatMap (fun x => x.2.teams.flatMap (fun m =>
    if m.2.ctx = ctx then m.2.susp.filterMap (fun e => e.2.saveSlot) else [])) ++
  s.cores.filterMap (fun e => match e.2.next with
    | some (.resume t _) => if t.ctx = ctx then t.saveSlot else none
    | _ => none)

/-- The slot that a save takes: the lowest free one (log entry 44). -/
def State.slotFor (s : State) (ctx : CtxId) : Option Nat :=
  let l := s.slotsTaken ctx
  (List.range (s.ctx ctx).slots.toNat).find? (fun k => !l.contains k)

/-- The first byte of slot `k` of a context in area B or area A. -/
def CtxS.slotPa (x : CtxS) (b : Bool) (k : Nat) : Nat := areaBase (if b then x.saveb else x.savea) + k * slotSpan

/-- Whether the slot of area B bears the VALID stamp of the latest save (R439). -/
def CtxS.latestB (x : CtxS) (k : Nat) : Bool := decide (x.stamps.get 0 (2 * k) < x.stamps.get 0 (2 * k + 1))

/-- Tag byte `k` of a task: tags 8·k to 8·k + 7. -/
def Task.tagByte (t : Task) (k : Nat) : Byte := BitVec.ofNat 8 (((List.range 8).map (fun i => b2n (t.isFull (8 * k + i)) * 2 ^ i)).foldl (· + ·) 0)

/-- Byte `k` of a snapshot entry. -/
def snapByte (f : Flight) (k : Nat) : Byte := (snapWord f (k / 8)).extractLsb' (8 * (k % 8)) 8

/-- What byte `o` of a task's slot holds after save number `n` (R435, R438). The layout of the registers, control state and VALID
stamp below 0x1_0000 and of the array state after the count banks is not given: their bytes are free values; the order within the
other parts is the windows' (log entry 44). -/
def Task.slotByte (t : Task) (n o : Nat) : Byte :=
  if o < 0x10000 then Config.slotByte n o
  else if o < 0x100000 then (match t.flight[(o - 0x10000) / 144]? with
    | some f => snapByte f ((o - 0x10000) % 144)
    | none => 0#8)
  else if o < 0x180000 then t.scrByte (o - 0x100000)
  else if o < 0x200000 then t.tagByte (o - 0x180000)
  else if o < 0x204000 then t.countByte (o - 0x200000)
  else if o < 0x400000 then Config.slotByte n o
  else t.col.get 0#8 (o - 0x400000)

/-- Writes the bytes of a slot. -/
def Task.fillSlot (t : Task) (n base : Nat) (m : List Host.Cell) : List Host.Cell :=
  (List.range slotSpan).foldl (fun m o => Memory.put m (base + o) (t.slotByte n o)) m

/-- A slot is written whole: LPDDR that no L2 caches, for the areas are mapped nowhere (R437). -/
def State.putSlot (s : State) (base n : Nat) (t : Task) : State :=
  { s with
    mem := t.fillSlot n base s.mem
    poison := s.poison.filter (fun a => !(decide (base ≤ a) && decide (a < base + slotSpan))) }

/-- A save of a task, in area A or, redone, in area B, with its VALID stamp (R438, R439). -/
def State.saveTask (s : State) (t : Task) (redo : Bool) : State × Task :=
  let x := s.ctx t.ctx
  match s.slotFor t.ctx with
  | none => (s, { t with saveSlot := none, areaB := redo })
  | some k =>
    let n := x.saves + 1
    let s := s.setCtx t.ctx { x with saves := n, stamps := x.stamps.set (2 * k + b2n redo) n }
    let s := if x.ok then s.putSlot (x.slotPa redo k) n t else s
    (s, { t with saveSlot := some k, areaB := redo })

/-- The slot that a suspended task resumes from: the first byte, in the area whose slot bears the latest stamp, and the number of that
save. -/
def State.savedSlot (s : State) (t : Task) : Option (Nat × Nat) :=
  let x := s.ctx t.ctx
  match t.saveSlot with
  | some k => if x.ok then let b := x.latestB k; some (x.slotPa b k, x.stamps.get 0 (2 * k + b2n b)) else none
  | none => none

/-! ## Poison of saved state (R439, R440) -/

/-- Poisoned words of the windows of a core's task that is current (R232, R440). -/
def State.corePoison (s : State) (c : CoreId) : List Nat :=
  s.poison.filter (fun a => paWindow a && decide (a < 2 ^ 52) && winIsCore a && winCoreId a == c)

/-- The windows of a core are clear of poison: what it clears is written whole (R98, R440). -/
def State.clearWindows (s : State) (c : CoreId) : State :=
  let p := s.corePoison c
  { s with poison := s.poison.filter (fun a => !p.contains a) }

/-- Whether the state of a task holds a poisoned word, so that no save of it succeeds (R439, R440). -/
def State.stateBad (s : State) (c : CoreId) (t : Task) : Bool :=
  !t.bad.isEmpty || !t.badTags.isEmpty || t.flight.any (fun f => f.bad) || !(s.corePoison c).isEmpty

/-- What an uncorrectable error at byte `o` of the slot of a suspended task's latest save strikes: the word of the task that the slot
holds there, which goes with the task; `none` where the layout is not given (log entry 44). -/
def State.spoilSaved (s : State) (c : CoreId) (t : Task) (o : Nat) : Option State :=
  let win (kind k : Nat) : State :=
    let a := s.ownPa c t.launch t.coord (windowPa (stackOf c).val (coreInStack c) kind (k / 8 * 8))
    if s.poison.contains a then s else { s with poison := s.poison ++ [a] }
  if o < 0x10000 then none
  else if o < 0x100000 then
    let i := (o - 0x10000) / 144
    match t.flight[i]? with
    | some f => some (s.mapTaskOf t.launch t.coord (fun t => { t with flight := listSet t.flight i { f with bad := true } }))
    | none => some s
  else if o < 0x180000 then some (win 0 (o - 0x100000))
  else if o < 0x200000 then some (s.mapTaskOf t.launch t.coord (fun t => { t with badTags := (o - 0x180000) / 8 :: t.badTags }))
  else if o < 0x204000 then some (win 3 (o - 0x200000))
  else if o < 0x400000 then none
  else some (win 4 (o - 0x400000))

/-- Whether a word of a slot whose layout is not given is poisoned. -/
def State.slotRegsBad (s : State) (base : Nat) : Bool :=
  s.poison.any (fun a => decide (base ≤ a) && (decide (a < base + 0x10000) || (decide (base + 0x204000 ≤ a) && decide (a < base + 0x400000))))

/-! ## The read on resume (R436, R439) -/

/-- A snapshot entry as its slot holds it. -/
def Flight.fromSlot (f : Flight) (m : List Host.Cell) (a : Nat) : Flight :=
  let w := (Memory.word m a).toNat
  { f with rem := w / 2 ^ 48, fl := BitVec.ofNat 7 (w / 2 ^ 29), val := BitVec.ofNat 1024 (Memory.num m (a + 16) 128) }

/-- The cells of a range, by their offsets in it. -/
def slotCells (m : List Host.Cell) (a n : Nat) : List (Nat × Byte) :=
  (m.filter (fun e => decide (a ≤ e.1) && decide (e.1 < a + n))).map (fun e => (e.1 - a, e.2))

/-- A task with the parts that its slot lays out, as the slot holds them. -/
def Task.fromSlot (t : Task) (m : List Host.Cell) (base : Nat) : Task :=
  let t := { t with
    flight := (List.range t.flight.length).filterMap (fun i => (t.flight[i]?).map (fun f => f.fromSlot m (base + 0x10000 + 144 * i)))
    scratch := []
    full := (slotCells m (base + 0x180000) 0x4000).flatMap (fun e =>
      (List.range 8).filterMap (fun i => if e.2.getLsbD i then some (8 * e.1 + i) else none))
    arr0 := { t.arr0 with counts := [] }
    arr1 := { t.arr1 with counts := [] }
    col := [] }
  let t := (slotCells m (base + 0x100000) 0x80000).foldl (fun (t : Task) e => t.setScrByte e.1 e.2) t
  let t := (slotCells m (base + 0x200000) 0x4000).foldl (fun (t : Task) e => t.setCountByte e.1 e.2) t
  { t with col := (slotCells m (base + 0x400000) 0x800000).foldl (fun (l : Tab Byte) e => l.set e.1 e.2) [] }

/-- A resume reads its task from the area whose slot bears the VALID stamp of the latest save. What has reached the task since the
save (R287, R433) is in the slot by then. Poison in a part whose layout is not given ends the context (log entry 44). -/
def State.readSave (s : State) (c : CoreId) (t : Task) : State × Task :=
  match s.savedSlot t with
  | none => (s, t)
  | some (base, n) =>
    let s := { s with mem := t.fillSlot n base s.mem }
    let t := t.fromSlot s.mem base
    if s.slotRegsBad base then
      ({ s with fatals := s.fatals ++ [s.fatalOf c t errUncorrectable slotNone 0#64 0#64 0#64] }, { t with failed := true })
    else (s, t)

end Sys2Proof.Machine
end

