-- ==== Sys2Proof/Machine/Place.lean ====
section
/-! DEFINITION. Placing teams: the choice of a stack and a block, configuration planes, the start of a task, and the dispatcher's
issue decisions (R80, R81, R84 to R98, R103). -/

namespace Sys2Proof.Machine

/-! ## Teams on a stack -/

/-- Whether a team has a task current or assigned on its stack: not every one is suspended. -/
def Team.present (tm : Team) : Bool := decide (tm.susp.length < tm.left)

/-- Whether a suspended task may resume: no command holds it, and its event has been answered (R432 to R434). -/
def Task.mayResume (t : Task) : Bool :=
  !t.pre && (match t.event with
    | some e => e.answered
    | none => true)

/-- Core-in-stack numbers whose next slots a team needs empty for its resuming tasks: they go before any team not yet assigned
(R103). -/
def Team.wants (tm : Team) : List Nat :=
  if tm.susp.any (fun e => e.2.mayResume) then (List.range tm.size).map (fun i => tm.base + i) else []

/-- Cores of a stack held empty for a team (R90). -/
def Team.heldEmpty (tm : Team) (k : Nat) : Bool :=
  tm.present && decide (tm.base + tm.size ≤ k) && decide (k < tm.base + tm.block)

/-- Whether a core takes part in eligible blocks, its next slot apart (R90, R92, R441, R480). -/
def State.coreOpen (s : State) (c : CoreId) : Bool :=
  let x := s.cluster (clusterOf c)
  !(s.core c).fenced && x.pst == 0#3 && !x.pbusy && !x.req

/-- Whether a block is eligible. -/
def State.blockOk (s : State) (st : StackId) (base p : Nat) : Bool :=
  (List.range p).all (fun i =>
    let c := coreOf st (base + i)
    s.coreOpen c && (s.core c).next.isNone &&
      (s.stack st).teams.all (fun e => !e.2.heldEmpty (base + i) && !e.2.wants.contains (base + i)))

/-- The block the stack dispatcher picks: the lowest with no current task, else the lowest (R90). -/
def State.pickBlock (s : State) (st : StackId) (p : Nat) : Option Nat :=
  let bs := ((List.range (16 / p)).map (fun i => i * p)).filter (fun b => s.blockOk st b p)
  match bs.find? (fun b => (List.range p).all (fun i => (s.task? (coreOf st (b + i))).isNone)) with
  | some b => some b
  | none => bs.head?

/-! ## Acceptance (R88, R89) -/

/-- Whether a stack is fenced, in reset or quiescing. -/
def State.stackClosed (s : State) (st : StackId) : Bool := (s.stack st).fenced || (s.stack st).rstBusy

/-- Whether a stack is held for another team than that of coordinate `tc` of launch `n`: it then declines every other one (R89). -/
def State.heldForOther (s : State) (st : StackId) (n : Nat) (tc : BitVec 48) : Bool :=
  match s.hold with
  | some (h, _, m, co) => h == st && !(m == n && co == tc)
  | none => false

/-- The highest MIN of a launch and those on a stack, and the lowest MAX with 64 − STOR among them (R88, R238). -/
def State.claimLo (s : State) (st : StackId) (i : Image) : Nat := ((s.stackClaims st).map Prod.fst).foldl max i.carve.1
def State.claimHi (s : State) (st : StackId) (i : Image) : Nat :=
  min (64 - s.stor st) (((s.stackClaims st).map Prod.snd).foldl min i.carve.2)

/-- The lowest free objects from `k` on, `need` of them at most. -/
def freeNums (t : Tab ObjUse) : Nat → Nat → Nat → List Nat
  | 0, _, _ => []
  | f + 1, k, need =>
    if need = 0 then []
    else if (t.find k).isNone then k :: freeNums t f (k + 1) (need - 1)
    else freeNums t f (k + 1) need

/-- The numbers of the sync objects that a team's 16 phase objects take: the lowest free ones below 4,080. -/
def StackS.phaseRoom (x : StackS) : List Nat := freeNums x.objs 4080 0 16

/-- Whether a stack has 16 objects free below 4,080 for a team's phases (R394, R408; log entry 74). -/
def StackS.phasesFit (x : StackS) : Bool := decide (x.objs.length ≤ 4064) || x.phaseRoom.length == 16

/-- The 16 phase objects of a team are allocated (R394). -/
def StackS.takePhases (x : StackS) (m : Nat) : StackS :=
  { x with objs := ((List.range 16).zip x.phaseRoom).foldl (fun o p => o.set p.2 (.phase m p.1)) x.objs }

/-- LINES of the teams current or assigned on a stack. -/
def State.stackLines (s : State) (st : StackId) : Nat :=
  (((s.stack st).teams.filter (fun e => e.2.present)).map (fun e => s.linesOf e.2.launch)).foldl (· + ·) 0

/-- Whether a stack accepts the team of coordinate `tc` of launch `n`, and on which block. -/
def State.acceptBlock (s : State) (st : StackId) (n : Nat) (l : Launch) (tc : BitVec 48) : Option Nat :=
  if s.stackClosed st || s.heldForOther st n tc || !(s.stack st).phasesFit || decide (s.claimHi st l.img < s.claimLo st l.img) ||
      decide (2 ^ 23 * s.claimLo st l.img < 128 * (l.img.lines + s.stackLines st)) then none
  else s.pickBlock st (blockSize (teamSize l.img l.ext))

/-! ## Configuration planes (R93 to R97) -/

/-- The tag of an image for a context. -/
def Image.tag (i : Image) (ctx : CtxId) : PlaneTag := ⟨ctx, i.va, i.digest⟩

/-- Settles the plane for a task placed on a core (R95). -/
def CoreS.settle (x : CoreS) (tag : PlaneTag) : CoreS :=
  if x.act.st = .active ∧ x.act.tag = some tag then x
  else if (x.shd.st = .loaded ∨ x.shd.st = .loading) ∧ x.shd.tag = some tag then x
  else { x with shd := ⟨.loading, some tag, [], false, false⟩ }

/-- Whether the plane for a tag is ready, a swap included. -/
def CoreS.planeReady (x : CoreS) (tag : PlaneTag) : Bool :=
  (x.act.st == .active && x.act.tag == some tag) || (x.shd.st == .loaded && x.shd.tag == some tag)

/-- The swap mark, where the next task's plane is the shadow plane (R96). -/
def CoreS.swap (x : CoreS) (tag : PlaneTag) : CoreS :=
  if x.act.st = .active ∧ x.act.tag = some tag then x
  else { x with
    act := { x.shd with st := .active }
    shd := if x.act.st = .active then { x.act with st := .loaded } else x.act }

/-- The image that a tag names, among those of launches not retired. -/
def State.taggedImage (s : State) (tag : PlaneTag) : Option Image :=
  (s.launches.find? (fun e => !e.2.done && e.2.img.tag e.2.ctx == tag)).map (fun e => e.2.img)

/-- The bundles of a dictionary from its bytes (R52). -/
def dictOf : Nat → List Byte → List Bundle
  | 0, _ => []
  | n + 1, b => BitVec.ofNat 384 (leNat (b.take 48)) :: dictOf n (b.drop 48)

/-- Whether `n` bytes at a home hold poison, in its L2's copy or in memory. -/
def State.homePoisoned (s : State) (home : StackId) (pa n : Nat) : Bool :=
  s.poisoned pa n || (s.stack home).l2.any (fun f => f.bad != 0#16 && decide (128 * f.line < pa + n) && decide (pa < 128 * f.line + 128) &&
    badMeets f.bad (pa - 128 * f.line) (min (pa + n) (128 * f.line + 128) - max pa (128 * f.line)))

/-- Whether a page read by the loader or at fetch holds poison. -/
def State.virtPoisoned (s : State) (ctx : CtxId) : Nat → Word → Nat → Bool
  | 0, _, _ => false
  | k + 1, va, n =>
    if n = 0 then false
    else match s.translate ctx va with
      | .error _ => false
      | .ok l =>
        let m := min n (4096 - va.toNat % 4096)
        s.homePoisoned l.home l.pa m || s.virtPoisoned ctx k (va + BitVec.ofNat 64 m) (n - m)

/-- PLANE_LOAD_DONE: the last bundle is in the shadow plane. Poison in the dictionary is consumed instead (R97, R443). -/
def execPlaneLoadDone (core : CoreId) (s : State) : Host.Outcome State Fault Refusal :=
  let x := s.core core
  .next (match x.shd.st, x.shd.tag with
    | .loading, some tag =>
      match s.taggedImage tag with
      | none => s.setCore core { x with shd := Plane.reset }
      | some i =>
        let va := i.va + BitVec.ofNat 64 i.dictOff
        let n := 48 * i.dictCnt
        if x.shd.bad || s.virtPoisoned tag.ctx (n / 4096 + 2) va n then s.soon (.loader core x.shd.retry)
        else match s.readBytes tag.ctx va n with
          | some b => s.setCore core { x with shd := ⟨.loaded, some tag, dictOf i.dictCnt b, false, false⟩ }
          | none =>
            let s := s.setCore core { x with shd := Plane.reset }
            match x.next with
            | some (.new c l co _ _ _) => s.fatalFor core c l co 0#32 errTranslation slotNone (agentId (.task core c l co)) va 0#64
            | some (.resume t _) => s.fatalFor core t.ctx t.launch t.coord (t.fpos.setWidth 32) errTranslation slotNone (agentId (t.agent core)) va 0#64
            | none => s
    | _, _ => s)

/-! ## The start of a task (R91, R98) -/

/-- The context and launch of the task in a next slot. -/
def Asg.who : Asg → CtxId × Nat
  | .new c l _ _ _ _ => (c, l)
  | .resume t _ => (t.ctx, t.launch)

/-- The pair with which an array starts (R310). -/
def Image.startFmt (i : Image) (arr : Nat) : BitVec 17 :=
  let best := (i.pairs.filter (fun p => p.amask.getLsbD arr)).foldl (fun (b : Option PairRec) p => match b with
    | none => some p
    | some q => if p.level < q.level then some p else some q) none
  match best with
  | none => ArrayS.reset.fmt
  | some p => BitVec.ofNat 17 (p.fmts.toNat + (p.ka - 1) * 256 + (p.kb - 1) * 4096 + p.pol * 65536)

/-- A table of seeds. -/
def seedTab (l : List Nat) : Tab (BitVec 16) := (List.range l.length).map (fun k => (k, BitVec.ofNat 16 ((l[k]?).getD 0)))

/-- An array at the start of a task of an image (R50, R310). -/
def Image.startArr (i : Image) (arr : Nat) : ArrayS :=
  let x := { ArrayS.reset with fmt := i.startFmt arr }
  match i.seeds.find? (fun r => r.amask.getLsbD arr) with
  | some r => { x with seed1 := seedTab r.rows, seed2 := seedTab r.cols }
  | none => x

/-- The state of a task that becomes current (R98). -/
def startTask (ctx : CtxId) (launch : Nat) (l : Launch) (coord : BitVec 48) (rank team : Nat) : Task :=
  { Task.fresh ctx launch coord rank team (BitVec.ofNat 64 l.img.entry) with
    arr0 := l.img.startArr 0
    arr1 := l.img.startArr 1 }

/-- Records sent to a task before it had a core name its core from now on. -/
def StackS.placeHolder (x : StackS) (ag : Agent) : StackS :=
  { x with toks := x.toks.map (fun e => (e.1, match e.2.holder, ag with
      | .task _ c l co, .task _ c' l' co' => if c = c' ∧ l = l' ∧ co = co' then { e.2 with holder := ag } else e.2
      | _, _ => e.2)) }

def State.placeHolder (s : State) (ag : Agent) : State :=
  { s with stackTab := s.stackTab.map (fun e => (e.1, e.2.placeHolder ag)) }

/-- Whether a core may start its next task: at its drain point, clocked, sound, its stack not in reset, and not in a self-test
(R91, R441, R450). -/
def State.coreMayStart (s : State) (c : CoreId) : Bool :=
  (s.task? c).isNone && (s.cluster (clusterOf c)).clocked && !(s.core c).fenced && !s.stackClosed (stackOf c) &&
    !s.tests.any (fun t => t.1 == .coreLogic c)

/-- A suspended task takes its core again, with the reply it waited for (R432, R436). -/
def Task.reenter (t : Task) : Task := { t.takeReply.reissueCommits with suspend := false, saveSlot := none, areaB := false }

/-- The task of a next slot, which enters its core: a suspended one with its core regions at their plain addresses, as its slot holds
it. -/
def State.enter (s : State) (c : CoreId) (l : Launch) : Asg → State × Task
  | .new ctx launch coord rank team _ => (s, startTask ctx launch l coord rank team)
  | .resume t _ =>
    let s := s.unparkRegions c t.team
    let t := match (s.core c).next with
      | some (.resume u _) => u
      | _ => t
    let (s, t) := s.readSave c t
    (s, t.reenter)

/-- TASK_START: the next task becomes current, once its plane is ready. -/
def State.taskStart (s : State) (c : CoreId) : State :=
  let x := s.core c
  match x.next with
  | none => s
  | some a =>
    let (ctx, launch) := a.who
    match s.launch? launch with
    | none => s
    | some l =>
      let tag := l.img.tag ctx
      if !s.coreMayStart c || !x.planeReady tag then s
      else
        let (s, t) := (s.clearWindows c).enter c l a
        let s := s.setCore c { (s.core c).swap tag with next := none, decl := none }
        let s := s.evictAllL1 c
        ((((s.charge launch (stackOf c) id).setTask c t).acquire c .dv).reissueFe c t).placeHolder (t.agent c)

def execTaskStart (core : CoreId) (s : State) : Host.Outcome State Fault Refusal := .next (s.taskStart core)

/-! ## Acceptance of a team (R85 to R91, R394, R434) -/

/-- The lowest number that no table entry has, from `k` on. -/
def freeKey {α : Type} (t : Tab α) : Nat → Nat → Nat
  | 0, k => k
  | n + 1, k => if (t.find k).isNone then k else freeKey t n (k + 1)

/-- The task of rank `r` enters its core's next slot, and starts where it can. -/
def State.assign (s : State) (st : StackId) (n : Nat) (l : Launch) (tc : BitVec 48) (team seq base r : Nat) : State :=
  let c := coreOf st (base + r)
  let coord := coordOfRank l.img l.ext tc r
  let x := (s.core c).settle (l.img.tag l.ctx)
  let s := (s.setCore c { x with next := some (.new l.ctx n coord r team seq) }).placeHolder (.task c l.ctx n coord)
  s.taskStart c

/-- Arrivals that the dispatcher held for a team count there in their order; one that no object can hold goes on waiting (R396,
R408). -/
def State.countHeld (s : State) (st : StackId) (n : Nat) (tc : BitVec 48) (team : Nat) : State :=
  match s.launch? n with
  | none => s
  | some l =>
    let mine := l.heldArr.filter (fun a => sameTeam l.img tc a.1)
    let s := s.setLaunch n { l with heldArr := l.heldArr.filter (fun a => !sameTeam l.img tc a.1) }
    mine.foldl (fun (s : State) a => (s.countArrival st team a.2.1 a.2.2 none 0).getD (match s.launch? n with
      | some l => s.setLaunch n { l with heldArr := l.heldArr ++ [a] }
      | none => s)) s

/-- Held arrivals whose team has been accepted since, or found no object before, are tried again. -/
def State.retryHeld (s : State) (n : Nat) : State :=
  match s.launch? n with
  | none => s
  | some l => (l.heldArr.map Prod.fst).eraseDups.foldl (fun (s : State) co => match s.findTeam n co with
    | some (st, m, tm) => s.countHeld st n tm.coord m
    | none => s) s

/-- A stack takes a team on a block. -/
def State.acceptTeam (s : State) (st : StackId) (n : Nat) (l : Launch) (tc : BitVec 48) (base : Nat) : State :=
  let x := s.stack st
  let t := teamSize l.img l.ext
  let team := freeKey x.teams 65536 0
  let tm : Team := {
    launch := n
    ctx := l.ctx
    coord := tc
    base := base
    size := t
    block := blockSize t
    seq := x.seq
    left := t
    phases := [(0, { PhaseObj.none with p := t })]
    early := []
    cp := none
    susp := []
    counted := false }
  let s := s.setStack st ({ x with teams := x.teams.set team tm, seq := x.seq + 1 }.takePhases team)
  let s := (List.range t).foldl (fun (s : State) r => s.assign st n l tc team x.seq base r) s
  s.countHeld st n tc team

/-- Stacks in the order in which a team is offered (R87). -/
def State.offerOrder (s : State) : List StackId := (List.range 64).map (fun k => Fin.ofNat 64 (s.lastStack + 1 + k))

/-- Offers the next team of a launch: the state with the team placed, where a stack accepts it. -/
def State.offer (s : State) (n : Nat) (l : Launch) : Option State :=
  match l.pendTeams with
  | [] => none
  | tc :: rest =>
    (s.offerOrder.findSome? (fun st => (s.acceptBlock st n l tc).map (fun b => (st, b)))).map (fun (st, b) =>
      let l' := { l with pendTeams := rest }
      let s := (s.setLaunch n l').acceptTeam st n l' tc b
      let s := { s with lastStack := st.val }
      match s.hold with
      | some (_, _, m, co) => if m = n ∧ co = tc then { s with hold := none } else s
      | none => s)

/-! ## Issue decisions (R81, R89) -/

/-- Whether a queue is issuable. -/
def State.issuable (s : State) (n : QueueId) : Bool := (s.pendingLaunch n).isSome || s.mayAdmit n

/-- The effective priorities at a decision. -/
def State.ageQueues (s : State) : State :=
  (List.range 64).foldl (fun (s : State) k =>
    let n : QueueId := Fin.ofNat 64 k
    if s.issuable n then s.setQueue n { s.queue n with eprio := BitVec.ofNat 2 (s.eprio (s.queue n)) } else s) s

/-- Issuable queues in the order of a decision: by level, then upward from the one after the last issued at that level. -/
def State.decisionOrder (s : State) : List (Nat × QueueId) :=
  [0, 1, 2, 3].flatMap (fun e =>
    ((List.range 64).map (fun k => (Fin.ofNat 64 (s.lastQ.get 63 e + 1 + k) : QueueId))).filterMap (fun n =>
      if s.issuable n ∧ (s.queue n).eprio.toNat = e then some (e, n) else none))

/-- A queue has issued at a level. -/
def State.issuedAt (s : State) (e : Nat) (n : QueueId) : State :=
  { s.setQueue n { s.queue n with waited := 0 } with lastQ := s.lastQ.set e n.val }

/-- The first stack in offer order that is not fenced is held for the next team of a launch of a queue of priority 0 that no stack
accepts (R89). -/
def State.holdFor (s : State) (e : Nat) (n : QueueId) (k : Nat) (l : Launch) : State :=
  match e, s.hold, l.pendTeams with
  | 0, none, tc :: _ => match s.offerOrder.find? (fun st => !(s.stack st).fenced) with
    | some st => { s with hold := some (st, n, k, tc) }
    | none => s
  | _, _, _ => s

/-- Goes through queues until one issues a team or admits its head record; a head record that is only refused counts as issued too
(DESIGN CHOICE, log entry 84). -/
def State.decide_ (s : State) : List (Nat × QueueId) → State
  | [] => s
  | (e, n) :: l =>
    match s.pendingLaunch n with
    | some (k, x) => match s.offer k x with
      | some s' => s'.issuedAt e n
      | none => (s.holdFor e n k x).decide_ l
    | none => (s.admitHead n).issuedAt e n

/-- ISSUE_DECISION by the active dispatcher. -/
def execIssueDecision (s : State) : Host.Outcome State Fault Refusal :=
  .next (if s.active.isSome then let s := s.ageQueues; s.decide_ s.decisionOrder else s)

/-- LAUNCH_ADMIT of a queue's head record, where the decision of R81 falls on it. -/
def execLaunchAdmit (q : QueueId) (s : State) : Host.Outcome State Fault Refusal :=
  let s' := s.ageQueues
  .next (match s'.decisionOrder with
    | (e, n) :: _ => if s.active.isSome && n == q && (s.pendingLaunch n).isNone then (s'.admitHead n).issuedAt e n else s
    | [] => s)

end Sys2Proof.Machine
end

