-- ==== Sys2Proof/Machine/Arrivals.lean ====
section
/-! DEFINITION. What arrives at a core or a home: results, late data, interlocked values, full/empty accesses, writes and
frames; and the reservations and the carve-out of a stack's L2 (R137 to R141, R239 to R246, R263). -/

namespace Sys2Proof.Machine

/-! ## At a core -/

/-- RESULT_LAND: the results due at the end of this issue cycle are written. -/
def execResultLand (core : CoreId) (s : State) : Host.Outcome State Fault Refusal := .next (s.mapTask core Task.landReady)

/-- The data of load `n` has arrived; the freeze ends once no due result lacks its data (R140). -/
def Task.dataArrives (t : Task) (n : Nat) : Task :=
  match t.flight[n]? with
  | some f =>
    let waited := t.lateNow
    let t := { t with flight := listSet t.flight n { f with late := false } }
    if waited then t.landReady else t
  | none => t

/-- LATE_LOAD_ARRIVAL. -/
def execLateLoadArrival (core : CoreId) (n : Nat) (s : State) : Host.Outcome State Fault Refusal :=
  .next (s.mapTask core (fun t => t.dataArrives n))

/-- The value of a pending entry, where it has one; `locq` reads the placement now (R101). -/
def State.pendValue (s : State) (t : Task) (p : Pend) : Option Vec :=
  match p.val, p.kind with
  | some v, _ => some v
  | none, .locq co => some ((s.locate t.launch co).setWidth 1024)
  | none, _ => none

/-- INTERLOCKED_ARRIVAL of the entry with a number: the value is written and no latch changes. The value of a full/empty load
joins the operations whose stores it read and acquires at the scopes of the releases it read, and that of a probe ends its wait (R141,
R265, R269, R285, R371). -/
def State.interlocked (s : State) (c : CoreId) (n : Nat) : State :=
  match s.task? c with
  | none => s
  | some t => match t.pend.find? (fun p => p.id == n) with
    | none => s
    | some p => match s.pendValue t p with
      | none => s
      | some v =>
        let s := s.setTask c ((t.arrive p v).probeDone p.dest)
        match p.kind with
        | .feGot scs joins => (joins.foldl (fun (s : State) h => s.joinOp c h) s).acquireAll c scs
        | _ => s

def execInterlockedArrival (core : CoreId) (n : Nat) (s : State) : Host.Outcome State Fault Refusal :=
  .next (s.interlocked core n)

/-- FE_ACCESS_ARRIVAL. -/
def execFeAccessArrival (n : Nat) (s : State) : Host.Outcome State Fault Refusal := .next (s.feArrive n)

/-! ## At a home -/

/-- Whether posted write `n` may be performed: none that was sent before it on its way is still to arrive (R29, R255). -/
def State.writeMay (s : State) (n : Nat) : Bool :=
  match s.pwrites[n]? with
  | some w => !s.stuck w && (s.pwrites.take n).all (fun v => v.way != w.way)
  | none => false

/-- WRITE_AT_HOME. -/
def execWriteAtHome (n : Nat) (s : State) : Host.Outcome State Fault Refusal :=
  .next (if s.writeMay n then s.performWrite n else s)

/-! ## Fault-buffer entries that free (R431) -/

/-- A spill fault that found no entry is written now. -/
def State.writeSpillFault (s : State) (st : StackId) (n : Nat) (p : Spill) : State :=
  let x := s.stack st
  match x.putFault (eventRecord 3 p.ctx.val 0 0#32 0#48 (BitVec.ofNat 64 (st.val * 256 + p.size)) 0#32 0#32) with
  | some (x, ent) => s.setStack st { x with spills := listSet x.spills n { p with ent := ent } }
  | none => s

/-- An event held at its core is written now, and its task is suspended at the bundle boundary. -/
def State.writeHeldEvent (s : State) (c : CoreId) : State :=
  match s.task? c with
  | none => s
  | some t => match t.event with
    | none => s
    | some e =>
      if e.ent ≠ 4096 then s
      else
        let st := stackOf c
        match (s.stack st).putFault
            (eventRecord e.kind t.ctx.val c.val e.seq t.coord e.info (t.fpos.setWidth 32) (s.lid t.launch)) with
        | some (x, n) => (s.setStack st x).setTask c { t with event := some { e with ent := n }, suspend := true }
        | none => s

/-- Records that wait for a fault-buffer entry take what is free: spill faults, then cores in rising order. -/
def State.writeHeldFaults (s : State) (st : StackId) : State :=
  let s := (List.range (s.stack st).spills.length).foldl (fun (s : State) n => match (s.stack st).spills[n]? with
    | some p => if p.ent = 4096 then s.writeSpillFault st n p else s
    | none => s) s
  (List.range 16).foldl (fun (s : State) k => s.writeHeldEvent (coreOf st k)) s

/-- A fault-buffer entry is no longer in use. -/
def StackS.freeFault (x : StackS) (ent : Nat) : StackS := { x with fb := x.fb.drop ent, fbOrder := x.fbOrder.filter (· != ent) }

def State.freeFault (s : State) (st : StackId) (ent : Nat) : State :=
  (s.setStack st ((s.stack st).freeFault ent)).writeHeldFaults st

/-! ## Pages that must be backed (R245, R246) -/

/-- Unbacked pages of a context that a stack homes, by leaf entry, in rising order of the page. -/
def State.unbackedPages (s : State) (st : StackId) (ctx : CtxId) : List Nat :=
  ((s.leavesOf ctx).filter (fun l => leafUnb (s.entry l.1) && leafHome (s.entry l.1) == st)).map Prod.fst

/-- Backs pages, each from the pool of its stack, or holds them (R245). -/
def State.backAll (s : State) (st : StackId) (ctx : CtxId) (ls : List Nat) : State :=
  ls.foldl (fun (s : State) l => (s.needFrame ctx l st (poolDie st) st).1) s

/-- The context's pages with LIVE lines on a stack that no held backing names yet, in rising order of virtual page. -/
def State.livePages (s : State) (st : StackId) (ctx : CtxId) : List Nat :=
  let ls := (s.live.filter (fun e => e.2.home == st && e.2.ctx == ctx)).map (fun e => (e.2.vpn, e.2.leafPa))
  ((sortKey Prod.fst ls).map Prod.snd).eraseDups.filter (fun l => !(s.stack st).spills.any (fun p => p.leafPa == l))

/-- Pages are backed until USED, less what already waits to leave, is within RESV. -/
def State.lowerResv (s : State) (st : StackId) (ctx : CtxId) : Nat → State
  | 0 => s
  | k + 1 => match (s.stack st).resvOf ctx with
    | some (_, r) =>
      if r.used.toNat ≤ r.resv.toNat + r.held.toNat then s
      else match s.livePages st ctx with
        | [] => s
        | l :: _ => (s.backAll st ctx [l]).lowerResv st ctx k
    | none => s

/-- The reservation entries of contexts swapped out with release are cleared once every backing, on whichever stack, has
proceeded (R246). -/
def State.clearReleased (s : State) (st : StackId) : State :=
  (s.stack st).releasing.foldl (fun (s : State) ctx =>
    let x := s.stack st
    if s.stackTab.any (fun e => e.2.spills.any (fun p => p.ctx == ctx)) then s
    else s.setStack st { x with
      releasing := x.releasing.filter (· != ctx)
      resv := x.resv.filter (fun e => !(e.2.valid && e.2.ctx == ctx)) }) s

/-- A context is swapped out with release: every unbacked page of it is backed, on whichever stack it is homed (R246). -/
def State.releasePages (s : State) (ctx : CtxId) : State :=
  let s := (List.range 64).foldl (fun (s : State) k =>
    let st : StackId := Fin.ofNat 64 k
    match s.unbackedPages st ctx, (s.stack st).resvOf ctx with
    | [], none => s
    | ls, _ =>
      let s := s.backAll st ctx ls
      s.setStack st { s.stack st with releasing := (s.stack st).releasing ++ [ctx] }) s
  s.stackTab.foldl (fun (s : State) e => s.clearReleased (Fin.ofNat 64 e.1)) s

/-- The writes that a held backing has kept waiting go on. -/
def State.unhold (s : State) (leafPa : Nat) : State :=
  { s with
    pwrites := s.pwrites.map (fun (w : PWrite) => if w.tag.leafPa = leafPa then { w with held := false } else w)
    amos := s.amos.map (fun (a : AmoMsg) => if a.leafPa = leafPa then { a with held := false } else a) }

/-- A held backing is over: its place and its fault entry are free, and what waited for it goes on. -/
def State.endSpill (s : State) (st : StackId) (n : Nat) (p : Spill) : State :=
  let s := (s.setStack st { s.stack st with spills := listDrop (s.stack st).spills n }).unhold p.leafPa
  (if p.ent = 4096 then s else s.freeFault st p.ent).clearReleased st

/-- SPILL_PROCEED of held backing `n`: the frame is taken, the page is backed, and what waited for it goes on. A page that has been
unmapped meanwhile needs no frame. -/
def State.spillProceed (s : State) (st : StackId) (n : Nat) : State :=
  match (s.stack st).spills[n]? with
  | none => s
  | some p =>
    if !s.mapsUnbacked p.ctx p.leafPa then s.endSpill st n p
    else match s.takeFrame p.poolDie p.size with
      | none => s
      | some (f, s') =>
        let k := (s'.pageLines p.leafPa).length
        let s' := s'.setStack st ((s'.stack st).mapResv p.ctx (fun r => r.addHeld (-k)))
        (s'.backPage p.leafPa f (Fin.ofNat 64 p.newHome)).endSpill st n p

/-- SPILL_PROCEED. -/
def execSpillProceed (st : StackId) (n : Nat) (s : State) : Host.Outcome State Fault Refusal := .next (s.spillProceed st n)

/-- Whether a frame lies in the LPDDR of a die (R223, R243). -/
def inDie (die : DieId) (f : Nat) : Bool := paLpddr f && f / 2 ^ 37 % 8 == die.val

/-- POOL_PUSH: a frame joins its pool, or the write is ignored (R243). -/
def State.poolPush (s : State) (die : DieId) (z : Nat) (v : Word) : State :=
  let k := poolKey die.val z
  let q := s.pools.get [] k
  if v.toNat % 4096 ≠ 0 ∨ 2 ^ 52 ≤ v.toNat ∨ 4096 ≤ q.length ∨ v.toNat % 2 ^ pageBits z ≠ 0 ∨ inDie die v.toNat = false then s
  else { s with pools := s.pools.set k (q ++ [v.setWidth 52]) }

def execPoolPush (die : DieId) (z : Fin 5) (v : Word) (s : State) : Host.Outcome State Fault Refusal :=
  .next (s.poolPush die z.val v)

/-! ## Reservations (R242) -/

/-- The count words that an entry of a context shows: LIVE lines homed on the stack, and those that wait for a frame. -/
def State.usedLines (s : State) (st : StackId) (ctx : CtxId) : Nat :=
  (s.live.filter (fun e => e.2.home == st && e.2.ctx == ctx)).length

def State.heldLines (s : State) (st : StackId) (ctx : CtxId) : Nat :=
  (((s.stack st).spills.filter (fun p => p.ctx == ctx)).map (fun p => (s.pageLines p.leafPa).length)).foldl (· + ·) 0

/-- RESV_WRITE: word 0 of an entry, or a refusal that leaves it as it is; a RESV below USED backs pages. -/
def State.resvWrite (s : State) (st : StackId) (e : Nat) (v : Word) : State :=
  let x := s.stack st
  let old := x.resv.get ⟨0#32, false, 0, 0#32, 0#32⟩ e
  let ctx : CtxId := Fin.ofNat 4096 v.toNat
  let valid := v.getLsbD 12
  let n := v.toNat / 2 ^ 32
  let raise := decide (old.resv.toNat < n) &&
    decide (64 < s.storWith st (x.resvLines - old.resv.toNat + n) + s.l2Lo st)
  let twice := valid && x.resv.any (fun p => p.1 != e && p.2.valid && p.2.ctx == ctx)
  if raise || twice then s
  else
    let r : Resv := ⟨BitVec.ofNat 32 n, valid, ctx, BitVec.ofNat 32 (s.usedLines st ctx), BitVec.ofNat 32 (s.heldLines st ctx)⟩
    let s := s.setStack st { x with resv := x.resv.set e r }
    if valid then s.lowerResv st ctx s.live.length else s

def execResvWrite (st : StackId) (e : Fin 256) (v : Word) (s : State) : Host.Outcome State Fault Refusal :=
  .next (s.resvWrite st e.val v)

/-! ## The carve-out (R239) -/

/-- The boundary to which a period moves CUR, by the first row that applies. -/
def carveMove (cu lo hi gain loss : Nat) : Nat :=
  if hi < cu then cu - 1
  else if cu < lo then cu + 1
  else if 64 ≤ gain ∧ cu < hi then cu + 1
  else if gain < 64 ∧ loss < 16 ∧ lo < cu then cu - 1
  else cu

/-- Nanoseconds of a period. -/
def carvePeriod : Nat := 100000

/-- Whether a period of a stack has passed. -/
def State.periodDue (s : State) (st : StackId) : Bool :=
  (s.stack st).moving.isNone && decide ((s.stack st).cuAt + carvePeriod ≤ s.ns)

/-- A total of the sampling sets as L2CS shows it: saturating (R240). -/
def satTotal (n : Nat) : BitVec 16 := BitVec.ofNat 16 (min n 65535)

/-- CARVEOUT_PERIOD with the totals of the sampling sets, once 100 µs of device time have passed: they are kept and a move is
chosen. No period ends while a move is under way (log entry 75). -/
def execCarveoutPeriod (st : StackId) (gain loss : BitVec 16) (s : State) : Host.Outcome State Fault Refusal :=
  let x := s.stack st
  .next (
    if !(s.periodDue st && gain == satTotal x.gainNow && loss == satTotal x.lossNow) then s
    else
      let c := carveMove x.cu (s.l2Lo st) (s.l2Hi st) x.gainNow x.lossNow
      let x := { x with gain := gain, loss := loss, gainNow := 0, lossNow := 0, cuAt := s.ns }
      s.setStack st { x with moving := if c = x.cu then none else some c })

/-- CARVEOUT_MOVE_DONE: the lines of a unit that leaves have been evicted, the move takes effect, and the next period's counts start
afresh (R239). -/
def execCarveoutMoveDone (st : StackId) (s : State) : Host.Outcome State Fault Refusal :=
  let x := s.stack st
  .next (match x.moving with
    | some c => (s.setStack st { x with cu := c, moving := none, gainNow := 0, lossNow := 0, cuAt := s.ns }).trimL2 st
    | none => s)

end Sys2Proof.Machine
end

