-- ==== Sys2Proof/Machine/Control.lean ====
section
/-! DEFINITION. The C slot: branches, calls, hardware loops, `end`, time readings, 64-bit integers and predicates
(R179 to R186), and `nop` and `xcp` of every slot (R122, R147). -/

namespace Sys2Proof.Machine

/-! ## nop and xcp -/

/-- `nop` (R122): no effect. A C-slot `nop` supplies its bundle's STALL, which the issue of the bundle takes (R117). -/
def execNop (_sl : Slot) (_f : FmtN) (s : State) : Host.Outcome State Fault Refusal := .next s

/-- The value `xcp` writes, by its pair of slots (R148). -/
def xcpValue (sl dsl : Slot) (lane : BitVec 5) (v : Vec) : Vec :=
  match sl, dsl with
  | .A, .V => bcast32 (v.toNat % 2 ^ 32)
  | .V, .A => BitVec.ofNat 1024 (elem 32 v lane.toNat)
  | .M, .A => (v.setWidth 64).setWidth 1024
  | _, _ => v

/-- The latency of `xcp` (R148). -/
def xcpLat (sl dsl : Slot) : Nat :=
  match sl, dsl with
  | .A, .V | .V, .A => 2
  | _, _ => 1

/-- `xcp` (R147 to R149): the destination is named, mapped and latched in the files of the other slot. -/
def execXcp (sl : Slot) (f : FmtX) (s : State) : Host.Outcome State Fault Refusal :=
  s.issue f.gd fun t =>
    t.putV (xcpLat sl f.dsl) f.dsl f.d (xcpValue sl f.dsl f.lane (t.regs.read sl 0#1024 f.s1)) 0#7

/-! ## Branches and calls (R109, R110, R180) -/

/-- A taken branch: the next bundle is fetched at the target, after `extra` more idle cycles (R110). -/
def Task.branch (t : Task) (target : Word) (extra : Nat) : Task := { t with npos := target, idle := t.idle + extra }

/-- The target of a C-B branch: the position of the branching bundle plus OFF (R109). -/
def Task.offTarget (t : Task) (off : BitVec 28) : Word := t.fpos + off.signExtend 64

/-- A C-slot source with S3 as the immediate (R178). -/
def Task.srcC (t : Task) (s3 : BitVec 8) (o : Opd) : Word := t.regs.readW .C (immS8 s3) o

def execBr (f : FmtCB) (s : State) : Host.Outcome State Fault Refusal :=
  s.issue f.gd fun t => t.branch (t.offTarget f.off) 2

def execBrx (f : FmtCR) (s : State) : Host.Outcome State Fault Refusal :=
  s.issue f.gd fun t => t.branch (t.srcC f.s3 f.s1) 2

/-- The link of a call is the position that follows the bundle (R109). -/
def execCall (f : FmtCB) (s : State) : Host.Outcome State Fault Refusal :=
  s.issue f.gd fun t => (t.putW 1 .C f.d t.npos).branch (t.offTarget f.off) 2

def execCallx (f : FmtCR) (s : State) : Host.Outcome State Fault Refusal :=
  s.issue f.gd fun t => (t.putW 1 .C f.d t.npos).branch (t.srcC f.s3 f.s1) 2

def execRet (f : FmtCR) (s : State) : Host.Outcome State Fault Refusal :=
  s.issue f.gd fun t => t.branch (t.srcC f.s3 f.s1) 2

/-! ## Hardware loops (R181) -/

/-- Puts a loop counter's new value in flight (R176). -/
def Task.putLc (t : Task) (h : BitVec 3) (n : Nat) : Task := t.put 1 (.lc h.toNat) (BitVec.ofNat 1024 n) 0#7

def execLoop (f : FmtCR) (s : State) : Host.Outcome State Fault Refusal :=
  s.issue f.gd fun t => t.putLc f.lvl (max ((t.srcC f.s3 f.s1).toNat % 2 ^ 32) 1)

/-- Counting down a level and branching while iterations remain. -/
def Task.countDown (t : Task) (f : FmtCB) : Task :=
  let n := (t.regs.counter f.lvl.toNat).toNat - 1
  let t' := t.putLc f.lvl n
  if 0 < n then t'.branch (t'.offTarget f.off) 0 else t'

def execLpend (f : FmtCB) (s : State) : Host.Outcome State Fault Refusal :=
  s.issue f.gd fun t => t.countDown f

/-- `loop.rot` rotates both regions whether or not it branches (R144). -/
def execLoopRot (f : FmtCB) (s : State) : Host.Outcome State Fault Refusal :=
  s.issue f.gd fun t => (t.put 1 .rot 0#1024 0#7).countDown f

def execLpbrk (f : FmtCB) (s : State) : Host.Outcome State Fault Refusal :=
  s.issue f.gd fun t => (t.putLc f.lvl 0).branch (t.offTarget f.off) 2

/-! ## end (R182) -/

/-- `end`: no later bundle of the task issues; the core waits for what step 2 of R182 names. -/
def execEndTask (f : FmtN) (s : State) : Host.Outcome State Fault Refusal :=
  s.issue f.gd fun t => { t with ended := true, waits := t.waits ++ [.endTask] }

/-! ## Time readings (R183) -/

def execTstamp (f : FmtCR) (s : State) : Host.Outcome State Fault Refusal :=
  s.issue f.gd fun t => t.putW 1 .C f.d (BitVec.ofNat 64 s.ns)

def execRdcyc (f : FmtCR) (s : State) : Host.Outcome State Fault Refusal :=
  s.issue f.gd fun t => t.putW 1 .C f.d (BitVec.ofNat 64 t.cyc)

/-! ## 64-bit integers and compares (R184) -/

def execCli (f : FmtCI) (s : State) : Host.Outcome State Fault Refusal :=
  s.issue f.gd fun t => t.putW 1 .C f.d (f.imm.signExtend 64)

def execCmov (f : FmtCR) (s : State) : Host.Outcome State Fault Refusal :=
  s.issue f.gd fun t => t.putW 1 .C f.d (t.srcC f.s3 f.s1)

def execCadd (f : FmtCR) (s : State) : Host.Outcome State Fault Refusal :=
  s.issue f.gd fun t => t.putW 1 .C f.d (t.srcC f.s3 f.s1 + t.srcC f.s3 f.s2)

def execCsub (f : FmtCR) (s : State) : Host.Outcome State Fault Refusal :=
  s.issue f.gd fun t => t.putW 1 .C f.d (t.srcC f.s3 f.s1 - t.srcC f.s3 f.s2)

def execCand (f : FmtCR) (s : State) : Host.Outcome State Fault Refusal :=
  s.issue f.gd fun t => t.putW 1 .C f.d (t.srcC f.s3 f.s1 &&& t.srcC f.s3 f.s2)

def execCor (f : FmtCR) (s : State) : Host.Outcome State Fault Refusal :=
  s.issue f.gd fun t => t.putW 1 .C f.d (t.srcC f.s3 f.s1 ||| t.srcC f.s3 f.s2)

def execCxor (f : FmtCR) (s : State) : Host.Outcome State Fault Refusal :=
  s.issue f.gd fun t => t.putW 1 .C f.d (t.srcC f.s3 f.s1 ^^^ t.srcC f.s3 f.s2)

def execCcmp (f : FmtCR) (s : State) : Host.Outcome State Fault Refusal :=
  s.issue f.gd fun t =>
    t.putP (predIx f.d) (cndInt f.cnd (tyVal f.ty (t.srcC f.s3 f.s1).toNat) (tyVal f.ty (t.srcC f.s3 f.s2).toNat))

/-! ## Predicates (R185) -/

/-- A predicate source, complemented where its NS bit is 1. -/
def Task.predSrc (t : Task) (o : Opd) (ns : Bool) : Bool := t.regs.pred (predIx o) ^^ ns

def execPand (f : FmtCP) (s : State) : Host.Outcome State Fault Refusal :=
  s.issue f.gd fun t => t.putP (predIx f.d) (t.predSrc f.s1 f.ns1 && t.predSrc f.s2 f.ns2)

def execPor (f : FmtCP) (s : State) : Host.Outcome State Fault Refusal :=
  s.issue f.gd fun t => t.putP (predIx f.d) (t.predSrc f.s1 f.ns1 || t.predSrc f.s2 f.ns2)

def execPxor (f : FmtCP) (s : State) : Host.Outcome State Fault Refusal :=
  s.issue f.gd fun t => t.putP (predIx f.d) (t.predSrc f.s1 f.ns1 ^^ t.predSrc f.s2 f.ns2)

def execPmov (f : FmtCP) (s : State) : Host.Outcome State Fault Refusal :=
  s.issue f.gd fun t => t.putP (predIx f.d) (t.predSrc f.s1 f.ns1)

def execPset (f : FmtCP) (s : State) : Host.Outcome State Fault Refusal :=
  s.issue f.gd fun t => t.putP (predIx f.d) f.val

/-! ## Live depths (R186) -/

def execSetld (f : FmtCR) (s : State) : Host.Outcome State Fault Refusal :=
  s.issue f.gd fun t =>
    let a := min (t.srcC f.s3 f.s1).toNat 16
    let v := min (t.srcC f.s3 f.s2).toNat 32
    t.put 1 .depth (BitVec.ofNat 1024 (a + 256 * v)) 0#7

end Sys2Proof.Machine
end

