-- ==== Sys2Proof/Machine/Ending.lean ====
section
/-! DEFINITION. How tasks and contexts end: the drain point of a task, the end of a context, and a fatal context error that ends
it (R83, R182, R427 to R429, R463, R464). -/

namespace Sys2Proof.Machine

/-! ## The release of a task (R182, R463, R464) -/

/-- Step 2 of R182: nothing in flight, nothing pending, every operation and command ended, every core region back, those with the
task's own operations apart, which the end joins. -/
def State.endReady (s : State) (c : CoreId) (t : Task) : Bool :=
  t.ended && !t.failed && t.waits == [.endTask] && t.flight.isEmpty && t.pend.isEmpty && t.ops.all (fun o => o.2.done) &&
    t.arr0.idle && t.arr1.idle && (s.regionsOut c t).isEmpty

/-- Settles one record of an ending task, what goes back as by `tkret.dv` or `tkunsh.dv` (R370, R463). -/
def State.settleRec (s : State) (c : CoreId) (t : Task) (st : StackId) (e : Nat) : State :=
  match (s.stack st).toks.find e with
  | none => s
  | some r =>
    let src : Src := (t.agent c).src
    let gone := (s.dropRegion c r.base (regionBytes r.size) .dv).setStack st ((s.stack st).dropTok e)
    if r.st = .lost then s
    else if !r.claimed then (if r.arr then s.deadDelivery st e r else s)
    else if r.sh then { gone with toks := gone.toks ++ [.unshare st r.base r.size r.at_ .dv src 0] }
    else if r.st = .lent then (if r.back then s.toRest st r.base r.size (r.backSc.foldl scopeMax .dflt) else s)
    else if r.nsh = r.backSh then
      if paWindow r.base && winIsCore r.base && r.depth == 0 then gone
      else
        let s := match (s.stack st).lenderOf r with
          | some g => s.outsideEdge (t.agent c) g
          | none => s
        let s := (s.dropRegion c r.base (regionBytes r.size) .dv).setStack st ((s.stack st).dropTok e)
        { s with toks := s.toks ++ [.ret st r.base r.size r.depth .dv src 0] }
    else s.setStack st ((s.stack st).setTok e { r with
      holder := .stack st, st := .shared, nsh := r.nsh - r.backSh, nat := r.nat - r.backAt, backSh := 0, backAt := 0, eng := 0 })

/-- Settles every record a task holds, and gives back its grants. -/
def State.settleAll (s : State) (c : CoreId) (t : Task) : State :=
  let mine := s.stackTab.flatMap (fun x =>
    (x.2.toks.filter (fun e => e.2.holder == t.agent c)).map (fun e => ((Fin.ofNat 64 x.1 : StackId), e.1)))
  let s := mine.foldl (fun (s : State) p => s.settleRec c t p.1 p.2) s
  (s.grants.filter (fun g => g.holder == some (t.agent c))).foldl (fun (s : State) g => (s.releaseFor c t .sy).giveGrant (t.agent c).src g) s

/-- A PRECMD suspend has finished once no task that it names is still current (R434). -/
def State.preCheck (s : State) (st : StackId) : State :=
  let x := s.stack st
  if x.preBusy && (List.range 16).all (fun k => match s.task? (coreOf st k) with
      | some t => !(t.suspend && t.pre && !t.ended)
      | none => true) then s.setStack st { x with preBusy := false, preDone := true }
  else s

/-- Whether a sync object is a phase object of team `m` or an arrival held for one of its phases. -/
def ObjUse.ofTeam (m : Nat) : ObjUse → Bool
  | .phase k _ | .held k _ _ => k == m
  | .round _ _ _ _ => false

/-- A team of a stack is gone, with its number, its checkpoint and its sync objects (R394, R434, R444). -/
def StackS.dropTeam (x : StackS) (m : Nat) : StackS := { x with teams := x.teams.drop m }.dropObjs (ObjUse.ofTeam m)

/-- A task of a team has reached its drain point; with the last one the team is gone. -/
def State.leaveTeam (s : State) (st : StackId) (m : Nat) : State :=
  match (s.stack st).teams.find m with
  | some tm =>
    if tm.left ≤ 1 then s.setStack st ((s.stack st).dropTeam m)
    else s.setTeam st m { tm with left := tm.left - 1 }
  | none => s

/-- A finished task is counted in its launch's completion word, after the launch's earlier grow requests (R72, R78). -/
def State.countFinish (s : State) (launch : Nat) (coord : BitVec 48) (st : StackId) : State :=
  let s := (s.applyGrows launch).charge launch st (fun a => { a with tasks := a.tasks + 1 })
  match s.launch? launch with
  | some l =>
    (s.setLaunch launch { l with finished := l.finished + 1, finishedCoords := l.finishedCoords ++ [coord] }).updateWords launch
  | none => s

/-- A core without its task: nothing of it is left, its L1 and its token cache included (R98, R368). -/
def CoreS.drained (x : CoreS) : CoreS :=
  { x with live := none, decl := none, l1 := [], tokc := [], hlt := false, haltReq := 0, cause := 0, saveErrs := 0 }

/-- The core is at its drain point: no task, no declaration, no line in its L1, and the state of its windows cleared (R98). -/
def State.drainCore (s : State) (c : CoreId) : State :=
  let s := (s.evictAllL1 c).clearWindows c
  (s.setCore c (s.core c).drained).reposition (clusterOf c)

/-- Whether a return or an unshare that a task sent has not arrived. -/
def State.returnsComing (s : State) (t : Task) : Bool :=
  s.toks.any (fun m => match m with
    | .ret _ _ _ _ _ k _ | .unshare _ _ _ _ _ k _ => isTask t k.launch k.coord
    | .deliver _ _ _ _ | .need _ _ _ _ _ => false)

/-- The first part of TASK_RELEASE: the release at `.dv`, the joins and the settlement. The release is an edge with the masters, so
the team's interval is unprotected from now on (R446; log entry 34). It waits while one of the task's writes waits for a frame
(R245), one of its full/empty stores at its word, or one of its rounds for an object (R370). -/
def State.settleTask (s : State) (c : CoreId) (t : Task) : State :=
  let s := (s.unprotect c t).releaseFor c t .dv
  if s.relWaits t.launch t.coord s.feSeq then s
  else
    let s := t.ops.foldl (fun (s : State) o => if o.2.joined then s else s.joinOp c o.1) s
    (s.settleAll c t).mapTask c (fun t => { t with settled := true })

/-- The second part: what the task held is at rest, with a lender or with its stack, so it triggers and is counted, and the core
reaches its drain point (R72, R470). -/
def State.finishTask (s : State) (c : CoreId) (t : Task) : State :=
  if s.returnsComing t then s
  else
    let s := if t.trig then s else s.countTrigger t.launch
    let s := s.countFinish t.launch t.coord (stackOf c)
    ((s.leaveTeam (stackOf c) t.team).drainCore c).preCheck (stackOf c)

/-- TASK_RELEASE: the settlement, and once its messages have arrived the count and the drain point. -/
def State.taskRelease (s : State) (c : CoreId) : State :=
  match s.task? c with
  | none => s
  | some t =>
    if t.settled then s.finishTask c t
    else if !s.endReady c t then s
    else
      let s := s.settleTask c t
      match s.task? c with
      | some t => if t.settled then s.finishTask c t else s
      | none => s

def execTaskRelease (core : CoreId) (s : State) : Host.Outcome State Fault Refusal := .next (s.taskRelease core)

/-! ## The end of a context (R83, R428, R429) -/

/-- The context of an agent. -/
def Agent.ctx? : Agent → Option CtxId
  | .task _ x _ _ => some x
  | .engine _ x _ _ _ => some x
  | _ => none

/-- A core's planes after the end of a context (R93). -/
def CoreS.dropPlanes (x : CoreS) (ctx : CtxId) : CoreS :=
  let of (p : Plane) : Bool := p.tag.any (fun g => g.ctx == ctx)
  { x with
    shd := if of x.shd then Plane.reset else x.shd
    act := if of x.act && x.live.isNone then Plane.reset else x.act }

/-- A core without the tasks of a context. -/
def CoreS.discard (x : CoreS) (ctx : CtxId) : CoreS :=
  let x := match x.live with
    | some t => if t.ctx = ctx then x.drained else x
    | none => x
  match x.next with
  | some a => if a.who.1 = ctx then { x with next := none } else x
  | none => x

/-- An operation of an ended context: it runs to completion with nothing to claim or commit, unless it cannot run or has
failed. -/
def CopyOp.orphan (o : CopyOp) : CopyOp := { o with follow := none }
def CopyOp.cannotRun (o : CopyOp) : Bool := o.failed || (o.desc.cb.isSome && o.slot.isNone)
def orphans (ctx : CtxId) (l : List CopyOp) : List CopyOp :=
  (l.map (fun o => if o.ctx = ctx then o.orphan else o)).filter (fun o => !(o.ctx == ctx && o.cannotRun))

/-- Whether an operation of the context that still runs holds a record of a region. -/
def StackS.opHolds (x : StackS) (ctx : CtxId) (live : List Agent) (base size : Nat) : Bool :=
  x.toks.any (fun e => e.2.isFor base size && e.2.holder.ctx? == some ctx && live.contains e.2.holder)

/-- Clears the records of a context on a stack: those of regions that no running operation holds; a share alone lowers the count
of the stack that holds the token. LOST records stay. -/
def State.clearCtxToks (s : State) (ctx : CtxId) (live : List Agent) (st : StackId) : State :=
  let x := s.stack st
  let owned (b z : Nat) : Bool := x.toks.any (fun e => e.2.isFor b z && !e.2.sh && e.2.holder.ctx? == some ctx)
  let clears (r : TokRec) : Bool := r.st != .lost && !x.opHolds ctx live r.base r.size &&
    (owned r.base r.size || (r.sh && r.holder.ctx? == some ctx))
  let gone := x.toks.filter (fun e => clears e.2)
  let s := s.setStack st { x with toks := x.toks.filter (fun e => !clears e.2) }
  gone.foldl (fun (s : State) e =>
    let r := e.2
    if r.sh && !owned r.base r.size then s.shareBack st r.base r.size r.at_ .dv else s.putRest r.base r.size .dv) s

/-- Drops what the tasks of a context still have under way: waiting accesses and whatever else could not take effect. -/
def State.dropMessages (s : State) (ctx : CtxId) : State :=
  let mine (n : Nat) : Bool := match s.launch? n with
    | some l => l.ctx == ctx
    | none => false
  { s with
    fes := s.fes.filter (fun a => a.ctx != ctx)
    arrs := s.arrs.filter (fun a => a.ctx != ctx)
    rounds := s.rounds.filter (fun a => a.ctx != ctx)
    trigs := s.trigs.filter (fun a => !mine a.launch)
    grows := s.grows.filter (fun a => !mine a.launch)
    syArrs := s.syArrs.filter (fun a => a.ctx != ctx)
    toks := s.toks.filter (fun m => match m with
      | .need _ r _ _ _ => r.holder.ctx? != some ctx
      | _ => true) }

/-- A grant of an ended context goes back, where a route leads to its lender (R477, R478). -/
def State.dropGrant (s : State) (g : GrantS) : State :=
  let s := { s with grants := s.grants.erase g }
  if !s.reaches g.lender then s
  else match g.holder with
    | some a => s.sendAfter a.src s.feSeq (.giveBack g.lender g.ctx g.va g.sizeExp)
    | none => s.send (.giveBack g.lender g.ctx g.va g.sizeExp)

/-- Grants of the context that no running operation uses go back (R478). -/
def State.clearGrants (s : State) (ctx : CtxId) (live : List Agent) : State :=
  (s.grants.filter (fun g => g.ctx == ctx && !(match g.op, g.holder with
    | some h, some (.task c x n co) => live.contains (.engine c x n co h)
    | _, _ => false))).foldl (fun (s : State) g => s.dropGrant g) s

/-- Cores that have a task of a context, current or suspended. -/
def State.ctxCores (s : State) (ctx : CtxId) : List CoreId :=
  (s.cores.filter (fun e => match e.2.live with
    | some t => t.ctx == ctx
    | none => false)).map (fun e => (Fin.ofNat 1024 e.1 : CoreId)) ++
  s.stackTab.flatMap (fun x => x.2.teams.flatMap (fun m =>
    if m.2.ctx = ctx then m.2.susp.map (fun e => coreOf (Fin.ofNat 64 x.1) e.1) else []))

/-- The launches of a context that have not retired. -/
def State.ctxLaunches (s : State) (ctx : CtxId) : List Nat :=
  (s.launches.filter (fun e => e.2.ctx == ctx && !e.2.done)).map Prod.fst

/-- The first message of a list of which `p` holds. -/
def firstIdx {α : Type} (l : List α) (p : Nat → α → Bool) : Option Nat :=
  (List.range l.length).find? (fun n => match l[n]? with
    | some a => p n a
    | none => false)

/-- The arrivals of a context that may arrive do so, those at sync units that have to wait after their NAKs apart. -/
def State.arriveAll (s : State) (ctx : CtxId) : Nat → State
  | 0 => s
  | k + 1 => match firstIdx s.arrs (fun n a => a.ctx == ctx && decide (a.naks < 3) && (s.receiveRoundsOf a.launch a.coord).arrMay n a) with
    | some n => (s.phaseArrival n).arriveAll ctx k
    | none => s

/-- The triggers of a context that may be counted are. -/
def State.triggerAll (s : State) (ls : List Nat) : Nat → State
  | 0 => s
  | k + 1 => match firstIdx s.trigs (fun _ m => ls.contains m.launch && !s.relWaits m.launch m.coord m.after) with
    | some n => (s.triggerCount n).triggerAll ls k
    | none => s

/-- What the bundles of a context's tasks have sent takes full effect: writes and `amo` messages, full/empty accesses, arrivals with
the rounds before them, grow requests and triggers (R428). -/
def State.performAll (s : State) (ctx : CtxId) : State :=
  let s := ((s.ctxCores ctx).foldl (fun (s : State) c => s.releaseData c .dv) s).applyAmos (fun a => a.ctx == ctx)
  let s := s.feArriveWhere (fun a => a.ctx == ctx) s.fes.length
  let s := s.arriveAll ctx (3 * s.arrs.length)
  let ls := s.ctxLaunches ctx
  (ls.foldl (fun (s : State) n => s.applyGrows n) s).triggerAll ls s.trigs.length

/-- Lines that an ended context wrote last have no writer to charge, nor have writes of it that are performed later (R468). -/
def State.forgetWriter (s : State) (ctx : CtxId) : State :=
  let f (w : Option CtxId) : Option CtxId := if w = some ctx then none else w
  { s.setCtx ctx { s.ctx ctx with since := s.nextLaunch } with
    live := s.live.map (fun e => (e.1, { e.2 with wr := f e.2.wr }))
    stackTab := s.stackTab.map (fun e => (e.1, { e.2 with l2 := e.2.l2.map (fun l => { l with wr := f l.wr }) })) }

/-- A stack without the teams of a context and their sync objects, with what is left of its operations. -/
def StackS.dropCtx (x : StackS) (ctx : CtxId) (launches : List Nat) : StackS :=
  let x := (x.teams.filter (fun m => m.2.ctx == ctx)).foldl (fun (x : StackS) m => x.dropTeam m.1) x
  { x with ops := orphans ctx x.ops, requests := orphans ctx x.requests }.dropObjs (fun u => match u with
    | .round _ n _ _ => launches.contains n
    | .phase _ _ | .held _ _ _ => false)

/-- Whether a window address is of the core regions of a task of a context, current or suspended. -/
def State.windowOf (s : State) (ctx : CtxId) (a : Nat) : Bool :=
  paWindow a && winIsCore a && (s.windowTask a).any (fun t => t.ctx == ctx)

/-- THE END OF A CONTEXT: its launches and queues, tasks, teams, messages, operations and tokens. `cause` is the launch whose
task caused it. -/
def State.endContext (s : State) (ctx : CtxId) (cause : Option Nat) : State :=
  let cls := ((s.cores.filter (fun e => match e.2.live with
    | some t => t.ctx == ctx
    | none => false)).map (fun e => e.1 / 4)).eraseDups
  let s := s.performAll ctx
  let ls := s.ctxLaunches ctx
  let s := ((s.endLaunches ctx cause).dropMessages ctx).forgetWriter ctx
  let s := { s with
    poison := s.poison.filter (fun a => !s.windowOf ctx a)
    cores := s.cores.map (fun (e : Nat × CoreS) => (e.1, (e.2.discard ctx).dropPlanes ctx))
    stackTab := s.stackTab.map (fun (e : Nat × StackS) => (e.1, e.2.dropCtx ctx ls)) }
  let live := s.stackTab.flatMap (fun e => ((e.2.ops ++ e.2.requests).filter (fun o => o.ctx == ctx)).map (fun o =>
    Agent.engine o.core o.ctx o.launch o.coord o.handle))
  let s := (s.stackTab.map Prod.fst).foldl (fun (s : State) k => s.clearCtxToks ctx live (Fin.ofNat 64 k)) s
  let s := s.clearGrants ctx live
  let s := cls.foldl (fun (s : State) k => s.reposition (Fin.ofNat 256 k)) s
  (s.stackTab.map Prod.fst).foldl (fun (s : State) k => s.preCheck (Fin.ofNat 64 k)) s

/-- CONTEXT_END. -/
def execContextEnd (ctx : CtxId) (s : State) : Host.Outcome State Fault Refusal := .next (s.endContext ctx none)

/-- FATAL_CONTEXT_ERROR `n` of those found: its record is written, or waits on chip, and the context ends. With 64 records waiting
on chip it waits, its core frozen, and counts once in FBOVF (R427). -/
def State.fatalError (s : State) (n : Nat) : State :=
  match s.fatals[n]? with
  | none => s
  | some f =>
    let st := stackOf f.core
    if s.elTakes st then
      ({ s with fatals := listDrop s.fatals n }.logRecord st f.fields f.time (if f.held then none else some f.ctx) none).endContext f.ctx
        (some f.launch)
    else if f.held then s
    else ({ s with fatals := listSet s.fatals n { f with held := true } }.count f.ctx ctrFBOVF 1).interrupt (.errorLog st)

def execFatalContextError (n : Nat) (s : State) : Host.Outcome State Fault Refusal := .next (s.fatalError n)

end Sys2Proof.Machine
end

