-- ==== Sys2Proof/Machine/Preempt.lean ====
section
/-! DEFINITION. The fault buffer's replies, pre-emption and resume, save areas, and the debug halt (R103, R425, R430 to R439, R452,
R453). -/

namespace Sys2Proof.Machine

/-! ## The fault buffer (R425, R432, R433) -/

/-- FAULT_POP: the oldest undelivered record is delivered. -/
def State.faultPop (s : State) (st : StackId) : State :=
  let x := s.stack st
  match x.oldestFault with
  | some (e, r) => s.setStack st { x with fb := x.fb.set e { r with delivered := true } }
  | none => s

def execFaultPop (st : StackId) (s : State) : Host.Outcome State Fault Refusal := .next (s.faultPop st)

/-- Changes every task of a stack: current, about to re-enter, and suspended. -/
def State.mapStackTasks (s : State) (st : StackId) (f : Task → Task) : State :=
  let s := (List.range 16).foldl (fun (s : State) k =>
    let c := coreOf st k
    let x := s.core c
    s.setCore c { x with live := x.live.map f, next := x.next.map (Asg.mapTask f) }) s
  s.setStack st { s.stack st with teams := (s.stack st).teams.map (fun m =>
    (m.1, { m.2 with susp := m.2.susp.map (fun t => (t.1, f t.2)) })) }

/-- Whether a reply matches an entry: it is in use, and its record carries CTX and SEQ. A spill fault is answered by no reply. -/
def FbEntry.answers (r : FbEntry) (ctx : CtxId) (seq : BitVec 32) : Bool :=
  decide (r.w0.toNat / 2 ^ 60 ≠ 3) && r.w0.toNat / 2 ^ 48 % 4096 == ctx.val && r.w0.setWidth 32 == seq

/-- Whether a task waits on the event of an entry. -/
def Task.waitsFor (t : Task) (ctx : CtxId) (ent : Nat) (seq : BitVec 32) : Bool :=
  t.ctx == ctx && (match t.event with
    | some e => e.ent == ent && e.seq == seq
    | none => false)

/-- An accepted reply that lets the task go on: taken by the task when it resumes. -/
def State.reply (s : State) (st : StackId) (ctx : CtxId) (ent : Nat) (seq : BitVec 32) (refused : Bool) : State :=
  match (s.stack st).fb.find ent with
  | some r =>
    if r.answers ctx seq then
      (s.mapStackTasks st (fun t => if t.waitsFor ctx ent seq then t.answer refused (s.stack st).frval else t)).freeFault st ent
    else s
  | none => s

/-- The task of a stack that waits on an event, wherever it is kept. -/
def State.taskOfEvent (s : State) (st : StackId) (ctx : CtxId) (ent : Nat) (seq : BitVec 32) : Option Task :=
  let at_ (o : Option Task) : Option Task := match o with
    | some t => if t.waitsFor ctx ent seq then some t else none
    | none => none
  match (List.range 16).findSome? (fun k => at_ (s.task? (coreOf st k))) with
  | some t => some t
  | none => (s.stack st).teams.findSome? (fun m => m.2.susp.findSome? (fun e => at_ (some e.2)))

/-- An accepted reply that ends the context with code 0x0C. -/
def State.replyEnd (s : State) (st : StackId) (ctx : CtxId) (ent : Nat) (seq : BitVec 32) : State :=
  match (s.stack st).fb.find ent with
  | some r =>
    if r.answers ctx seq then
      let c : CoreId := Fin.ofNat 1024 (r.w0.toNat / 2 ^ 38)
      let coord : BitVec 48 := r.w1.setWidth 48
      let launch := match s.taskOfEvent st ctx ent seq with
        | some t => t.launch
        | none => 0
      let f : Fatal := ⟨errUncorrectable, slotNone, ctx, c, r.w3.setWidth 32, agentId (.task c ctx launch coord),
        r.w3.extractLsb' 32 32, coord, 0#64, 0#64, 0#64, launch, false, s.ns⟩
      { s with fatals := s.fatals ++ [f] }.freeFault st ent
    else s
  | none => s

def execFreplyServiced (st : StackId) (ctx : CtxId) (ent : Fin 4096) (seq : BitVec 32) (s : State) :
    Host.Outcome State Fault Refusal := .next (s.reply st ctx ent.val seq false)

def execFreplyRefused (st : StackId) (ctx : CtxId) (ent : Fin 4096) (seq : BitVec 32) (s : State) :
    Host.Outcome State Fault Refusal := .next (s.reply st ctx ent.val seq true)

def execFreplyEndContext (st : StackId) (ctx : CtxId) (ent : Fin 4096) (seq : BitVec 32) (s : State) :
    Host.Outcome State Fault Refusal := .next (s.replyEnd st ctx ent.val seq)

/-- A write of FREPLY (R432). -/
def State.freplyWrite (s : State) (st : StackId) (v : Word) : State :=
  let ctx : CtxId := Fin.ofNat 4096 (v.toNat / 2 ^ 50)
  let ent := v.toNat / 2 ^ 38 % 4096
  match v.toNat / 2 ^ 62 with
  | 0 => s.reply st ctx ent (v.setWidth 32) false
  | 1 => s.reply st ctx ent (v.setWidth 32) true
  | 2 => s.replyEnd st ctx ent (v.setWidth 32)
  | _ => s

/-! ## Suspension (R256, R287, R435, R439) -/

/-- Whether a follow-on command of the task is still to be committed: a pre-emption waits for it, the task running on (R287). -/
def State.followPending (s : State) (c : CoreId) (t : Task) : Bool :=
  ((s.stack (stackOf c)).ops ++ (s.stack (stackOf c)).requests).any (fun o =>
    o.ofTask t.launch t.coord && o.follow.isSome && !o.committed)

/-- Whether the task is to stop at this bundle boundary. -/
def State.mustStop (s : State) (c : CoreId) (t : Task) : Bool :=
  t.suspend && (t.event.isSome || !s.followPending c t)

/-- Whether the task can be saved now: no late data outstanding, no event without its record, not past `end` but for an event, and
the core not halted. -/
def State.maySuspend (s : State) (c : CoreId) (t : Task) : Bool :=
  t.suspend && !t.failed && (!t.ended || t.event.isSome) && !t.flight.any (fun f => f.late) && !(s.core c).hlt &&
    !s.followPending c t && (match t.event with
      | some e => e.ent != 4096
      | none => true)

/-- Full/empty loads of a task that have not been performed are withdrawn (R256). -/
def State.withdrawFe (s : State) (c : CoreId) (t : Task) : State :=
  { s with fes := s.fes.filter (fun a =>
      !(a.core == c && isTask t a.launch a.coord && (a.op == .ldf || a.op == .lde))) }

/-- A saved task is kept with its team. -/
def State.park (s : State) (c : CoreId) (t : Task) : State :=
  match (s.stack (stackOf c)).teams.find t.team with
  | some tm => s.setTeam (stackOf c) t.team { tm with susp := tm.susp.set (coreInStack c) t }
  | none => s

/-- TASK_SUSPEND: the task's accesses that wait for nothing are performed, and those that wait are withdrawn; then it is saved and
leaves its core, and its core regions take addresses of their own. An error in the save makes it be redone in area B, and a second
ends the context. -/
def State.taskSuspend (s : State) (c : CoreId) : State :=
  match s.task? c with
  | none => s
  | some t =>
    if !s.maySuspend c t then s
    else
      let st := stackOf c
      let s := s.feArriveOwn c t (fun _ => true) s.fes.length
      match s.task? c with
      | none => s
      | some t =>
        let errs := (s.core c).saveErrs + (if s.stateBad c t then 2 else 0)
        if 2 ≤ errs then
          ((s.logSoft st 0x25 (.coreBank c)).setCore c { s.core c with saveErrs := 0 }).raiseFatal c t errSave slotNone 0#64 0#64 0#64
        else
          let s := if errs = 1 then s.logSoft st 0x25 (.coreBank c) else s
          let s := (s.withdrawFe c t).flushL1 c
          let (s, t) := s.saveTask t (errs == 1)
          (((s.park c t).parkRegions c t.team).drainCore c).preCheck st

def execTaskSuspend (core : CoreId) (s : State) : Host.Outcome State Fault Refusal := .next (s.taskSuspend core)

/-! ## PRECMD (R434, R438) -/

/-- Teams that a command names, by number. -/
def State.namedTeams (s : State) (st : StackId) (v : Word) : List Nat :=
  let ctx : CtxId := Fin.ofNat 4096 (v.toNat / 2 ^ 48)
  let of_ (m : Nat) : Bool := match (s.stack st).teams.find m with
    | some tm => tm.ctx == ctx
    | none => false
  if v.getLsbD 60 then ((s.stack st).teams.filter (fun e => e.2.ctx == ctx)).map Prod.fst
  else match v.toNat / 2 ^ 46 % 4 with
    | 0 => match s.task? (coreOf st (v.toNat / 2 ^ 16 % 16)) with
      | some t => if t.ctx = ctx then [t.team] else []
      | none => []
    | 1 => if of_ (v.toNat % 2 ^ 16) then [v.toNat % 2 ^ 16] else []
    | _ => []

/-- Tasks of a context that hold a save slot: suspended, or waiting to re-enter (R438). -/
def State.slotsHeld (s : State) (ctx : CtxId) : Nat :=
  (s.stackTab.map (fun x => ((x.2.teams.filter (fun m => m.2.ctx == ctx)).map (fun m => m.2.susp.length)).foldl (· + ·) 0)).foldl
    (· + ·) 0 +
  (s.cores.filter (fun e => match e.2.next with
    | some (.resume t _) => t.ctx == ctx
    | _ => false)).length

/-- Cores with a current task of a context for which a slot is kept back, those of the named teams on a stack apart. -/
def State.slotsKept (s : State) (ctx : CtxId) (st : StackId) (teams : List Nat) : Nat :=
  (s.cores.filter (fun e => match e.2.live with
    | some t => t.ctx == ctx && !(stackOf (Fin.ofNat 1024 e.1) == st && teams.contains t.team && !t.ended)
    | none => false)).length

/-- Whether a current or assigned task is one that a suspend names. -/
def Task.inTeams (t : Task) (teams : List Nat) : Bool := teams.contains t.team && !t.ended

/-- Tasks of the named teams that need a slot with the command, those current that their own events suspend among them (R438), and all
those it names that no earlier command holds. -/
def State.newlySaved (s : State) (st : StackId) (teams : List Nat) : Nat :=
  ((List.range 16).map (fun k =>
    let x := s.core (coreOf st k)
    (match x.live with
      | some t => b2n (t.inTeams teams)
      | none => 0) +
    (match x.next with
      | some (.new _ _ _ _ m _) => b2n (teams.contains m)
      | _ => 0))).foldl (· + ·) 0

def State.newlyNamed (s : State) (st : StackId) (teams : List Nat) : Nat :=
  ((List.range 16).map (fun k =>
    let x := s.core (coreOf st k)
    (match x.live with
      | some t => b2n (t.inTeams teams && !t.pre)
      | none => 0) +
    (match x.next with
      | some (.new _ _ _ _ m _) => b2n (teams.contains m)
      | some (.resume t _) => b2n (t.inTeams teams && !t.pre)
      | none => 0))).foldl (· + ·) 0 +
  (((s.stack st).teams.filter (fun m => teams.contains m.1)).map (fun m =>
    (m.2.susp.filter (fun e => !e.2.pre)).length)).foldl (· + ·) 0

/-- A task that a suspend names. -/
def Task.hold (t : Task) : Task := { t with suspend := true, pre := true }

/-- A named task not yet current gives up its next slot and is suspended as it stands. -/
def State.holdNext (s : State) (st : StackId) (teams : List Nat) (k : Nat) : State :=
  let c := coreOf st k
  let x := s.core c
  let put (s : State) (t : Task) : State := (s.park c t.hold).setCore c { s.core c with next := none }
  match x.next with
  | some (.new ctx n coord rank m _) =>
    if teams.contains m then
      match s.launch? n with
      | some l =>
        let (s, t) := s.saveTask (startTask ctx n l coord rank m) false
        put s t
      | none => s
    else s
  | some (.resume t _) => if t.inTeams teams then put s t else s
  | none => s

/-- Suspends the named teams. -/
def State.holdTeams (s : State) (st : StackId) (teams : List Nat) : State :=
  let s := s.mapStackTasks st (fun t => if t.inTeams teams then t.hold else t)
  (List.range 16).foldl (fun (s : State) k => s.holdNext st teams k) s

/-- The status after a command. -/
def StackS.preStatus (x : StackS) (busy done ref : Bool) (team tasks : Nat) : StackS :=
  { x with preBusy := busy, preDone := done, preRef := ref, preTeam := BitVec.ofNat 16 team, preTasks := BitVec.ofNat 16 tasks }

/-- The command register keeps what a write gives its fields. -/
def preFields (v : Word) : Word := v &&& 0x7FFFC000000FFFFF#64

/-- The last of some teams for which a command counts a task. -/
def lastTeam (teams : List Nat) (n : Nat → Nat) : Option Nat := (teams.filter (fun m => decide (0 < n m))).getLast?

/-- PRESTAT.TEAM after a command: the team it named, or with ALL the last one of which it took a task; the old value where there is
none. -/
def StackS.preTeamAfter (x : StackS) (v : Word) (teams : List Nat) (n : Nat → Nat) : Nat :=
  ((if v.getLsbD 60 then lastTeam teams n else teams.getLast?)).getD x.preTeam.toNat

/-- A suspend that is carried out, with the release of R246 where REL and ALL are set. -/
def State.preSuspend (s : State) (st : StackId) (v : Word) : State :=
  let ctx : CtxId := Fin.ofNat 4096 (v.toNat / 2 ^ 48)
  let teams := s.namedTeams st v
  let x := s.stack st
  let need := s.newlySaved st teams
  let free := (s.ctx ctx).slots.toNat - (s.slotsHeld ctx + s.slotsKept ctx st teams)
  if teams.isEmpty || decide (free < need) then s.setStack st (x.preStatus false true true (x.preTeamAfter v teams (fun _ => 0)) 0)
  else
    let n := s.newlyNamed st teams
    let team := x.preTeamAfter v teams (fun m => s.newlyNamed st [m])
    let s := s.holdTeams st teams
    let s := s.setStack st ((s.stack st).preStatus true false false team n)
    let s := if v.getLsbD 61 && v.getLsbD 60 then s.releasePages ctx else s
    s.preCheck st

/-- Tasks of some teams that a command holds suspended. -/
def StackS.heldTasks (x : StackS) (teams : List Nat) : Nat :=
  ((x.teams.filter (fun m => teams.contains m.1)).map (fun m => (m.2.susp.filter (fun e => e.2.pre)).length)).foldl (· + ·) 0

/-- A resume that is carried out: no command holds the named tasks any more. -/
def State.preResume (s : State) (st : StackId) (v : Word) : State :=
  let teams := s.namedTeams st v
  let x := s.stack st
  if teams.isEmpty then s.setStack st (x.preStatus false true true x.preTeam.toNat 0)
  else
    let s := s.mapStackTasks st (fun t => if teams.contains t.team && t.pre then { t with pre := false } else t)
    s.setStack st ((s.stack st).preStatus false true false (x.preTeamAfter v teams (fun m => x.heldTasks [m])) (x.heldTasks teams))

/-- A write of PRECMD: with GO = 1 the command, ignored while one is in progress; otherwise the fields alone. -/
def State.precmdWrite (s : State) (st : StackId) (v : Word) : State :=
  let x := s.stack st
  let kept := s.setStack st { x with precmd := preFields v }
  if !v.getLsbD 63 then kept
  else if x.preBusy then s
  else if v.getLsbD 62 then kept.preResume st v
  else kept.preSuspend st v

/-- PREEMPT_SUSPEND: a command with GO = 1 and OP = 0. -/
def execPreemptSuspend (st : StackId) (v : Word) (s : State) : Host.Outcome State Fault Refusal :=
  .next (s.precmdWrite st ((v ||| 0x8000000000000000#64) &&& ~~~0x4000000000000000#64))

/-- PREEMPT_SWAP_OUT_RELEASE: the same with ALL and REL, of one context. -/
def execPreemptSwapOutRelease (st : StackId) (ctx : CtxId) (s : State) : Host.Outcome State Fault Refusal :=
  .next (s.precmdWrite st (BitVec.ofNat 64 (2 ^ 63 + 2 ^ 61 + 2 ^ 60 + ctx.val * 2 ^ 48)))

/-- PREEMPT_RESUME: a command with GO = 1 and OP = 1. -/
def execPreemptResume (st : StackId) (v : Word) (s : State) : Host.Outcome State Fault Refusal :=
  .next (s.precmdWrite st (v ||| 0xC000000000000000#64))

/-! ## Resume (R103, R436) -/

/-- Whether a resuming task of team `m` may enter a core's next slot: it is empty, the core is open, and no other team holds the core
empty (R90, R103). -/
def State.slotOpen (s : State) (st : StackId) (m k : Nat) : Bool :=
  (s.core (coreOf st k)).next.isNone && s.coreOpen (coreOf st k) && (s.stack st).teams.all (fun e => e.1 == m || !e.2.heldEmpty k)

/-- TEAM_RESUME: the tasks of a team that may resume enter their cores' next slots, once every core of the team has an empty one and
those of these tasks are open; this counts as a new acceptance. Tasks of the team that still wait for a reply, or are current, are
left where they are (DESIGN CHOICE, log entry 76). -/
def State.teamResume (s : State) (st : StackId) (m : Nat) : State :=
  match (s.stack st).teams.find m with
  | none => s
  | some tm =>
    let go := tm.susp.filter (fun e => e.2.mayResume)
    if go.isEmpty || s.stackClosed st || !(List.range tm.size).all (fun i => (s.core (coreOf st (tm.base + i))).next.isNone) ||
        !go.all (fun e => s.slotOpen st m e.1) then s
    else
      let seq := (s.stack st).seq
      let s := s.setTeam st m { tm with susp := tm.susp.filter (fun e => !e.2.mayResume) }
      let s := s.setStack st { s.stack st with seq := seq + 1 }
      go.foldl (fun (s : State) e =>
        let c := coreOf st e.1
        let x := s.core c
        let x := match s.launch? tm.launch with
          | some l => x.settle (l.img.tag tm.ctx)
          | none => x
        (s.setCore c { x with next := some (.resume e.2 seq) }).taskStart c) s

def execTeamResume (st : StackId) (team : Nat) (s : State) : Host.Outcome State Fault Refusal := .next (s.teamResume st team)

/-! ## Save areas (R437) -/

/-- Whether a heap maps a byte of a range: its physical addresses are formed modulo 2^52 (R226). -/
def CtxS.heapMeets (x : CtxS) (a n : Nat) : Bool :=
  x.hl.toNat % 4 != 3 && (List.range 34).any (fun k => rangesMeet ((heapBase x + heapOff x) % 2 ^ 52) (heapLen x) (a + k * 2 ^ 52) n)

/-- Whether a context maps a byte of a range of LPDDR. -/
def State.areaMapped (s : State) (a n : Nat) : Bool :=
  (s.ctxs.filter (fun e => e.2.valid)).any (fun e =>
    (s.leavesOf (Fin.ofNat 4096 e.1)).any (fun l => match s.walk (4096 * l.2) 4 e.2.root with
      | .ok f => !f.unb && rangesMeet f.base (2 ^ f.bits) a n
      | .error _ => false) || e.2.heapMeets a n)

/-- Whether an area is SLOTS × 16 MiB of LPDDR mapped nowhere. -/
def State.areaOk (s : State) (a n : Nat) : Bool := decide (a + n ≤ 2 ^ 40) && !s.areaMapped a n

/-- SAVE_AREA_CHECK: a master's write of SAVECFG; `linesOk` is whether every line read back what was written. -/
def State.saveAreaCheck (s : State) (ctx : CtxId) (v : Word) (linesOk : Bool) : State :=
  if s.launches.any (fun e => e.2.ctx == ctx && !e.2.done) then s
  else
    let x := s.ctx ctx
    let k := v.toNat % 2 ^ 16
    let n := k * 2 ^ 24
    let a := areaBase x.savea
    let b := areaBase x.saveb
    let ok := linesOk && decide (1 ≤ k) && decide (k ≤ 1024) && s.areaOk a n && s.areaOk b n && !rangesMeet a n b n
    s.setCtx ctx { x with slots := BitVec.ofNat 16 k, ok := ok }

def execSaveAreaCheck (ctx : CtxId) (v : Word) (linesOk : Bool) (s : State) : Host.Outcome State Fault Refusal :=
  .next (s.saveAreaCheck ctx v linesOk)

/-! ## Debug (R452, R453) -/

/-- DEBUG_HALT_REQUEST. -/
def State.haltRequest (s : State) (c : CoreId) : State :=
  if (s.core c).hlt then s else s.setCore c { s.core c with haltReq := 1 }

def execDebugHaltRequest (core : CoreId) (s : State) : Host.Outcome State Fault Refusal := .next (s.haltRequest core)

/-- DEBUG_HALT: at the bundle boundary, with no late data outstanding, the core halts for the cause that waits. -/
def State.debugHalt (s : State) (c : CoreId) : State :=
  let x := s.core c
  match x.live with
  | some t =>
    if x.haltReq = 0 ∨ x.hlt = true ∨ t.flight.any (fun f => f.late) = true then s
    else s.setCore c { x with hlt := true, cause := x.haltReq, haltReq := 0 }
  | none => s

def execDebugHalt (core : CoreId) (s : State) : Host.Outcome State Fault Refusal := .next (s.debugHalt core)

/-- DEBUG_RESUME. -/
def State.debugResume (s : State) (c : CoreId) : State :=
  let x := s.core c
  if x.hlt then s.setCore c { x with hlt := false, cause := 0 } else s

def execDebugResume (core : CoreId) (s : State) : Host.Outcome State Fault Refusal := .next (s.debugResume core)

/-- Replaces 64-bit word `w` of a value. -/
def setWord (v : Vec) (w : Nat) (d : Word) : Vec :=
  (v &&& ~~~((0xFFFFFFFFFFFFFFFF#1024) <<< (64 * w))) ||| ((d.setWidth 1024) <<< (64 * w))

/-- The destination of a snapshot entry with another physical index, where the level has such a register. -/
def Dest.reindex (d : Dest) (ix : Nat) : Dest :=
  match d with
  | .main sl _ => .main sl ix
  | .opf sl _ => .opf sl (ix % 8)
  | .pred _ => .pred ix
  | .mask _ => .mask (ix % 16)
  | .lc _ => .lc (ix % 8)
  | d => d

/-- A write to a word of a snapshot entry: REM and INDEX in word 0, VALUE from word 2. Another register is dead or not as it is now
(R146, R453); the word written is no longer poisoned (R440). -/
def Flight.dbgWrite (r : Regs) (f : Flight) (w : Nat) (d : Word) : Flight :=
  if w = 0 then
    let to_ := f.dest.reindex (d.toNat / 2 ^ 36 % 64)
    { f with rem := d.toNat / 2 ^ 48, dest := to_, dead := if to_ = f.dest then f.dead else r.destDead to_ }
  else if 2 ≤ w ∧ w < 18 then { f with val := setWord f.val (w - 2) d, bad := f.bad && w != 2 }
  else f

/-- A write to word `w` of a register or item, which is then no longer poisoned (R440). Items that do not exist, and dead registers,
take nothing. -/
def Task.dbgWrite (t : Task) (file ix w : Nat) (d : Word) : Task :=
  let r := t.regs
  let main (sl : Slot) (n p : Nat) : Task :=
    if n ≤ ix ∨ r.isDead sl p = true then t
    else { t.healWord (.main sl p) w with regs := r.mainSet sl p (setWord (r.mainGet sl p) w d) }
  match file with
  | 0 => main .C 16 ix
  | 1 => main .A 64 ix
  | 2 => main .V 64 ix
  | 3 => main .M 32 ix
  | 4 => main .M 16 (32 + ix)
  | 5 => main .E 16 ix
  | 6 => main .Y 16 ix
  | 7 => if ix < 48 then
      let sl := slotNo (ix / 8)
      { t.healWord (.opf sl (ix % 8)) w with regs := r.opfSet sl (ix % 8) (setWord (r.opfGet sl (ix % 8)) w d) } else t
  | 8 => if ix < 6 then { t.healWord (.latch (slotNo ix)) w with regs := r.latchSet (slotNo ix) (setWord (r.latchGet (slotNo ix)) w d) } else t
  | 9 => if ix < 64 ∧ w = 0 then { t.heal (.pred ix) with regs := r.setPred ix (d.getLsbD 0) } else t
  | 10 => if ix < 16 ∧ w = 0 then { t.heal (.mask ix) with regs := { r with k := r.k.set ix (d.setWidth 32) } } else t
  | 11 =>
    if w ≠ 0 then t
    else match ix with
      | 0 => { t with npos := d, latched := none }
      | 1 => { t with idle := d.toNat }
      | 2 =>
        let r : Regs := { r with
          arb := d.setWidth 4, vrb := (d >>> 8).setWidth 5, ald := (d >>> 32).setWidth 5, vld := (d >>> 40).setWidth 6 }
        let u := (t.heal .rot).heal .depth
        { u with regs := r.clearDead }
      | 3 => { t with fstat := d.setWidth 7 }
      | n => if 8 ≤ n ∧ n < 16 then { t.heal (.lc (n - 8)) with regs := { r with lc := r.lc.set (n - 8) (d.setWidth 32) } } else t
  | _ => t

/-- DEBUG_DATA_WRITE: while the core is halted the selected word changes, and nothing else. -/
def State.debugDataWrite (s : State) (c : CoreId) (v : Word) : State :=
  let x := s.core c
  let file := selFile x.dbgsel
  let ix := selIndex x.dbgsel
  let w := selWord x.dbgsel
  match x.live with
  | some t =>
    if !x.hlt then s
    else if file = 12 then
      match t.flight[ix]? with
      | some f => s.setTask c { t with flight := listSet t.flight ix (f.dbgWrite t.regs w v) }
      | none => s
    else if file = 11 ∧ ix = 4 then
      (if w = 0 then s.setCtx t.ctx { s.ctx t.ctx with sbchk := v.getLsbD 0 } else s)
    else s.setTask c (t.dbgWrite file ix w v)
  | none => s

def execDebugDataWrite (core : CoreId) (v : Word) (s : State) : Host.Outcome State Fault Refusal :=
  .next (s.debugDataWrite core v)

/-- A write of DBGCTL: BRKH, then RES and REQ. -/
def State.dbgctlWrite (s : State) (c : CoreId) (v : Word) : State :=
  let s := s.setCore c { s.core c with brkh := v.getLsbD 60 }
  let s := if v.getLsbD 61 then s.debugResume c else s
  if v.getLsbD 62 then s.haltRequest c else s

end Sys2Proof.Machine
end

