-- ==== Sys2Proof/Machine/Recovery.lean ====
section
/-! DEFINITION. Soft errors, self-tests and fences, poison where it is consumed, team replay, and stack reset (R105, R381, R440 to
R451, R488). -/

namespace Sys2Proof.Machine

/-! ## The capability list (R488) -/

/-- Stacks present and not fenced, one bit each. -/
def State.presentMask (s : State) : Nat :=
  ((List.range 64).map (fun k => if (s.stack (Fin.ofNat 64 k)).fenced then 0 else 2 ^ k)).foldl (· + ·) 0

/-- Words of some bytes. -/
def capBytes (n : Nat) (f : Nat → Byte) : List Nat :=
  (List.range n).map (fun w => leNat ((List.range 8).map (fun i => f (8 * w + i))))

/-- The payloads of the list by ID. -/
def State.capPayloads (s : State) : List (Nat × List Nat) :=
  [(1, [(Config.capWord 0).toNat]), (2, [(Config.capWord 1).toNat]), (3, [s.presentMask]), (4, List.replicate 8 (2 ^ 37)),
   (5, (List.range 16).map (fun p => let x := s.ports.get ⟨false, false, 0#12⟩ p; (pack64 [(b2n x.up, 62), (x.peer.toNat, 0)]).toNat)),
   (6, [(Config.capWord 2).toNat, (Config.capWord 3).toNat] ++ capBytes 4 Config.campionHash ++ capBytes 4 Config.powerHash),
   (7, capBytes 8 Config.devPub)]

/-- The words of entries from an offset on: each its header, with the offset of the next one, and its payload. -/
def capWords : Nat → List (Nat × List Nat) → List Nat
  | _, [] => []
  | o, (id, p) :: l =>
    let n := o + 8 * (p.length + 1)
    (id * 2 ^ 56 + 2 ^ 48 + p.length * 2 ^ 32 + (if l.isEmpty then 0 else n)) :: p ++ capWords n l

/-- Words written upward from a physical address. -/
def State.putCapWords (s : State) (a : Nat) (l : List Nat) : State := s.putPhys a ((l.flatMap (natBytes 8)).map some)

/-- The firmware makes the list, at a place that is a free value, its entries in the order of their IDs (DESIGN CHOICE, log entry 91),
and CAPBASE names it. -/
def State.buildCaps (s : State) : State :=
  let a := Config.capPlace s.free % (2 ^ 37 - 64) * 8
  { s with capbase := BitVec.ofNat 52 a, free := s.free + 1 }.putCapWords a (capWords 0 s.capPayloads)

/-- The payload of the entry with an ID, following NEXT from a header. -/
def capFind (m : List Host.Cell) (base id : Nat) : Nat → Nat → Option Nat
  | 0, _ => none
  | k + 1, o =>
    let h := (Memory.word m (base + o)).toNat
    if h / 2 ^ 56 = id then some (base + o + 8)
    else if h % 2 ^ 32 = 0 then none
    else capFind m base id k (h % 2 ^ 32)

/-- The firmware rewrites the payload of an entry, once bring-up has made the list. -/
def State.rewriteCap (s : State) (id : Nat) : State :=
  if s.stage < 4 then s
  else match capFind s.view s.capbase.toNat id 256 0, s.capPayloads.find? (fun e => e.1 == id) with
    | some a, some (_, p) => s.putCapWords a p
    | _, _ => s

/-- After a stack is fenced, entry 0x03 is rewritten and both masters are interrupted. -/
def State.rewriteCaps (s : State) : State := (s.rewriteCap 3).interrupt .capability

/-! ## Fences (R13, R105, R381, R441) -/

/-- Every region that has a record of which `p` holds is LOST, wherever its slice, and though the record waits for a place there. -/
def State.loseWhere (s : State) (p : TokRec → Bool) : State :=
  ((List.range 64).flatMap (fun k => let st : StackId := Fin.ofNat 64 k
    ((s.sliceRecs st).filter p).map (fun r => (st, r.base, r.size)))).foldl
    (fun (s : State) r => s.loseRegion r.1 r.2.1 r.2.2) s

/-- Tasks that a core has: current, next and suspended. -/
def State.coreTasks (s : State) (c : CoreId) : List (CtxId × Nat × BitVec 48) :=
  let x := s.core c
  (match x.live with
    | some t => [(t.ctx, t.launch, t.coord)]
    | none => []) ++
  (match x.next with
    | some (.new ctx n co _ _ _) => [(ctx, n, co)]
    | some (.resume t _) => [(t.ctx, t.launch, t.coord)]
    | none => []) ++
  (s.stack (stackOf c)).teams.flatMap (fun m => match m.2.susp.find (coreInStack c) with
    | some t => [(t.ctx, t.launch, t.coord)]
    | none => [])

/-- The contexts of tasks end with a code, one record for each context. -/
def State.endTasks (s : State) (c : CoreId) (code : Nat) (l : List (CtxId × Nat × BitVec 48)) : State :=
  l.foldl (fun (s : State) v =>
    if s.fatals.any (fun f => f.ctx == v.1 && f.code == code) then s
    else s.fatalFor c v.1 v.2.1 v.2.2 (s.agentFpos (.task c v.1 v.2.1 v.2.2)) code slotNone (agentId (.task c v.1 v.2.1 v.2.2)) 0#64 0#64) s

/-- A core is fenced: its tasks' tokens are LOST, and their contexts end with code 0x0C. -/
def State.fenceCore (s : State) (c : CoreId) (u : ErrUnit) : State :=
  let s := (s.setCore c { s.core c with fenced := true }).logSoft (stackOf c) 0x22 u
  let s := s.loseWhere (fun r => match r.holder with
    | .task k _ _ _ => k == c
    | _ => false)
  s.endTasks c errUncorrectable (s.coreTasks c)

/-- Every core's tasks of a stack: their contexts end. -/
def State.endStackTasks (s : State) (st : StackId) (code : Nat) (current : Bool) : State :=
  (List.range 16).foldl (fun (s : State) k =>
    let c := coreOf st k
    let susp : List (CtxId × Nat × BitVec 48) := (s.stack st).teams.flatMap (fun m => match m.2.susp.find k with
      | some t => [(t.ctx, t.launch, t.coord)]
      | none => [])
    s.endTasks c code ((s.coreTasks c).filter (fun v => !current || !susp.contains v))) s

/-- A record that waits for a place in the slice of a lost stack is LOST too. -/
def TokMsg.lose (st : StackId) : TokMsg → TokMsg
  | .need a r c k n => .need a (if a = st then { r with st := .lost } else r) c k n
  | m => m

/-- The LIVE lines of a stack and the tokens of its slice are LOST, and what its L2 has not written back (R246, R451; log entry 78).
-/
def State.loseStack (s : State) (st : StackId) : State :=
  let s := ((s.live.filter (fun e => e.2.home == st)).map Prod.fst).foldl (fun (s : State) l => (s.dropEverywhere l).freeLine l) s
  let x := s.stack st
  let names := x.spills.map (fun p => p.leafPa)
  let s := s.setStack st { x with
    toks := x.toks.map (fun e => (e.1, { e.2 with st := .lost }))
    l2 := []
    spills := []
    fb := x.fb.filter (fun e => !x.spills.any (fun p => p.ent == e.1))
    fbOrder := x.fbOrder.filter (fun e => !x.spills.any (fun p => p.ent == e)) }
  { s with
    toks := s.toks.map (TokMsg.lose st)
    pwrites := s.pwrites.map (fun (w : PWrite) => if names.contains w.tag.leafPa then { w with held := false } else w)
    amos := s.amos.map (fun (a : AmoMsg) => if names.contains a.leafPa then { a with held := false } else a) }

/-- Whether an agent works on a stack: a task of its cores, an operation of its engines, or the stack itself. -/
def onStack (st : StackId) : Agent → Bool
  | .task c _ _ _ | .engine c _ _ _ _ => stackOf c == st
  | .stack x => x == st
  | .remote _ | .dispatcher => false

/-- A stack is fenced after a lasting fault: what its slice holds and what its cores and engines hold elsewhere is LOST (R381,
R441). -/
def State.fenceStack (s : State) (st : StackId) (u : ErrUnit) : State :=
  let s := (s.setStack st { s.stack st with fenced := true }).logSoft st 0x22 u
  (((s.loseWhere (fun r => onStack st r.holder)).loseStack st).endStackTasks st errUncorrectable false).rewriteCaps

/-- A copy engine is fenced: the operation it runs fails, its tokens LOST; with both fenced, so is the stack. -/
def State.fenceEngine (s : State) (st : StackId) (e : Fin 2) : State :=
  let x := s.stack st
  let u := ErrUnit.engine st e
  let s := (s.setStack st { x with engFenced := x.engFenced ||| BitVec.twoPow 2 e.val }).logSoft st 0x22 u
  let s := s.setStack st { s.stack st with ops := (s.stack st).ops.map (fun o => if o.eng = some e then { o with failed := true } else o) }
  let s := (x.ops.filter (fun o => o.eng == some e)).foldl (fun (s : State) o =>
    let ag : Agent := .engine o.core o.ctx o.launch o.coord o.handle
    (s.loseWhere (fun r => r.holder == ag)).fatalFor o.core o.ctx o.launch o.coord o.fpos errUncorrectable slotEngine (agentId ag) 0#64
      0#64) s
  if (s.stack st).engFenced = 3#2 then s.fenceStack st u else s

/-! ## Soft errors and self-tests (R440, R441) -/

/-- The stack that a line of memory belongs to for the log and for a fence: the home of an unbacked line, else the first stack of
the memory die (R224). -/
def State.memStack (s : State) (pa : Nat) : StackId :=
  match s.live.find (lineOf pa) with
  | some l => l.home
  | none => Fin.ofNat 64 (pa / 2 ^ 37 % 8 * 8)

/-- The SRAM bank of a unit that is a word, row or bank. The spec does not say how many banks a unit has: each has one here, of 8
spare rows, and so has the LPDDR of a die (DESIGN CHOICE, log entry 79). -/
def State.bankOf (s : State) : ErrUnit → Option ErrUnit
  | .memWord pa => some (if paUnbacked pa then .l2Line (s.memStack pa) 0 0 else .memWord (pa / 2 ^ 37 * 2 ^ 37))
  | .l2Line st _ _ => some (.l2Line st 0 0)
  | .scratchWord c _ => some (.scratchWord c 0)
  | .windowWord pa => some (.windowWord (pa / 2 ^ 36 * 2 ^ 36))
  | .planeBank c b => some (.planeBank c b)
  | .coreBank c => some (.coreBank c)
  | .register c _ _ _ _ => some (.register c .C false 0 0)
  | .tagWord c _ => some (.tagWord c 0)
  | .snapshot c _ => some (.snapshot c 0)
  | .l1Line c _ _ => some (.l1Line c 0 0)
  | .ccLine cl _ _ => some (.ccLine cl 0 0)
  | .tokenRecord st _ => some (.stackUnit st)
  | .coreLogic _ | .engine _ _ | .stackUnit _ => none

/-- The stack whose error log takes a unit's record. -/
def State.errStack (s : State) : ErrUnit → StackId
  | .memWord pa => s.memStack pa
  | .windowWord pa => winStack pa
  | .ccLine cl _ _ => stackOfCluster cl
  | .scratchWord c _ | .planeBank c _ | .coreBank c | .coreLogic c | .register c _ _ _ _ | .snapshot c _ | .l1Line c _ _ | .tagWord c _ =>
    stackOf c
  | .engine st _ | .tokenRecord st _ | .stackUnit st | .l2Line st _ _ => st

/-- A word of memory or of a window becomes poisoned. -/
def State.addPoison (s : State) (pa : Nat) : State :=
  let w := pa / 8 * 8
  if s.poison.contains w then s else { s with poison := s.poison ++ [w] }

/-- An error strikes a save of the task current on a core that is about to be suspended (R439). -/
def State.strikeSave (s : State) (c : CoreId) : State :=
  match s.task? c with
  | some t => if t.suspend then s.setCore c { s.core c with saveErrs := (s.core c).saveErrs + 1 } else s
  | none => s

/-- Cores whose tasks are being saved into a slot that holds a byte of memory: in area A, or redone in area B (R438, R439). -/
def State.savingInto (s : State) (pa : Nat) : List CoreId :=
  s.cores.filterMap (fun e => match e.2.live with
    | some t =>
      let x := s.ctx t.ctx
      let hit (k : Nat) : Bool := let a := x.slotPa (e.2.saveErrs != 0) k; decide (a ≤ pa) && decide (pa < a + slotSpan)
      if t.suspend && x.ok && (s.slotFor t.ctx).any hit then some (Fin.ofNat 1024 e.1) else none
    | none => none)

/-- The suspended tasks of the module with their cores. -/
def State.savedTasks (s : State) : List (CoreId × Task) :=
  s.stackTab.flatMap (fun x => x.2.teams.flatMap (fun m => m.2.susp.map (fun e => (coreOf (Fin.ofNat 64 x.1) e.1, e.2)))) ++
  s.cores.filterMap (fun e => match e.2.next with
    | some (.resume t _) => some (Fin.ofNat 1024 e.1, t)
    | _ => none)

/-- An uncorrectable error in LPDDR: it strikes a save that goes there, the word of a suspended task that a slot holds there, or the
word of memory alone. -/
def State.spoilMem (s : State) (pa : Nat) : State :=
  let s' := (s.savingInto pa).foldl (fun (s : State) c => s.strikeSave c) s
  (s.savedTasks.findSome? (fun e => match s.savedSlot e.2 with
    | some (base, _) => if base ≤ pa ∧ pa < base + slotSpan then s'.spoilSaved e.1 e.2 (pa - base) else none
    | none => none)).getD (s'.addPoison pa)

/-- A 64-bit word of a cached line becomes poisoned. -/
def Line.spoil (l : Line) (word : Nat) : Line := { l with bad := l.bad ||| BitVec.twoPow 16 word }

/-- What an uncorrectable error leaves: a poisoned word where it struck, which the next consumer meets (R440, R443). An error of a
core's bank that holds no word of a task strikes a save alone, and a token record is consumed at once, for the table itself reads it
(log entry 38). -/
def State.spoil (s : State) (u : ErrUnit) : State :=
  match u with
  | .memWord pa => s.spoilMem pa
  | .windowWord pa =>
    if winKind pa = 7 ∧ winOff pa < 0x40000 then s.soon (.tokenRecord (winStack pa) (Fin.ofNat 16384 (winOff pa / 16))) else s.addPoison pa
  | .scratchWord c w => s.addPoison (windowPa (stackOf c).val (coreInStack c) 0 (8 * w))
  | .register c sl opf i w => s.mapTask c (fun t => { t with bad := ((if opf then .opf sl i else .main sl i), w) :: t.bad })
  | .tagWord c w => s.mapTask c (fun t => { t with badTags := w :: t.badTags })
  | .snapshot c n => s.mapTask c (fun t => match t.flight[n]? with
    | some f => { t with flight := listSet t.flight n { f with bad := true } }
    | none => t)
  | .l1Line c line w =>
    s.setCore c { s.core c with l1 := (s.core c).l1.map (fun e => if e.1 = line then (e.1, e.2.spoil w) else e) }
  | .ccLine cl line w =>
    s.setCluster cl { s.cluster cl with cc := (s.cluster cl).cc.map (fun e => if e.1 = line then (e.1, e.2.spoil w) else e) }
  | .l2Line st line w =>
    s.setStack st { s.stack st with l2 := (s.stack st).l2.map (fun f =>
      if f.line = line then { f with bad := f.bad ||| BitVec.twoPow 16 w } else f) }
  | .planeBank c shadow =>
    let x := s.core c
    s.setCore c (if shadow then { x with shd := { x.shd with bad := x.shd.bad || x.shd.st != .empty } }
      else { x with act := { x.act with bad := x.act.bad || x.act.st != .empty } })
  | .coreBank c => s.strikeSave c
  | .tokenRecord st e => s.soon (.tokenRecord st e)
  | .coreLogic _ | .engine _ _ | .stackUnit _ => s

/-- SOFT_ERROR: what an uncorrectable error leaves, and the start of the unit's self-test; for one of core logic the current task is
suspended (R441). -/
def State.softError (s : State) (u : ErrUnit) (corrected : Bool) : State :=
  let s := { s with tests := s.tests ++ [(u, corrected)] }
  let s := match u with
    | .coreLogic c => s.mapTask c (fun t => if t.ended then t else { t with suspend := true })
    | _ => s
  if corrected then s else s.spoil u

def execSoftError (u : ErrUnit) (corrected : Bool) (s : State) : Host.Outcome State Fault Refusal :=
  .next (s.softError u corrected)

/-- Spare rows used of a bank. -/
def State.sparesUsed (s : State) (u : ErrUnit) : Nat :=
  match s.spares.find? (fun e => e.1 == u) with
  | some e => e.2
  | none => 0

/-- The unit that holds a failing bank, or a failing unit itself, is fenced: a core, an engine, or for anything else of a stack the
stack. The LPDDR of a memory die has no fence: record 0x22 alone is written (log entry 79). -/
def State.fenceUnit (s : State) (u : ErrUnit) : State :=
  match u with
  | .memWord pa => if paUnbacked pa then s.fenceStack (s.memStack pa) u else s.logSoft (s.memStack pa) 0x22 u
  | .windowWord pa => if winIsCore pa then s.fenceCore (winCoreId pa) u else s.fenceStack (winStack pa) u
  | .scratchWord c _ | .planeBank c _ | .coreBank c | .coreLogic c | .register c _ _ _ _ | .snapshot c _ | .l1Line c _ _ | .tagWord c _ =>
    s.fenceCore c u
  | .engine st e => s.fenceEngine st e
  | .tokenRecord st _ | .stackUnit st | .l2Line st _ _ => s.fenceStack st u
  | .ccLine cl _ _ => s.fenceStack (stackOfCluster cl) u

/-- The self-test under way on a unit, and whether it follows a corrected error. In stage 3 of bring-up every unit is in the test of
its stack, which follows none (R489). -/
def State.testOf (s : State) (u : ErrUnit) : Option Bool :=
  match s.tests.find? (fun e => e.1 == u) with
  | some (_, corrected) => some corrected
  | none => if s.stage = 3 then some false else none

/-- SELF_TEST_DONE: a passing test was of a transient error; a failing row is spared while the bank has spare rows. -/
def State.selfTestDone (s : State) (u : ErrUnit) (passed : Bool) : State :=
  match s.testOf u with
  | none => s
  | some corrected =>
    let st := s.errStack u
    let s := { s with tests := s.tests.erase (u, corrected) }
    if passed then (if corrected then s.logSoft st 0x20 u else s)
    else match s.bankOf u with
      | none => s.fenceUnit u
      | some b =>
        let n := s.sparesUsed b
        if 8 ≤ n then s.fenceUnit u
        else
          let s := { s with spares := (b, n + 1) :: s.spares.filter (fun e => e.1 != b), spared := s.spared + 1 }
          if corrected then s.logSoft st 0x21 u else s

def execSelfTestDone (u : ErrUnit) (passed : Bool) (s : State) : Host.Outcome State Fault Refusal :=
  .next (s.selfTestDone u passed)

/-! ## Team replay (R444 to R447) -/

/-- Whether a team's interval absorbs an error: protected, and not replayed twice (R443, R447). -/
def State.canReplay (s : State) (st : StackId) (m : Nat) : Bool :=
  match (s.stack st).teams.find m with
  | some tm => match tm.cp with
    | some cp => cp.prot && decide (cp.replays < 2)
    | none => false
  | none => false

/-- The state after a meaning that always goes on. -/
def State.after (s : State) (o : Host.Outcome State Fault Refusal) : State :=
  match o with
  | .next s' => s'
  | _ => s

/-- One round in which every operation of a stack that can go on does: acceptance, start, follow-on, completion. -/
def State.pushOps (s : State) (st : StackId) : State :=
  let s := (List.range s.copyRequests.length).foldl (fun (s : State) _ => s.after (execCopyAccept 0 s)) s
  let s := (List.range (s.stack st).ops.length).foldl (fun (s : State) n =>
    let s := s.after (execCopyStart st 0 n s)
    s.after (execCopyStart st 1 n s)) s
  (List.range (s.stack st).ops.length).reverse.foldl (fun (s : State) n =>
    let s := s.after (execFollowOnCommit st n s)
    s.after (execCopyComplete st n s)) s

/-- The operations of a stack run to completion. -/
def State.finishOps (s : State) (st : StackId) : Nat → State
  | 0 => s
  | k + 1 => (s.pushOps st).finishOps st k

/-- Changes every task of a team, by core-in-stack number. -/
def State.mapTeam (s : State) (st : StackId) (m : Nat) (f : Nat → Task → Task) : State :=
  let s := (List.range 16).foldl (fun (s : State) k =>
    let c := coreOf st k
    let x := s.core c
    let g (t : Task) : Task := if t.team = m then f k t else t
    s.setCore c { x with live := x.live.map g, next := x.next.map (Asg.mapTask g) }) s
  match (s.stack st).teams.find m with
  | some tm => s.setTeam st m { tm with susp := tm.susp.map (fun e => (e.1, f e.1 e.2)) }
  | none => s

/-- Poison goes back with a pre-image of 128 bytes at a physical address (R443). -/
def State.markUnit (s : State) (pa : Nat) (bad : BitVec 16) : State :=
  (List.range 16).foldl (fun (s : State) i => if bad.getLsbD i then s.addPoison (pa + 8 * i) else s) s

/-- The same for a line of memory: the copy that an L2 holds carries it too. -/
def State.markHome (s : State) (pa : Nat) (bad : BitVec 16) : State :=
  let s := s.markUnit pa bad
  { s with stackTab := s.stackTab.map (fun e => (e.1, { e.2 with l2 := e.2.l2.map (fun f =>
      if f.line = lineOf pa then { f with bad := f.bad ||| bad } else f) })) }

/-- A window address of a team's task on a core: a plain one while the task is current there, else one of its own. -/
def State.teamPa (s : State) (c : CoreId) (m kind o : Nat) : Nat :=
  let a := windowPa (stackOf c).val (coreInStack c) kind o
  if (s.task? c).any (fun t => t.team == m) then a else a + parkShift m

/-- A pre-image is written back to its unit with its poison, and every cached copy goes. -/
def State.restoreUnit (s : State) (st : StackId) (m : Nat) (ctx : CtxId) (p : PreImage) : State :=
  let b := (natBytes 128 p.data.toNat).map some
  match p.unit with
  | .line pa =>
    let line := lineOf pa
    let s := s.dropEverywhere line
    if !p.live then s.freeLine line
    else
      let s := if paUnbacked pa && (s.live.find line).isNone then
          match s.ownerIn ctx pa with
          | some l => s.makeLive line l
          | none => s
        else s
      (s.putPhys pa b).markHome pa p.bad
  | .scratch c o =>
    let pa := s.teamPa c m 0 o
    ((s.mapTeam st m (fun k t => if k = coreInStack c then t.setScrBytes o b else t)).unpoison pa b).markUnit pa p.bad
  | .column c o =>
    let pa := s.teamPa c m 4 o
    ((s.mapTeam st m (fun k t => if k = coreInStack c then t.setColBytes o b else t)).unpoison pa b).markUnit pa p.bad

/-- The operations of a task at its cut, with what those issued before it have done since. -/
def mergeOps (cut now : Tab TaskOp) : Tab TaskOp :=
  cut.map (fun e => match now.find e.1 with
    | some p => if p.done && !e.2.done then (e.1, { e.2 with done := true, bytes := p.bytes, slot := p.slot })
      else (e.1, { e.2 with slot := p.slot })
    | none => e)

/-- The buffers of a task at its cut, with the slots that operations issued before it have claimed and filled since. -/
def mergeCbs (cbs : Tab CircBuf) (cut now : Tab TaskOp) : Tab CircBuf :=
  cut.foldl (fun (cbs : Tab CircBuf) e => match now.find e.1, e.2.cb with
    | some p, some b => match cbs.find b, p.slot with
      | some x, some k =>
        let x := if e.2.slot.isNone then
            { x with free := x.free - 1, wr := (x.wr + 1) % x.count, claim := x.claim ++ [(k, false)], queued := x.queued - 1 }
          else x
        cbs.set b (if p.done && !e.2.done then x.fill k else x)
      | _, _ => cbs
    | _, _ => cbs) cbs

/-- A task at its cut again. Its scratchpad and column store have had their pre-images written back; an event that its task has
taken since stays taken. -/
def Task.rewind (cut now : Task) : Task :=
  { cut with
    scratch := now.scratch
    col := now.col
    ops := mergeOps cut.ops now.ops
    cbs := mergeCbs cut.cbs cut.ops now.ops
    event := if cut.event.isSome then now.event else none
    suspend := cut.event.isSome && now.suspend || now.pre
    pre := now.pre
    saveSlot := now.saveSlot
    areaB := now.areaB }

/-- A task that had not started at the cut, as it starts. -/
def Task.afresh (l : Launch) (t : Task) : Task :=
  { startTask t.ctx t.launch l t.coord t.rank t.team with
    suspend := t.pre, pre := t.pre, saveSlot := t.saveSlot, areaB := t.areaB }

/-- Completion words that operations issued before the cut have stored since are stored again. -/
def State.againStores (s : State) (st : StackId) (cp : Checkpoint) (now : Tab Task) : List FeAcc :=
  cp.tasks.flatMap (fun e => match now.find e.1 with
    | some t => t.ops.filterMap (fun o => match e.2.ops.find o.1 with
      | some p =>
        if o.2.done && !p.done && o.2.cw != 0 && o.2.stored then
          some ⟨.stf, coreOf st e.1, t.ctx, t.launch, t.coord, 0, o.2.cw, 1, false, BitVec.ofNat 1024 (s.windowRead o.2.cw 4), .dv,
            false, some o.1, cp.seq⟩
        else none
      | none => none)
    | none => [])

/-- The team's token records at the cut take the place of its present ones; LOST regions stay LOST. -/
def State.restoreToks (s : State) (tm : Team) (cp : Checkpoint) : State :=
  let s := { s with
    stackTab := s.stackTab.map (fun e => (e.1, { e.2 with
      toks := e.2.toks.filter (fun r => !(s.agentOfTeam tm r.2.holder) || r.2.st == .lost) }))
    toks := s.toks.filter (fun m => match m with
      | .need _ r _ _ _ => !(s.agentOfTeam tm r.holder)
      | m => !s.ofTeam tm m.src.launch m.src.coord) }
  cp.toks.foldl (fun (s : State) p =>
    let st : StackId := Fin.ofNat 64 p.1
    let x := s.stack st
    let r := { p.2.2 with arr := true }
    if x.toks.any (fun e => e.2.isFor r.base r.size && e.2.st == .lost) then s
    else if p.2.1 < 16384 ∧ (x.toks.find p.2.1).isNone = true then s.setStack st (x.setTok p.2.1 r)
    else match x.placeFor r with
      | some k => s.setStack st (x.setTok k r)
      | none => { s with toks := s.toks ++ [.need st r r.holder.src 2 0] }) s

/-- The sync objects of a team's rounds and held arrivals at the cut take the place of its present ones; a round that finds none is
on its way again (R408). -/
def State.restoreObjs (s : State) (st : StackId) (m : Nat) (tm : Team) (cp : Checkpoint) : State :=
  let x := (s.stack st).dropObjs (fun u => match u with
    | .round _ n co _ => s.ofTeam tm n co
    | .held k _ _ => k == m
    | .phase _ _ => false)
  let x := cp.early.foldl (fun (x : StackS) e => (x.holdObj none 0 m e.1).getD x) x
  let (x, rs) := cp.rounds.foldl (fun (a : StackS × List RoundMsg) r =>
    if !r.received || r.applied then (a.1, a.2 ++ [r])
    else match a.1.takeObj r.core 2 r.use with
      | some x => (x, a.2 ++ [r])
      | none => (a.1, a.2 ++ [{ r with received := false }])) (x, [])
  { s.setStack st x with rounds := s.rounds.filter (fun r => !s.ofTeam tm r.launch r.coord) ++ rs }

/-- The instances that were full and whose rounds had all been applied at the cut complete (R398 step 3). -/
def State.completeFull (s : State) (st : StackId) (m : Nat) (cp : Checkpoint) : State :=
  cp.phases.foldl (fun (s : State) e =>
    if e.2.p ≠ 0 ∧ e.2.p ≤ e.2.arv ∧ (cp.rounds.all (fun r => !r.boundTo st m e.1 (e.2.inst + 1) || r.applied)) = true then
      s.completeInstance st m e.1
    else s) s

/-- Operations issued before the cut whose follow-on command is to be committed again, as they are now (R288, R444). -/
def State.refollow (s : State) (st : StackId) (cp : Checkpoint) : State :=
  cp.follow.foldl (fun (s : State) o =>
    let x := s.stack st
    let same (p : CopyOp) : Bool := p.ofTask o.launch o.coord && p.handle == o.handle
    if x.ops.any same then
      s.setStack st { x with ops := x.ops.map (fun p => if same p then { p with committed := false } else p) }
    else s.setStack st { x with ops := x.ops ++ [{ o with eng := none, ran := true, committed := false }] }) s

/-- The tasks of a team as they are now, but with the operations done again of which `refollow` commits the command once more. -/
def undone (cp : Checkpoint) (now : Tab Task) : Tab Task :=
  now.map (fun e => (e.1, { e.2 with ops := e.2.ops.map (fun o =>
    if cp.follow.any (fun p => p.ofTask e.2.launch e.2.coord && p.handle == o.1) then (o.1, { o.2 with done := false }) else o) }))

/-- A TEAM REPLAYS from its checkpoint. Record 0x23 is written. -/
def State.replay (s : State) (st : StackId) (m : Nat) : State :=
  let cores := (s.teamAll st m).map (fun e => coreOf st e.1)
  let s := cores.foldl (fun (s : State) c => s.releaseData c .dv) s
  let s := s.finishOps st (2 * ((s.stack st).ops.length + (s.stack st).requests.length))
  match (s.stack st).teams.find m with
  | none => s
  | some tm => match tm.cp with
    | none => s
    | some cp =>
      let now := undone cp (s.teamAll st m)
      let again := s.againStores st cp now
      let ours (n : Nat) (co : BitVec 48) : Bool := s.ofTeam tm n co
      let x := s.stack st
      let left (o : CopyOp) : Bool := !(ours o.launch o.coord && s.opNew o)
      let fes := s.fes.filter (fun a => !ours a.launch a.coord || (match a.handle with
          | some h => cp.tasks.any (fun e => e.2.coord == a.coord && decide (h < e.2.handles)) && !cp.fes.contains a
          | none => false))
      let s := { s.setStack st { x with ops := x.ops.filter left, requests := x.requests.filter left } with
        fes := fes ++ cp.fes ++ again
        arrs := s.arrs.filter (fun a => !ours a.launch a.coord) ++ cp.arrs }
      let s := cp.pre.foldl (fun (s : State) p => s.restoreUnit st m tm.ctx p) s
      let s := ((s.restoreToks tm cp).restoreObjs st m tm cp).refollow st cp
      let s := s.mapTeam st m (fun k t => match cp.tasks.find k, now.find k, s.launch? tm.launch with
        | some cut, some u, _ => cut.rewind { t with ops := u.ops }
        | some cut, none, _ => cut.rewind t
        | none, _, some l => t.afresh l
        | none, _, none => t)
      let s := match (s.stack st).teams.find m with
        | some tm => s.setTeam st m { tm with
            phases := cp.phases, early := cp.early, cp := some { cp with pre := [], replays := cp.replays + 1 } }
        | none => s
      let s := s.completeFull st m cp
      s.logSoft st 0x23 (.stackUnit st)

/-- TEAM_REPLAY. -/
def execTeamReplay (st : StackId) (team : Nat) (s : State) : Host.Outcome State Fault Refusal :=
  .next (if s.canReplay st team then s.replay st team else s)

/-! ## Poison consumed (R443) -/

/-- Whether a team's interval is protected. -/
def State.intervalProt (s : State) (st : StackId) (m : Nat) : Bool :=
  (s.stack st).teams.any (fun e => e.1 == m && e.2.cp.any (fun cp => cp.prot))

/-- Code of an error that a team does not absorb: 0x0C of a third one in a protected interval, whatever met it (R443, R447). -/
def State.poisonCode (s : State) (st : StackId) (m : Nat) (errorCompletion : Bool) : Nat :=
  if errorCompletion && !s.intervalProt st m then errCompletion else errUncorrectable

/-- The poisoned clean copies of a line: in L1s, cluster caches and L2s. -/
def State.spoiltCopies (s : State) (line : Nat) : List ErrUnit :=
  s.cores.flatMap (fun e => (e.2.l1.filter (fun l => l.1 == line && l.2.spoilt)).map (fun l =>
    .l1Line (Fin.ofNat 1024 e.1) line (badWord l.2.bad))) ++
  s.clusters.flatMap (fun e => (e.2.cc.filter (fun l => l.1 == line && l.2.spoilt)).map (fun l =>
    .ccLine (Fin.ofNat 256 e.1) line (badWord l.2.bad))) ++
  s.stackTab.flatMap (fun e => (e.2.l2.filter (fun l => l.line == line && !l.dirty && l.bad != 0#16)).map (fun l =>
    .l2Line (Fin.ofNat 64 e.1) line (badWord l.bad)))

/-- The clean copies of a line leave every cache; one that is pinned in a storage part is fetched again at once. Each error so
absorbed has its record (R442, R443). -/
def State.dropClean (s : State) (pa : Nat) : State :=
  let line := lineOf pa
  let gone (e : Nat × Line) : Bool := e.1 == line && e.2.dirty == 0#128
  let units := s.spoiltCopies line
  let s := { s with
    cores := s.cores.map (fun (e : Nat × CoreS) => (e.1, { e.2 with l1 := e.2.l1.filter (fun l => !gone l) }))
    clusters := s.clusters.map (fun (e : Nat × ClusterS) => (e.1, { e.2 with cc := e.2.cc.filter (fun l => !gone l) }))
    stackTab := s.stackTab.map (fun (e : Nat × StackS) => (e.1, { e.2 with
      l2 := (e.2.l2.filter (fun l => !(l.line == line && !l.dirty && !l.pin))).map (fun l =>
        if l.line = line ∧ l.dirty = false then { l with data := Memory.line s.mem line, bad := s.memBad line } else l) })) }
  units.foldl (fun (s : State) u => s.logSoft (s.errStack u) 0x23 u) s

/-- An access of a task of a core, current or suspended, of an address where it has one, has met poison or an error completion (R427,
R443). -/
def State.taskPoison (s : State) (c : CoreId) (t : Task) (ec : Bool) (va detail : Word) : State :=
  let st := stackOf c
  let code := s.poisonCode st t.team ec
  if s.canReplay st t.team then s.replay st t.team
  else if s.onCore c t.launch t.coord then (s.logSoft st 0x24 (.coreBank c)).raiseFatal c t code (slotIx .M) 0#64 va detail
  else ((s.logSoft st 0x24 (.coreBank c)).fatalFor c t.ctx t.launch t.coord (t.fpos.setWidth 32) code (slotIx .M) (agentId (t.agent c)) va
    detail).mapTaskOf t.launch t.coord (fun t => { t with failed := true })

/-- A load of the task on a core. -/
def State.loadPoison (s : State) (c : CoreId) (ec : Bool) (va detail : Word) : State :=
  match s.task? c with
  | none => s
  | some t => s.taskPoison c t ec va detail

/-- The virtual address at which an operation reaches a physical one; 0 where none of its mappings holds it. -/
def CopyOp.vaOf (o : CopyOp) (pa : Nat) : Word :=
  match (o.src ++ o.dst).find? (fun m => decide (m.base ≤ pa) && decide (pa < m.base + m.len)) with
  | some m => BitVec.ofNat 64 (m.vbase + (pa - m.base))
  | none => 0#64

/-- An operation has met poison or an error completion, at an address: it fails, and its task's team replays where its interval is
protected (R427, R443). -/
def State.copyPoison (s : State) (st : StackId) (n : Nat) (ec : Bool) (pa : Nat) : State :=
  match (s.stack st).ops[n]? with
  | none => s
  | some o =>
    let ag : Agent := .engine o.core o.ctx o.launch o.coord o.handle
    let failed := s.mapOp st n (fun o => { o with failed := true })
    let home := stackOf o.core
    if s.canReplay home o.team then failed.replay home o.team
    else (failed.logSoft home 0x24 (.stackUnit home)).fatalFor o.core o.ctx o.launch o.coord o.fpos (s.poisonCode home o.team ec) slotEngine (agentId ag)
      (o.vaOf pa) (BitVec.ofNat 64 pa)

/-- The remote page of `cpyx` number `n` of a stack fails its translation or rights as the first write reaches it: the operation,
which an engine runs, fails, and its context ends with a translation failure (R290, R292). -/
def State.remoteFault (s : State) (st : StackId) (n : Nat) : State :=
  match (s.stack st).ops[n]? with
  | none => s
  | some o =>
    if o.kind != .remote || o.failed || o.eng.isNone || o.desc.rlen * o.desc.rows == 0 then s
    else
      (s.mapOp st n (fun o => { o with failed := true })).fatalFor o.core o.ctx o.launch o.coord o.fpos errTranslation slotEngine
        (agentId (.engine o.core o.ctx o.launch o.coord o.handle)) o.desc.dst 0#64

/-- The active plane's bundles are read again from the immutable image, and the fetch is retried; record 0x23 says so (R442, R443). A
second failure, where the image itself is poisoned, fences the core. -/
def State.reloadPlane (s : State) (c : CoreId) : State :=
  let x := s.core c
  match x.act.tag with
  | none => s
  | some tag => match s.taggedImage tag with
    | none => s
    | some i =>
      let va := i.va + BitVec.ofNat 64 i.dictOff
      let n := 48 * i.dictCnt
      if s.virtPoisoned tag.ctx (n / 4096 + 2) va n then s.soon (.fetch c true)
      else match s.readBytes tag.ctx va n with
        | some b => (s.setCore c { x with act := { x.act with dict := dictOf i.dictCnt b, retry := false, bad := false } }).logSoft
            (stackOf c) 0x23 (.planeBank c false)
        | none => s

/-- POISON_CONSUMED. -/
def State.poisonConsumed (s : State) : PoisonUse → State
  | .cleanCopy pa => s.dropClean pa
  | .load c ec => s.loadPoison c ec 0#64 0#64
  | .loadAt c ec va pa => s.loadPoison c ec va (BitVec.ofNat 64 pa)
  | .copy st n ec => s.copyPoison st n ec 0
  | .copyAt st n ec pa => s.copyPoison st n ec pa
  | .loader c second =>
    if second then s.fenceCore c (.planeBank c true)
    else
      let x := s.core c
      (s.setCore c { x with shd := { x.shd with st := .loading, dict := [], retry := true, bad := false } }).logSoft (stackOf c) 0x23
        (.planeBank c true)
  | .fetch c second => if second then s.fenceCore c (.planeBank c false) else s.reloadPlane c
  | .dirtyLine pa => s.addPoison pa
  | .absorbed u => s.logSoft (s.errStack u) 0x23 u
  | .loadOf c launch coord ec => match s.taskOf launch coord with
    | some t => s.taskPoison c t ec 0#64 0#64
    | none => s
  | .tokenRecord st e => match (s.stack st).toks.find e.val with
    | some r => (s.loseRegion st r.base r.size).logSoft st 0x27 (.tokenRecord st e)
    | none => s

def execPoisonConsumed (p : PoisonUse) (s : State) : Host.Outcome State Fault Refusal := .next (s.poisonConsumed p)

/-! ## Stack reset (R449 to R451) -/

/-- The frame of the STPARK area. -/
def StackS.parkBase (x : StackS) : Nat := x.stpark.toNat / 2 ^ 12 % 2 ^ 40 * 2 ^ 12

/-- Writes the token records to the STPARK area, record e at 16·e. -/
def State.parkToks (s : State) (st : StackId) : State :=
  let x := s.stack st
  x.toks.foldl (fun (s : State) e =>
    (s.putPhysNum (x.parkBase + 16 * e.1) 8 (tokWord0 e.2).toNat).putPhysNum (x.parkBase + 16 * e.1 + 8) 8
      (tokWord1 e.2 (x.shownHolder e.2)).toNat) s

/-- The state that a code stands for (R366). -/
def tokStOf (n : Nat) : TokSt := if n = 0 then .excl else if n = 1 then .shared else if n = 2 then .lent else .lost

/-- The agent that an identifier names among the holders of the module's records, else a stack or a module. -/
def State.agentOfId (s : State) (id : Nat) (r : TokRec) : Agent :=
  match (s.stackTab.flatMap (fun e => e.2.toks.map (fun d => d.2.holder))).find? (fun a => (agentId a).toNat == id) with
  | some a => a
  | none => if id / 2 ^ 30 = 2 then .stack (Fin.ofNat 64 id) else if id / 2 ^ 30 = 3 then .remote (Fin.ofNat 4096 id) else r.holder

/-- The record that two words of the STPARK area hold in the place of record `r` (R366). -/
def State.decodeTok (s : State) (r : TokRec) (w0 w1 : Nat) : TokRec :=
  { r with
    base := if winPlain r.base / 256 = w0 / 2 ^ 20 then r.base else w0 / 2 ^ 20 * 256
    size := w0 / 2 ^ 15 % 32
    depth := w0 / 2 ^ 12 % 8
    st := tokStOf (w0 / 2 ^ 10 % 4)
    sc := ([r.sc, .co, .cl, .st, .dv, .sy].find? (fun c => scopeRank c == w0 / 2 ^ 7 % 8)).getD .dflt
    sh := w0.testBit 6
    at_ := w0.testBit 5
    nsh := w1 / 2 ^ 48
    nat := w1 / 2 ^ 32 % 65536
    holder := s.agentOfId (w1 % 2 ^ 32) r }

/-- Record `e` comes back from the STPARK area, as it stands there: a poisoned one loses its region, with record 0x27, and one whose
V is 0 is gone (R384, R443, R450). A region that has become LOST meanwhile stays so. -/
def State.unparkTok (s : State) (st : StackId) (e : Nat) (r : TokRec) : State :=
  let x := s.stack st
  let a := x.parkBase + 16 * e
  let w0 := (Memory.word s.view a).toNat
  let w1 := (Memory.word s.view (a + 8)).toNat
  if r.st = .lost then s
  else if s.homePoisoned st a 16 then s.soon (.tokenRecord st (Fin.ofNat 16384 e))
  else if !w0.testBit 0 then s.setStack st (x.dropTok e)
  else if w0 = (tokWord0 r).toNat ∧ w1 = (tokWord1 r (x.shownHolder r)).toNat then s
  else s.setStack st (x.setTok e (s.decodeTok r w0 w1))

/-- Step 5 of R450: the slice is restored from the STPARK area. A record that a request which waited for the end has freed meanwhile
stays free, for the request then proceeds. -/
def State.unparkToks (s : State) (st : StackId) : State :=
  (s.stack st).toks.foldl (fun (s : State) e => s.unparkTok st e.1 e.2) s

/-- Whether a token message is on its way to the slice of a stack. -/
def TokMsg.toward (st : StackId) : TokMsg → Bool
  | .need _ _ _ _ _ => false
  | m => m.home == st

/-- Whether no sync message is on its way to a stack: `amo` forms to its lines, token messages to its slice, arrivals to its teams and
rounds to its sync unit (R27, R450 step 4). What waits there for room is not on its way. -/
def State.drained (s : State) (st : StackId) : Bool :=
  !(s.amos.any (fun a => a.home == st) || s.toks.any (fun m => m.toward st) ||
    s.arrs.any (fun a => a.naks == 0 && (s.findTeam a.launch a.target).any (fun p => p.1 == st)) ||
    s.rounds.any (fun r => !r.received && r.naks == 0 && r.st == st))

/-- The place in its stack's queue of the operation of a task with a handle. -/
def State.opIndex (s : State) (core : CoreId) (launch : Nat) (coord : BitVec 48) (h : Nat) : Option Nat :=
  (s.stack (stackOf core)).ops.findIdx? (fun o => o.ofTask launch coord && o.handle == h)

/-- A request is answered with an error completion: that of an operation, else of a task (R443, R450). -/
def State.refuseRequest (s : State) (core : CoreId) (launch : Nat) (coord : BitVec 48) (handle : Option Nat) : State :=
  match handle.bind (s.opIndex core launch coord) with
  | some n => (s.mapOp (stackOf core) n (fun o => { o with failed := true })).soon (.copyAt (stackOf core) n true 0)
  | none => s.soon (.loadOf core launch coord true)

/-- Whether an operation that an engine runs has requests toward a stack outstanding. -/
def CopyOp.runsAt (o : CopyOp) (st : StackId) : Bool :=
  o.eng.isSome && !o.ran && !o.failed && (o.src ++ o.dst).any (fun m => m.home == st)

/-- STEP 3 OF R450: every other socket fences its link toward a stack; the requests that it holds toward the stack, and those that the
stack holds, are answered with error completions: writes, full/empty accesses, and the copies that run. -/
def State.fenceLinks (s : State) (st : StackId) : State :=
  let ws := s.pwrites.filter (fun w => w.tag.home == st && stackOf w.tag.core != st)
  let fs := s.fes.filter (fun a => paWindow a.pa && winStack a.pa == st && (a.waiting || stackOf a.core != st))
  let os := s.stackTab.flatMap (fun e => if e.1 = st.val then [] else e.2.ops.filter (fun o => o.runsAt st))
  let s := { s.setStack st { s.stack st with linkFen := true } with
    pwrites := s.pwrites.filter (fun w => !ws.contains w)
    fes := s.fes.filter (fun a => !fs.contains a) }
  let s := ws.foldl (fun (s : State) w => s.refuseRequest w.tag.core w.tag.launch w.tag.coord w.tag.handle) s
  let s := fs.foldl (fun (s : State) a => s.refuseRequest a.core a.launch a.coord a.handle) s
  os.foldl (fun (s : State) o => s.refuseRequest o.core o.launch o.coord (some o.handle)) s

/-- Whether a stack has come to rest for its reset: no task current, no page waiting to be backed, no migration into or out of it, no
operation of its engines that may go on, and no sync message on its way to it (R450). -/
def State.quiet (s : State) (st : StackId) : Bool :=
  (List.range 16).all (fun k => (s.task? (coreOf st k)).isNone) && (s.stack st).spills.isEmpty &&
    s.stackTab.all (fun e => (e.2.ops ++ e.2.requests).all (fun o => o.kind != .mig || o.failed)) &&
    (s.stack st).ops.all (fun o => o.failed || (o.desc.cb.isSome && o.slot.isNone)) && s.drained st

/-- Every unbacked page that a stack homes is backed, or waits for a frame. -/
def State.backHomed (s : State) (st : StackId) : State :=
  (s.ctxs.filter (fun e => e.2.valid)).foldl (fun (s : State) e =>
    let ctx : CtxId := Fin.ofNat 4096 e.1
    let ls := (s.unbackedPages st ctx).filter (fun l => !(s.stack st).spills.any (fun p => p.leafPa == l))
    s.backAll st ctx ls) s

/-- The caches of a stack's cores and clusters are cleared, and its TLBs. -/
def State.clearCaches (s : State) (st : StackId) : State :=
  let s := (List.range 16).foldl (fun (s : State) k =>
    let c := coreOf st k
    s.setCore c { s.core c with l1 := [], tlb := [], tokc := [] }) s
  let s := (List.range 4).foldl (fun (s : State) k =>
    let cl : ClusterId := Fin.ofNat 256 (4 * st.val + k)
    s.setCluster cl { s.cluster cl with cc := [] }) s
  s.setStack st { s.stack st with tlb := [], l2 := [] }

/-- They are written back first, every dirty line of the L2 to LPDDR among them (R450 steps 2 and 5). -/
def State.emptyCaches (s : State) (st : StackId) : State :=
  let s := (List.range 16).foldl (fun (s : State) k => ((s.flushL1 (coreOf st k)).flushCC (coreOf st k))) s
  let s := s.drain (fun w => stackOf w.tag.core == st)
  let s := ((s.stack st).l2.map L2Line.line).foldl (fun (s : State) l => s.evictL2 st l) s
  s.clearCaches st

/-- Steps 2 to 5 of a reset with quiesce, once its tasks are suspended and its pages backed: the links toward it are fenced, its
caches are written back and cleared, and its records go to the STPARK area. -/
def State.resetGoesOn (s : State) (st : StackId) : State :=
  let x := s.stack st
  if !x.rstBusy || !x.rstQui || x.qdone then s
  else if !(List.range 16).all (fun k => (s.task? (coreOf st k)).isNone) then s
  else
    let s := s.backHomed st
    if !s.quiet st then s
    else
      let s := ((s.fenceLinks st).emptyCaches st).parkToks st
      s.setStack st { s.stack st with qdone := true }

/-- Teams of a stack none of whose tasks has become current: assigned only (R105). -/
def State.assignedOnly (s : State) (st : StackId) : List Nat :=
  ((s.stack st).teams.filter (fun m => m.2.susp.isEmpty && m.2.left == m.2.size && (List.range 16).all (fun k =>
    !(s.task? (coreOf st k)).any (fun t => t.team == m.1) && (match (s.core (coreOf st k)).next with
      | some (.resume t _) => t.team != m.1
      | _ => true)))).map Prod.fst

/-- The context of a task in a next slot ends, where its team is one of those named; else the task is suspended as it stands. -/
def State.clearNext (s : State) (st : StackId) (lost : List Nat) (k : Nat) : State :=
  let c := coreOf st k
  let off (s : State) : State := s.setCore c { s.core c with next := none }
  match (s.core c).next with
  | some (.new ctx n coord rank m _) =>
    if lost.contains m then s.endTasks c errCompletion [(ctx, n, coord)]
    else match s.launch? n with
      | some l =>
        let (s, t) := s.saveTask (startTask ctx n l coord rank m) false
        off (s.park c { t with suspend := true })
      | none => s
  | some (.resume t _) => off (s.park c { t with suspend := true })
  | none => s

/-- STACK_RESET_QUIESCE: the reset starts; every task is to be suspended, and a team that is assigned but not yet current ends with
its context (R105). -/
def State.resetQuiesce (s : State) (st : StackId) (fen : Bool) : State :=
  let x := s.stack st
  if x.rstBusy then s
  else
    let s := s.setStack st { x with rstBusy := true, qui := true, fen := fen, rstQui := true, rstFen := fen, qdone := false }
    let lost := s.assignedOnly st
    let s := (List.range 16).foldl (fun (s : State) k => s.clearNext st lost k) s
    let s := (List.range 16).foldl (fun (s : State) k =>
      s.mapTask (coreOf st k) (fun t => if t.ended then t else { t with suspend := true })) s
    s.resetGoesOn st

def execStackResetQuiesce (st : StackId) (fen : Bool) (s : State) : Host.Outcome State Fault Refusal :=
  .next (s.resetQuiesce st fen)

/-- STACK_RESET_NO_QUIESCE: the stack's LIVE lines and tokens are lost, and the contexts of tasks current on it, or assigned to it,
end with code 0x0D. -/
def State.resetNoQuiesce (s : State) (st : StackId) (fen : Bool) : State :=
  let x := s.stack st
  if x.rstBusy then s
  else
    let s := s.setStack st { x with rstBusy := true, qui := false, fen := fen, rstQui := false, rstFen := fen, qdone := false }
    ((s.loseStack st).endStackTasks st errCompletion true).clearCaches st

def execStackResetNoQuiesce (st : StackId) (fen : Bool) (s : State) : Host.Outcome State Fault Refusal :=
  .next (s.resetNoQuiesce st fen)

/-- STACK_RESET_DONE: the token records come back from the STPARK area, the links are unfenced, record 0x26 is written, and with FEN
= 1 the stack stays fenced, its suspended tasks' contexts ending (log entry 37). -/
def State.resetDone (s : State) (st : StackId) : State :=
  let s := s.resetGoesOn st
  let x := s.stack st
  if !x.rstBusy || (x.rstQui && !x.qdone) then s
  else
    let s := if x.rstQui then s.unparkToks st else s
    let s := s.setStack st { s.stack st with rstBusy := false, qdone := x.rstQui, linkFen := false }
    let s := s.logSoft st 0x26 (.stackUnit st)
    if x.rstFen then s.fenceStack st (.stackUnit st) else s

def execStackResetDone (st : StackId) (s : State) : Host.Outcome State Fault Refusal := .next (s.resetDone st)

/-- A write of STRST (R449). With GO = 1 during a reset it is ignored, which the spec leaves open (DESIGN CHOICE, log entry 77); with
GO = 0 it always sets QUI and FEN, and a reset in progress goes on as it began. -/
def State.strstWrite (s : State) (st : StackId) (v : Word) : State :=
  let x := s.stack st
  let qui := v.getLsbD 62
  let fen := v.getLsbD 61
  if !v.getLsbD 63 then s.setStack st { x with qui := qui, fen := fen }
  else if x.rstBusy then s
  else if qui then s.resetQuiesce st fen
  else s.resetNoQuiesce st fen

end Sys2Proof.Machine
end

