-- ==== Sys2Proof/Machine/Outside.lean ====
section
/-! DEFINITION. The surroundings of the module: cluster power states, contexts, the management core and its watchdog, attestation,
links and other modules, bring-up, and register writes by offset (R4, R26 to R28, R60, R336, R425, R471 to R491). -/

namespace Sys2Proof.Machine

/-! ## Cluster power states (R480 to R483) -/

/-- CLUSTER_QUIESCE_REQUEST. -/
def State.quiesceRequest (s : State) (cl : ClusterId) (req : Bool) : State := s.setCluster cl { s.cluster cl with req := req }

def execClusterQuiesceRequest (cl : ClusterId) (req : Bool) (s : State) : Host.Outcome State Fault Refusal :=
  .next (s.quiesceRequest cl req)

/-- The dirty lines of a cluster cache go home, and the SRAMs of the cluster are switched off: no valid line, every plane EMPTY
(R482). -/
def State.switchOff (s : State) (cl : ClusterId) : State :=
  let s := (List.range 4).foldl (fun (s : State) k => (s.flushL1 (clusterCore cl k)).flushCC (clusterCore cl k)) s
  let s := s.drain (fun w => clusterOf w.tag.core == cl)
  let s := s.setCluster cl { s.cluster cl with cc := [] }
  (List.range 4).foldl (fun (s : State) k =>
    let c := clusterCore cl k
    s.setCore c { s.core c with l1 := [], tlb := [], tokc := [], act := Plane.reset, shd := Plane.reset }) s

/-- A wake starts: the rail rises to its set point. What was written while the cluster was not ON applies, or the safe point where the
watchdog has expired; a clock that so changes, or whose FMHZ was written, is marked for a relock (R348, R482, R483, R485; the moment
DEDUCED, log entry 88). -/
def ClusterS.startWake (x : ClusterS) : ClusterS :=
  { x with
    pbusy := true
    goal := 0#3
    wkStep := 0
    fmhz := BitVec.ofNat 12 x.effF
    vset := BitVec.ofNat 10 x.effV
    safe := (x.safe || x.safePend) && x.effF == 1000 && x.effV == 800
    safePend := false
    nextF := if x.nextF.isSome || x.effF != x.fmhz.toNat then some x.effF else none
    nextV := none }

/-- CLUSTER_POWER_COMMAND: a GO. -/
def State.powerCommand (s : State) (cl : ClusterId) (tgt : BitVec 3) : State :=
  let x := s.cluster cl
  if x.pbusy || decide (4 ≤ tgt.toNat) || (x.pst == 0#3 && tgt != 0#3 && !s.quiesced cl) then s.setCluster cl { x with pref := true }
  else if tgt = x.pst then s.setCluster cl { x with tgt := tgt }
  else if tgt = 0#3 then s.setCluster cl { x with tgt := tgt }.startWake
  else
    let s := s.catchUp cl
    let s := if tgt = 3#3 then s.switchOff cl else s
    s.setCluster cl { s.cluster cl with
      tgt := tgt, pbusy := true, goal := tgt
      alarm := false, strOn := false, stretch := 0, hiwOn := false, hiw := 0, hiwPos := 0 }

def execClusterPowerCommand (cl : ClusterId) (tgt : BitVec 3) (s : State) : Host.Outcome State Fault Refusal :=
  .next (s.powerCommand cl tgt)

/-- CLUSTER_WAKE. -/
def State.clusterWake (s : State) (cl : ClusterId) : State :=
  let x := s.cluster cl
  if x.pbusy then (if x.goal = 0#3 then s else s.setCluster cl { x with wkp := true })
  else if x.pst = 0#3 then s
  else s.setCluster cl x.startWake

def execClusterWake (cl : ClusterId) (s : State) : Host.Outcome State Fault Refusal := .next (s.clusterWake cl)

/-- SAVED within a transition and at its end: 1 once the retention cells hold the logic state, 0 once it is back (R483). -/
def ClusterS.moved (x : ClusterS) : ClusterS := { x with saved := decide (2 ≤ x.goal.toNat) || (x.saved && x.goal != 0#3) }

/-- Whether logic BIST runs on a core of a cluster (R441, R483). -/
def State.clusterTests (s : State) (cl : ClusterId) : Bool :=
  s.tests.any (fun e => match e.1 with
    | .coreLogic c => clusterOf c == cl
    | _ => false)

/-- The logic state is in the retention cells, or, in a wake, back from them; after OFF logic BIST then runs on each core, and a core
that fails it is fenced (R441, R483 steps 2 and 3). -/
def State.logicRestored (s : State) (cl : ClusterId) : State :=
  let x := s.cluster cl
  if !x.pbusy then s
  else if x.goal ≠ 0#3 then s.setCluster cl x.moved
  else if x.wkStep ≠ 0 then s
  else
    let s := s.setCluster cl { x.moved with wkStep := 1 }
    if x.pst = 3#3 then
      { s with tests := s.tests ++ (List.range 4).map (fun k => (ErrUnit.coreLogic (clusterCore cl k), false)) }
    else s

/-- Step 4 of a wake: a relock after RETENTION and OFF, and after CLOCK-GATED where FMHZ was written meanwhile (R349, R483). -/
def State.wakeRelock (s : State) (cl : ClusterId) : State :=
  let x := s.cluster cl
  if x.pbusy && x.goal == 0#3 && x.wkStep == 1 && !s.clusterTests cl then
    let x := { x with wkStep := 2, nextF := none }
    s.setCluster cl (if decide (2 ≤ x.pst.toNat) || (s.cluster cl).nextF.isSome then x.setClock s.ns x.fmhz.toNat else x)
  else s

/-- Whether a transition may end: a wake once its steps are made (R483). -/
def ClusterS.mayEnd (x : ClusterS) : Bool := x.pbusy && (x.goal != 0#3 || (x.wkStep == 2 && !x.busy))

/-- CLUSTER_TRANSITION_DONE: ST takes the target; a queued wake starts in the same moment. A cluster that comes back ON has its clock
running from that moment, and what waited for the wake acts (R348, R483, R485). -/
def State.transitionDone (s : State) (cl : ClusterId) : State :=
  let x := s.cluster cl
  if !x.mayEnd then s
  else
    let x := { x.moved with pst := x.goal }
    if x.wkp then s.setCluster cl { x with wkp := false }.startWake
    else if x.goal = 0#3 then
      (s.setCluster cl ({ x with pbusy := false, edge := s.ns, sub := 0 }.afterHold s.fwRun s.ns)).reposition cl
    else (s.setCluster cl { x with pbusy := false }).reposition cl

def execClusterTransitionDone (cl : ClusterId) (s : State) : Host.Outcome State Fault Refusal := .next (s.transitionDone cl)

/-- A write of CPSCMD: TGT, and the command where GO is 1. -/
def State.cpscmdWrite (s : State) (cl : ClusterId) (v : Word) : State :=
  if v.getLsbD 63 then s.powerCommand cl (v.setWidth 3) else s.setCluster cl { s.cluster cl with tgt := v.setWidth 3 }

/-! ## The power-controller window of a stack (R336, R425, R452, R480) -/

/-- A write at an offset of the window. -/
def State.window8 (s : State) (st : StackId) (o : Nat) (v : Word) : State :=
  if 0x2000 ≤ o ∧ o < 0x2400 then
    let cl : ClusterId := Fin.ofNat 256 (4 * st.val + (o - 0x2000) / 0x100)
    match o % 0x100 with
    | 0x28 => s.pointWrite cl true v
    | 0x30 => s.pointWrite cl false v
    | r => s.setCluster cl ((s.cluster cl).powerWrite r v)
  else if 0x3000 ≤ o ∧ o < 0x3400 then
    let cl : ClusterId := Fin.ofNat 256 (4 * st.val + (o - 0x3000) / 0x100)
    match o % 0x100 with
    | 0x00 => s.quiesceRequest cl (v.getLsbD 63)
    | 0x08 => s.cpscmdWrite cl v
    | 0x10 => if v.getLsbD 62 then s.setCluster cl { s.cluster cl with pref := false } else s
    | 0x18 => if v.getLsbD 63 then s.clusterWake cl else s
    | _ => s
  else if 0x8000 ≤ o ∧ o < 0x8400 then
    let c := coreOf st ((o - 0x8000) / 0x40)
    match o % 0x40 with
    | 0x00 => s.dbgctlWrite c v
    | 0x08 => s.setCore c { s.core c with dbgsel := v &&& 0xFFFF001F#64 }
    | 0x10 => s.debugDataWrite c v
    | _ => s
  else
    let x := s.stack st
    match o with
    | 0x4000 => (s.setStack st { x with elbase := v &&& 0x000FFFFFFFFFF000#64 }).drainLog st
    | 0x4008 => (s.setStack st { x with elcfg := v &&& 0x800000000001FFFF#64 }).drainLog st
    | 0x4018 => (s.setStack st { x with eltail := v.setWidth 32 }).drainLog st
    | 0x4040 => s.faultPop st
    | 0x4050 => s.setStack st { x with frval := v }
    | 0x4058 => s.freplyWrite st v
    | 0x4060 => s.precmdWrite st v
    | 0x4068 => s.setStack st { x with preDone := x.preDone && !v.getLsbD 62, preRef := x.preRef && !v.getLsbD 61 }
    | 0x4070 => s.strstWrite st v
    | 0x4078 => s.setStack st { x with stpark := v &&& 0x000FFFFFFFFFF000#64 }
    | _ => s

/-- A write of a privileged service context through a window of kinds 5, 7 and 8 acts at its unit (R232, R242, R243, R366). -/
def State.windowAct (s : State) (pa : Nat) (v : Word) : State :=
  let o := winOff pa
  match winKind pa with
  | 5 =>
    if 64 ≤ winSocket pa ∧ winSocket pa < 72 ∧ o < 0x28 then s.poolPush (Fin.ofNat 8 (winSocket pa)) (o / 8) v else s
  | 7 =>
    let st := winStack pa
    if o < 0x40000 then
      (if o % 16 = 0 ∧ v.getLsbD 0 = false then s.after (execTokenRecordClear st (Fin.ofNat 16384 (o / 16)) s) else s)
    else if o < 0x41000 ∧ o % 16 = 0 then s.resvWrite st ((o - 0x40000) / 16) v
    else s
  | 8 => s.window8 (winStack pa) o v
  | _ => s

/-! ## Contexts (R473, R474) -/

/-- Whether a context has an admitted launch. -/
def State.ctxLaunched (s : State) (ctx : CtxId) : Bool := s.launches.any (fun e => e.2.ctx == ctx && !e.2.done)

/-- CONTEXT_CONFIGURE: taken only by a context without admitted launches and tasks; its counters and SBCHK start at their reset
values when it is created (R139, R465). -/
def State.contextConfigure (s : State) (ctx : CtxId) (v : Word) : State :=
  if s.ctxLaunched ctx || !(s.ctxCores ctx).isEmpty then s
  else
    let x := s.ctx ctx
    let new := v.getLsbD 63
    let x := if new && !x.valid then { x with ctr := [], sbchk := false } else x
    s.setCtx ctx { x with valid := new, priv := v.getLsbD 62 }

def execContextConfigure (ctx : CtxId) (v : Word) (s : State) : Host.Outcome State Fault Refusal := .next (s.contextConfigure ctx v)

/-- A master's write of a per-context register; SAVECFG starts its check, whose lines read back. -/
def State.ctxRegWrite (s : State) (ctx : CtxId) (k : Nat) (v : Word) : State :=
  if s.ctxLaunched ctx then s
  else
    let x := s.ctx ctx
    match k with
    | 0 => s.setCtx ctx { x with hb := v &&& 0x00FFFFFFFFE00000#64 }
    | 1 => s.setCtx ctx { x with hl := v &&& 0x01FFFFFFFFE0000F#64 }
    | 2 => s.setCtx ctx { x with ho := v &&& 0x000FFFFFFFE00000#64 }
    | 3 => s.setCtx ctx { x with ptroot := v &&& 0x000FFFFFFFFFF000#64 }
    | 8 => s.setCtx ctx { x with savea := v &&& 0x000FFFFFFF000000#64 }
    | 9 => s.setCtx ctx { x with saveb := v &&& 0x000FFFFFFF000000#64 }
    | 10 => s.saveAreaCheck ctx v true
    | 33 => s.setCtx ctx { x with syph := v &&& 0x8000000000000FFF#64 }
    | _ => s

/-! ## The management core and the watchdog (R484, R485) -/

/-- The management core that PFSEL names. -/
def State.named? (s : State) (m : Master) : Bool := (m == .B) == s.pfsel

/-- The regulators of every cluster take up their targets (R353). -/
def State.repositionAll (s : State) : State :=
  (List.range 256).foldl (fun (s : State) n => s.reposition (Fin.ofNat 256 n)) s

/-- PF_SELECT. -/
def execPfSelect (sel : Bool) (s : State) : Host.Outcome State Fault Refusal := .next { s with pfsel := sel }

/-- WATCHDOG_KICK: a write of WDOG by the named core. The key restarts the count, and shows that firmware runs, once bring-up has
loaded it (R489 stage 1: the watchdog starts then); bit 32 clears EXP. -/
def State.wdogWrite (s : State) (m : Master) (v : Word) : State :=
  if !s.named? m then s
  else
    let s := { s with wdogExp := s.wdogExp && !v.getLsbD 32 }
    if v.toNat / 2 ^ 48 = 0xA5C3 ∧ 2 ≤ s.stage then
      let s' := { s with wdogLeft := 5000000, wdogRun := true, fwRun := true }
      if s.fwRun then s' else s'.repositionAll
    else s

def execWatchdogKick (m : Master) (v : Word) (s : State) : Host.Outcome State Fault Refusal := .next (s.wdogWrite m v)

/-! ## Attestation (R487) -/

/-- ATTEST_REQUEST: a write of ATTCMD with GO = 1; one while a report is being made is ignored. A GO clears DONE and ERR of the report
before, which the spec leaves open (DESIGN CHOICE, log entry 81). -/
def State.attestRequest (s : State) (v : Word) : State :=
  if s.attBusy then s else { s with attBusy := true, attDone := false, attErr := false, attFrame := (v >>> 12).setWidth 40 }

def execAttestRequest (v : Word) (s : State) : Host.Outcome State Fault Refusal := .next (s.attestRequest v)

/-- Bytes 255:0 of a report whose nonce stands in its frame. -/
def State.reportHead (s : State) (frame : Nat) : List Byte :=
  Memory.bytes s.view frame 64 ++ natBytes 4 0x54535441 ++ natBytes 4 1 ++ natBytes 8 s.modid.toNat ++
    (List.range 64).map Config.devPub ++ (List.range 32).map Config.campionHash ++ (List.range 32).map Config.powerHash ++
    natBytes 8 s.presentMask ++ natBytes 8 s.spared ++ natBytes 8 s.ns ++ List.replicate 24 0#8

/-- ATTEST_DONE: the signed report stands in its frame; a failure, or a frame that is not LPDDR, sets ERR. -/
def State.attestDone (s : State) (err : Bool) : State :=
  if !s.attBusy then s
  else
    let f := s.attFrame.toNat * 4096
    let done := { s with attBusy := false, attDone := true }
    if err || decide (2 ^ 40 < f + 65536) then { done with attErr := true }
    else
      let h := s.reportHead f
      done.putPhys f ((h ++ (List.range 29792).map (Config.attestSig h)).map some)

def execAttestDone (err : Bool) (s : State) : Host.Outcome State Fault Refusal := .next (s.attestDone err)

/-! ## Links and other modules (R26 to R28, R476 to R479) -/

/-- A port's registers. -/
def State.port (s : State) (p : Nat) : PortS := s.ports.get ⟨false, false, 0#12⟩ p

/-- A module has become unreachable: what was lent to it is LOST, and messages toward it, outstanding arrivals and running copies get
error completions. -/
def State.unreachable (s : State) (m : ModuleId) : State :=
  let s := s.loseWhere (fun r => match r.holder with
    | .remote k => k == m
    | _ => false)
  let s := (s.syArrs.filter (fun a => (s.ctx a.ctx).syphModule == m)).foldl (fun (s : State) a =>
    { s with syArrs := s.syArrs.erase a }.fatalFor a.core a.ctx a.launch a.coord a.fpos errCompletion (slotIx .Y)
      (agentId (.task a.core a.ctx a.launch a.coord)) 0#64 0#64) s
  let s := (s.remq.filter (fun r => r.msg.to_ == m)).foldl (fun (s : State) r =>
    { s with remq := s.remq.erase r }.soon (.loadOf r.src.core r.src.launch r.src.coord true)) s
  s.stackTab.foldl (fun (s : State) e =>
    ((List.range e.2.ops.length).foldl (fun (s : State) n => match e.2.ops[n]? with
      | some o =>
        if o.kind == .remote && o.desc.rmod == m.val && !o.failed then
          let st : StackId := Fin.ofNat 64 e.1
          (s.setStack st { s.stack st with ops := listSet (s.stack st).ops n { o with failed := true } }).fatalFor o.core o.ctx
            o.launch o.coord o.fpos errCompletion slotEngine (agentId (.engine o.core o.ctx o.launch o.coord o.handle)) 0#64 0#64
        else s
      | none => s) s)) s

/-- Modules that have an entry in RTAB. -/
def State.routedModules (s : State) : List ModuleId := s.rtab.map (fun e => Fin.ofNat 4096 e.1)

/-- The modules that a change has made unreachable. -/
def State.lostModules (s : State) (before : State) : State :=
  (before.routedModules.filter (fun m => before.reaches m && !s.reaches m)).foldl (fun (s : State) m => s.unreachable m) s

/-- A port's registers change; the capability list says so (R488), and modules may have become unreachable (R477). -/
def State.setPort (s : State) (p : Nat) (x : PortS) : State := ({ s with ports := s.ports.set p x }.rewriteCap 5).lostModules s

/-- LINK_ENABLE. -/
def State.linkEnable (s : State) (p : PortId) (en : Bool) : State :=
  let x := s.port p.val
  s.setPort p.val { x with en := en, up := x.up && en }

def execLinkEnable (port : PortId) (en : Bool) (s : State) : Host.Outcome State Fault Refusal := .next (s.linkEnable port en)

/-- LINK_UP: an enabled port is trained. -/
def execLinkUp (port : PortId) (peer : ModuleId) (s : State) : Host.Outcome State Fault Refusal :=
  .next (if (s.port port.val).en then
    s.setPort port.val { s.port port.val with up := true, peer := BitVec.ofNat 12 peer.val } else s)

/-- ROUTE_WRITE. -/
def State.routeWrite (s : State) (m : ModuleId) (v : Word) : State :=
  ({ s with rtab := s.rtab.set m.val (v.setWidth 5) }).lostModules s

def execRouteWrite (m : ModuleId) (v : Word) (s : State) : Host.Outcome State Fault Refusal := .next (s.routeWrite m v)

/-- MODULE_UNREACHABLE: the port toward a module goes down, where it was up. -/
def State.moduleUnreachable (s : State) (m : ModuleId) : State :=
  if s.reaches m then
    let p := (s.rtab.get 0#5 m.val).toNat % 16
    s.setPort p { s.port p with up := false }
  else s.unreachable m

def execModuleUnreachable (m : ModuleId) (s : State) : Host.Outcome State Fault Refusal := .next (s.moduleUnreachable m)

/-- A grant that this module lent has come back: the lender claims it, or it rests where the lender has finished (R388, R478). -/
def State.grantBack (s : State) (ctx : CtxId) (va : Nat) : State :=
  match s.translate ctx (BitVec.ofNat 64 va) with
  | .error _ => s
  | .ok l =>
    let st := regionHome l
    let x := s.stack st
    match x.toks.find? (fun e => e.2.covers l.pa && e.2.st != .lost && (match e.2.holder with | .remote _ => true | _ => false)) with
    | none => s
    | some (e, r) =>
      let x := x.dropTok e
      match x.toks.find? (fun d => d.2.isFor r.base r.size && !d.2.sh && d.2.depth + 1 == r.depth) with
      | some (d, y) =>
        if s.agentGone y.holder then (s.setStack st x).toRest st r.base r.size .sy
        else s.setStack st (x.setTok d { y with back := true, backSc := [.sy] })
      | none => s.setStack st x

/-- The link die of the port toward a module: four ports a die, in socket order (R475, R476). -/
def State.linkDie (s : State) (m : ModuleId) : Nat := (s.rtab.get 0#5 m.val).toNat % 16 / 4

/-- Grants that have a reserved record of a link die, or with `none` one of the 1,024 general ones. -/
def State.grantsOf (s : State) (die : Option Nat) : Nat := (s.grants.filter (fun g => g.die == die)).length

/-- A grant is taken in. -/
def State.addGrant (s : State) (g : GrantMsg) (die : Option Nat) : State :=
  { s with grants := s.grants ++ [⟨g.lender, g.ctx, g.va, g.sizeExp, g.depth, none, none, die⟩] }

/-- The record a request for a grant gets that has met `naks` NAKs: a general one, else after two NAKs one of the four of the link die
that carried it (R367, R478). -/
def State.grantRoom (s : State) (g : GrantMsg) (naks : Nat) : Option (Option Nat) :=
  if s.grantsOf none < 1024 then some none
  else if 2 ≤ naks ∧ s.grantsOf (some (s.linkDie g.lender)) < 4 then some (some (s.linkDie g.lender))
  else none

/-- REMOTE_GRANT_RECEIVE: a lend from another module becomes a grant, or gets a NAK and is tried again; a message that names this
module as lender is a grant coming back. -/
def State.grantReceive (s : State) (g : GrantMsg) : State :=
  if g.lender.val = s.modid.toNat then s.grantBack g.ctx g.va.toNat
  else match s.grantRoom g 0 with
    | some die => s.addGrant g die
    | none => { s with grantQ := s.grantQ ++ [(g, 1)] }

/-- A request that a NAK has answered is tried again: it gets a record, or meets a second NAK. -/
def State.grantTry (s : State) (g : GrantMsg × Nat) : Option State :=
  match s.grantRoom g.1 g.2 with
  | some die => some ({ s with grantQ := s.grantQ.erase g }.addGrant g.1 die)
  | none => if g.2 < 2 then some { s with grantQ := s.grantQ.map (fun h => if h = g then (g.1, g.2 + 1) else h) } else none

/-- The first request for which a retry changes something. -/
def State.grantNext (s : State) : Option State := s.grantQ.findSome? s.grantTry

def execRemoteGrantReceive (g : GrantMsg) (s : State) : Host.Outcome State Fault Refusal := .next (s.grantReceive g)

/-- The admitted launch with a context and LID. -/
def State.launchOf (s : State) (ctx : CtxId) (lid : BitVec 32) : Option (Nat × Launch) :=
  s.launches.find? (fun e => e.2.ctx == ctx && !e.2.done && e.2.rcd.lid == lid)

/-- An arrival that has counted, or whose coordinate lies outside the grid, is acknowledged to its module (R479). -/
def State.acknowledge (s : State) (r : RemoteArr) (outside : Bool) : State :=
  if s.reaches r.sender then s.send (.ack r.sender r.ctx r.lid r.coord outside) else s

/-- REMOTE_ARRIVAL: it counts at the phase of the matching launch's team, where one is on a stack; one for no admitted launch waits,
and one that no sync object can hold (R408); one outside the grid, or for a team that has finished, counts nowhere. -/
def State.remoteArrival (s : State) (r : RemoteArr) : State :=
  match s.launchOf r.ctx r.lid with
  | none => { s with inbox := s.inbox ++ [r] }
  | some (n, l) =>
    if !inGrid l.ext r.coord then s.acknowledge r true
    else match s.findTeam n r.coord with
      | some (st, m, _) => match (s.unprotectTeam st m).countArrival st m r.phase.val .sy none 0 with
        | some s' => s'.acknowledge r false
        | none => { s with inbox := s.inbox ++ [r] }
      | none =>
        if l.finishedCoords.contains r.coord then s.acknowledge r false
        else (s.setLaunch n { l with heldArr := l.heldArr ++ [(r.coord, r.phase.val, .sy)] }).acknowledge r false

def execRemoteArrival (r : RemoteArr) (s : State) : Host.Outcome State Fault Refusal := .next (s.remoteArrival r)

/-- An arrival that waited is counted once its launch is admitted and an object is free. -/
def State.inboxNext (s : State) : Option State :=
  s.inbox.findSome? (fun r =>
    let s' := { s with inbox := s.inbox.erase r }.remoteArrival r
    if s'.inbox.length < s.inbox.length then some s' else none)

/-- ARRIVAL_ACKNOWLEDGEMENT of outstanding arrival `n`. -/
def execArrivalAcknowledgement (n : Nat) (outside : Bool) (s : State) : Host.Outcome State Fault Refusal :=
  match s.syArrs[n]? with
  | none => .next s
  | some a =>
    let s := { s with syArrs := listDrop s.syArrs n }
    .next (if outside then
      s.fatalFor a.core a.ctx a.launch a.coord a.fpos errPermission (slotIx .Y) (agentId (.task a.core a.ctx a.launch a.coord)) 0#64 0#64
      else s)

/-- The number of a hop's direction, and of the opposite direction of the same hop (R24); a port's two directions are numbered after
those of the ring (R475). -/
def hopKey : Hop → Nat
  | .ring so lane up => so.val * 8 + lane.val * 2 + b2n up
  | .port p out => 624 + 2 * p.val + b2n out
def hopBack : Hop → Nat
  | .ring so lane up => (if up then (so.val + 1) % 78 else (so.val + 77) % 78) * 8 + lane.val * 2 + b2n (!up)
  | .port p out => 624 + 2 * p.val + b2n (!out)

/-- Whether flits travel on a hop: a port's link runs while it is trained (R475, R476). -/
def State.hopRuns (s : State) : Hop → Bool
  | .ring _ _ _ => true
  | .port p _ => (s.port p.val).up

/-- SEQ, ACK and VC of a flit's link header, and the credits it returns on a channel (R26). -/
def flitSeq (f : BitVec 2048) : Nat := (f.extractLsb' 84 12).toNat
def flitAck (f : BitVec 2048) : Nat := (f.extractLsb' 72 12).toNat
def flitVc (f : BitVec 2048) : Nat := (f.extractLsb' 62 2).toNat
def flitCred (f : BitVec 2048) (vc : Nat) : Nat := (f.extractLsb' (64 + 2 * vc) 2).toNat

/-- CRC-32C of some bytes: 0xFFFF_FFFF at the start, inverted at the end (R26; PRESUMED, log entry 80). -/
def crc32c (l : List Byte) : Nat := (l.foldl (fun c b => crcByte c b.toNat) 0xFFFFFFFF) ^^^ 0xFFFFFFFF

/-- The CRC of a flit, over header bits 95:0 and bytes 255:16, and whether it agrees (R26). -/
def flitCrcOf (f : BitVec 2048) : BitVec 32 :=
  BitVec.ofNat 32 (crc32c ((List.range 12 ++ (List.range 240).map (fun i => i + 16)).map (fun i => f.extractLsb' (8 * i) 8)))
def flitGood (f : BitVec 2048) : Bool := f.extractLsb' 96 32 == flitCrcOf f

/-- The payload bytes of a flit: request slots at bytes 0, 60, 120 and 180, or a line slot with 64 bytes of zero after it (R25). The
slots in use are the lowest-numbered ones, and those not in use are zero (DESIGN CHOICE, log entry 82). -/
def FlitPay.bits : FlitPay → BitVec 1920
  | .slots l => BitVec.ofNat 1920 (((List.range 4).map (fun i => ((l[i]?).getD 0#480).toNat * 2 ^ (480 * i))).foldl (· + ·) 0)
  | .line hdr d => hdr.setWidth 1920 ||| (d.setWidth 1920 <<< 384)

/-- KIND and VALID of a payload, as bits 61:57 of the header (R26). -/
def FlitPay.ctl : FlitPay → Nat
  | .slots l => 2 ^ min 4 l.length - 1
  | .line _ _ => 2 ^ 4 + 1

/-- The payload of a flit; the 64 bytes after a line slot are ignored (R25). -/
def flitPay (f : BitVec 2048) : FlitPay :=
  if f.getLsbD 61 then .line (f.extractLsb' 128 384) (f.extractLsb' 512 1024)
  else .slots ((List.range 4).filterMap (fun i => if f.getLsbD (57 + i) then some (f.extractLsb' (128 + 480 * i) 480) else none))

/-- A flit without its CRC. -/
def flitBody (seq ack cred : Nat) (vc : Fin 4) (pay : FlitPay) : BitVec 2048 :=
  (pay.bits.setWidth 2048 <<< 128) ||| (BitVec.ofNat 2048 (seq % 4096) <<< 84) ||| (BitVec.ofNat 2048 (ack % 4096) <<< 72) |||
    (BitVec.ofNat 2048 (cred % 256) <<< 64) ||| (BitVec.ofNat 2048 vc.val <<< 62) ||| (BitVec.ofNat 2048 pay.ctl <<< 57)

/-- The credits that a receiver returns in one flit: up to 3 of each channel. -/
def LinkS.credits (x : LinkS) : Nat := ((List.range 4).map (fun v => min 3 (x.owed.get 0 v) * 4 ^ v)).foldl (· + ·) 0
def LinkS.payBack (x : LinkS) : LinkS :=
  { x with owed := (List.range 4).foldl (fun o v => Sys2Proof.Tab.set o v (Sys2Proof.Tab.get 0 o v - min 3 (Sys2Proof.Tab.get 0 o v))) x.owed }

/-- Whether a sender may send on a channel: it has a credit for a buffer of the channel, and fewer than 4,095 flits wait for their
acknowledgement, so that no sequence number stands for two (R27, R28; log entry 80). -/
def LinkS.maySend (x : LinkS) (vc : Fin 4) : Bool :=
  decide (x.used.get 0 vc.val < Config.vcBuffers vc + 1) && decide (x.unacked.length < 4095)

/-- A flit of some kind of traffic is sent on a hop, on the virtual channel of that traffic: it takes the next sequence number,
acknowledges what came in order from the opposite direction, returns credits to it, and is kept for replay until it is acknowledged
(R26 to R28). Before anything has come from there ACK holds 0xFFF, which the spec leaves open (DESIGN CHOICE, log entry 80). -/
def State.flitSend (s : State) (h : Hop) (tr : Traffic) (pay : FlitPay) : State :=
  let vc := trafficVc tr
  let x := s.links.get LinkS.reset (hopKey h)
  let y := s.links.get LinkS.reset (hopBack h)
  if !x.maySend vc || !s.hopRuns h then s
  else
    let b := flitBody x.next (y.expect + 4095) y.credits vc pay
    let f := b ||| ((flitCrcOf b).setWidth 2048 <<< 96)
    let x := { x with next := (x.next + 1) % 4096, unacked := x.unacked ++ [f], used := x.used.set vc.val (x.used.get 0 vc.val + 1) }
    { s with links := (s.links.set (hopBack h) y.payBack).set (hopKey h) x }

/-- The receiver of a hop takes its oldest flit of a channel out of its buffers, and owes the sender a credit (R27). -/
def State.flitTake (s : State) (h : Hop) (vc : Fin 4) : State :=
  let x := s.links.get LinkS.reset (hopKey h)
  match x.delivered.find? (fun f => flitVc f == vc.val) with
  | some f =>
    let x := { x with delivered := x.delivered.erase f, owed := x.owed.set vc.val (x.owed.get 0 vc.val + 1) }
    { s with links := s.links.set (hopKey h) x }
  | none => s

/-- Flits not acknowledged by a sequence number. -/
def ackTo (l : List (BitVec 2048)) (ack : Nat) : List (BitVec 2048) :=
  match l.findIdx? (fun f => flitSeq f == ack) with
  | some i => l.drop (i + 1)
  | none => l

/-- A sender has some credits back. -/
def LinkS.credited (x : LinkS) (f : BitVec 2048) : LinkS :=
  { x with used := (List.range 4).foldl (fun o v => Sys2Proof.Tab.set o v (Sys2Proof.Tab.get 0 o v - flitCred f v)) x.used }

/-- FLIT_RECEIVE: a flit whose CRC fails is dropped; one in order is delivered once, with its credits, and its ACK clears the opposite
direction. The ACK of a good flit that is out of order or a duplicate is honoured too, its credits are not (DESIGN CHOICE, log entry
82). -/
def State.flitReceive (s : State) (h : Hop) (f : BitVec 2048) : State :=
  if !flitGood f || !s.hopRuns h then s
  else
    let x := s.links.get LinkS.reset (hopKey h)
    let y := s.links.get LinkS.reset (hopBack h)
    let y := { y with unacked := ackTo y.unacked (flitAck f) }
    if flitSeq f = x.expect then
      let x := { x with delivered := x.delivered ++ [f], expect := (x.expect + 1) % 4096 }
      { s with links := (s.links.set (hopBack h) (y.credited f)).set (hopKey h) x }
    else { s with links := s.links.set (hopBack h) y }

def execFlitReceive (hop : Hop) (flit : BitVec 2048) (s : State) : Host.Outcome State Fault Refusal := .next (s.flitReceive hop flit)

/-- FLIT_REPLAY: the flits from the first unacknowledged one are sent again. -/
def execFlitReplay (hop : Hop) (s : State) : Host.Outcome State Fault Refusal :=
  let x := s.links.get LinkS.reset (hopKey hop)
  .next { s with links := s.links.set (hopKey hop) { x with replay := x.replay ++ x.unacked } }

/-! ## Bring-up (R489) -/

/-- MODULE_RESET: the reset state; what manufacture and earlier self-tests left in the parts stays, and device time goes on, for it
never decreases (R32). -/
def execModuleReset (s : State) : Host.Outcome State Fault Refusal :=
  .next { State.reset with spared := s.spared, spares := s.spares, free := s.free, ns := s.ns }

/-- BRING_UP_STAGE: a stage completes or fails. A die that fails in stage 0 stays in its ROM, and the module goes on with the other
one; which die it is, is a free value (log entry 45). A failure in stage 1 is reported and releases no stack; one in stage 2 holds
the stage; what fails in stage 3 is fenced by R441: while it lasts every unit is in its test, SELF_TEST_DONE tells a unit's result,
and its end says that the others passed; the firmware then makes the capability list (R488; log entries 45 and 91). -/
def State.bringUp (s : State) (ok : Bool) : State :=
  if s.bfail then s
  else match s.stage with
    | 0 =>
      if ok then { s with stage := 1, rom := none }
      else { s with stage := 1, rom := some (if Config.romDie s.free then .A else .B), free := s.free + 1 }
    | 1 => if ok then { s with stage := 2, fwRun := true, wdogRun := true, wdogLeft := 5000000 } else { s with bfail := true }
    | 2 => if ok then { s with stage := 3 } else s
    | 3 => { s with stage := 4 }.buildCaps
    | _ => s

def execBringUpStage (ok : Bool) (s : State) : Host.Outcome State Fault Refusal := .next (s.bringUp ok)

/-! ## Register writes (R4, R60, R471) -/

/-- A write in the queue block. -/
def State.queueBlockWrite (s : State) (m : Master) (o : Nat) (v : Word) : State :=
  if o % 8 ≠ 0 then s
  else if o < 0x100 then s.semWrite m (Fin.ofNat 32 (o / 8)) (v.getLsbD 32) (v.getLsbD 33) (v.setWidth 32)
  else if o = 0x100 then { s with age := v.setWidth 32 }
  else if 0x1000 ≤ o ∧ o < 0x2000 then
    let q : QueueId := Fin.ofNat 64 ((o - 0x1000) / 64)
    match o % 64 with
    | 0x00 => s.qcfgWrite m q v
    | 0x08 => s.after (execQueuePush m q v s)
    | _ => s
  else s

/-- A write in the module control block. ATTCMD takes a write with GO = 1 alone, and so reads the frame of the last report asked for,
which the spec leaves open (DESIGN CHOICE, log entry 81). -/
def State.moduleWrite (s : State) (m : Master) (o : Nat) (v : Word) : State :=
  if o % 8 ≠ 0 then s
  else if 0x100 ≤ o ∧ o < 0x180 then s.linkEnable (Fin.ofNat 16 ((o - 0x100) / 8)) (v.getLsbD 63)
  else if 0x2000 ≤ o ∧ o < 0xA000 then s.routeWrite (Fin.ofNat 4096 ((o - 0x2000) / 8)) v
  else if 0x10000 ≤ o ∧ o < 0x18000 then s.contextConfigure (Fin.ofNat 4096 ((o - 0x10000) / 8)) v
  else if 0x200000 ≤ o ∧ o < 0x400000 then s.ctxRegWrite (Fin.ofNat 4096 ((o - 0x200000) / 0x200)) (o % 0x200 / 8) v
  else match o with
    | 0x0000 => if s.ports.any (fun p => p.2.en) then s else { s with modid := v.setWidth 12 }
    | 0x0008 => s.wdogWrite m v
    | 0x0010 => { s with pfsel := v.getLsbD 0 }
    | 0x0020 => if v.getLsbD 63 then s.attestRequest v else s
    | 0x0028 => { s with attDone := s.attDone && !v.getLsbD 62, attErr := s.attErr && !v.getLsbD 61 }
    | 0x0038 => s.startDrop v true
    | _ => s

/-- REGISTER_WRITE by a master. Writes to a power-controller window by the management core that PFSEL does not name are ignored
(R484). -/
def State.registerWrite (s : State) (m : Master) (r : RegSpace) (o : Nat) (v : Word) : State :=
  match r with
  | .queueBlock => s.queueBlockWrite m o v
  | .moduleBlock => s.moduleWrite m o v
  | .stackWindow st => if s.named? m && o % 8 == 0 then s.window8 st o v else s

def execRegisterWrite (m : Master) (r : RegSpace) (off : Nat) (v : Word) (s : State) : Host.Outcome State Fault Refusal :=
  .next (s.registerWrite m r off v)

end Sys2Proof.Machine
end

