-- ==== Sys2Proof/Machine/Fetch.lean ====
section
/-! DEFINITION. Fetch: index words and literals, and the checks that a bundle passes before it issues (R106 to R109, R123 to R125,
R139, R200, R230, R314). -/

namespace Sys2Proof.Machine

/-! ## The code stream -/

/-- `n` bytes as they stand at a home: in its L2, else in memory. -/
def State.homeBytes (s : State) (home : StackId) (pa n : Nat) : List Byte :=
  if (s.stack home).l2.isEmpty then Memory.bytes s.mem pa n
  else (List.range n).map (fun i => lineByte (s.homeLine home (lineOf (pa + i))) ((pa + i) % 128))

/-- `n` bytes of a code stream, in at most `k` pieces of a 4 KiB page, and the physical address of the first piece that meets poison;
none where a page is not there or has X = 0 (R59, R230, R443). -/
def State.codeBytes (s : State) (c : CoreId) (ctx : CtxId) : Nat → Word → Nat → Option (List Byte × Option Nat)
  | 0, _, n => if n = 0 then some ([], none) else none
  | k + 1, va, n =>
    if n = 0 then some ([], none)
    else match s.translateOn c ctx va with
      | .error _ => none
      | .ok l =>
        if paWindow l.pa || !l.x then none
        else
          let m := min n (4096 - va.toNat % 4096)
          match s.codeBytes c ctx k (va + BitVec.ofNat 64 m) (n - m) with
          | some r => some (s.homeBytes l.home l.pa m ++ r.1, if s.homePoisoned l.home l.pa m then some l.pa else r.2)
          | none => none

/-- The address of index word `p` of an image's code stream (R53). -/
def Image.wordVa (i : Image) (p : Nat) : Word := i.va + BitVec.ofNat 64 (i.codeOff + 2 * p)

/-! ## The checks of a bundle (R123) -/

/-- Whether a bundle's E syllable is an `mxfmt` that fails the checks of R314. -/
def fmtFails (img : Image) (t : Task) (b : Bundle) : Bool :=
  match decodeSyl .E (sylOf b .E) with
  | .ok i => mxfmtBad (some img) t i
  | .error _ => false

/-- Whether the V syllable breaks the rule on the unit that an f64 bundle still occupies (R200). -/
def unitTaken (t : Task) (l : List Instr) : Bool := t.vbusy && l.any (fun i => slotOf i == some .V && !freeV i)

/-- The first check that a bundle fails, as error code and slot: opcodes, fields with the two checks of R314, the bundle as a whole
(R124, R200), and the scoreboard (R139). A bundle that breaks R124 and R200 fails by R124 (DESIGN CHOICE, log entry 85). -/
def bundleErr (img : Image) (sb : Bool) (t : Task) (b : Bundle) : Option (Nat × Slot) :=
  match decodeBundle b with
  | .error (.reservedOpcode, sl) => some (errOpcode, sl)
  | .error (.reservedModifier, sl) => some (errModifier, if sl = .Y ∧ fmtFails img t b = true then .E else sl)
  | .ok l =>
    if fmtFails img t b then some (errModifier, .E)
    else match dupSlot t.regs l [] with
      | some sl => some (errModifier, sl)
      | none =>
        if unitTaken t l then some (errModifier, .V)
        else if sb then (t.earlySlot l).map (fun sl => (errScoreboard, sl))
        else none

/-- A fetched bundle waits to issue, and is checked when it is due. -/
def State.latch (s : State) (c : CoreId) (t : Task) (b : Bundle) (next : Nat) : State :=
  s.setTask c { t with npos := BitVec.ofNat 64 next, latched := some b }

/-- The first check that a bundle due on a core fails in the present cycle, by the SBCHK of this moment (R123, R139). -/
def State.bundleBad (s : State) (t : Task) (b : Bundle) : Option (Nat × Slot) :=
  match s.imageOf t with
  | some img => bundleErr img (s.ctx t.ctx).sbchk t b
  | none => none

/-! ## FETCH -/

/-- The index word at the fetch position becomes a bundle: one of the active plane, or the literal behind an escape. A poisoned
plane is consumed (R443). While a waiting instruction or a late load holds the core, words that cannot become a bundle are left for
the cycle in which it is due. -/
def State.fetchTask (s : State) (c : CoreId) (img : Image) (t : Task) : State :=
  let t := { t with fpos := t.npos, noWords := false }
  let p := t.npos.toNat
  let held : Bool := !t.waits.isEmpty || t.lateNow
  let badIndex : State := if held then s else s.raiseFatal c t errIndex slotNone 0#64 0#64 0#64
  let noPage (q : Nat) : State := if held then s else s.raiseFatal c t errTranslation slotNone 0#64 (img.wordVa q) 0#64
  let poisoned (q pa : Nat) : State := if held then s else s.soon (.loadAt c false (img.wordVa q) pa)
  if img.codeWords ≤ p then badIndex
  else match s.codeBytes c t.ctx 2 (img.wordVa p) 2 with
    | none => noPage p
    | some (_, some pa) => poisoned p pa
    | some (b, none) =>
      if leNat b = 0xFFFF then
        if img.codeWords ≤ p + 24 then badIndex
        else match s.codeBytes c t.ctx 2 (img.wordVa (p + 1)) 48 with
          | none => noPage (p + 1)
          | some (_, some pa) => poisoned (p + 1) pa
          | some (l, none) => s.latch c t (BitVec.ofNat 384 (leNat l)) (p + 25)
      else if leNat b < img.dictCnt then
        if (s.core c).act.bad then (if held then s else s.soon (.fetch c (s.core c).act.retry))
        else match (s.core c).act.dict[leNat b]? with
        | some d => s.latch c t d (p + 1)
        | none => badIndex
      else badIndex

/-- Whether a core takes the next word now: no bundle is latched, one is due, and the task goes on. -/
def State.mayFetch (s : State) (c : CoreId) (t : Task) : Bool :=
  t.latched.isNone && t.idle == 0 && t.event.isNone && !t.failed && !t.ended &&
    !s.mustStop c t && !(s.core c).hlt && (s.core c).haltReq == 0 && (s.cluster (clusterOf c)).clocked

/-- FETCH: the core takes the word at the fetch position as the next bundle to issue, and its TLBs the page of the word (R229). -/
def State.fetch (s : State) (c : CoreId) : State :=
  match s.task? c with
  | none => s
  | some t =>
    match s.imageOf t with
    | some img => if s.mayFetch c t then (s.fetchTask c img t).fillTlb c t.ctx (img.wordVa t.npos.toNat) else s
    | none => s

def execFetch (core : CoreId) (s : State) : Host.Outcome State Fault Refusal := .next (s.fetch core)

end Sys2Proof.Machine
end

