-- ==== Sys2Proof/Machine/Scalar.lean ====
section
/-! DEFINITION. The A slot: integer and address arithmetic, constants, bit fields and task constants (R187 to R194), and
`locq` (R99). -/

namespace Sys2Proof.Machine

/-! ## Sources of format A-R (R187) -/

/-- An A-slot source with S3 as the immediate. -/
def Task.srcA (t : Task) (s3 : BitVec 8) (o : Opd) : Word := t.regs.readW .A (immS8 s3) o

/-- S3 read as a third source. -/
def Task.src3A (t : Task) (s3 : BitVec 8) : Word := t.regs.readW .A 0#64 (s3Opd s3)

end Sys2Proof.Machine

namespace Sys2Proof

open Sys2Proof.Machine

def FmtAR.w (f : FmtAR) : Nat := tyWidth f.ty
def FmtAR.x (f : FmtAR) (t : Task) : Int := tyVal f.ty (t.srcA f.s3 f.s1).toNat
def FmtAR.y (f : FmtAR) (t : Task) : Int := tyVal f.ty (t.srcA f.s3 f.s2).toNat
def FmtAR.z (f : FmtAR) (t : Task) : Int := tyVal f.ty (t.src3A f.s3).toNat
/-- uval of S1 and S2 (R187). -/
def FmtAR.u1 (f : FmtAR) (t : Task) : Nat := uval f.w (t.srcA f.s3 f.s1).toNat
def FmtAR.u2 (f : FmtAR) (t : Task) : Nat := uval f.w (t.srcA f.s3 f.s2).toNat
/-- The shift and bit count k. -/
def FmtAR.k (f : FmtAR) (t : Task) : Nat := ((t.srcA f.s3 f.s2).toNat % 64) % f.w

/-- S3 names a guard-file entry in `sel`, `addc` and `subb`. -/
def FmtAR.p3 (f : FmtAR) : BitVec 6 := f.s3.extractLsb' 0 6

end Sys2Proof

namespace Sys2Proof.Machine

/-- A result of an A-R instruction: fit of an exact integer (R187). -/
def Task.putA (t : Task) (lat : Nat) (f : FmtAR) (v : Int) : Task := t.putW lat .A f.d (fit64 f.ty v)

/-! ## Arithmetic (R188) -/

def execAdd (f : FmtAR) (s : State) : Host.Outcome State Fault Refusal :=
  s.issue f.gd fun t => t.putA 1 f (f.x t + f.y t)

def execSub (f : FmtAR) (s : State) : Host.Outcome State Fault Refusal :=
  s.issue f.gd fun t => t.putA 1 f (f.x t - f.y t)

def execMul (f : FmtAR) (s : State) : Host.Outcome State Fault Refusal :=
  s.issue f.gd fun t => t.putA 3 f (f.x t * f.y t)

def execMulh (f : FmtAR) (s : State) : Host.Outcome State Fault Refusal :=
  s.issue f.gd fun t => t.putA 3 f ((f.x t * f.y t) / (2 ^ f.w : Int))

def execDiv (f : FmtAR) (s : State) : Host.Outcome State Fault Refusal :=
  s.issue f.gd fun t => t.putA 20 f (divZ (f.x t) (f.y t))

def execRem (f : FmtAR) (s : State) : Host.Outcome State Fault Refusal :=
  s.issue f.gd fun t => t.putA 20 f (f.x t - f.y t * divZ (f.x t) (f.y t))

def execAnd (f : FmtAR) (s : State) : Host.Outcome State Fault Refusal :=
  s.issue f.gd fun t => t.putA 1 f (f.u1 t &&& f.u2 t : Nat)

def execOr (f : FmtAR) (s : State) : Host.Outcome State Fault Refusal :=
  s.issue f.gd fun t => t.putA 1 f (f.u1 t ||| f.u2 t : Nat)

def execXor (f : FmtAR) (s : State) : Host.Outcome State Fault Refusal :=
  s.issue f.gd fun t => t.putA 1 f (f.u1 t ^^^ f.u2 t : Nat)

/-- x AND NOT y on w bits: the ones of x that y lacks. -/
def execAndn (f : FmtAR) (s : State) : Host.Outcome State Fault Refusal :=
  s.issue f.gd fun t => t.putA 1 f ((f.u1 t : Int) - (f.u1 t &&& f.u2 t : Nat))

def execShl (f : FmtAR) (s : State) : Host.Outcome State Fault Refusal :=
  s.issue f.gd fun t => t.putA 1 f (f.u1 t * 2 ^ f.k t : Nat)

def execShr (f : FmtAR) (s : State) : Host.Outcome State Fault Refusal :=
  s.issue f.gd fun t => t.putA 1 f (f.u1 t / 2 ^ f.k t : Nat)

def execSar (f : FmtAR) (s : State) : Host.Outcome State Fault Refusal :=
  s.issue f.gd fun t => t.putA 1 f (sval f.w (t.srcA f.s3 f.s1).toNat / (2 ^ f.k t : Int))

def execRot (f : FmtAR) (s : State) : Host.Outcome State Fault Refusal :=
  s.issue f.gd fun t => t.putA 1 f (rotLeft f.w (f.u1 t) (f.k t) : Nat)

def execMin (f : FmtAR) (s : State) : Host.Outcome State Fault Refusal :=
  s.issue f.gd fun t => t.putA 1 f (Min.min (f.x t) (f.y t))

def execMax (f : FmtAR) (s : State) : Host.Outcome State Fault Refusal :=
  s.issue f.gd fun t => t.putA 1 f (Max.max (f.x t) (f.y t))

def execAbs (f : FmtAR) (s : State) : Host.Outcome State Fault Refusal :=
  s.issue f.gd fun t => t.putA 1 f (f.x t).natAbs

def execNeg (f : FmtAR) (s : State) : Host.Outcome State Fault Refusal :=
  s.issue f.gd fun t => t.putA 1 f (-(f.x t))

def execCmp (f : FmtAR) (s : State) : Host.Outcome State Fault Refusal :=
  s.issue f.gd fun t => t.putP (predIx f.d) (cndInt f.cnd (f.x t) (f.y t))

def execSel (f : FmtAR) (s : State) : Host.Outcome State Fault Refusal :=
  s.issue f.gd fun t =>
    t.putW 1 .A f.d (if t.regs.pred f.p3 then t.regs.readW .A 0#64 f.s1 else t.regs.readW .A 0#64 f.s2)

def execMov (f : FmtAR) (s : State) : Host.Outcome State Fault Refusal :=
  s.issue f.gd fun t => t.putW 1 .A f.d (t.srcA f.s3 f.s1)

def execClz (f : FmtAR) (s : State) : Host.Outcome State Fault Refusal :=
  s.issue f.gd fun t => t.putW 1 .A f.d (BitVec.ofNat 64 (leadZeros f.w (f.u1 t)))

def execCtz (f : FmtAR) (s : State) : Host.Outcome State Fault Refusal :=
  s.issue f.gd fun t => t.putW 1 .A f.d (BitVec.ofNat 64 (trailZeros f.w (f.u1 t)))

def execPcnt (f : FmtAR) (s : State) : Host.Outcome State Fault Refusal :=
  s.issue f.gd fun t => t.putW 1 .A f.d (BitVec.ofNat 64 (popCount f.w (f.u1 t)))

def execBrev (f : FmtAR) (s : State) : Host.Outcome State Fault Refusal :=
  s.issue f.gd fun t => t.putA 1 f (bitRev f.w (f.u1 t) : Nat)

def execBswap (f : FmtAR) (s : State) : Host.Outcome State Fault Refusal :=
  s.issue f.gd fun t => t.putA 1 f (byteRev (f.w / 8) (f.u1 t) : Nat)

def execLea (f : FmtAR) (s : State) : Host.Outcome State Fault Refusal :=
  s.issue f.gd fun t => t.putW 1 .A f.d (t.regs.readW .A 0#64 f.s1 + t.regs.readW .A 0#64 f.s2 <<< f.s3.toNat)

/-- `sadd` and `ssub` (R188). A clamp sets no SO: R188 names no flag (DESIGN CHOICE, log entry 86). -/
def execSadd (f : FmtAR) (s : State) : Host.Outcome State Fault Refusal :=
  s.issue f.gd fun t => t.putA 1 f (satInt f.ty (f.x t + f.y t))

def execSsub (f : FmtAR) (s : State) : Host.Outcome State Fault Refusal :=
  s.issue f.gd fun t => t.putA 1 f (satInt f.ty (f.x t - f.y t))

def execMadd (f : FmtAR) (s : State) : Host.Outcome State Fault Refusal :=
  s.issue f.gd fun t => t.putA 3 f (f.x t * f.y t + f.z t)

def execExt (f : FmtAR) (s : State) : Host.Outcome State Fault Refusal :=
  s.issue f.gd fun t => t.putA 1 f (f.x t)

def execClamp (f : FmtAR) (s : State) : Host.Outcome State Fault Refusal :=
  s.issue f.gd fun t => t.putA 1 f (Min.min (Max.max (f.x t) (f.y t)) (f.z t))

def execTst (f : FmtAR) (s : State) : Host.Outcome State Fault Refusal :=
  s.issue f.gd fun t =>
    let z := decide (f.u1 t &&& f.u2 t = 0)
    t.putP (predIx f.d) (match f.cnd with | .eq => z | _ => !z)

/-- `addc`: the sum and its carry land together (R188). -/
def execAddc (f : FmtAR) (s : State) : Host.Outcome State Fault Refusal :=
  s.issue f.gd fun t =>
    let n := (t.regs.readW .A 0#64 f.s1).toNat + (t.regs.readW .A 0#64 f.s2).toNat + (t.regs.pred f.p3).toNat
    (t.putW 1 .A f.d (BitVec.ofNat 64 n)).putP f.p3 (decide (2 ^ 64 ≤ n))

def execSubb (f : FmtAR) (s : State) : Host.Outcome State Fault Refusal :=
  s.issue f.gd fun t =>
    let u := (t.regs.readW .A 0#64 f.s1).toNat
    let n := (t.regs.readW .A 0#64 f.s2).toNat + (t.regs.pred f.p3).toNat
    (t.putW 1 .A f.d (BitVec.ofInt 64 ((u : Int) - n))).putP f.p3 (decide (u < n))

def execHmix (f : FmtAR) (s : State) : Host.Outcome State Fault Refusal :=
  s.issue f.gd fun t => t.putW 3 .A f.d (hmix (t.srcA f.s3 f.s1) (t.srcA f.s3 f.s2))

def execAlign (f : FmtAR) (s : State) : Host.Outcome State Fault Refusal :=
  s.issue f.gd fun t =>
    let n := (t.regs.readW .A 0#64 f.s1).toNat * 2 ^ 64 + (t.regs.readW .A 0#64 f.s2).toNat
    t.putW 1 .A f.d (BitVec.ofNat 64 (n / 2 ^ (8 * f.s3.toNat)))

def execCrc (f : FmtAR) (s : State) : Host.Outcome State Fault Refusal :=
  s.issue f.gd fun t =>
    t.putW 2 .A f.d (BitVec.ofNat 64
      (crcStep (f.w / 8) ((t.srcA f.s3 f.s1).toNat % 2 ^ 32) (t.srcA f.s3 f.s2).toNat))

def execBset (f : FmtAR) (s : State) : Host.Outcome State Fault Refusal :=
  s.issue f.gd fun t => t.putA 1 f (f.u1 t ||| 2 ^ f.k t : Nat)

def execBclr (f : FmtAR) (s : State) : Host.Outcome State Fault Refusal :=
  s.issue f.gd fun t => t.putA 1 f ((f.u1 t : Int) - (f.u1 t &&& 2 ^ f.k t : Nat))

def execBflip (f : FmtAR) (s : State) : Host.Outcome State Fault Refusal :=
  s.issue f.gd fun t => t.putA 1 f (f.u1 t ^^^ 2 ^ f.k t : Nat)

/-- `pack`: halves of 32 bits by default, else of the type's width, zero-extended. -/
def execPack (f : FmtAR) (s : State) : Host.Outcome State Fault Refusal :=
  s.issue f.gd fun t =>
    let w := match f.ty with | .n16 => 16 | .n8 => 8 | _ => 32
    t.putW 1 .A f.d (BitVec.ofNat 64
      ((t.srcA f.s3 f.s2).toNat % 2 ^ w * 2 ^ w + (t.srcA f.s3 f.s1).toNat % 2 ^ w))

/-! ## Constants and bit fields (R190, R191) -/

def execLi (f : FmtAI) (s : State) : Host.Outcome State Fault Refusal :=
  s.issue f.gd fun t => t.putW 1 .A f.d (f.imm.signExtend 64)

def execLih (f : FmtAI) (s : State) : Host.Outcome State Fault Refusal :=
  s.issue f.gd fun t =>
    t.putW 1 .A f.d (f.imm.signExtend 64 <<< 24 + ((t.regs.readW .A (f.imm.signExtend 64) f.s1).setWidth 24).setWidth 64)

def execLihHi (f : FmtAI) (s : State) : Host.Outcome State Fault Refusal :=
  s.issue f.gd fun t =>
    t.putW 1 .A f.d (f.imm.setWidth 64 <<< 40 + ((t.regs.readW .A (f.imm.signExtend 64) f.s1).setWidth 40).setWidth 64)

def execBfx (f : FmtAF) (s : State) : Host.Outcome State Fault Refusal :=
  s.issue f.gd fun t =>
    t.putW 1 .A f.d (BitVec.ofNat 64
      ((t.regs.readW .A 0#64 f.s1).toNat / 2 ^ f.pos.toNat % 2 ^ (f.wid.toNat + 1)))

def execBfi (f : FmtAF) (s : State) : Host.Outcome State Fault Refusal :=
  s.issue f.gd fun t =>
    let m : Word := BitVec.ofNat 64 ((2 ^ (f.wid.toNat + 1) - 1) * 2 ^ f.pos.toNat)
    t.putW 1 .A f.d ((t.regs.readW .A 0#64 f.s2 &&& ~~~m) ||| ((t.regs.readW .A 0#64 f.s1 <<< f.pos.toNat) &&& m))

/-! ## Task constants (R192 to R194) -/

/-- A value fixed by the launch of the issuing task; a task of no launch reads zero. -/
def State.fromLaunch (s : State) (t : Task) (f : Launch → Word) : Word :=
  match s.launch? t.launch with
  | some l => f l
  | none => 0#64

/-- The value a `crd` selector reads (R193). -/
def State.crdValue (s : State) (t : Task) (sel : Nat) : Word :=
  if sel < 3 then BitVec.ofNat 64 (coordComp t.coord sel)
  else if sel = 3 then t.coord.setWidth 64
  else if sel < 7 then s.fromLaunch t (fun l => BitVec.ofNat 64 (extOf l.rcd.ext (sel - 4)))
  else s.fromLaunch t (fun l => BitVec.ofNat 64 (l.img.trip (sel - 8)))

def execCrd (f : FmtAI) (s : State) : Host.Outcome State Fault Refusal :=
  s.issue f.gd fun t => t.putW 1 .A f.d (s.crdValue t f.imm.toNat)

def execRank (f : FmtAI) (s : State) : Host.Outcome State Fault Refusal :=
  s.issue f.gd fun t => t.putW 1 .A f.d (BitVec.ofNat 64 t.rank)

def execRankSz (f : FmtAI) (s : State) : Host.Outcome State Fault Refusal :=
  s.issue f.gd fun t => t.putW 1 .A f.d (s.fromLaunch t (fun l => BitVec.ofNat 64 (teamSize l.img l.ext)))

def execCbase (f : FmtAI) (s : State) : Host.Outcome State Fault Refusal :=
  s.issue f.gd fun t => t.putW 1 .A f.d (s.fromLaunch t (fun l => l.img.va + BitVec.ofNat 64 l.img.constOff))

/-- The 64-bit word of the argument block captured at admission; bytes at or beyond ARGSIZE read zero (R194). -/
def execArgb (f : FmtAI) (s : State) : Host.Outcome State Fault Refusal :=
  s.issue f.gd fun t =>
    t.putW 4 .A f.d (s.fromLaunch t (fun l => BitVec.ofNat 64 (leNat ((l.argb.drop f.imm.toNat).take 8))))

def execCtxid (f : FmtAI) (s : State) : Host.Outcome State Fault Refusal :=
  s.issue f.gd fun t => t.putW 1 .A f.d (BitVec.ofNat 64 t.ctx.val)

def execCtxidLid (f : FmtAI) (s : State) : Host.Outcome State Fault Refusal :=
  s.issue f.gd fun t => t.putW 1 .A f.d (s.fromLaunch t (fun l => l.rcd.lid.setWidth 64))

def execRdld (f : FmtAI) (s : State) : Host.Outcome State Fault Refusal :=
  s.issue f.gd fun t => t.putW 1 .A f.d (BitVec.ofNat 64 (t.regs.ald.toNat + 256 * t.regs.vld.toNat))

def execRdrb (f : FmtAI) (s : State) : Host.Outcome State Fault Refusal :=
  s.issue f.gd fun t => t.putW 1 .A f.d (BitVec.ofNat 64 (t.regs.arb.toNat + 256 * t.regs.vrb.toNat))

/-! ## locq (R99 to R101) -/

/-- `locq`: the query goes out through the interlocked queue and is answered when its value arrives. -/
def execLocq (f : FmtAI) (s : State) : Host.Outcome State Fault Refusal :=
  s.issue f.gd fun t => t.putPend (t.regs.dest .A f.d) (.locq (t.regs.readW .A 0#64 f.s1)) none

def execLocqSelf (f : FmtAI) (s : State) : Host.Outcome State Fault Refusal :=
  s.issue f.gd fun t => t.putPend (t.regs.dest .A f.d) (.locq (t.coord.setWidth 64)) none

end Sys2Proof.Machine
end

