-- ==== Sys2Proof/Machine/Vector.lean ====
section
/-! DEFINITION. The V slot (R195 to R222): operands, masks and latencies around the lane functions of Lanes. -/

namespace Sys2Proof.Machine

/-! ## Shared forms -/

/-- A V source with an immediate. -/
def Task.srcV (t : Task) (imm : Vec) (o : Opd) : Vec := t.regs.read .V imm o

/-- The value D holds at issue; zero for 0xC0 (R197). -/
def Task.oldV (t : Task) (d : Opd) : Vec := t.regs.read .V 0#1024 d

/-- Runs a V-R operation over the enabled elements of a type and puts the result in flight (R198). `x`, `y`, `z` are the
operands with `imm` at 0xC1. -/
def Task.runVR (t : Task) (f : FmtVR) (w lat : Nat) (imm : Vec) (op : Vec → Vec → Vec → Nat → Nat × FFlags) : Task :=
  let x := t.srcV imm f.s1
  let y := t.srcV imm f.s2
  let z := t.srcV 0#1024 (s3Opd f.s3)
  let r := lanesRun w (laneEn f.msk (t.regs.mask f.k.toNat) w) (t.oldV f.d) (op x y z)
  t.putV lat .V f.d r.1 r.2

/-- The same element by element, with the immediate converted to the element type (R202). -/
def Task.eachVR (t : Task) (f : FmtVR) (ty : Ty) (lat : Nat) (op : Nat → Nat → Nat → Nat × FFlags) : Task :=
  let w := tyWidth ty
  t.runVR f w lat (immVec ty f.s3) (fun x y z i => op (elem w x i) (elem w y i) (elem w z i))

/-- `n` where the type is f64, else 0 (R202). -/
def ifF64 (ty : Ty) (n : Nat) : Nat := if ty = .f64 then n else 0

/-- The latency of `vadd` and `vsub` (R202, R203). -/
def addLat (ty : Ty) : Nat := if tyIsFloat ty then 3 + ifF64 ty 1 else 1

/-- A value with no flags. -/
def quiet (n : Nat) : Nat × FFlags := (n, 0#7)

/-! ## Floating and integer lane arithmetic (R202 to R204) -/

def execVadd (f : FmtVR) (s : State) : Host.Outcome State Fault Refusal :=
  s.issue f.gd fun t => let ty := tyOr .f32 f.ty
    t.eachVR f ty (addLat ty) fun x y _ => addE ty f.rm f.sat x y

def execVsub (f : FmtVR) (s : State) : Host.Outcome State Fault Refusal :=
  s.issue f.gd fun t => let ty := tyOr .f32 f.ty
    t.eachVR f ty (addLat ty) fun x y _ => subE ty f.rm f.sat x y

def execVmul (f : FmtVR) (s : State) : Host.Outcome State Fault Refusal :=
  s.issue f.gd fun t => let ty := tyOr .f32 f.ty
    t.eachVR f ty (3 + ifF64 ty 1) fun x y _ => mulE ty f.rm f.sat x y

def execVfma (f : FmtVR) (s : State) : Host.Outcome State Fault Refusal :=
  s.issue f.gd fun t => let ty := tyOr .f32 f.ty
    t.eachVR f ty (4 + ifF64 ty 1) fun x y z => fmaE ty f.rm f.sat false false x y z

def execVfms (f : FmtVR) (s : State) : Host.Outcome State Fault Refusal :=
  s.issue f.gd fun t => let ty := tyOr .f32 f.ty
    t.eachVR f ty (4 + ifF64 ty 1) fun x y z => fmaE ty f.rm f.sat false true x y z

def execVfnma (f : FmtVR) (s : State) : Host.Outcome State Fault Refusal :=
  s.issue f.gd fun t => let ty := tyOr .f32 f.ty
    t.eachVR f ty (4 + ifF64 ty 1) fun x y z => fmaE ty f.rm f.sat true false x y z

def execVmin (f : FmtVR) (s : State) : Host.Outcome State Fault Refusal :=
  s.issue f.gd fun t => let ty := tyOr .f32 f.ty
    t.eachVR f ty 1 fun x y _ => quiet (minmaxE false ty x y)

def execVmax (f : FmtVR) (s : State) : Host.Outcome State Fault Refusal :=
  s.issue f.gd fun t => let ty := tyOr .f32 f.ty
    t.eachVR f ty 1 fun x y _ => quiet (minmaxE true ty x y)

def execVabs (f : FmtVR) (s : State) : Host.Outcome State Fault Refusal :=
  s.issue f.gd fun t => let ty := tyOr .f32 f.ty
    t.eachVR f ty 1 fun x _ _ => absE ty f.sat x

def execVneg (f : FmtVR) (s : State) : Host.Outcome State Fault Refusal :=
  s.issue f.gd fun t => let ty := tyOr .f32 f.ty
    t.eachVR f ty 1 fun x _ _ => negE ty f.sat x

def execVfrcp (f : FmtVR) (s : State) : Host.Outcome State Fault Refusal :=
  s.issue f.gd fun t => let ty := tyOr .f32 f.ty
    t.eachVR f ty (8 + ifF64 ty 4) fun x _ _ => rcpE ty f.rm f.sat x

def execVfsqrt (f : FmtVR) (s : State) : Host.Outcome State Fault Refusal :=
  s.issue f.gd fun t => let ty := tyOr .f32 f.ty
    t.eachVR f ty (12 + ifF64 ty 8) fun x _ _ => sqrtE ty f.rm f.sat x

def execVdiv (f : FmtVR) (s : State) : Host.Outcome State Fault Refusal :=
  s.issue f.gd fun t => let ty := tyOr .f32 f.ty
    t.eachVR f ty (16 + ifF64 ty 8) fun x y _ => divE ty f.rm f.sat x y

/-- `vscl`: under 0xC1 an exponent is the sign-extended S3 itself, while a first source is converted (R202). -/
def execVscl (f : FmtVR) (s : State) : Host.Outcome State Fault Refusal :=
  s.issue f.gd fun t =>
    let ty := tyOr .f32 f.ty
    let w := tyWidth ty
    let x := t.srcV (immVec ty f.s3) f.s1
    t.runVR f w 2 (immIntVec w f.s3) fun _ y _ i => sclE ty f.rm f.sat (elem w x i) (elem w y i)

def execVrnd (f : FmtVR) (s : State) : Host.Outcome State Fault Refusal :=
  s.issue f.gd fun t => let ty := tyOr .f32 f.ty
    t.eachVR f ty 2 fun x _ _ => rndE ty f.rm x

def execVmulh (f : FmtVR) (s : State) : Host.Outcome State Fault Refusal :=
  s.issue f.gd fun t => let ty := tyOr .i32 f.ty
    t.eachVR f ty 3 fun x y _ => fitE ty false ((tyVal ty x * tyVal ty y) / (2 ^ tyWidth ty : Int))

def execVsadd (f : FmtVR) (s : State) : Host.Outcome State Fault Refusal :=
  s.issue f.gd fun t => let ty := tyOr .i32 f.ty
    t.eachVR f ty 1 fun x y _ => fitE ty true (tyVal ty x + tyVal ty y)

def execVssub (f : FmtVR) (s : State) : Host.Outcome State Fault Refusal :=
  s.issue f.gd fun t => let ty := tyOr .i32 f.ty
    t.eachVR f ty 1 fun x y _ => fitE ty true (tyVal ty x - tyVal ty y)

def execVmadd (f : FmtVR) (s : State) : Host.Outcome State Fault Refusal :=
  s.issue f.gd fun t => let ty := tyOr .i32 f.ty
    t.eachVR f ty 3 fun x y z => fitE ty f.sat (tyVal ty x * tyVal ty y + tyVal ty z)

def execVclamp (f : FmtVR) (s : State) : Host.Outcome State Fault Refusal :=
  s.issue f.gd fun t => let ty := tyOr .f32 f.ty
    t.eachVR f ty 1 fun x y z => quiet (minmaxE false ty (minmaxE true ty x y) z)

def execVsgn (f : FmtVR) (s : State) : Host.Outcome State Fault Refusal :=
  s.issue f.gd fun t => let ty := tyOr .f32 f.ty
    t.eachVR f ty 1 fun x y _ => sgnE ty f.sat x y

/-- The shift count uval(y) mod w of the vector shifts (R204). -/
def shiftCount (ty : Ty) (y : Nat) : Nat := y % tyWidth ty

def execVshl (f : FmtVR) (s : State) : Host.Outcome State Fault Refusal :=
  s.issue f.gd fun t => let ty := tyOr .i32 f.ty
    t.eachVR f ty 1 fun x y _ => fitE ty f.sat (x * 2 ^ shiftCount ty y : Nat)

def execVshr (f : FmtVR) (s : State) : Host.Outcome State Fault Refusal :=
  s.issue f.gd fun t => let ty := tyOr .i32 f.ty
    t.eachVR f ty 1 fun x y _ => fitE ty f.sat (x / 2 ^ shiftCount ty y : Nat)

def execVsar (f : FmtVR) (s : State) : Host.Outcome State Fault Refusal :=
  s.issue f.gd fun t => let ty := tyOr .i32 f.ty
    t.eachVR f ty 1 fun x y _ => fitE ty f.sat (sval (tyWidth ty) x / (2 ^ shiftCount ty y : Int))

def execVclz (f : FmtVR) (s : State) : Host.Outcome State Fault Refusal :=
  s.issue f.gd fun t => let ty := tyOr .i32 f.ty
    t.eachVR f ty 1 fun x _ _ => quiet (leadZeros (tyWidth ty) x)

def execVpcnt (f : FmtVR) (s : State) : Host.Outcome State Fault Refusal :=
  s.issue f.gd fun t => let ty := tyOr .i32 f.ty
    t.eachVR f ty 1 fun x _ _ => quiet (popCount (tyWidth ty) x)

def execVclass (f : FmtVR) (s : State) : Host.Outcome State Fault Refusal :=
  s.issue f.gd fun t => let ty := tyOr .f32 f.ty
    t.eachVR f ty 1 fun x _ _ => quiet (classE ty x)

/-! ## Bitwise (R205) -/

/-- A bitwise operation over 32-bit lanes, with the sign-extended S3 in every lane at 0xC1. -/
def Task.bitVR (t : Task) (f : FmtVR) (op : Nat → Nat → Nat) : Task :=
  t.runVR f 32 1 (immIntVec 32 f.s3) fun x y _ i => quiet (op (elem 32 x i) (elem 32 y i))

def execVand (f : FmtVR) (s : State) : Host.Outcome State Fault Refusal :=
  s.issue f.gd fun t => t.bitVR f fun x y => x &&& y

def execVor (f : FmtVR) (s : State) : Host.Outcome State Fault Refusal :=
  s.issue f.gd fun t => t.bitVR f fun x y => x ||| y

def execVxor (f : FmtVR) (s : State) : Host.Outcome State Fault Refusal :=
  s.issue f.gd fun t => t.bitVR f fun x y => x ^^^ y

def execVandn (f : FmtVR) (s : State) : Host.Outcome State Fault Refusal :=
  s.issue f.gd fun t => t.bitVR f fun x y => x - (x &&& y)

def execVmov (f : FmtVR) (s : State) : Host.Outcome State Fault Refusal :=
  s.issue f.gd fun t => t.bitVR f fun x _ => x

/-! ## Compares, selects and masks (R206 to R208) -/

/-- The condition that SUB[3:0] of `vcmp` holds (R206). -/
def cndOfSub (sub : BitVec 5) : Cnd :=
  match sub.toNat % 16 with
  | 0 => .eq
  | 1 => .ne
  | 2 => .lt
  | 3 => .le
  | 4 => .gt
  | 5 => .ge
  | 6 => .uo
  | _ => .ord

def execVcmp (f : FmtVR) (s : State) : Host.Outcome State Fault Refusal :=
  s.issue f.gd fun t =>
    let ty := tyOr .f32 f.ty
    let imm := immVec ty f.s3
    t.putK 1 (maskIx f.d)
      (vcmpMask ty (cndOfSub f.sub) f.msk (t.regs.mask f.k.toNat) (t.srcV imm f.s1) (t.srcV imm f.s2)) 0#7

def execVsel (f : FmtVR) (s : State) : Host.Outcome State Fault Refusal :=
  s.issue f.gd fun t =>
    let w := tyWidth (tyOr .n32 f.ty)
    t.runVR f w 1 0#1024 fun x y z i => quiet (if elem w z i = 0 then elem w y i else elem w x i)

/-- `vmerge`: K names the selector, and no element is masked (R207). -/
def execVmerge (f : FmtVR) (s : State) : Host.Outcome State Fault Refusal :=
  s.issue f.gd fun t =>
    let w := tyWidth (tyOr .n32 f.ty)
    let km := t.regs.mask f.k.toNat
    t.runVR { f with msk := false } w 1 (immIntVec w f.s3)
      fun x y _ i => quiet (if km.getLsbD (laneOf w i) then elem w x i else elem w y i)

/-- A lane mask named by a field; 0xC0 in `kmov` gives zero (R208). -/
def Task.maskSrc (t : Task) (o : Opd) : BitVec 32 :=
  match o with
  | .main i => t.regs.mask i.toNat
  | _ => 0#32

def execVany (f : FmtVK) (s : State) : Host.Outcome State Fault Refusal :=
  s.issue f.gd fun t => t.putP (predIx f.d) (t.maskSrc f.s1 != 0#32)

def execVall (f : FmtVK) (s : State) : Host.Outcome State Fault Refusal :=
  s.issue f.gd fun t => t.putP (predIx f.d) (t.maskSrc f.s1 == 0xFFFFFFFF#32)

def execKand (f : FmtVK) (s : State) : Host.Outcome State Fault Refusal :=
  s.issue f.gd fun t => t.putK 1 (maskIx f.d) (t.maskSrc f.s1 &&& t.maskSrc f.s2) 0#7

def execKor (f : FmtVK) (s : State) : Host.Outcome State Fault Refusal :=
  s.issue f.gd fun t => t.putK 1 (maskIx f.d) (t.maskSrc f.s1 ||| t.maskSrc f.s2) 0#7

def execKxor (f : FmtVK) (s : State) : Host.Outcome State Fault Refusal :=
  s.issue f.gd fun t => t.putK 1 (maskIx f.d) (t.maskSrc f.s1 ^^^ t.maskSrc f.s2) 0#7

def execKmov (f : FmtVK) (s : State) : Host.Outcome State Fault Refusal :=
  s.issue f.gd fun t => t.putK 1 (maskIx f.d) (t.maskSrc f.s1) 0#7

def execKpop (f : FmtVK) (s : State) : Host.Outcome State Fault Refusal :=
  s.issue f.gd fun t => t.putV 2 .V f.d (bcast32 (popCount 32 (t.maskSrc f.s1).toNat)) 0#7

/-! ## Permutes and immediates (R209, R210) -/

/-- Width of a V-P instruction (class W). -/
def vpW (f : FmtVP) : Nat := tyWidth (tyOr .n32 f.ty)

/-- A one-source permute by an index function. -/
def Task.permVP (t : Task) (f : FmtVP) (ix : Nat → Nat) : Task :=
  t.putV 2 .V f.d (permute (vpW f) (t.srcV 0#1024 f.s1) ix) 0#7

/-- A two-source permute: element i comes from S1 where `fst i`. -/
def Task.permVP2 (t : Task) (f : FmtVP) (fst : Nat → Bool) (ix : Nat → Nat) : Task :=
  t.putV 2 .V f.d (permute2 (vpW f) (t.srcV 0#1024 f.s1) (t.srcV 0#1024 f.s2) fst ix) 0#7

def execVperm (f : FmtVP) (s : State) : Host.Outcome State Fault Refusal :=
  s.issue f.gd fun t =>
    let y := t.srcV 0#1024 f.s2
    t.permVP f fun i => elem (vpW f) y i % (1024 / vpW f)

def execVshuf (f : FmtVP) (s : State) : Host.Outcome State Fault Refusal :=
  s.issue f.gd fun t => t.permVP f fun i => i ^^^ f.ctl.toNat

def execVrotl (f : FmtVP) (s : State) : Host.Outcome State Fault Refusal :=
  s.issue f.gd fun t => let n := 1024 / vpW f
    t.permVP f fun i => (i + n - f.ctl.toNat) % n

def execVbrev (f : FmtVP) (s : State) : Host.Outcome State Fault Refusal :=
  s.issue f.gd fun t => let b := f.ctl.toNat
    t.permVP f fun i => i / 2 ^ b * 2 ^ b + bitRev b (i % 2 ^ b)

def execVzip (f : FmtVP) (s : State) : Host.Outcome State Fault Refusal :=
  s.issue f.gd fun t => let n := 1024 / vpW f
    t.permVP2 f (fun i => i % 2 == 0) fun i => i / 2 + f.ctl.toNat * n / 2

def execVuzp (f : FmtVP) (s : State) : Host.Outcome State Fault Refusal :=
  s.issue f.gd fun t => let n := 1024 / vpW f
    t.permVP2 f (fun i => decide (i < n / 2)) fun i => if i < n / 2 then 2 * i + f.ctl.toNat else 2 * (i - n / 2) + f.ctl.toNat

def execVtrn (f : FmtVP) (s : State) : Host.Outcome State Fault Refusal :=
  s.issue f.gd fun t =>
    t.permVP2 f (fun i => i % 2 == 0) fun i => if i % 2 = 0 then i + f.ctl.toNat else i - 1 + f.ctl.toNat

def execVrev (f : FmtVP) (s : State) : Host.Outcome State Fault Refusal :=
  s.issue f.gd fun t => t.permVP f fun i => i ^^^ (2 ^ f.ctl.toNat - 1)

def execVinsl (f : FmtVP) (s : State) : Host.Outcome State Fault Refusal :=
  s.issue f.gd fun t =>
    t.permVP2 f (fun i => i != f.ctl.toNat) fun i => if i = f.ctl.toNat then 0 else i

def execVbcst (f : FmtVP) (s : State) : Host.Outcome State Fault Refusal :=
  s.issue f.gd fun t => t.permVP f fun _ => f.ctl.toNat

def execVsort2 (f : FmtVR) (s : State) : Host.Outcome State Fault Refusal :=
  s.issue f.gd fun t => let ty := tyOr .f32 f.ty
    t.runVR f (tyWidth ty) 2 (immVec ty f.s3) fun x _ _ i =>
      quiet (sortE ty (f.sub.toNat % 8) (f.sub.getLsbD 3) x i)

/-- `vext`: element i + s of the concatenation with S1 low; S3 is the count (R209). -/
def execVext (f : FmtVR) (s : State) : Host.Outcome State Fault Refusal :=
  s.issue f.gd fun t =>
    let w := tyWidth (tyOr .n32 f.ty)
    let n := 1024 / w
    t.runVR f w 2 0#1024 fun x y _ i =>
      let j := i + f.s3.toNat
      quiet (if j < n then elem w x j else elem w y (j - n))

/-- A V-I constant, element by element (R210). -/
def Task.constVI (t : Task) (f : FmtVI) (ty : Ty) (op : Nat → Nat × FFlags) : Task :=
  let w := tyWidth ty
  let r := lanesRun w (laneEn f.msk (t.regs.mask f.k.toNat) w) (t.oldV f.d) op
  t.putV 1 .V f.d r.1 r.2

def execVli (f : FmtVI) (s : State) : Host.Outcome State Fault Refusal :=
  s.issue f.gd fun t => let ty := tyOr .f32 f.ty
    t.constVI f ty fun _ =>
      if tyIsFloat ty then roundF (tyFmt ty) .rne false (fOfInt f.imm.toInt) else fitE ty false f.imm.toInt

def execVlane (f : FmtVI) (s : State) : Host.Outcome State Fault Refusal :=
  s.issue f.gd fun t => let ty := tyOr .i32 f.ty
    t.constVI f ty fun i => fitE ty false (f.imm.toInt + i)

/-! ## Complex values (R211 to R213) -/

def execVcmul (f : FmtVR) (s : State) : Host.Outcome State Fault Refusal :=
  s.issue f.gd fun t => let ty := tyOr .f32 f.ty
    let x := t.srcV (immVec ty f.s3) f.s1
    t.runVR f (tyWidth ty) 4 (immComplex ty f.s3) fun _ y _ i => cmulE ty f.rm f.sat (f.sub.getLsbD 0) x y i

/-- `vconj` flips the sign of every odd element (R212). -/
def execVconj (f : FmtVR) (s : State) : Host.Outcome State Fault Refusal :=
  s.issue f.gd fun t => let ty := tyOr .f32 f.ty
    let w := tyWidth ty
    t.runVR f w 1 (immVec ty f.s3) fun x _ _ i =>
      if i % 2 = 1 then negE ty false (elem w x i) else quiet (canonE ty (elem w x i))

def execVbfly (f : FmtVR) (s : State) : Host.Outcome State Fault Refusal :=
  s.issue f.gd fun t => let ty := tyOr .f32 f.ty
    let x := t.srcV (immVec ty f.s3) f.s1
    t.runVR f (tyWidth ty) 5 (immComplex ty f.s3) fun _ y _ i =>
      bflyE ty f.rm f.sat (f.sub.getLsbD 3) (f.sub.toNat % 8) x y i

/-! ## Reductions and dot products (R214 to R216) -/

/-- A reduction writes element 0 and zeroes the rest; MK selects what contributes (R214). -/
def Task.reduceVR (t : Task) (f : FmtVR) (ty : Ty) (lat w : Nat) (op : (Nat → Bool) → Vec → Nat × FFlags) : Task :=
  let x := t.srcV (immVec ty f.s3) f.s1
  let r := op (laneEn f.msk (t.regs.mask f.k.toNat) (tyWidth ty)) x
  t.putV lat .V f.d (ofElems w [r.1]) r.2

def execVred (f : FmtVR) (s : State) : Host.Outcome State Fault Refusal :=
  s.issue f.gd fun t =>
    t.reduceVR f f.ty (10 + ifF64 f.ty 2) (tyWidth f.ty) fun en x => vredE f.ty f.rm f.sat f.sub.toNat en x

def execVmaxi (f : FmtVR) (s : State) : Host.Outcome State Fault Refusal :=
  s.issue f.gd fun t => let ty := tyOr .f32 f.ty
    t.reduceVR f ty 6 32 fun en x => quiet (vbestE true ty en x)

def execVmini (f : FmtVR) (s : State) : Host.Outcome State Fault Refusal :=
  s.issue f.gd fun t => let ty := tyOr .f32 f.ty
    t.reduceVR f ty 6 32 fun en x => quiet (vbestE false ty en x)

def execVdot (f : FmtVR) (s : State) : Host.Outcome State Fault Refusal :=
  s.issue f.gd fun t => t.runVR f 32 4 0#1024 fun x y z j => dotE f.ty f.rm f.sat x y z j

/-! ## Conversions, scales and counts (R217 to R222) -/

/-- PART and ROW of S3 (R201). -/
def vcPart (f : FmtVC) : Nat := f.s3.toNat / 32
def vcRow (f : FmtVC) : Nat := f.s3.toNat % 32

def execVcvt (f : FmtVC) (s : State) : Host.Outcome State Fault Refusal :=
  s.issue f.gd fun t =>
    let r := vcvtV f.ty f.ts f.rm f.sat f.s3.toNat (t.srcV 0#1024 f.s1) (t.srcV 0#1024 f.s2)
    t.putV 3 .V f.d r.1 r.2

def execVqnt (f : FmtVC) (s : State) : Host.Outcome State Fault Refusal :=
  s.issue f.gd fun t =>
    let r := vqntV f.ty f.ts f.rm f.sat f.gr.toNat (vcPart f) (vcRow f) (t.oldV f.d) (t.srcV 0#1024 f.s1)
      (t.srcV 0#1024 f.s2)
    t.putV 4 .V f.d r.1 r.2

def execVdqnt (f : FmtVC) (s : State) : Host.Outcome State Fault Refusal :=
  s.issue f.gd fun t =>
    let r := vdqntV f.ty f.ts f.rm f.sat f.gr.toNat (vcPart f) (vcRow f) (t.srcV 0#1024 f.s1) (t.srcV 0#1024 f.s2)
    t.putV 4 .V f.d r.1 r.2

def execVamax (f : FmtVC) (s : State) : Host.Outcome State Fault Refusal :=
  s.issue f.gd fun t => t.putV 3 .V f.d (vamaxV f.ts f.gr.toNat (t.srcV 0#1024 f.s1) (t.srcV 0#1024 f.s2)) 0#7

def execVpack4 (f : FmtVC) (s : State) : Host.Outcome State Fault Refusal :=
  s.issue f.gd fun t =>
    let r := vpack4V f.sat (t.srcV 0#1024 f.s1) (t.srcV 0#1024 f.s2)
    t.putV 2 .V f.d r.1 r.2

def execVunpk4 (f : FmtVC) (s : State) : Host.Outcome State Fault Refusal :=
  s.issue f.gd fun t => t.putV 2 .V f.d (vunpk4V (vcPart f) (t.srcV 0#1024 f.s1)) 0#7

def execVcnt (f : FmtVC) (s : State) : Host.Outcome State Fault Refusal :=
  s.issue f.gd fun t =>
    let ty := tyOr .f32 f.ty
    let r := vcntV ty (f.ts == .i32) f.rm f.sat (t.srcV 0#1024 f.s1) (t.srcV 0#1024 f.s2)
      (t.srcV 0#1024 (s3Opd f.s3))
    t.putV (if ty = .f64 then 5 else 4) .V f.d r.1 r.2

end Sys2Proof.Machine
end

