-- ==== Sys2Proof/Machine/Dispatch.lean ====
section
/-! DEFINITION. One arm for each row of the opcode table. -/

namespace Sys2Proof.Machine

def exec (i : Instr) (s : State) : Host.Outcome State Fault Refusal :=
  match i with
  | .nop sl f => Sys2Proof.Machine.execNop sl f s
  | .xcp sl f => Sys2Proof.Machine.execXcp sl f s
  | .br f => Sys2Proof.Machine.execBr f s
  | .brx f => Sys2Proof.Machine.execBrx f s
  | .call f => Sys2Proof.Machine.execCall f s
  | .callx f => Sys2Proof.Machine.execCallx f s
  | .ret f => Sys2Proof.Machine.execRet f s
  | .loop f => Sys2Proof.Machine.execLoop f s
  | .loopRot f => Sys2Proof.Machine.execLoopRot f s
  | .lpend f => Sys2Proof.Machine.execLpend f s
  | .lpbrk f => Sys2Proof.Machine.execLpbrk f s
  | .endTask f => Sys2Proof.Machine.execEndTask f s
  | .svc f => Sys2Proof.Machine.execSvc f s
  | .brk f => Sys2Proof.Machine.execBrk f s
  | .sysr f => Sys2Proof.Machine.execSysr f s
  | .sysw f => Sys2Proof.Machine.execSysw f s
  | .tstamp f => Sys2Proof.Machine.execTstamp f s
  | .rdcyc f => Sys2Proof.Machine.execRdcyc f s
  | .cli f => Sys2Proof.Machine.execCli f s
  | .cmov f => Sys2Proof.Machine.execCmov f s
  | .cadd f => Sys2Proof.Machine.execCadd f s
  | .csub f => Sys2Proof.Machine.execCsub f s
  | .cand f => Sys2Proof.Machine.execCand f s
  | .cor f => Sys2Proof.Machine.execCor f s
  | .cxor f => Sys2Proof.Machine.execCxor f s
  | .ccmp f => Sys2Proof.Machine.execCcmp f s
  | .pand f => Sys2Proof.Machine.execPand f s
  | .por f => Sys2Proof.Machine.execPor f s
  | .pxor f => Sys2Proof.Machine.execPxor f s
  | .pmov f => Sys2Proof.Machine.execPmov f s
  | .pset f => Sys2Proof.Machine.execPset f s
  | .setld f => Sys2Proof.Machine.execSetld f s
  | .add f => Sys2Proof.Machine.execAdd f s
  | .sub f => Sys2Proof.Machine.execSub f s
  | .mul f => Sys2Proof.Machine.execMul f s
  | .mulh f => Sys2Proof.Machine.execMulh f s
  | .div f => Sys2Proof.Machine.execDiv f s
  | .rem f => Sys2Proof.Machine.execRem f s
  | .and f => Sys2Proof.Machine.execAnd f s
  | .or f => Sys2Proof.Machine.execOr f s
  | .xor f => Sys2Proof.Machine.execXor f s
  | .andn f => Sys2Proof.Machine.execAndn f s
  | .shl f => Sys2Proof.Machine.execShl f s
  | .shr f => Sys2Proof.Machine.execShr f s
  | .sar f => Sys2Proof.Machine.execSar f s
  | .rot f => Sys2Proof.Machine.execRot f s
  | .min f => Sys2Proof.Machine.execMin f s
  | .max f => Sys2Proof.Machine.execMax f s
  | .abs f => Sys2Proof.Machine.execAbs f s
  | .neg f => Sys2Proof.Machine.execNeg f s
  | .cmp f => Sys2Proof.Machine.execCmp f s
  | .sel f => Sys2Proof.Machine.execSel f s
  | .mov f => Sys2Proof.Machine.execMov f s
  | .li f => Sys2Proof.Machine.execLi f s
  | .lih f => Sys2Proof.Machine.execLih f s
  | .lihHi f => Sys2Proof.Machine.execLihHi f s
  | .bfx f => Sys2Proof.Machine.execBfx f s
  | .bfi f => Sys2Proof.Machine.execBfi f s
  | .clz f => Sys2Proof.Machine.execClz f s
  | .ctz f => Sys2Proof.Machine.execCtz f s
  | .pcnt f => Sys2Proof.Machine.execPcnt f s
  | .brev f => Sys2Proof.Machine.execBrev f s
  | .bswap f => Sys2Proof.Machine.execBswap f s
  | .lea f => Sys2Proof.Machine.execLea f s
  | .sadd f => Sys2Proof.Machine.execSadd f s
  | .ssub f => Sys2Proof.Machine.execSsub f s
  | .madd f => Sys2Proof.Machine.execMadd f s
  | .ext f => Sys2Proof.Machine.execExt f s
  | .clamp f => Sys2Proof.Machine.execClamp f s
  | .tst f => Sys2Proof.Machine.execTst f s
  | .addc f => Sys2Proof.Machine.execAddc f s
  | .subb f => Sys2Proof.Machine.execSubb f s
  | .hmix f => Sys2Proof.Machine.execHmix f s
  | .align f => Sys2Proof.Machine.execAlign f s
  | .crc f => Sys2Proof.Machine.execCrc f s
  | .bset f => Sys2Proof.Machine.execBset f s
  | .bclr f => Sys2Proof.Machine.execBclr f s
  | .bflip f => Sys2Proof.Machine.execBflip f s
  | .pack f => Sys2Proof.Machine.execPack f s
  | .crd f => Sys2Proof.Machine.execCrd f s
  | .rank f => Sys2Proof.Machine.execRank f s
  | .rankSz f => Sys2Proof.Machine.execRankSz f s
  | .cbase f => Sys2Proof.Machine.execCbase f s
  | .argb f => Sys2Proof.Machine.execArgb f s
  | .locq f => Sys2Proof.Machine.execLocq f s
  | .locqSelf f => Sys2Proof.Machine.execLocqSelf f s
  | .ctxid f => Sys2Proof.Machine.execCtxid f s
  | .ctxidLid f => Sys2Proof.Machine.execCtxidLid f s
  | .rdld f => Sys2Proof.Machine.execRdld f s
  | .rdrb f => Sys2Proof.Machine.execRdrb f s
  | .vadd f => Sys2Proof.Machine.execVadd f s
  | .vsub f => Sys2Proof.Machine.execVsub f s
  | .vmul f => Sys2Proof.Machine.execVmul f s
  | .vfma f => Sys2Proof.Machine.execVfma f s
  | .vfms f => Sys2Proof.Machine.execVfms f s
  | .vfnma f => Sys2Proof.Machine.execVfnma f s
  | .vmin f => Sys2Proof.Machine.execVmin f s
  | .vmax f => Sys2Proof.Machine.execVmax f s
  | .vabs f => Sys2Proof.Machine.execVabs f s
  | .vneg f => Sys2Proof.Machine.execVneg f s
  | .vfrcp f => Sys2Proof.Machine.execVfrcp f s
  | .vfsqrt f => Sys2Proof.Machine.execVfsqrt f s
  | .vdiv f => Sys2Proof.Machine.execVdiv f s
  | .vscl f => Sys2Proof.Machine.execVscl f s
  | .vcmp f => Sys2Proof.Machine.execVcmp f s
  | .vsel f => Sys2Proof.Machine.execVsel f s
  | .vany f => Sys2Proof.Machine.execVany f s
  | .vall f => Sys2Proof.Machine.execVall f s
  | .kand f => Sys2Proof.Machine.execKand f s
  | .kor f => Sys2Proof.Machine.execKor f s
  | .kxor f => Sys2Proof.Machine.execKxor f s
  | .kmov f => Sys2Proof.Machine.execKmov f s
  | .vand f => Sys2Proof.Machine.execVand f s
  | .vor f => Sys2Proof.Machine.execVor f s
  | .vxor f => Sys2Proof.Machine.execVxor f s
  | .vandn f => Sys2Proof.Machine.execVandn f s
  | .vshl f => Sys2Proof.Machine.execVshl f s
  | .vshr f => Sys2Proof.Machine.execVshr f s
  | .vsar f => Sys2Proof.Machine.execVsar f s
  | .vmov f => Sys2Proof.Machine.execVmov f s
  | .vperm f => Sys2Proof.Machine.execVperm f s
  | .vshuf f => Sys2Proof.Machine.execVshuf f s
  | .vrotl f => Sys2Proof.Machine.execVrotl f s
  | .vbrev f => Sys2Proof.Machine.execVbrev f s
  | .vzip f => Sys2Proof.Machine.execVzip f s
  | .vuzp f => Sys2Proof.Machine.execVuzp f s
  | .vlane f => Sys2Proof.Machine.execVlane f s
  | .vli f => Sys2Proof.Machine.execVli f s
  | .vcmul f => Sys2Proof.Machine.execVcmul f s
  | .vbfly f => Sys2Proof.Machine.execVbfly f s
  | .vconj f => Sys2Proof.Machine.execVconj f s
  | .vmulh f => Sys2Proof.Machine.execVmulh f s
  | .vsadd f => Sys2Proof.Machine.execVsadd f s
  | .vssub f => Sys2Proof.Machine.execVssub f s
  | .vdot f => Sys2Proof.Machine.execVdot f s
  | .vpcnt f => Sys2Proof.Machine.execVpcnt f s
  | .vcvt f => Sys2Proof.Machine.execVcvt f s
  | .vqnt f => Sys2Proof.Machine.execVqnt f s
  | .vdqnt f => Sys2Proof.Machine.execVdqnt f s
  | .vamax f => Sys2Proof.Machine.execVamax f s
  | .vred f => Sys2Proof.Machine.execVred f s
  | .vcnt f => Sys2Proof.Machine.execVcnt f s
  | .vpack4 f => Sys2Proof.Machine.execVpack4 f s
  | .vunpk4 f => Sys2Proof.Machine.execVunpk4 f s
  | .vclz f => Sys2Proof.Machine.execVclz f s
  | .vrnd f => Sys2Proof.Machine.execVrnd f s
  | .vclass f => Sys2Proof.Machine.execVclass f s
  | .vmadd f => Sys2Proof.Machine.execVmadd f s
  | .vext f => Sys2Proof.Machine.execVext f s
  | .vclamp f => Sys2Proof.Machine.execVclamp f s
  | .vinsl f => Sys2Proof.Machine.execVinsl f s
  | .kpop f => Sys2Proof.Machine.execKpop f s
  | .vsort2 f => Sys2Proof.Machine.execVsort2 f s
  | .vmaxi f => Sys2Proof.Machine.execVmaxi f s
  | .vmini f => Sys2Proof.Machine.execVmini f s
  | .vbcst f => Sys2Proof.Machine.execVbcst f s
  | .vsgn f => Sys2Proof.Machine.execVsgn f s
  | .vmerge f => Sys2Proof.Machine.execVmerge f s
  | .vtrn f => Sys2Proof.Machine.execVtrn f s
  | .vrev f => Sys2Proof.Machine.execVrev f s
  | .ld f => Sys2Proof.Machine.execLd f s
  | .st f => Sys2Proof.Machine.execSt f s
  | .ldv f => Sys2Proof.Machine.execLdv f s
  | .stv f => Sys2Proof.Machine.execStv f s
  | .ldpi f => Sys2Proof.Machine.execLdpi f s
  | .stpi f => Sys2Proof.Machine.execStpi f s
  | .ldf f => Sys2Proof.Machine.execLdf f s
  | .lde f => Sys2Proof.Machine.execLde f s
  | .ste f => Sys2Proof.Machine.execSte f s
  | .stf f => Sys2Proof.Machine.execStf f s
  | .clre f => Sys2Proof.Machine.execClre f s
  | .gth f => Sys2Proof.Machine.execGth f s
  | .sct f => Sys2Proof.Machine.execSct f s
  | .ldb f => Sys2Proof.Machine.execLdb f s
  | .probe f => Sys2Proof.Machine.execProbe f s
  | .pref f => Sys2Proof.Machine.execPref f s
  | .disc f => Sys2Proof.Machine.execDisc f s
  | .cbdef f => Sys2Proof.Machine.execCbdef f s
  | .cbget f => Sys2Proof.Machine.execCbget f s
  | .cbput f => Sys2Proof.Machine.execCbput f s
  | .fence f => Sys2Proof.Machine.execFence f s
  | .cbqry f => Sys2Proof.Machine.execCbqry f s
  | .ldvs f => Sys2Proof.Machine.execLdvs f s
  | .stvs f => Sys2Proof.Machine.execStvs f s
  | .ldvm f => Sys2Proof.Machine.execLdvm f s
  | .stvm f => Sys2Proof.Machine.execStvm f s
  | .mmov f => Sys2Proof.Machine.execMmov f s
  | .xadd f => Sys2Proof.Machine.execXadd f s
  | .xli f => Sys2Proof.Machine.execXli f s
  | .xmov f => Sys2Proof.Machine.execXmov f s
  | .cpy f => Sys2Proof.Machine.execCpy f s
  | .cpymx f => Sys2Proof.Machine.execCpymx f s
  | .cpyMig f => Sys2Proof.Machine.execCpyMig f s
  | .cpyq f => Sys2Proof.Machine.execCpyq f s
  | .cpyx f => Sys2Proof.Machine.execCpyx f s
  | .mxfmt f => Sys2Proof.Machine.execMxfmt f s
  | .mxlen f => Sys2Proof.Machine.execMxlen f s
  | .mxseed f => Sys2Proof.Machine.execMxseed f s
  | .mxthr f => Sys2Proof.Machine.execMxthr f s
  | .mxset f => Sys2Proof.Machine.execMxset f s
  | .mxgo f => Sys2Proof.Machine.execMxgo f s
  | .mxgos f => Sys2Proof.Machine.execMxgos f s
  | .mxgoa f => Sys2Proof.Machine.execMxgoa f s
  | .mxdrain f => Sys2Proof.Machine.execMxdrain f s
  | .mxrd f => Sys2Proof.Machine.execMxrd f s
  | .mxclr f => Sys2Proof.Machine.execMxclr f s
  | .mxsel f => Sys2Proof.Machine.execMxsel f s
  | .mxst f => Sys2Proof.Machine.execMxst f s
  | .mxmute f => Sys2Proof.Machine.execMxmute f s
  | .phase f => Sys2Proof.Machine.execPhase f s
  | .phq f => Sys2Proof.Machine.execPhq f s
  | .mxstop f => Sys2Proof.Machine.execMxstop f s
  | .tklend f => Sys2Proof.Machine.execTklend f s
  | .tkret f => Sys2Proof.Machine.execTkret f s
  | .tksplit f => Sys2Proof.Machine.execTksplit f s
  | .tkjoin f => Sys2Proof.Machine.execTkjoin f s
  | .tkshr f => Sys2Proof.Machine.execTkshr f s
  | .tkunsh f => Sys2Proof.Machine.execTkunsh f s
  | .tkrcl f => Sys2Proof.Machine.execTkrcl f s
  | .tkwait f => Sys2Proof.Machine.execTkwait f s
  | .tkwaitSh f => Sys2Proof.Machine.execTkwaitSh f s
  | .tkqry f => Sys2Proof.Machine.execTkqry f s
  | .arrive f => Sys2Proof.Machine.execArrive f s
  | .arriveRel f => Sys2Proof.Machine.execArriveRel f s
  | .waitph f => Sys2Proof.Machine.execWaitph f s
  | .trig f => Sys2Proof.Machine.execTrig f s
  | .grow f => Sys2Proof.Machine.execGrow f s
  | .rmin f => Sys2Proof.Machine.execRmin f s
  | .rmax f => Sys2Proof.Machine.execRmax f s
  | .rsum f => Sys2Proof.Machine.execRsum f s
  | .redf f => Sys2Proof.Machine.execRedf f s
  | .amor f => Sys2Proof.Machine.execAmor f s
  | .cas f => Sys2Proof.Machine.execCas f s
  | .yli f => Sys2Proof.Machine.execYli f s
  | .ymov f => Sys2Proof.Machine.execYmov f s
  | .amoAdd f => Sys2Proof.Machine.execAmoAdd f s
  | .amoMin f => Sys2Proof.Machine.execAmoMin f s
  | .amoMax f => Sys2Proof.Machine.execAmoMax f s
  | .amoAnd f => Sys2Proof.Machine.execAmoAnd f s
  | .amoOr f => Sys2Proof.Machine.execAmoOr f s
  | .amoXor f => Sys2Proof.Machine.execAmoXor f s
  | .phdef f => Sys2Proof.Machine.execPhdef f s
  | .yadd f => Sys2Proof.Machine.execYadd f s
  | .fetch core => Sys2Proof.Machine.execFetch core s
  | .taskRelease core => Sys2Proof.Machine.execTaskRelease core s
  | .feAccessArrival n => Sys2Proof.Machine.execFeAccessArrival n s
  | .fenceComplete core => Sys2Proof.Machine.execFenceComplete core s
  | .copyAccept n => Sys2Proof.Machine.execCopyAccept n s
  | .copyStart st eng n => Sys2Proof.Machine.execCopyStart st eng n s
  | .copyComplete st n => Sys2Proof.Machine.execCopyComplete st n s
  | .followOnCommit st n => Sys2Proof.Machine.execFollowOnCommit st n s
  | .arrayStart arr => Sys2Proof.Machine.execArrayStart arr s
  | .arrayStep arr => Sys2Proof.Machine.execArrayStep arr s
  | .arrayCommandEnd arr => Sys2Proof.Machine.execArrayCommandEnd arr s
  | .phaseWindowOpen core => Sys2Proof.Machine.execPhaseWindowOpen core s
  | .phaseWindowEnd core => Sys2Proof.Machine.execPhaseWindowEnd core s
  | .tokenMessageArrival n => Sys2Proof.Machine.execTokenMessageArrival n s
  | .tokenRecordClear st e => Sys2Proof.Machine.execTokenRecordClear st e s
  | .phaseArrival n => Sys2Proof.Machine.execPhaseArrival n s
  | .roundReceive n => Sys2Proof.Machine.execRoundReceive n s
  | .amoApply n merge => Sys2Proof.Machine.execAmoApply n merge s
  | .triggerCount n => Sys2Proof.Machine.execTriggerCount n s
  | .growApply n => Sys2Proof.Machine.execGrowApply n s
  | .resultLand core => Sys2Proof.Machine.execResultLand core s
  | .lateLoadArrival core n => Sys2Proof.Machine.execLateLoadArrival core n s
  | .interlockedArrival core n => Sys2Proof.Machine.execInterlockedArrival core n s
  | .writeAtHome n => Sys2Proof.Machine.execWriteAtHome n s
  | .spillProceed st n => Sys2Proof.Machine.execSpillProceed st n s
  | .poolPush die z v => Sys2Proof.Machine.execPoolPush die z v s
  | .resvWrite st e v => Sys2Proof.Machine.execResvWrite st e v s
  | .tlbinv v => Sys2Proof.Machine.execTlbinv v s
  | .carveoutPeriod st gain loss => Sys2Proof.Machine.execCarveoutPeriod st gain loss s
  | .carveoutMoveDone st => Sys2Proof.Machine.execCarveoutMoveDone st s
  | .semAcquire m n lease => Sys2Proof.Machine.execSemAcquire m n lease s
  | .semRelease m n lease => Sys2Proof.Machine.execSemRelease m n lease s
  | .semLeaseExpire n => Sys2Proof.Machine.execSemLeaseExpire n s
  | .dispatcherTakeover => Sys2Proof.Machine.execDispatcherTakeover s
  | .queueEnable m q v => Sys2Proof.Machine.execQueueEnable m q v s
  | .queueDisable m q v => Sys2Proof.Machine.execQueueDisable m q v s
  | .queueConfigure m q v => Sys2Proof.Machine.execQueueConfigure m q v s
  | .queuePush m q v => Sys2Proof.Machine.execQueuePush m q v s
  | .launchRecordRead q => Sys2Proof.Machine.execLaunchRecordRead q s
  | .imageValidate q => Sys2Proof.Machine.execImageValidate q s
  | .dependenceMet q => Sys2Proof.Machine.execDependenceMet q s
  | .launchAdmit q => Sys2Proof.Machine.execLaunchAdmit q s
  | .issueDecision => Sys2Proof.Machine.execIssueDecision s
  | .taskStart core => Sys2Proof.Machine.execTaskStart core s
  | .planeLoadDone core => Sys2Proof.Machine.execPlaneLoadDone core s
  | .contextEnd ctx => Sys2Proof.Machine.execContextEnd ctx s
  | .fatalContextError n => Sys2Proof.Machine.execFatalContextError n s
  | .eltailWrite st v => Sys2Proof.Machine.execEltailWrite st v s
  | .faultPop st => Sys2Proof.Machine.execFaultPop st s
  | .freplyServiced st ctx ent seq => Sys2Proof.Machine.execFreplyServiced st ctx ent seq s
  | .freplyRefused st ctx ent seq => Sys2Proof.Machine.execFreplyRefused st ctx ent seq s
  | .freplyEndContext st ctx ent seq => Sys2Proof.Machine.execFreplyEndContext st ctx ent seq s
  | .preemptSuspend st v => Sys2Proof.Machine.execPreemptSuspend st v s
  | .preemptSwapOutRelease st ctx => Sys2Proof.Machine.execPreemptSwapOutRelease st ctx s
  | .preemptResume st v => Sys2Proof.Machine.execPreemptResume st v s
  | .taskSuspend core => Sys2Proof.Machine.execTaskSuspend core s
  | .teamResume st team => Sys2Proof.Machine.execTeamResume st team s
  | .saveAreaCheck ctx v linesOk => Sys2Proof.Machine.execSaveAreaCheck ctx v linesOk s
  | .softError u corrected => Sys2Proof.Machine.execSoftError u corrected s
  | .selfTestDone u passed => Sys2Proof.Machine.execSelfTestDone u passed s
  | .poisonConsumed p => Sys2Proof.Machine.execPoisonConsumed p s
  | .teamReplay st team => Sys2Proof.Machine.execTeamReplay st team s
  | .stackResetQuiesce st fen => Sys2Proof.Machine.execStackResetQuiesce st fen s
  | .stackResetNoQuiesce st fen => Sys2Proof.Machine.execStackResetNoQuiesce st fen s
  | .stackResetDone st => Sys2Proof.Machine.execStackResetDone st s
  | .debugHaltRequest core => Sys2Proof.Machine.execDebugHaltRequest core s
  | .debugHalt core => Sys2Proof.Machine.execDebugHalt core s
  | .debugResume core => Sys2Proof.Machine.execDebugResume core s
  | .debugDataWrite core v => Sys2Proof.Machine.execDebugDataWrite core v s
  | .deadlockWalk => Sys2Proof.Machine.execDeadlockWalk s
  | .nakRetry n => Sys2Proof.Machine.execNakRetry n s
  | .droopAlarm cl => Sys2Proof.Machine.execDroopAlarm cl s
  | .stretchEnd cl => Sys2Proof.Machine.execStretchEnd cl s
  | .halfIssueWindowEnd cl => Sys2Proof.Machine.execHalfIssueWindowEnd cl s
  | .thermalTrip cl => Sys2Proof.Machine.execThermalTrip cl s
  | .currentTrip cl => Sys2Proof.Machine.execCurrentTrip cl s
  | .tripClear cl => Sys2Proof.Machine.execTripClear cl s
  | .clockSet cl v => Sys2Proof.Machine.execClockSet cl v s
  | .vsetWrite cl v => Sys2Proof.Machine.execVsetWrite cl v s
  | .relockDone cl stopped => Sys2Proof.Machine.execRelockDone cl stopped s
  | .watchdogKick m v => Sys2Proof.Machine.execWatchdogKick m v s
  | .watchdogExpire => Sys2Proof.Machine.execWatchdogExpire s
  | .registerWrite m r off v => Sys2Proof.Machine.execRegisterWrite m r off v s
  | .contextConfigure ctx v => Sys2Proof.Machine.execContextConfigure ctx v s
  | .clusterQuiesceRequest cl req => Sys2Proof.Machine.execClusterQuiesceRequest cl req s
  | .clusterPowerCommand cl tgt => Sys2Proof.Machine.execClusterPowerCommand cl tgt s
  | .clusterWake cl => Sys2Proof.Machine.execClusterWake cl s
  | .clusterTransitionDone cl => Sys2Proof.Machine.execClusterTransitionDone cl s
  | .pfSelect sel => Sys2Proof.Machine.execPfSelect sel s
  | .attestRequest v => Sys2Proof.Machine.execAttestRequest v s
  | .attestDone err => Sys2Proof.Machine.execAttestDone err s
  | .linkEnable port en => Sys2Proof.Machine.execLinkEnable port en s
  | .linkUp port peer => Sys2Proof.Machine.execLinkUp port peer s
  | .routeWrite m v => Sys2Proof.Machine.execRouteWrite m v s
  | .moduleUnreachable m => Sys2Proof.Machine.execModuleUnreachable m s
  | .remoteGrantReceive g => Sys2Proof.Machine.execRemoteGrantReceive g s
  | .remoteArrival r => Sys2Proof.Machine.execRemoteArrival r s
  | .flitReceive hop flit => Sys2Proof.Machine.execFlitReceive hop flit s
  | .flitReplay hop => Sys2Proof.Machine.execFlitReplay hop s
  | .campionReset m => Sys2Proof.Machine.execCampionReset m s
  | .moduleReset => Sys2Proof.Machine.execModuleReset s
  | .bringUpStage ok => Sys2Proof.Machine.execBringUpStage ok s
  | .tlbDropComplete n => Sys2Proof.Machine.execTlbDropComplete n s
  | .arrivalAcknowledgement n outside => Sys2Proof.Machine.execArrivalAcknowledgement n outside s

end Sys2Proof.Machine
end

