-- ==== Sys2Proof/Machine/Cycle.lean ====
section
/-! DEFINITION. One cycle of a cluster's clock: its cores fetch, freeze or issue, its arrays start, load and step, and its droop and
window counts go on (R107 to R110, R135 to R142, R233, R323, R338, R341 to R346). -/

namespace Sys2Proof.Machine

/-! ## Issue -/

/-- The addresses at which a syllable translates a page of its own accord. -/
def Task.touched (t : Task) (i : Instr) : List Word :=
  match i with
  | .ld f | .st f | .ldv f | .stv f | .ldb f | .ldpi f | .stpi f | .ldf f | .lde f | .ste f | .stf f | .clre f | .probe f | .pref f |
    .disc f => [t.ea f]
  | .gth f | .sct f => (t.mgList f (t.mgIndexed f)).map Prod.snd
  | .ldvs f | .stvs f => (t.mgList f (t.mgStrided f)).map Prod.snd
  | .ldvm f | .stvm f => (t.mgList f (t.mgMasked f)).map Prod.snd
  | .rmin f | .rmax f | .rsum f | .redf f | .amor f | .cas f | .amoAdd f | .amoMin f | .amoMax f | .amoAnd f | .amoOr f | .amoXor f =>
    [t.srcY f.s3 f.s1]
  | _ => []

/-- The token cache of a core takes the record under which its task has accessed a page (R368). -/
def State.fillTok (s : State) (c : CoreId) (t : Task) (l : Leaf) : State :=
  let st := regionHome l
  match (s.stack st).toks.find? (fun e => e.2.covers l.pa && e.2.holder == t.agent c) with
  | some (e, _) =>
    let x := s.core c
    s.setCore c { x with tokc := ((st.val, e) :: x.tokc.filter (fun k => k != (st.val, e))).take 64 }
  | none => s

/-- The TLBs and the token cache after an access (R229, R368). -/
def State.touch (s : State) (c : CoreId) (t : Task) (va : Word) : State :=
  match s.translateFor c t va with
  | .ok l => (s.fillTlb c t.ctx va).fillTok c t l
  | .error _ => s

/-- One syllable of an issuing bundle. A register in a lent core region makes it fail alone (R233, R428). -/
def State.issueSyl (s : State) (c : CoreId) (t : Task) (i : Instr) : State :=
  match s.lentTouch c t i with
  | some pa => s.fatalAt c errUnowned (slotIx (usesOf i).slot) (encode i) 0#64 (BitVec.ofNat 64 pa)
  | none =>
    let s' := s.after (exec i s)
    if t.passes (usesOf i).gd then (t.touched i).foldl (fun (s : State) va => s.touch c t va) s' else s'

/-- The end of an issue cycle: due results land, and a load found late is counted (R137, R140). -/
def State.endIssue (s : State) (c : CoreId) : State :=
  match s.task? c with
  | none => s
  | some t =>
    let n := (t.age.flight.filter (fun f => f.rem == 0 && f.late)).length
    let s := s.setTask c t.landDue
    if n = 0 then s else s.count t.ctx ctrLATMISS n

/-- co7 and p63 of a reply land at the end of this issue cycle, after every result of before (R432). -/
def Task.startReply (t : Task) : Task :=
  match t.reply with
  | none => t
  | some (v, refused) =>
    { (t.put 1 (.pred 63) (if refused then 1#1024 else 0#1024) 0#7).put 1 (.opf .C 7) (v.setWidth 1024) 0#7 with reply := none }

/-- The idle cycles that the C syllable asks for (R117), whatever its guard. -/
def bundleStall (l : List Instr) : Nat :=
  match l with
  | i :: _ => stallOf i
  | [] => 0

/-- The task as its bundle issues: the bundle is taken, and its STALL is owed. -/
def Task.startIssue (t : Task) (l : List Instr) : Task :=
  { t.startReply with latched := none, idle := bundleStall l, vbusy := l.any occupiesV, cbChanged := none }

/-- ISSUE of the bundle with instructions `l`, in slot order (R112, R135). -/
def State.issueBundle (s : State) (c : CoreId) (t : Task) (l : List Instr) : State :=
  let u := t.startIssue l
  let s := l.foldl (fun (s : State) i => s.issueSyl c u i) { s.setTask c u with cur := c }
  let s := s.mapTask c (fun t => { t with ord := t.ord + 1 })
  let s := (s.count t.ctx ctrISSUED 1).charge t.launch (stackOf c) (fun a => { a with issued := a.issued + 1 })
  s.endIssue c

/-- An idle cycle, which is an issue cycle (R110, R135). -/
def State.idleCycle (s : State) (c : CoreId) (t : Task) : State :=
  (s.setTask c { t.startReply with idle := t.idle - 1, vbusy := false }).endIssue c

/-! ## Freezes (R136) -/

/-- A freeze cycle, counted in the counter of each cause that holds. -/
def State.freeze (s : State) (c : CoreId) (t : Task) (frz iq words : Bool) : State :=
  let s := if frz then s.count t.ctx ctrFRZCNT 1 else s
  let s := if iq then s.count t.ctx ctrIQWAIT 1 else s
  let s := if words then s.count t.ctx ctrFETCHFRZ 1 else s
  s.charge t.launch (stackOf c) (fun a => { a with frz := a.frz + 1 })

/-- Whether a waiting instruction, a pending register or a full queue holds the bundle back (R142, R323). -/
def Task.mustWait (t : Task) (l : List Instr) : Bool := !t.waits.isEmpty || (t.waitsOn l).isSome || t.queueFull l

/-- Whether a bundle holds a `probe` that would issue with something of the task in flight (R269). -/
def Task.probeEarly (t : Task) (l : List Instr) : Bool :=
  (!t.flight.isEmpty || !t.pend.isEmpty) && l.any (fun i => match i with
    | .probe f => t.passes f.gd
    | _ => false)

/-- Whether an event of a core waits for room in its stack's error log (R427). -/
def State.logHolds (s : State) (c : CoreId) : Bool :=
  s.fatals.any (fun f => f.held && f.core == c) || (s.stack (stackOf c)).elheld.any (fun e => e.1 == some c)

/-- Whether the core is frozen whatever comes next: a window of a droop or a trip, a late load, an event without its record. -/
def State.heldStill (s : State) (c : CoreId) (t : Task) : Bool :=
  (s.cluster (clusterOf c)).frozen || t.lateNow || t.event.isSome || s.logHolds c

/-- Whether a bundle would read a poisoned register (R440). -/
def Task.readsBad (t : Task) (l : List Instr) : Bool := !t.bad.isEmpty && l.any (fun i => (t.liveReads i).any (fun d => t.bad.any (fun e => e.1 == d)))

/-! ## The cycle of a core -/

/-- The bundle issues, unless a request of it must wait for a link that is fenced: then the core freezes and tries again (R450). -/
def State.tryBundle (s : State) (c : CoreId) (t : Task) (l : List Instr) (w : Nat) : State × Nat :=
  let s' := s.issueBundle c t l
  if s'.shut then (s.freeze c t false false false, 0) else (s', w)

/-- A cycle in which a bundle is due. A late load, a droop or trip, an event without its record, or a waiting instruction freezes
it; the bundle is then checked, and one that fails has no effect at all (R123 to R125, R139; for a `probe` R269 and log entry 40);
a pending register, a full queue or the current window freezes it; a poisoned register that it reads is consumed (R443); else it
issues. A freeze cycle counts for every cause that holds
(R136). The second part is the weight issued (R338). -/
def State.dueCycle (s : State) (c : CoreId) (t : Task) : State × Nat :=
  let cl := s.cluster (clusterOf c)
  match t.latched with
  | none => (if t.failed then s else s.freeze c t cl.frozen (!t.waits.isEmpty) t.noWords, 0)
  | some b =>
    let l := (decodeBundle b).toOption.getD []
    let bad := s.bundleBad t b
    let w := t.bundleWeight l
    let heavy := bad.isNone && !windowAdmits (s.core c).weights w cl.lim.toNat
    if s.heldStill c t || !t.waits.isEmpty then (s.freeze c t (cl.frozen || heavy) (t.mustWait l) false, 0)
    else match bad with
      | some (code, sl) => (s.raiseFatal c t code (slotIx sl) (sylOf b sl) 0#64 0#64, 0)
      | none =>
        if t.mustWait l || heavy then (s.freeze c t heavy (t.mustWait l) false, 0)
        else if t.readsBad l then (s.soon (.load c false), 0)
        else if t.probeEarly l then (s.raiseFatal c t errScoreboard (slotIx .M) (sylOf b .M) 0#64 0#64, 0)
        else s.tryBundle c t l w

/-- A cycle of the wait of `end`: results go on landing, and the cycle is no issue or freeze cycle of the task (R182, R465). -/
def State.endCycle (s : State) (c : CoreId) (t : Task) : State :=
  let s := s.count t.ctx ctrENDWAIT 1
  if (s.cluster (clusterOf c)).frozen || t.lateNow then s else s.endIssue c

/-- Whether a core takes no cycle at all: halted, stopped by a fatal error, or at a bundle boundary where it is to halt or to be
suspended. -/
def State.stopped (s : State) (c : CoreId) (t : Task) : Bool :=
  (s.core c).hlt || t.failed || (!t.ended && (s.mustStop c t || (s.core c).haltReq != 0))

/-- What a core with a task does in one cycle, and the weight it issued. -/
def State.taskCycle (s : State) (c : CoreId) (t : Task) : State × Nat :=
  if s.stopped c t then (s, 0)
  else if t.ended then (s.endCycle c t, 0)
  else if t.idle ≠ 0 then
    (if s.heldStill c t then s.freeze c t (s.cluster (clusterOf c)).frozen false false else s.idleCycle c t, 0)
  else
    let s := if t.noWords then s else s.fetch c
    match s.task? c with
    | some t => s.dueCycle c t
    | none => (s, 0)

/-- One cycle's weight enters the window; an empty window is kept empty. -/
def pushWeight (past : List Nat) (w : Nat) : List Nat := if past.isEmpty && w == 0 then [] else windowPush past w

/-- The waiting array instructions of a core look at their arrays once in each of its cycles, after its bundle has frozen or issued:
a command that ends in one cycle lets its `mxrd` deliver in the next (R323; the timing of R357). -/
def State.arrayWaits (s : State) (c : CoreId) : State :=
  match s.task? c with
  | some t => if s.stopped c t then s else t.waits.foldl (fun (s : State) w => s.mxTry c w) s
  | none => s

/-- One cycle of a core. CYC counts every one of them (R183). -/
def State.coreCycle (s : State) (c : CoreId) : State :=
  match s.task? c with
  | none => if (s.core c).weights.isEmpty then s else s.setCore c { s.core c with weights := pushWeight (s.core c).weights 0 }
  | some t =>
    let (s, w) := s.taskCycle c t
    let s := s.arrayWaits c
    let s := s.setCore c { s.core c with weights := pushWeight (s.core c).weights w }
    s.mapTask c (fun t => { t with cyc := t.cyc + 1 })

/-! ## The cycle of an array (R329, R341, R342) -/

/-- Whether an array's current command has not started. -/
def State.unstarted (s : State) (c : CoreId) (a : Nat) : Bool :=
  match s.task? c with
  | some t => match (t.arr a).cur with
    | some k => !k.started && !k.ended
    | none => false
  | none => false

/-- A start is tried; a cycle of hold or stagger is counted. -/
def State.tryStart (s : State) (c : CoreId) (a : Nat) : State :=
  if s.unstarted c a then
    let s := s.arrayStart c a
    if s.unstarted c a then match s.task? c with
      | some t => s.count t.ctx ctrSTAGCNT 1
      | none => s
    else s
  else s

/-- A cycle in which a trip or a half-issue window holds the array: a start that the window of its declaration or the stagger holds
back as well is counted (R135, R341). -/
def State.heldArray (s : State) (c : CoreId) (a : Nat) : State :=
  match s.task? c with
  | some t =>
    if s.unstarted c a && !(s.core c).hlt then
      match s.startAns c t a with
      | .due _ => s
      | _ => s.count t.ctx ctrSTAGCNT 1
    else s
  | none => s

/-- One cycle of array `a` of a core: loading, the idle half of the half rate, or a step; a command that ends gives way in the
same cycle. -/
def State.arrayCycle (s : State) (c : CoreId) (a : Nat) : State :=
  match s.task? c with
  | none => s
  | some t =>
    if (s.core c).hlt then s
    else
      let x := t.arr a
      match x.cur with
      | none => s
      | some k =>
        if !k.started then s.tryStart c a
        else if k.load ≠ 0 then s.setTask c (t.setArr a { x with cur := some { k with load := k.load - 1 } })
        else if k.half && !k.beat then s.setTask c (t.setArr a { x with cur := some { k with beat := true } })
        else
          let s := s.setTask c (t.setArr a { x with cur := some { k with beat := false } })
          let id : ArrayId := Fin.ofNat 2048 (2 * c.val + a)
          let s := s.after (execArrayStep id s)
          (s.after (execArrayCommandEnd id s)).tryStart c a

/-! ## Device time -/

/-- The active dispatcher keeps a lease of 500 µs: it renews one of another length, and its own when 250 µs or less are left (R82). -/
def State.leaseCare (s : State) : State :=
  if s.active.isNone then s
  else if (s.sem 0).lease != 500#32 then s.renewLease
  else match (s.sem 0).ends with
    | some e => if e ≤ s.ns + 250000 then s.renewLease else s
    | none => s.renewLease

/-- Device time goes on by `n` ns: queues with something to issue wait longer, the watchdog counts down, and the dispatcher keeps
its lease (R32, R81, R82, R485). -/
def State.elapse (s : State) (n : Nat) : State :=
  let queues := s.queues.map (fun (e : Nat × QueueS) =>
    (e.1, if s.issuable (Fin.ofNat 64 e.1) then { e.2 with waited := e.2.waited + n } else e.2))
  { s with ns := s.ns + n, queues := queues, wdogLeft := if s.wdogRun then s.wdogLeft - n else s.wdogLeft }.leaseCare

/-! ## The cycle of a cluster -/

/-- The stretch of an alarm begins, and any stretch or window under way is dropped (R345, R346). -/
def ClusterS.beginStretch (x : ClusterS) : ClusterS :=
  { x with alarm := false, strOn := true, stretch := x.dstr.toNat, hiwOn := false, hiw := 0, hiwPos := 0 }

/-- Droop counts go on by one cycle: the stretch of an alarm begins, and a stretch or a window that is over ends (R345, R346). -/
def State.droopCycle (s : State) (cl : ClusterId) : State :=
  let x := s.cluster cl
  if x.alarm then s.setCluster cl x.beginStretch
  else if x.strOn then
    let s := s.setCluster cl { x with stretch := x.stretch - 1 }
    s.after (execStretchEnd cl s)
  else if x.hiwOn then
    let s := s.setCluster cl { x with hiw := x.hiw - 1, hiwPos := x.hiwPos + 1 }
    s.after (execHalfIssueWindowEnd cl s)
  else s

/-- The cluster's count of cycles goes on; windows open and end (R340, R343). -/
def State.windowCycle (s : State) (cl : ClusterId) : State :=
  ((s.setCluster cl { s.cluster cl with cyc := (s.cluster cl).cyc + 1 }).openWindows cl).reposition cl

/-- The clock of a cluster goes on by one cycle: one period of FMHZ, or two in a stretched cycle (R32, R345, R347). -/
def ClusterS.tick (x : ClusterS) : ClusterS :=
  let n := x.sub + (if x.strOn then 2000 else 1000)
  { x with edge := x.edge + n / x.fmhz.toNat, sub := n % x.fmhz.toNat }

/-- ONE CYCLE of a cluster's clock: the clock is brought up to the present and device time comes to the cycle's beginning; the cores
in order, then the arrays, which a trip or a half-issue window holds. A stopped clock has no cycle (R349). -/
def State.clusterCycle (s : State) (cl : ClusterId) : State :=
  if !(s.cluster cl).clocked then s
  else
    let s := s.catchUp cl
    let x := s.cluster cl
    let s := s.elapse (x.edge - s.ns)
    let s := s.setCluster cl x.tick
    let s := [0, 1, 2, 3].foldl (fun (s : State) k => s.coreCycle (clusterCore cl k)) s
    let s := if x.frozen then [0, 1, 2, 3].foldl (fun (s : State) k =>
        (s.heldArray (clusterCore cl k) 0).heldArray (clusterCore cl k) 1) s
      else [0, 1, 2, 3].foldl (fun (s : State) k =>
        (s.arrayCycle (clusterCore cl k) 0).arrayCycle (clusterCore cl k) 1) s
    (s.droopCycle cl).windowCycle cl

end Sys2Proof.Machine
end

