-- ==== Sys2Proof/Machine/Schedule.lean ====
section
/-! DEFINITION. The order in which the machine's events come about: the moves of the agenda, device time, and, where neither asks for
anything, whatever inside the module can go on, and then a cycle of a cluster's clock (log entries 1 and 41). -/

namespace Sys2Proof.Machine

/-! ## The moves of the agenda -/

/-- Load `n` in flight on a core is late: its data is awaited from now on (R140). -/
def Task.delayLoad (t : Task) (n : Nat) : Task :=
  match t.flight[n]? with
  | some f => if f.mem && f.rem != 0 then { t with flight := listSet t.flight n { f with late := true } } else t
  | none => t

/-- The next index words have not reached the fetch buffer (R110). -/
def Task.delayFetch (t : Task) : Task := if t.latched.isNone then { t with noWords := true } else t

/-- Clusters that have a task current, or a stretch or window to run out, and a running clock. -/
def State.busyClusters (s : State) : List Nat :=
  (((s.cores.filter (fun (e : Nat × CoreS) => e.2.live.isSome)).map (fun (e : Nat × CoreS) => e.1 / 4) ++
    (s.clusters.filter (fun (e : Nat × ClusterS) => e.2.strOn || e.2.hiwOn || e.2.alarm)).map Prod.fst : List Nat).eraseDups).filter (fun k =>
    (s.cluster (Fin.ofNat 256 k)).clocked)

/-- When a cluster's next cycle begins, in whole nanoseconds. -/
def State.edgeOf (s : State) (k : Nat) : Nat := ((s.cluster (Fin.ofNat 256 k)).catchUp s.ns).edge

/-- Clusters in a relock, each with the moment by which its clock runs again (R349). -/
def State.relocks (s : State) : List (Nat × Nat) :=
  (s.clusters.filter (fun (e : Nat × ClusterS) => e.2.busy)).map (fun e => (e.1, e.2.stopAt + relockMost))

/-- Whether no busy cluster has a cycle due before this one's, and no relock must have ended: cycles of all clusters come about in the
order of device time (R32, R349). -/
def State.dueNow (s : State) (cl : ClusterId) : Bool :=
  s.busyClusters.all (fun k => decide (s.edgeOf cl.val ≤ s.edgeOf k)) && s.relocks.all (fun e => decide (s.edgeOf cl.val ≤ e.2))

/-- Nanoseconds, of `n`, that may pass before a busy cluster's next cycle begins or a relock must end. -/
def State.spare (s : State) (n : Nat) : Nat :=
  s.relocks.foldl (fun n e => min n (e.2 - s.ns)) (s.busyClusters.foldl (fun n k => min n (s.edgeOf k - s.ns)) n)

/-- The relock that must end first. -/
def State.firstRelock (s : State) : Option (Nat × Nat) :=
  s.relocks.foldl (fun a e => match a with
    | some b => if e.2 < b.2 then some e else a
    | none => some e) none

/-- The relock that must end by a moment: its clock runs again after 2 µs (R349). -/
def State.relockBy (s : State) (at_ : Option Nat) : Option State :=
  match s.firstRelock with
  | some (k, d) =>
    if (match at_ with | some a => decide (d < a) | none => true) then
      let s := s.elapse (d - s.ns)
      let cl : ClusterId := Fin.ofNat 256 k
      some (s.after (execRelockDone cl (s.ns - (s.cluster cl).stopAt) s))
    else none
  | none => none

/-- What comes about only within a cycle of the cluster's clock: the start and the steps of an array (R341, R342, R345, R346, R349,
R354). -/
def inCycle : Instr → Bool
  | .arrayStart _ | .arrayStep _ => true
  | _ => false

/-- One move. A syllable issues in its bundle only and an array steps in a cycle only: neither is a move by itself. -/
def State.move (s : State) (m : Move) : Host.Outcome State Fault Refusal :=
  match m with
  | .event i => if (slotOf i).isSome || inCycle i then .next s else exec i s
  | .cycle cl => .next (if s.dueNow cl then s.clusterCycle cl else s)
  | .elapse n => .next (s.elapse (s.spare n))
  | .delayLoad c n => .next (s.mapTask c (fun t => t.delayLoad n))
  | .delayFetch c => .next (s.mapTask c Task.delayFetch)
  | .evictL1 c line => .next (s.evictL1 c line)
  | .evictCC cl line => .next (s.evictCC cl line)
  | .poison p => execPoisonConsumed p s
  | .logicRestored cl => .next (s.logicRestored cl)
  | .wakeRelock cl => .next (s.wakeRelock cl)
  | .remoteFault st n => .next (s.remoteFault st n)
  | .flitSend h vc pay => .next (s.flitSend h vc pay)
  | .flitTake h vc => .next (s.flitTake h vc)
  | .tlbEvict c n => .next (s.setCore c { s.core c with tlb := listDrop (s.core c).tlb n })
  | .stackTlbEvict st n => .next (s.setStack st { s.stack st with tlb := listDrop (s.stack st).tlb n })
  | .evictL2 st line => .next (s.evictUnpinned st line)

/-! ## What can go on by itself -/

/-- A change of the state, where there is one. -/
def State.changed (s s' : State) : Option State := if s' = s then none else some s'

/-- The first of some operations that changes the state. -/
def State.firstOf (s : State) : List (State → State) → Option State
  | [] => none
  | f :: l => match s.changed (f s) with
    | some s' => some s'
    | none => s.firstOf l

/-- An operation with each of the numbers below `n`. -/
def upTo (n : Nat) (f : Nat → State → State) : List (State → State) := (List.range n).map f

/-- The outcome of a meaning, as an operation. -/
def doing (f : State → Host.Outcome State Fault Refusal) (s : State) : State := s.after (f s)

/-- A single operation. -/
def one (f : State → State) : List (State → State) := [f]

/-- A period of the carve-out passes on a stack, with the totals of its sampling sets (R239; log entry 75). -/
def State.carvePeriodEnds (s : State) (st : StackId) : State :=
  s.after (execCarveoutPeriod st (satTotal (s.stack st).gainNow) (satTotal (s.stack st).lossNow) s)

/-- What device time brings about: ends of carve-out periods and the deadlock walk (R239, R411). -/
def State.timedOps (s : State) : List (State → State) :=
  (if s.ns < carvePeriod then []
   else ((List.range 64).filter (fun k => s.periodDue (Fin.ofNat 64 k))).map (fun (k : Nat) (s : State) =>
     s.carvePeriodEnds (Fin.ofNat 64 k))) ++
  (if s.dlEn && decide (s.dlAt + 1000 * s.dlPer.toNat ≤ s.ns) then [doing execDeadlockWalk] else [])

/-- Errors found, leases and the watchdog, and what device time brings about. -/
def State.urgentOps (s : State) : List (State → State) :=
  upTo s.fatals.length (fun (n : Nat) (s : State) => s.fatalError n) ++ s.timedOps ++
  s.sems.map (fun e => doing (execSemLeaseExpire (Fin.ofNat 32 e.1))) ++
  (if s.wdogRun && s.wdogLeft == 0 then [doing execWatchdogExpire] else [])

/-- A token message arrives; a request for a record that was refused tries again (R408). -/
def State.tokOp (s : State) (n : Nat) : List (State → State) :=
  match s.toks[n]? with
  | some (.need _ _ _ _ _) => [doing (execNakRetry n)]
  | some _ => one (fun s => s.tokArrive n)
  | none => []

/-- Messages on their way. -/
def State.messageOps (s : State) : List (State → State) :=
  upTo s.pwrites.length (fun n => doing (execWriteAtHome n)) ++
  (List.range s.fes.length).flatMap (fun n => match s.fes[n]? with
    | some a => if a.waiting then [] else one (fun s => s.feArrive n)
    | none => []) ++
  (List.range s.toks.length).flatMap s.tokOp ++
  upTo s.arrs.length (fun (n : Nat) (s : State) => s.phaseArrival n) ++
  upTo s.rounds.length (fun (n : Nat) (s : State) => s.receiveRound n) ++
  upTo s.amos.length (fun n => doing (execAmoApply n false)) ++
  upTo s.trigs.length (fun n => doing (execTriggerCount n)) ++
  upTo s.grows.length (fun n => doing (execGrowApply n)) ++
  (if s.inbox.isEmpty then [] else one (fun s => s.inboxNext.getD s)) ++
  (if s.grantQ.isEmpty then [] else one (fun s => s.grantNext.getD s)) ++
  s.drops.map (fun d => doing (execTlbDropComplete d.id)) ++
  upTo s.copyRequests.length (fun n => doing (execCopyAccept n)) ++
  (if s.jobs.isEmpty then [] else one State.runJobs) ++
  s.launches.flatMap (fun e => if e.2.heldArr.isEmpty then [] else one (fun s => s.retryHeld e.1))

/-- A waiting instruction that may complete; those of the arrays do so in their core's cycle. -/
def waitOp (c : CoreId) (t : Task) (w : Wait) : List (State → State) :=
  match w with
  | .fence _ _ => [doing (execFenceComplete c)]
  | .probe va len aux d => if t.event.isNone then one (fun s => s.probeRun c va len aux d) else []
  | .tlbinv _ => []
  | .token _ _ _ _ | .recall _ _ | .unshare _ _ _ | .split _ _ => one (fun s => s.tokTry c w)
  | .phase _ _ => one (fun s => s.phaseTry c w)
  | .commit _ _ _ _ _ _ | .joinAll _ _ _ | .joinSet _ _ _ | .joinCmd _ _ => []
  | .endTask => one (fun s => s.taskRelease c)

/-- What may come about for the task current on a core. -/
def State.taskOps (s : State) (c : CoreId) (t : Task) : List (State → State) :=
  t.pend.flatMap (fun p => match p.kind with
    | .cbget b => if p.val.isSome then one (fun s => s.interlocked c p.id) else one (fun s => s.cbServe c b)
    | _ => if (s.pendValue t p).isSome then one (fun s => s.interlocked c p.id) else []) ++
  t.waits.flatMap (waitOp c t) ++
  (if t.lateNow || t.suspend || (s.core c).haltReq != 0 then
    upTo t.flight.length (fun (n : Nat) (s : State) => s.mapTask c (fun t => t.dataArrives n)) else []) ++
  (if t.noWords then one (fun s => s.fetch c) else []) ++
  (if t.suspend then one (fun s => s.taskSuspend c) else []) ++
  (if (s.core c).haltReq != 0 then one (fun s => s.debugHalt c) else [])

/-- What may come about at a core. -/
def State.coreOps (s : State) (e : Nat × CoreS) : List (State → State) :=
  let c : CoreId := Fin.ofNat 1024 e.1
  (match e.2.live with
    | some t => if e.2.hlt || t.failed then [] else s.taskOps c t
    | none => []) ++
  (if e.2.shd.st == .loading then [doing (execPlaneLoadDone c)] else []) ++
  (if e.2.next.isSome then one (fun s => s.taskStart c) else [])

/-- What may come about for a copy operation. -/
def copyOps (st : StackId) (n : Nat) (o : CopyOp) : List (State → State) :=
  (match o.eng with
    | none => [doing (execCopyStart st 0 n), doing (execCopyStart st 1 n)]
    | some e => if o.desc.cb.isSome && o.slot.isNone then [doing (execCopyStart st e n)] else []) ++
  (if o.follow.isSome && !o.committed then [doing (execFollowOnCommit st n)] else []) ++
  [doing (execCopyComplete st n)]

/-- What may come about at a stack. -/
def stackOps (e : Nat × StackS) : List (State → State) :=
  let st : StackId := Fin.ofNat 64 e.1
  (List.range e.2.ops.length).flatMap (fun n => match e.2.ops[n]? with
    | some o => copyOps st n o
    | none => []) ++
  upTo e.2.spills.length (fun (n : Nat) (s : State) => s.spillProceed st n) ++
  (if e.2.releasing.isEmpty then [] else one (fun s => s.clearReleased st)) ++
  (if e.2.cacheOver.isEmpty then [] else one (fun s => s.trimL2 st)) ++
  (if e.2.moving.isSome then [doing (execCarveoutMoveDone st)] else []) ++
  (if e.2.rstBusy && e.2.rstQui && !e.2.qdone then one (fun s => s.resetGoesOn st) else []) ++
  e.2.teams.flatMap (fun m => if m.2.susp.isEmpty then [] else one (fun s => s.teamResume st m.1))

/-- Whether a launch has finished and waits for room for its accounting records (R469). -/
def State.mayRetire (s : State) (l : Launch) : Bool :=
  !l.done && l.pendTeams.isEmpty && decide (l.total ≤ l.triggered) && decide (l.total ≤ l.finished) && s.acctRoom l

/-- What the dispatchers do once bring-up is done. -/
def State.dispatcherOps (s : State) : List (State → State) :=
  s.launches.flatMap (fun e => if s.mayRetire e.2 then one (fun s => s.updateWords e.1) else []) ++
  (if s.stage ≠ 4 then []
   else if s.active.isNone then [doing execDispatcherTakeover]
   else
    s.queues.flatMap (fun e => let q : QueueId := Fin.ofNat 64 e.1
      [doing (execLaunchRecordRead q), doing (execImageValidate q), doing (execDependenceMet q)]) ++
    (if s.queues.any (fun e => s.issuable (Fin.ofNat 64 e.1)) then [doing execIssueDecision] else []))

/-- Everything that may come about inside the module, in the model's order. -/
def State.ops (s : State) : List (State → State) :=
  s.urgentOps ++ s.messageOps ++ s.cores.flatMap s.coreOps ++ s.stackTab.flatMap stackOps ++ s.dispatcherOps

/-! ## Whose cycle is next -/

/-- The busy cluster whose cycle is due first, from the present turn on where several are; the present turn's own where none is
busy. -/
def State.nextCluster (s : State) : ClusterId :=
  let l := s.busyClusters.filter (fun k => s.dueNow (Fin.ofNat 256 k))
  match l.find? (fun k => decide (s.rr.val ≤ k)), l with
  | some k, _ => Fin.ofNat 256 k
  | none, k :: _ => Fin.ofNat 256 k
  | none, [] => s.rr

/-- The move made where the agenda asks for none: what can go on, else a cluster's cycle. -/
def State.goOn (s : State) : State :=
  match s.firstOf s.ops with
  | some s' => s'
  | none =>
    let cl := s.nextCluster
    match s.relockBy (if s.busyClusters.isEmpty then none else some (s.edgeOf cl.val)) with
    | some s' => s'
    | none => { s with rr := Fin.ofNat 256 (cl.val + 1) }.clusterCycle cl

/-- What happens next: a register write of a service context first, then the agenda, then what goes on by itself. -/
def State.turn (s : State) : Host.Outcome State Fault Refusal :=
  match s.regw with
  | (pa, v) :: l => .next ({ s with regw := l }.windowAct pa v)
  | [] => match s.agenda with
    | m :: l => { s with agenda := l }.move m
    | [] => .next s.goOn

/-- WHAT FOLLOWS ANY MOVE in the same moment: lines that a changed table no longer maps are dropped (R246, R496), phase instances
that are full close, one whose rounds waited for a frame among them (R398), messages for other modules whose release is done leave
(R370), and the waits that the state has are entered in its stacks' tables, those that have ended cleared (R409, R410). -/
def State.upkeep (s : State) : State := s.unmapStale.closeFull.sendWaiting.enterWaits

def entered : Host.Outcome State Fault Refusal → Host.Outcome State Fault Refusal
  | .next s => .next s.upkeep
  | .fault f => .fault f
  | .refused r => .refused r

/-- The machine's next state. -/
def State.advance (s : State) : Host.Outcome State Fault Refusal := entered s.turn

end Sys2Proof.Machine
end

