-- ==== Sys2Proof/Machine/Step.lean ====
section
/-! DEFINITION. One step of the module, and a bundle placed where the next step fetches it. -/

namespace Sys2Proof.Machine

/-- One step: the next move of the module, after which the wait-for tables follow. -/
def step (s : State) : Host.Outcome State Fault Refusal := s.advance

/-- Where `withFetchWord` puts its root table, the two tables below it and its code. -/
def slotTable : Nat := 0x1000
def slotCode : Nat := 0x10000

/-- Its page tables: virtual addresses below 1 GiB are a read-only page of latency class 0 that may hold code, at the same physical
addresses (R227, R230). -/
def slotTables (m : List Host.Cell) : List Host.Cell :=
  Memory.putNum (Memory.putNum (Memory.putNum m slotTable 8 0x2001) 0x2000 8 0x3001) 0x3000 8 0x9C1

/-- Its code stream: an escape and the literal with the given bits (R107, R108). -/
def slotStream (m : List Host.Cell) (bits : Nat) : List Host.Cell :=
  Memory.putNum (Memory.putNum m slotCode 2 0xFFFF) (slotCode + 2) 48 bits

/-- Its image: 25 index words and an empty dictionary. -/
def slotImage : Image where
  va := 0#64
  isize := 0
  dictCnt := 0
  dictOff := 0
  codeOff := slotCode
  codeWords := 25
  entry := 0
  constOff := 0
  digest := 0#256
  bufs := []
  loops := []
  carve := (0, 0)
  lines := 0
  unb := []
  pairs := []
  seeds := []
  bursts := []

/-- Its launch record, and the launch itself: one task, placed. -/
def slotRecord : LaunchRec where
  bad := false
  va := 0#64
  image := 0#64
  args := 0#64
  argsize := 0
  lid := 0#32
  ext := (1, 1, 1)
  ccnt := 0#64
  tcnt := 0#64
  irq := false
  deps := []

def slotLaunch : Launch where
  ctx := 0
  q := 0
  rcd := slotRecord
  img := slotImage
  argb := []
  ext := (1, 1, 1)
  total := 1
  pendTeams := []
  finished := 0
  triggered := 0
  finishedCoords := []
  gref := false
  done := false
  heldArr := []
  acct := []

/-- Its task on core 0: the one that is current there, or else a new one, made ready to fetch at position 0. -/
def slotTask (t : Option Task) (launch : Nat) : Task :=
  { t.getD (Task.fresh 0 launch 0#48 0 0 0#64) with
    ctx := 0
    launch := launch
    fpos := 0#64
    npos := 0#64
    idle := 0
    flight := []
    pend := []
    waits := []
    vbusy := false
    bad := []
    settled := false
    latched := none
    noWords := false
    event := none
    failed := false
    ended := false
    suspend := false
    reply := none }

/-- Core 0 ready to run it, with nothing left in its TLB, and cluster 0 with its clock running, its next cycle due, and nothing
holding it. -/
def slotCore (x : CoreS) (launch : Nat) : CoreS :=
  { x with live := some (slotTask x.live launch), hlt := false, haltReq := 0, weights := [], tlb := [], tokc := [],
           act := { x.act with bad := false } }

def slotCluster (x : ClusterS) (ns : Nat) : ClusterS :=
  { x with
    pst := 0#3
    pbusy := false
    busy := false
    hot := false
    overCur := false
    strOn := false
    hiwOn := false
    alarm := false
    edge := ns
    sub := 0 }

/-- The lines that hold its tables and its code. -/
def slotLines : List Nat := [lineOf slotTable, lineOf 0x2000, lineOf 0x3000, lineOf slotCode]

/-- Every stack without L2 copies of them, and stack 0 without TLB entries and without an event of core 0 that waits for its log. -/
def slotStack (k : Nat) (x : StackS) : StackS :=
  let x := { x with l2 := x.l2.filter (fun e => !slotLines.contains e.line) }
  if k = 0 then { x with tlb := [], elheld := x.elheld.filter (fun e => e.1 != some 0) } else x

/-- THE STATE WITH ONE BUNDLE PLACED where the next step fetches it. The module loads programs through its dispatcher (R76, R91); this
stands for that load: the code stream and its tables in memory, a launch, a task current on core 0 at fetch position 0, and the
next move a cycle of that core's cluster (log entry 42). -/
def State.withFetchWord (s : State) (nbits w : Nat) : State :=
  let n := s.nextLaunch
  let c : CtxS := { s.ctx 0 with valid := true, hl := 0#64, ptroot := BitVec.ofNat 64 slotTable }
  { s with
    mem := slotStream (slotTables s.mem) (w % 2 ^ min nbits 384)
    ctxs := s.ctxs.set 0 c
    launches := s.launches.set n slotLaunch
    nextLaunch := n + 1
    cores := s.cores.set 0 (slotCore (s.core 0) n)
    clusters := s.clusters.set 0 (slotCluster (s.cluster 0) s.ns)
    stackTab := s.stackTab.map (fun e => (e.1, slotStack e.1 e.2))
    fatals := s.fatals.filter (fun f => f.core != 0)
    poison := []
    regw := []
    agenda := [.cycle 0] }

end Sys2Proof.Machine
end

