-- ==== Sys2Proof/Safety.lean ====
section
/-! DEFINITION. What claims are said in: the canonical form of memory, a machine that goes on, an instruction that the current task
issues and all that it changes, and the parts of a state that a claim says stay as they are. -/

namespace Sys2Proof

open Machine

/-- The memory of a state is in its canonical form. -/
def MemOk (s : State) : Prop := Memory.wf s.mem = true

/-- A state from which the machine goes on: its step ends in a next state, not in a fault or a refusal. -/
def GoesOn (s : State) : Prop := ∃ t, step s = .next t

/-- A state in which the core `s.cur` issues a syllable of its current task `t`, whose guard passes (R114). -/
structure Issues (s : State) (t : Task) (g : Guard) : Prop where
  current : s.task? s.cur = some t
  passes : t.passes g = true

/-- Issued, the instruction completes: the machine goes to the state `f` of the one it found and its task. -/
def ActsBy (i : Instr) (g : Guard) (f : State → Task → State) : Prop :=
  ∀ (s : State) (t : Task), Issues s t g → exec i s = .next (f s t)

/-- Issued, the instruction completes and changes its own task alone, to `f` of it. -/
def ChangesTask (i : Instr) (g : Guard) (f : State → Task → Task) : Prop :=
  ActsBy i g (fun s t => s.setTask s.cur (f s t))

/-- What a change of its own task leaves as it is: everything but the fetch position, the idle cycles owed, the results in flight,
the queue, the waits and the mark of `end`. -/
def SameButIssue (t u : Task) : Prop :=
  u = { t with npos := u.npos, idle := u.idle, flight := u.flight, pend := u.pend, nextPend := u.nextPend, waits := u.waits,
               ended := u.ended }

end Sys2Proof
end

