-- ==== Sys2Proof/Certificates/Slice0/Obligations.lean ====
section
/-! DEFINITION. The statements about this model, for the provers. Each docstring says what it claims and the rules it rests on. -/

set_option Elab.async false

open Sys2Proof Sys2Proof.Machine

/-- The syllables that the spec writes out as examples decode, each in its slot, to the instruction the spec says it is, with
each operand and immediate. (R115, R130, R181, R185, R190, R191, R257, R276, R279, R312, R387, R455) -/
def Obligations.EncodedWordsDecode : Prop :=
  decodeSyl .A 0x04000205820A0000#64 = .ok (.add ⟨⟨⟨false, false, 0⟩, .main 1, .main 2, .imm⟩, 5, .dflt, .eq⟩) ∧
  decodeSyl .V 0x0B86080204076000#64 =
    .ok (.vfma ⟨⟨⟨true, true, 3⟩, .main 4, .main 1, .main 2⟩, 3, .f32, .rne, false, false, 0, 0⟩) ∧
  decodeSyl .C 0x0E00000200000004#64 = .ok (.loop ⟨⟨⟨false, false, 0⟩, .main 0, .main 1, .main 0⟩, 0, 0, .dflt, .eq, 1⟩) ∧
  decodeSyl .C 0x1200000000000040#64 = .ok (.lpend ⟨⟨false, false, 0⟩, .main 0, 0, 0, 1⟩) ∧
  decodeSyl .C 0x34000A0204080000#64 =
    .ok (.pand ⟨⟨⟨false, false, 0⟩, .main 5, .main 1, .main 2⟩, 0, false, true, false⟩) ∧
  decodeSyl .A 0x2E00020001FFFFFC#64 = .ok (.li ⟨⟨⟨false, false, 0⟩, .main 1, .main 0, .main 0⟩, 0xFFFFFE⟩) ∧
  decodeSyl .A 0x3200080A00416000#64 = .ok (.bfx ⟨⟨⟨false, false, 0⟩, .main 4, .main 5, .main 0⟩, 8, 11⟩) ∧
  decodeSyl .M 0x04000C0400000060#64 =
    .ok (.ld ⟨⟨⟨false, false, 0⟩, .main 6, .main 2, .main 0⟩, 0, 3, .dflt⟩) ∧
  decodeSyl .M 0x3C00020001FFFFFC#64 = .ok (.xli ⟨⟨⟨false, false, 0⟩, .main 1, .main 0, .main 0⟩, 0xFFFFFE⟩) ∧
  decodeSyl .E 0x0400060200000000#64 = .ok (.cpy ⟨⟨⟨false, false, 0⟩, .main 3, .main 1, .main 0⟩, 0, false⟩) ∧
  decodeSyl .E 0x1A00000000814000#64 =
    .ok (.mxgo ⟨⟨⟨false, false, 0⟩, .main 0, .main 0, .main 0⟩, false, 2, 5, 0⟩) ∧
  decodeSyl .Y 0x0400000406010000#64 =
    .ok (.tklend ⟨⟨⟨false, false, 0⟩, .main 0, .main 2, .main 3⟩, 0, .dv, 0⟩) ∧
  decodeSyl .C 0x1C00060000000420#64 = .ok (.sysr ⟨⟨⟨false, false, 0⟩, .main 3, .main 0, .main 0⟩, 0, 0x21⟩)

/-- For every instruction of every slot whose fields its entry admits, decoding its encoded syllable in its slot answers that
instruction, with every operand and modifier. (R113, R118, R121, R123) -/
def Obligations.EncodeThenDecode : Prop :=
  ∀ (i : Instr) (sl : Slot), i.WellFormed → slotOf i = some sl → decodeSyl sl (encode i) = .ok i

/-- Whatever syllable the decoder admits in a slot, the instruction it answers belongs to that slot, is well-formed, and encodes
to exactly that syllable: no bit is ignored and no two syllables of a slot mean the same. (R113, R114, R118, R123) -/
def Obligations.DecodeThenEncode : Prop :=
  ∀ (sl : Slot) (w : Word) (i : Instr), decodeSyl sl w = .ok i → slotOf i = some sl ∧ i.WellFormed ∧ encode i = w

/-- In every state, every instruction and every event of the opcode table answers a next state, and so does a step, whatever the
agenda asks for: nothing ends in a fault or a refusal. (R11, R114, R135, R427, R430) -/
def Obligations.TheMachineGoesOn : Prop :=
  (∀ (i : Instr) (s : State), ∃ t, exec i s = .next t) ∧ (∀ s : State, GoesOn s)

/-- In a state with no register write of a service context outstanding and an event at the head of its agenda, a step is that
event executed, with the agenda moved on, followed by what follows any move at once; a cluster cycle at the head is one cycle of
that cluster where no other busy cluster is due before it, and the start and the steps of an array are no move of their own. The
order of the agenda, device time between its moves, and what follows a move at once are the model's choices (log entries 1, 4,
26, 41, 43). (The operations and events of the opcode table) -/
def Obligations.AgendaEventIsExecuted : Prop :=
  (∀ (s : State) (i : Instr) (l : List Move), s.regw = [] → s.agenda = .event i :: l → slotOf i = none → inCycle i = false →
    step s = entered (exec i { s with agenda := l })) ∧
  (∀ (s : State) (i : Instr) (l : List Move), s.regw = [] → s.agenda = .event i :: l → inCycle i = true →
    step s = .next ({ s with agenda := l } : State).upkeep) ∧
  (∀ (s : State) (cl : ClusterId) (l : List Move), s.regw = [] → s.agenda = .cycle cl :: l →
    step s = .next (if s.dueNow cl then ({ s with agenda := l }.clusterCycle cl).upkeep
      else ({ s with agenda := l } : State).upkeep))

/-- Where a core may fetch, the word at its fetch position is the escape and the 48 bytes behind it are there, nothing poisoned,
the core latches exactly the bundle of those bytes, the next fetch position is 25 words on, and the TLBs of the core take the
page of the word. That a fetch finds its words at once, fills no L2, and how its TLBs fill are the model's choices (log entries
13, 52, 64). (R107, R108, R229, R53) -/
def Obligations.LiteralBundleIsFetched : Prop :=
  ∀ (s : State) (c : CoreId) (t : Task) (img : Image) (esc lit : List Byte),
    s.task? c = some t → s.imageOf t = some img → s.mayFetch c t = true →
    t.npos.toNat + 24 < img.codeWords →
    s.codeBytes c t.ctx 2 (img.wordVa t.npos.toNat) 2 = some (esc, none) → leNat esc = 0xFFFF →
    s.codeBytes c t.ctx 2 (img.wordVa (t.npos.toNat + 1)) 48 = some (lit, none) →
    exec (.fetch c) s = .next ((s.setTask c { t with
      fpos := t.npos
      noWords := false
      npos := BitVec.ofNat 64 (t.npos.toNat + 25)
      latched := some (BitVec.ofNat 384 (leNat lit)) }).fillTlb c t.ctx (img.wordVa t.npos.toNat))

/-- Where a latched bundle decodes to the instructions l and passes its checks, nothing holds the core, no register it reads is
poisoned, the power window admits the bundle and no request of it meets a fenced link, the core cycle issues it: the task owes
the STALL of the bundle, each instruction of l in slot order is exec of it (none touches a lent core region), after which the
TLBs and the token cache take what it accessed, the issue is counted, and due results land at the end of the cycle. A step that
is a cycle of a cluster brings its clock to the present and device time to the beginning of the cycle, and is a cycle of each of
its cores in order, then of its arrays, then of its droop logic and declarations, followed by what follows any move at once. The
order of cores, arrays and droop logic in a cycle, the passing of device time, what the TLBs and the token cache take in, and
the moment of wait-for entries are the model's choices (log entries 1, 4, 13, 26, 41, 51). (R109, R110, R112, R123, R135, R139,
R183, R338) -/
def Obligations.StepRunsDecodedBundle : Prop :=
  (∀ (s : State) (c : CoreId) (t : Task) (b : Bundle) (l : List Instr),
    s.task? c = some t → t.latched = some b → decodeBundle b = .ok l → s.heldStill c t = false → t.mustWait l = false →
    s.bundleBad t b = none → t.readsBad l = false →
    windowAdmits (s.core c).weights (t.bundleWeight l) (s.cluster (clusterOf c)).lim.toNat = true → t.probeEarly l = false →
    (s.issueBundle c t l).shut = false →
    s.dueCycle c t = (s.issueBundle c t l, t.bundleWeight l)) ∧
  (∀ (s : State) (c : CoreId) (t : Task) (l : List Instr),
    s.issueBundle c t l =
      let u := t.startIssue l
      let s1 := l.foldl (fun (r : State) i => r.issueSyl c u i) { s.setTask c u with cur := c }
      let s2 := s1.mapTask c (fun t => { t with ord := t.ord + 1 })
      ((s2.count t.ctx ctrISSUED 1).charge t.launch (stackOf c) (fun a => { a with issued := a.issued + 1 })).endIssue c) ∧
  (∀ (s : State) (c : CoreId) (t : Task) (i : Instr), s.lentTouch c t i = none → ∀ u, exec i s = .next u →
    s.issueSyl c t i =
      if t.passes (usesOf i).gd then (t.touched i).foldl (fun (r : State) va => r.touch c t va) u else u) ∧
  (∀ (s : State) (c : CoreId) (t : Task) (b : Bundle), s.task? c = some t → t.latched = some b → t.idle = 0 → t.ended = false →
    s.stopped c t = false → s.taskCycle c t = s.dueCycle c t) ∧
  (∀ (s : State) (cl : ClusterId), s.regw = [] → s.agenda = [.cycle cl] → s.dueNow cl = true → (s.cluster cl).clocked = true →
    (({ s with agenda := [] } : State).catchUp cl |>.cluster cl).frozen = false →
    ∃ s0 s1 u, s0 = ({ s with agenda := [] } : State).catchUp cl ∧ s1 = s0.elapse ((s0.cluster cl).edge - s0.ns) ∧
      u = [0, 1, 2, 3].foldl (fun (r : State) k => r.coreCycle (clusterCore cl k)) (s1.setCluster cl (s0.cluster cl).tick) ∧
      step s = .next ((([0, 1, 2, 3].foldl (fun (r : State) k =>
        (r.arrayCycle (clusterCore cl k) 0).arrayCycle (clusterCore cl k) 1) u).droopCycle cl).windowCycle cl).upkeep)

/-- With G = 0, bits 55:49 of an admitted syllable are zero. The guard passes where p[GP] xor N = 1, of the guard file at issue.
Every syllable issued under a guard that does not pass leaves the whole state as it was and adds no weight; the STALL of the C
syllable is owed whatever its guard. (R114) -/
def Obligations.GuardThatFailsMakesNop : Prop :=
  (∀ (sl : Slot) (w : Word) (i : Instr), decodeSyl sl w = .ok i → w.getLsbD 56 = false → w.extractLsb' 49 7 = 0#7) ∧
  (∀ (t : Task) (g : Guard), t.passes g = (!g.on || (t.regs.p.getLsbD g.gp.toNat ^^ g.neg))) ∧
  (∀ (i : Instr) (sl : Slot) (s : State) (t : Task), slotOf i = some sl → s.task? s.cur = some t →
    t.passes (usesOf i).gd = false → exec i s = .next s) ∧
  (∀ (i : Instr) (l : List Instr) (t : Task), t.passes (usesOf i).gd = false →
    t.bundleWeight (i :: l) = t.bundleWeight l) ∧
  (∀ (i : Instr) (l : List Instr) (t : Task), (t.startIssue (i :: l)).idle = stallOf i)

/-- A task with nothing else in flight puts a result of latency n + 1 in flight: after any k issue-cycle ends with k at most n
its registers and flags are what they were; at the next its register and the latch of its slot hold the value, its flags are
ORed into FSTAT, the register is not poisoned, and nothing is in flight. Of two results for one main-file register that land in
one cycle, the register and the latch keep the later-issued. (R132, R137, R138, R143, R146, R162) -/
def Obligations.ResultLandsAfterItsLatency : Prop :=
  (∀ (t : Task) (d : Dest) (v : Vec) (fl : BitVec 7) (n : Nat), t.flight = [] →
    (∀ k, k ≤ n → (Nat.repeat Task.landDue k (t.put (n + 1) d v fl)).regs = t.regs ∧
      (Nat.repeat Task.landDue k (t.put (n + 1) d v fl)).fstat = t.fstat) ∧
    Nat.repeat Task.landDue (n + 1) (t.put (n + 1) d v fl) =
      { t with
        regs := (if t.regs.destDead d then t.regs else t.regs.write d v).latchLand d v
        fstat := t.fstat ||| fl
        bad := t.bad.filter (fun e => e.1 != d) }) ∧
  (∀ (t : Task) (sl : Slot) (p : Nat) (v w : Vec), t.flight = [] → t.regs.isDead sl p = false →
    let u := ((t.put 1 (.main sl p) v 0#7).put 1 (.main sl p) w 0#7).landDue
    u.regs.mainGet sl p = (t.regs.mainSet sl p w).mainGet sl p ∧
    u.regs.latchGet sl = (t.regs.latchLand (.main sl p) w).latchGet sl ∧ u.flight = [])

/-- When a result for a main-file register lands, every other physical register of every file, every operand-file entry, the
guard file, the lane masks, the loop counters and the rotating bases are as before, so is the latch of every other slot, and the
task is otherwise unchanged but for the poison mark of that register. A value that arrives through the interlocked queue changes
no latch at all. (R131, R132, R134, R141, R146, R162) -/
def Obligations.LandingChangesNothingElse : Prop :=
  (∀ (t : Task) (f : Flight) (sl : Slot) (p : Nat), f.dest = .main sl p →
    let u := t.land f
    (∀ (sl' : Slot) (q : Nat), (sl' ≠ sl ∨ q ≠ p) → u.regs.mainGet sl' q = t.regs.mainGet sl' q) ∧
    (∀ (sl' : Slot) (i : Nat), u.regs.opfGet sl' i = t.regs.opfGet sl' i) ∧
    (∀ sl' : Slot, sl' ≠ sl → u.regs.latchGet sl' = t.regs.latchGet sl') ∧
    u.regs.p = t.regs.p ∧ u.regs.k = t.regs.k ∧ u.regs.lc = t.regs.lc ∧
    u.regs.arb = t.regs.arb ∧ u.regs.vrb = t.regs.vrb ∧ u.regs.ald = t.regs.ald ∧ u.regs.vld = t.regs.vld ∧
    u = { t with regs := u.regs, fstat := u.fstat, bad := u.bad }) ∧
  (∀ (t : Task) (p : Pend) (v : Vec) (sl : Slot), (t.arrive p v).regs.latchGet sl = t.regs.latchGet sl)

/-- A read of a name that is mapped to a dead register gives zero. A result for a dead register changes no register of any file
when it lands, whether the register was dead at issue or died since, and the latch of its slot takes the value. (R132, R145,
R146) -/
def Obligations.DeadRegistersReadZeroAndTakeNothing : Prop :=
  (∀ (r : Regs) (sl : Slot) (i : BitVec 6) (imm : Vec), r.isDead sl (r.phys sl i.toNat) = true →
    r.read sl imm (.main i) = 0#1024) ∧
  (∀ (t : Task) (f : Flight) (sl : Slot) (p : Nat), f.dest = .main sl p → (f.dead = true ∨ t.regs.isDead sl p = true) →
    (t.land f).regs = t.regs.latchLand (.main sl p) f.val) ∧
  (∀ (r : Regs) (sl : Slot) (p : Nat) (v : Vec), sl ≠ .M → sl ≠ .V → ((r.latchLand (.main sl p) v).latchGet sl) =
    (v.setWidth 64).setWidth 1024)

/-- When a rotation lands with full live depths (ALD 16, VLD 32), what name a(48 + j) or v(32 + j) held is what the next name
holds after it, and the last name comes back as the first; the bases fall by one modulo their ranges. (R143, R144, R145) -/
def Obligations.LoopRotationMovesNames : Prop :=
  ∀ (r : Regs), r.ald = 16#5 → r.vld = 32#6 →
    let u := r.write .rot 0#1024
    u.arb = r.arb - 1#4 ∧ u.vrb = r.vrb - 1#5 ∧
    (∀ j, j < 16 → u.mainGet .A (u.phys .A (48 + (j + 1) % 16)) = r.mainGet .A (r.phys .A (48 + j))) ∧
    (∀ j, j < 32 → u.mainGet .V (u.phys .V (32 + (j + 1) % 32)) = r.mainGet .V (r.phys .V (32 + j)))

/-- Issued: a branch in format C-B goes to the position of its bundle plus OFF, one through a register to the value of S1, each
owing two more idle cycles; a call also puts the position that follows its bundle in flight to D at latency 1, S1 read before;
nop changes nothing. (R109, R110, R122, R132, R180) -/
def Obligations.BranchesCallsAndNop : Prop :=
  (∀ (sl : Slot) (f : FmtN) (s : State), exec (.nop sl f) s = .next s) ∧
  (∀ f : FmtCB, ChangesTask (.br f) f.gd fun _ t => { t with npos := t.fpos + f.off.signExtend 64, idle := t.idle + 2 }) ∧
  (∀ f : FmtCR, ChangesTask (.brx f) f.gd fun _ t =>
    { t with npos := t.regs.readW .C (f.s3.signExtend 64) f.s1, idle := t.idle + 2 }) ∧
  (∀ f : FmtCB, ChangesTask (.call f) f.gd fun _ t =>
    { t.putW 1 .C f.d t.npos with npos := t.fpos + f.off.signExtend 64, idle := t.idle + 2 }) ∧
  (∀ f : FmtCR, ChangesTask (.callx f) f.gd fun _ t =>
    { t.putW 1 .C f.d t.npos with npos := t.regs.readW .C (f.s3.signExtend 64) f.s1, idle := t.idle + 2 }) ∧
  (∀ f : FmtCR, ChangesTask (.ret f) f.gd fun _ t =>
    { t with npos := t.regs.readW .C (f.s3.signExtend 64) f.s1, idle := t.idle + 2 })

/-- Issued: loop sets LC[h] to the low 32 bits of its count, at least 1; lpend lowers LC[h] by one, not below zero, and goes to
its target, with no idle cycle, exactly where one or more iterations remain; loop.rot also puts a rotation of both regions in
flight; lpbrk sets LC[h] to 0 and always branches, with two idle cycles. (R110, R144, R176, R181) -/
def Obligations.HardwareLoopsCountAndBranch : Prop :=
  (∀ f : FmtCR, ChangesTask (.loop f) f.gd fun _ t =>
    t.put 1 (.lc f.lvl.toNat) (BitVec.ofNat 1024 (max ((t.regs.readW .C (f.s3.signExtend 64) f.s1).toNat % 2 ^ 32) 1)) 0#7) ∧
  (∀ f : FmtCB, ChangesTask (.lpend f) f.gd fun _ t =>
    let n := (t.regs.counter f.lvl.toNat).toNat - 1
    { t.put 1 (.lc f.lvl.toNat) (BitVec.ofNat 1024 n) 0#7 with
      npos := if 0 < n then t.fpos + f.off.signExtend 64 else t.npos }) ∧
  (∀ f : FmtCB, ChangesTask (.loopRot f) f.gd fun _ t =>
    let n := (t.regs.counter f.lvl.toNat).toNat - 1
    { (t.put 1 .rot 0#1024 0#7).put 1 (.lc f.lvl.toNat) (BitVec.ofNat 1024 n) 0#7 with
      npos := if 0 < n then t.fpos + f.off.signExtend 64 else t.npos }) ∧
  (∀ f : FmtCB, ChangesTask (.lpbrk f) f.gd fun _ t =>
    { t.put 1 (.lc f.lvl.toNat) 0#1024 0#7 with npos := t.fpos + f.off.signExtend 64, idle := t.idle + 2 })

/-- Issued, each of tstamp, rdcyc, cli, cmov, cadd, csub, cand, cor, cxor, ccmp and setld puts in flight, at latency 1, the
value its rule gives, of its sources at issue; each of pand, por, pxor and pmov puts in flight to its guard-file entry the
function of its two entries, each complemented where its NS bit is 1; pset puts VAL. (R134, R183, R184, R185, R186) -/
def Obligations.ControlSlotResults : Prop :=
  (
  let s1 (f : FmtCR) (t : Task) : Word := t.regs.readW .C (f.s3.signExtend 64) f.s1
  let s2 (f : FmtCR) (t : Task) : Word := t.regs.readW .C (f.s3.signExtend 64) f.s2
  (∀ f : FmtCR, ChangesTask (.tstamp f) f.gd fun s t => t.putW 1 .C f.d (BitVec.ofNat 64 s.ns)) ∧
  (∀ f : FmtCR, ChangesTask (.rdcyc f) f.gd fun _ t => t.putW 1 .C f.d (BitVec.ofNat 64 t.cyc)) ∧
  (∀ f : FmtCI, ChangesTask (.cli f) f.gd fun _ t => t.putW 1 .C f.d (BitVec.ofInt 64 f.imm.toInt)) ∧
  (∀ f : FmtCR, ChangesTask (.cmov f) f.gd fun _ t => t.putW 1 .C f.d (s1 f t)) ∧
  (∀ f : FmtCR, ChangesTask (.cadd f) f.gd fun _ t => t.putW 1 .C f.d (BitVec.ofNat 64 ((s1 f t).toNat + (s2 f t).toNat))) ∧
  (∀ f : FmtCR, ChangesTask (.csub f) f.gd fun _ t =>
    t.putW 1 .C f.d (BitVec.ofInt 64 (((s1 f t).toNat : Int) - (s2 f t).toNat))) ∧
  (∀ f : FmtCR, ChangesTask (.cand f) f.gd fun _ t => t.putW 1 .C f.d (s1 f t &&& s2 f t)) ∧
  (∀ f : FmtCR, ChangesTask (.cor f) f.gd fun _ t => t.putW 1 .C f.d (s1 f t ||| s2 f t)) ∧
  (∀ f : FmtCR, ChangesTask (.cxor f) f.gd fun _ t => t.putW 1 .C f.d (s1 f t ^^^ s2 f t)) ∧
  (∀ f : FmtCR, ChangesTask (.ccmp f) f.gd fun _ t =>
    t.putP (predIx f.d) (cndInt f.cnd (tyVal f.ty (s1 f t).toNat) (tyVal f.ty (s2 f t).toNat))) ∧
  (∀ f : FmtCR, ChangesTask (.setld f) f.gd fun _ t =>
    t.put 1 .depth (BitVec.ofNat 1024 (min (s1 f t).toNat 16 + 256 * min (s2 f t).toNat 32)) 0#7)
  ) ∧
  (
  let a (f : FmtCP) (t : Task) : Bool := t.regs.pred (predIx f.s1) ^^ f.ns1
  let b (f : FmtCP) (t : Task) : Bool := t.regs.pred (predIx f.s2) ^^ f.ns2
  (∀ f : FmtCP, ChangesTask (.pand f) f.gd fun _ t => t.putP (predIx f.d) (a f t && b f t)) ∧
  (∀ f : FmtCP, ChangesTask (.por f) f.gd fun _ t => t.putP (predIx f.d) (a f t || b f t)) ∧
  (∀ f : FmtCP, ChangesTask (.pxor f) f.gd fun _ t => t.putP (predIx f.d) (a f t ^^ b f t)) ∧
  (∀ f : FmtCP, ChangesTask (.pmov f) f.gd fun _ t => t.putP (predIx f.d) (a f t)) ∧
  (∀ f : FmtCP, ChangesTask (.pset f) f.gd fun _ t => t.putP (predIx f.d) f.val)
  )

/-- Issued, xcp puts in flight to D of the other slot: from A to V the low 32 bits in every lane at latency 2; from V to A the
lane LANE zero-extended at latency 2; from M to A bits 63:0; for the other pairs the source itself; all but the two at latency
1. (R132, R147, R148, R149) -/
def Obligations.CrossCopyConverts : Prop :=
  ∀ (sl : Slot) (f : FmtX), ChangesTask (.xcp sl f) f.gd fun _ t =>
    let x := t.regs.read sl 0#1024 f.s1
    if sl = .A ∧ f.dsl = .V then t.putV 2 .V f.d (ofElems 32 (List.replicate 32 (x.toNat % 2 ^ 32))) 0#7
    else if sl = .V ∧ f.dsl = .A then
      t.putV 2 .A f.d (BitVec.ofNat 1024 (x.toNat / 2 ^ (32 * f.lane.toNat) % 2 ^ 32)) 0#7
    else if sl = .M ∧ f.dsl = .A then t.putV 1 .A f.d (BitVec.ofNat 1024 (x.toNat % 2 ^ 64)) 0#7
    else t.putV 1 f.dsl f.d x 0#7

/-- After CONTEXT_END no core has a current or next task of the context, no stack has a team of it, and no full/empty access,
arrival or round of it is on its way. FATAL_CONTEXT_ERROR takes its error off the list and ends that context; its 64-byte
record, with the time of detection and the next SEQ, is written at the head of its stack's ring where the ring has room and
nothing waits, ELHEAD then one higher, and else waits on chip behind those that wait, with the host interrupted and FBOVF of the
context one higher. Where the 64 places on chip are taken the error stays, marked as waiting, counted once, the host
interrupted; a core whose event waits so is frozen. What is performed before an ending context's tasks are dropped, and that a
held error keeps its context until its record is taken, are read from the rules (log entries 46, 73). ELTAIL is written by a
master, with no record waiting as no other change. (R83, R425, R427, R428, R429, R469) -/
def Obligations.ContextEndsAndFatalErrors : Prop :=
  (∀ (s : State) (ctx : CtxId), ∃ u, exec (.contextEnd ctx) s = .next u ∧
    (∀ (c : CoreId) (t : Task), u.task? c = some t → t.ctx ≠ ctx) ∧
    (∀ (c : CoreId) (a : Asg), (u.core c).next = some a → a.who.1 ≠ ctx) ∧
    (∀ (st : StackId), ∀ m ∈ (u.stack st).teams, m.2.ctx ≠ ctx) ∧
    (∀ a ∈ u.fes, a.ctx ≠ ctx) ∧ (∀ a ∈ u.arrs, a.ctx ≠ ctx) ∧ (∀ a ∈ u.rounds, a.ctx ≠ ctx)) ∧
  (∀ (s : State) (n : Nat) (f : Fatal), s.fatals[n]? = some f →
    (s.elTakes (stackOf f.core) = false → f.held = true → exec (.fatalContextError n) s = .next s) ∧
    (s.elTakes (stackOf f.core) = false → f.held = false → ∃ u, exec (.fatalContextError n) s = .next u ∧
      u.fatals[n]? = some { f with held := true } ∧ u.fatals.length = s.fatals.length ∧
      Irq.errorLog (stackOf f.core) ∈ u.irqs ∧ u.cores = s.cores ∧ u.stackTab = s.stackTab ∧ u.launches = s.launches ∧
      u.ctx f.ctx = (s.ctx f.ctx).count ctrFBOVF 1 ∧ u.logHolds f.core = true) ∧
    (let st := stackOf f.core
      let x := s.stack st
      let r := recBytes (f.fields ++ [(8, f.time), (4, x.elseq.toNat), (4, 0)])
      r.length = 64 ∧
      (s.elTakes st = true → x.elwait = [] → x.elRoom = true → ∃ u : State,
        exec (.fatalContextError n) s = .next (u.endContext f.ctx (some f.launch)) ∧ u.fatals = listDrop s.fatals n ∧
        (u.stack st).elhead = x.elhead + 1#32 ∧ (u.stack st).elseq = x.elseq + 1#32 ∧ (u.stack st).elwait = [] ∧
        u.cores = s.cores ∧ (MemOk s → Memory.bytes u.mem x.elPlace 64 = r)) ∧
      (s.elTakes st = true → x.elwait ≠ [] ∨ x.elRoom = false → ∃ u : State,
        exec (.fatalContextError n) s = .next (u.endContext f.ctx (some f.launch)) ∧ u.fatals = listDrop s.fatals n ∧
        u.stack st = { x with elwait := x.elwait ++ [r], elseq := x.elseq + 1#32 } ∧ Irq.errorLog st ∈ u.irqs ∧
        u.cores = s.cores ∧ u.mem = s.mem ∧
        u.ctx f.ctx = if f.held then s.ctx f.ctx else (s.ctx f.ctx).count ctrFBOVF 1))) ∧
  (∀ (s : State) (c : CoreId) (t : Task) (b : Bundle), t.latched = some b → s.logHolds c = true →
    ∃ k m, s.dueCycle c t = (s.freeze c t k m false, 0)) ∧
  (∀ (s : State) (st : StackId) (v : Word), (s.stack st).elwait = [] →
    exec (.eltailWrite st v) s = .next (s.setStack st { s.stack st with eltail := v.extractLsb' 0 32 }))

/-- A popped record is delivered. A reply that matches its entry is written into the task that waits for it, any other is
ignored, and one that ends the context raises 0x0C; an answered svc or brk takes its answer at resume: p63 (0 serviced, 1
refused) is set before its first bundle issues, and the writes of p63 and of co7 are in flight with that bundle and land one
cycle after it issues. A suspend by core holds the task there; a suspended task leaves its core and stands in its team as it
was; a resume command lifts the hold, and the resumed task enters the next slot of its core or starts. SAVECFG is judged. A core
halts, resumes and is written only as R452 and R453 allow. When a suspend takes effect, the cycle of a reply's writes, the slot
chosen and what it holds, the addresses of their own that a suspended task's core regions take, and the resume of a team in part
are the model's choices (log entries 35, 39, 44, 48, 76). (R103, R134, R425, R432, R433, R434, R436, R437, R452, R453) -/
def Obligations.FaultRepliesPreemptionAndDebug : Prop :=
  (∀ (s : State) (st : StackId) (e : Nat) (r : FbEntry), (s.stack st).oldestFault = some (e, r) →
    exec (.faultPop st) s = .next (s.setStack st { s.stack st with fb := (s.stack st).fb.set e { r with delivered := true } })) ∧
  (∀ (s : State) (c : CoreId) (ctx : CtxId) (ent : Fin 4096) (seq : BitVec 32), let st := stackOf c
    ((∀ r, (s.stack st).fb.find ent.val = some r → r.answers ctx seq = false) →
      exec (.freplyServiced st ctx ent seq) s = .next s ∧ exec (.freplyRefused st ctx ent seq) s = .next s ∧
      exec (.freplyEndContext st ctx ent seq) s = .next s) ∧
    (∀ r t, (s.stack st).fb.find ent.val = some r → r.answers ctx seq = true → s.task? c = some t →
      t.waitsFor ctx ent.val seq = true →
      (∃ u, exec (.freplyServiced st ctx ent seq) s = .next u ∧ u.task? c = some (t.answer false (s.stack st).frval)) ∧
      (∃ u, exec (.freplyRefused st ctx ent seq) s = .next u ∧ u.task? c = some (t.answer true (s.stack st).frval)) ∧
      (∃ u x, exec (.freplyEndContext st ctx ent seq) s = .next u ∧ u.fatals = s.fatals ++ [x] ∧ x.code = 0x0C ∧ x.ctx = ctx))) ∧
  (∀ (t : Task) (e : EventS), t.event = some e → e.answered = true → e.kind ≠ 0 →
    t.takeReply.regs = { t.regs with p := t.takeReply.regs.p } ∧
    (∀ i : BitVec 6, t.takeReply.regs.pred i = if i.toNat = 63 then e.refused else t.regs.pred i) ∧
    t.takeReply.reply = some (e.value, e.refused) ∧ t.takeReply.event = none) ∧
  (∀ (t : Task) (v : Word) (b : Bool), t.reply = some (v, b) → t.startReply.regs = t.regs ∧ t.startReply.reply = none ∧
    t.startReply.flight = ((t.put 1 (.pred 63) (if b then 1#1024 else 0#1024) 0#7).put 1 (.opf .C 7) (v.setWidth 1024) 0#7).flight) ∧
  (∀ (s : State) (c : CoreId) (t : Task) (v : Word), let st := stackOf c
    s.task? c = some t → t.ended = false → (s.stack st).preBusy = false →
    let held (i : Instr) : Prop := ∃ u, exec i s = .next u ∧ u.task? c = some { t with suspend := true, pre := true } ∧
      (u.stack st).preBusy = true ∧ (u.stack st).preRef = false
    (v.getLsbD 60 = false → v.extractLsb' 46 2 = 0#2 → v.extractLsb' 16 4 = BitVec.ofNat 4 (coreInStack c) →
      v.extractLsb' 48 12 = BitVec.ofNat 12 t.ctx.val →
      s.newlySaved st [t.team] + (s.slotsHeld t.ctx + s.slotsKept t.ctx st [t.team]) ≤ (s.ctx t.ctx).slots.toNat →
      held (.preemptSuspend st v)) ∧
    (let ts := ((s.stack st).teams.filter (fun e => e.2.ctx == t.ctx)).map Prod.fst
     t.team ∈ ts → s.newlySaved st ts + (s.slotsHeld t.ctx + s.slotsKept t.ctx st ts) ≤ (s.ctx t.ctx).slots.toNat →
      held (.preemptSwapOutRelease st t.ctx))) ∧
  (∀ (s : State) (st : StackId) (v : Word) (n : Nat) (tm : Team), (s.stack st).preBusy = false → v.getLsbD 60 = false →
    v.extractLsb' 46 2 = 1#2 → v.extractLsb' 0 16 = BitVec.ofNat 16 n → n < 65536 → (s.stack st).teams.find n = some tm →
    v.extractLsb' 48 12 = BitVec.ofNat 12 tm.ctx.val → ∃ u tm', exec (.preemptResume st v) s = .next u ∧
      (u.stack st).preDone = true ∧ (u.stack st).preRef = false ∧ (u.stack st).teams.find n = some tm' ∧
      (∀ k t, tm.susp.find k = some t → t.team = n → tm'.susp.find k = some { t with pre := false })) ∧
  (∀ (s : State) (c : CoreId) (t : Task) (tm : Team), s.task? c = some t → s.maySuspend c t = true → (s.core c).saveErrs = 0 →
    s.team? c t = some tm → s.fes = [] → s.stateBad c t = false →
      ∃ u tm' slot, exec (.taskSuspend c) s = .next u ∧ u.task? c = none ∧ u.team? c t = some tm' ∧
        tm'.susp.find (coreInStack c) = some (({ t with saveSlot := slot, areaB := false } : Machine.Task).rebase
          (rebase (corePa c) (corePa c + parkShift t.team) coreSpan))) ∧
  (∀ (s : State) (c : CoreId) (m : Nat) (t : Task) (tm : Team), let st := stackOf c
    (s.stack st).teams.find m = some tm → tm.susp = [(coreInStack c, t)] → t.mayResume = true → s.stackClosed st = false →
    (∀ i, i < tm.size → (s.core (coreOf st (tm.base + i))).next = none) →
    s.slotOpen st m (coreInStack c) = true → ∃ u tm', exec (.teamResume st m) s = .next u ∧
      (u.stack st).teams.find m = some tm' ∧ tm'.susp = [] ∧
      ((u.core c).next = some (.resume t (s.stack st).seq) ∨ ∃ w : Machine.Task, u.task? c = some w.reenter ∧ w.regs = t.regs ∧
        w.npos = t.npos ∧ w.fpos = t.fpos ∧ w.launch = t.launch ∧ w.coord = t.coord ∧ w.event = t.event)) ∧
  (∀ (s : State) (ctx : CtxId) (v : Word) (b : Bool),
    (s.launches.any (fun e => e.2.ctx == ctx && !e.2.done) = true → exec (.saveAreaCheck ctx v b) s = .next s) ∧
    (s.launches.any (fun e => e.2.ctx == ctx && !e.2.done) = false → ∃ ok,
      exec (.saveAreaCheck ctx v b) s = .next (s.setCtx ctx { s.ctx ctx with slots := v.extractLsb' 0 16, ok := ok }) ∧
      (ok = true → b = true ∧ 1 ≤ (v.extractLsb' 0 16).toNat ∧ (v.extractLsb' 0 16).toNat ≤ 1024))) ∧
  (∀ (s : State) (c : CoreId) (v : Word), let x := s.core c
    (x.hlt = false → exec (.debugHaltRequest c) s = .next (s.setCore c { x with haltReq := 1 }) ∧
      exec (.debugDataWrite c v) s = .next s) ∧
    (x.hlt = true → exec (.debugHaltRequest c) s = .next s ∧
      exec (.debugResume c) s = .next (s.setCore c { x with hlt := false, cause := 0 })) ∧
    (∀ t, x.live = some t → x.hlt = false → x.haltReq ≠ 0 → (∀ f ∈ t.flight, f.late = false) →
      exec (.debugHalt c) s = .next (s.setCore c { x with hlt := true, cause := x.haltReq, haltReq := 0 })) ∧
    (∀ t, x.live = some t → x.hlt = true → selFile x.dbgsel = 9 → selIndex x.dbgsel < 64 → selWord x.dbgsel = 0 →
      ∃ t', exec (.debugDataWrite c v) s = .next (s.setTask c t') ∧
        (∀ i : BitVec 6, t'.regs.pred i = if i.toNat = selIndex x.dbgsel then v.getLsbD 0 else t.regs.pred i)))

/-- A soft error puts its unit under test, and an uncorrectable one in memory leaves the word poisoned where no save slot of a
suspended task lies there; a self-test that passes ends the test, one that fails on a row with spares spares it, and a failing
engine or core is fenced. Poison met by a task load raises 0x0C, or 0x0D for an error completion outside a protected interval,
where its team cannot replay; a poisoned line's clean copies leave every L1 and cluster cache, and every L2 but where they are
pinned, when they are fetched again. A replay of a team without a checkpoint changes nothing; one with a protected checkpoint
brings back its phases and counts, and keeps the checkpoint. A reset of a stack marks it busy and suspends its tasks, one with
no quiesce loses its tokens and clears its L1s, and a completed one leaves it not busy, fenced where FEN asked for it. The unit
struck and the outcome of its test as arguments, the course of a reset, that GO is ignored while one is under way, and eight
spare rows for each unit are the model's choices (log entries 37, 38, 77, 79). (R381, R440, R441, R442, R443, R444, R445, R447,
R449, R450, R451) -/
def Obligations.ErrorsReplayAndStackReset : Prop :=
  (∀ (s : State) (pa : Nat) (b : Bool), (∀ e ∈ s.savedTasks, ∀ a n, s.savedSlot e.2 = some (a, n) → pa < a ∨ a + slotSpan ≤ pa) →
    ∃ u, exec (.softError (.memWord pa) b) s = .next u ∧
    u.tests = s.tests ++ [(.memWord pa, b)] ∧ u.mem = s.mem ∧ u.stackTab = s.stackTab ∧
    u.poison = (if b ∨ pa / 8 * 8 ∈ s.poison then s.poison else s.poison ++ [pa / 8 * 8]) ∧
    (b = true ∨ s.savingInto pa = [] → u.cores = s.cores)) ∧
  (∀ (s : State) (u : ErrUnit) (b : Bool), ∃ x, exec (.softError u b) s = .next x ∧ x.tests = s.tests ++ [(u, b)] ∧ x.mem = s.mem) ∧
  (∀ (s : State) (u : ErrUnit), (∀ e ∈ s.tests, e.1 ≠ u) → s.stage ≠ 3 → exec (.selfTestDone u true) s = .next s ∧
    exec (.selfTestDone u false) s = .next s) ∧
  (∀ (s : State) (u : ErrUnit) (b : Bool), s.tests.find? (fun e => e.1 == u) = some (u, b) →
    (∃ x, exec (.selfTestDone u true) s = .next x ∧ x.tests = s.tests.erase (u, b) ∧ x.cores = s.cores) ∧
    (∀ pa k, u = .memWord pa → b = false → s.bankOf u = some k → s.sparesUsed k < 8 →
      ∃ x, exec (.selfTestDone u false) s = .next x ∧ x.tests = s.tests.erase (u, b) ∧ x.spared = s.spared + 1 ∧
        x.mem = s.mem) ∧
    (∀ c, u = .coreLogic c → ∃ x, exec (.selfTestDone u false) s = .next x ∧ (x.core c).fenced = true) ∧
    (∀ st e, u = .engine st e → ∃ x, exec (.selfTestDone u false) s = .next x ∧
      (x.stack st).engFenced.getLsbD e.val = true)) ∧
  (∀ (s : State) (c : CoreId) (t : Task) (ec : Bool), s.task? c = some t → s.canReplay (stackOf c) t.team = false →
    ∃ u x, exec (.poisonConsumed (.load c ec)) s = .next u ∧ u.task? c = some { t with failed := true } ∧
      u.fatals = s.fatals ++ [x] ∧ x.code = (if ec = true ∧ s.intervalProt (stackOf c) t.team = false then 0x0D else 0x0C) ∧ x.ctx = t.ctx) ∧
  (∀ (s : State) (pa : Nat), ∃ u, exec (.poisonConsumed (.cleanCopy pa)) s = .next u ∧
    (∀ (c : CoreId) (l : Line), (lineOf pa, l) ∈ (u.core c).l1 → l.dirty ≠ 0#128) ∧
    (∀ (cl : ClusterId) (l : Line), (lineOf pa, l) ∈ (u.cluster cl).cc → l.dirty ≠ 0#128) ∧
    (∀ (st : StackId), ∀ e ∈ (u.stack st).l2, e.line = lineOf pa → e.dirty = true ∨ e.pin = true) ∧
    (s.spoiltCopies (lineOf pa) = [] → u.mem = s.mem ∧ (∀ (st : StackId), ∀ e ∈ (u.stack st).l2, e.line = lineOf pa →
      e.dirty = true ∨ e.data = Memory.line s.mem (lineOf pa)))) ∧
  (∀ (s : State) (st : StackId) (m : Nat),
    (s.canReplay st m = false → exec (.teamReplay st m) s = .next s) ∧
    (∀ tm cp, (s.stack st).teams.find m = some tm → tm.cp = some cp → s.canReplay st m = true → (s.stack st).ops = [] →
      (s.stack st).requests = [] → s.copyRequests = [] → (∀ e ∈ cp.phases, e.2.p = 0 ∨ e.2.arv < e.2.p) → ∃ u tm' cp', exec (.teamReplay st m) s = .next u ∧
        (u.stack st).teams.find m = some tm' ∧ tm'.phases = cp.phases ∧ tm'.early = cp.early ∧ tm'.cp = some cp' ∧
        cp'.replays = cp.replays + 1 ∧ cp'.pre = [] ∧ cp'.tasks.map Prod.fst = cp.tasks.map Prod.fst)) ∧
  (∀ (s : State) (st : StackId) (fen : Bool),
    ((s.stack st).rstBusy = true → exec (.stackResetQuiesce st fen) s = .next s ∧ exec (.stackResetNoQuiesce st fen) s = .next s) ∧
    ((s.stack st).rstBusy = false →
      (∃ u, exec (.stackResetQuiesce st fen) s = .next u ∧ (u.stack st).rstBusy = true ∧ (u.stack st).qui = true ∧
        (u.stack st).fen = fen ∧ (∀ c t, stackOf c = st → s.task? c = some t → t.ended = false →
          u.task? c = some { t with suspend := true })) ∧
      (∃ u, exec (.stackResetNoQuiesce st fen) s = .next u ∧ (u.stack st).rstBusy = true ∧ (u.stack st).qui = false ∧
        (u.stack st).fen = fen ∧ (∀ e ∈ (u.stack st).toks, e.2.st = .lost) ∧
        (∀ c, stackOf c = st → (u.core c).l1 = []))) ∧
    ((s.stack st).rstBusy = true → (s.stack st).rstQui = false ∨ (s.stack st).qdone = true → ∃ u, exec (.stackResetDone st) s = .next u ∧
      (u.stack st).rstBusy = false ∧ (u.stack st).fenced = ((s.stack st).fenced || (s.stack st).rstFen)))

/-- A droop alarm counts in PSTAT.DRP at once, and its stretch begins at the end of the next cycle; a stretch that is over opens
the half-issue window, and that window closes. A trip latches and interrupts, and clears when its cause is gone. A write of the
clock or the rail of a cluster outside R348 is refused with REF; one inside takes the set point, in a cluster that is not ON at
its next wake, and a change of the clock starts a relock that ends after the time its clock has stood, at most 2 us, the count
of cycles raised by it. An expired watchdog sets EXP and every running cluster takes the safe point, its VSET after the relock
where the clock is lowered, every other one at its next wake; the named core kicks it once the firmware is loaded. A cluster
changes its power state only through a command or a wake and the end of the transition; a wake takes the point written
meanwhile, restores the logic state, after OFF tests the logic of each core, and makes a relock where R483 asks for one. The
moment at which an alarm's stretch begins, that firmware runs from a kick to an expiry, TGT kept by a refused command, and when
what was written to a cluster that is not ON applies, are the model's reading or choice (log entries 31, 56, 87, 88). (R345,
R346, R348, R349, R350, R354, R355, R480, R481, R482, R483, R485) -/
def Obligations.ExecutionPowerEvents : Prop :=
  (∀ (s : State) (cl : ClusterId), let x := s.cluster cl
    (x.clocked = true → ∃ u, exec (.droopAlarm cl) s = .next u ∧ u.mem = s.mem ∧ u.cores = s.cores ∧ u.cluster cl = { x with
      alarm := true, drp := if x.drp = 255#8 then 255#8 else x.drp + 1#8 }) ∧
    (x.alarm = true → (s.droopCycle cl).cluster cl = { x with
      alarm := false, strOn := true, stretch := x.dstr.toNat, hiwOn := false, hiw := 0, hiwPos := 0 }) ∧
    (x.strOn = true → x.stretch = 0 → exec (.stretchEnd cl) s = .next (s.setCluster cl { x with
      strOn := false, hiwOn := x.dhiw != 0#10, hiw := x.dhiw.toNat, hiwPos := 0 })) ∧
    (x.hiwOn = true → x.hiw = 0 → exec (.halfIssueWindowEnd cl) s = .next (s.setCluster cl { x with hiwOn := false, hiwPos := 0 })) ∧
    exec (.thermalTrip cl) s = .next { s.setCluster cl { x with hot := true, ttrip := true } with irqs := s.irqs ++ [.trip cl] } ∧
    (x.pst.toNat < 2 → exec (.currentTrip cl) s =
      .next { s.setCluster cl { x with overCur := true, ctrip := true } with irqs := s.irqs ++ [.trip cl] }) ∧
    exec (.tripClear cl) s = .next (s.setCluster cl { x with hot := false, overCur := false })) ∧
  (∀ (s : State) (cl : ClusterId) (v : Word), let x := (s.catchUp cl).cluster cl
    let f := (v.extractLsb' 0 12).toNat
    let mv := (v.extractLsb' 0 10).toNat
    let ok (f mv : Nat) : Prop := 600 ≤ f ∧ f ≤ 1800 ∧ f % 25 = 0 ∧ 550 ≤ mv ∧ mv ≤ 950 ∧ f + 1050 ≤ 3 * mv
    x.pointHeld = false → x.safe = false → x.safePend = false → v.getLsbD 62 = false →
    (x.isOn = false → (ok f x.effV → ∃ u, exec (.clockSet cl v) s = .next u ∧
        u.cluster cl = { x with nextF := some f, pre := (u.cluster cl).pre }) ∧
      (ok x.effF mv → ∃ u, exec (.vsetWrite cl v) s = .next u ∧ u.cluster cl = { x with nextV := some mv, pre := (u.cluster cl).pre })) ∧
    (x.isOn = true → x.nextF = none → x.nextV = none →
    (¬ ok f x.vset.toNat → ∃ u, exec (.clockSet cl v) s = .next u ∧ u.cluster cl = { x with ref := true, pre := (u.cluster cl).pre }) ∧
    (ok f x.vset.toNat → f ≠ x.fmhz.toNat → ∃ u, exec (.clockSet cl v) s = .next u ∧
      u.cluster cl = { x with fmhz := v.extractLsb' 0 12, busy := true, stopAt := s.ns, pre := (u.cluster cl).pre }) ∧
    (¬ ok x.fmhz.toNat mv → ∃ u, exec (.vsetWrite cl v) s = .next u ∧ u.cluster cl = { x with ref := true, pre := (u.cluster cl).pre }) ∧
    (ok x.fmhz.toNat mv → ∃ u, exec (.vsetWrite cl v) s = .next u ∧
      u.cluster cl = { x with vset := v.extractLsb' 0 10, pre := (u.cluster cl).pre }))) ∧
  (∀ (s : State) (cl : ClusterId) (n : Nat), (s.cluster cl).busy = false ∨ n ≠ s.ns - (s.cluster cl).stopAt ∨ 2000 < n →
    exec (.relockDone cl n) s = .next s) ∧
  (∀ (s : State) (cl : ClusterId) (n : Nat), let x := s.cluster cl
    x.busy = true → n = s.ns - x.stopAt → n ≤ 2000 → x.safePend = false → x.pendW = [] → ∃ u, exec (.relockDone cl n) s = .next u ∧ u.mem = s.mem ∧
      (u.cluster cl).busy = false ∧ (u.cluster cl).cyc = x.cyc + n * x.fmhz.toNat / 1000 ∧ (u.cluster cl).edge = s.ns ∧ (u.cluster cl).fmhz = x.fmhz ∧
      (u.cluster cl).vset = (if x.safeV then 800#10 else x.vset)) ∧
  (∀ (s : State) (m : Master) (v : Word),
    ((m = .B) = (s.pfsel = true) → v.extractLsb' 48 16 = 0xA5C3#16 → 2 ≤ s.stage → ∃ u, exec (.watchdogKick m v) s = .next u ∧
      u.wdogRun = true ∧ u.fwRun = true ∧ u.wdogLeft = 5000000 ∧ u.wdogExp = (s.wdogExp && !v.getLsbD 32)) ∧
    ((m = .B) = (s.pfsel = true) → s.stage < 2 → exec (.watchdogKick m v) s = .next { s with wdogExp := s.wdogExp && !v.getLsbD 32 }) ∧
    ((m = .B) ≠ (s.pfsel = true) → exec (.watchdogKick m v) s = .next s)) ∧
  (∀ s : State, (s.wdogRun = false ∨ s.wdogLeft ≠ 0 → exec .watchdogExpire s = .next s) ∧
    (s.wdogRun = true → s.wdogLeft = 0 → ∃ u, exec .watchdogExpire s = .next u ∧ u.wdogExp = true ∧ u.fwRun = false ∧
      (∀ cl, (s.cluster cl).clocked = true → (u.cluster cl).safe = true ∧ (u.cluster cl).fmhz = 1000#12 ∧
        (if 1000 < (s.cluster cl).fmhz.toNat
         then (u.cluster cl).busy = true ∧ (u.cluster cl).safeV = true ∧ (u.cluster cl).vset = (s.cluster cl).vset
         else (u.cluster cl).vset = 800#10)) ∧
      (∀ cl, (s.cluster cl).clocked = false → (u.cluster cl).safePend = true ∧ (u.cluster cl).fmhz = (s.cluster cl).fmhz))) ∧
  (∀ (s : State) (cl : ClusterId) (b : Bool), exec (.clusterQuiesceRequest cl b) s = .next (s.setCluster cl { s.cluster cl with req := b })) ∧
  (∀ (s : State) (cl : ClusterId) (tgt : BitVec 3), let x := s.cluster cl
    (x.pbusy = true ∨ 4 ≤ tgt.toNat → exec (.clusterPowerCommand cl tgt) s = .next (s.setCluster cl { x with pref := true })) ∧
    (x.pbusy = false → tgt = x.pst → tgt = 0#3 → exec (.clusterPowerCommand cl tgt) s = .next (s.setCluster cl { x with tgt := tgt })) ∧
    (x.pbusy = false → x.pst = 0#3 → tgt = 1#3 → s.quiesced cl = true → ∃ u, exec (.clusterPowerCommand cl tgt) s = .next u ∧
      (u.cluster cl).pbusy = true ∧ (u.cluster cl).goal = tgt ∧ (u.cluster cl).pst = x.pst ∧ (∀ c, u.task? c = s.task? c)) ∧
    (x.pbusy = true → x.goal ≠ 0#3 → exec (.clusterWake cl) s = .next (s.setCluster cl { x with wkp := true })) ∧
    (x.pbusy = false → x.pst ≠ 0#3 → ∃ y, exec (.clusterWake cl) s = .next (s.setCluster cl y) ∧ y.pbusy = true ∧ y.goal = 0#3 ∧
      y.pst = x.pst ∧ y.saved = x.saved ∧ y.wkStep = 0 ∧ (∀ f, x.nextF = some f → y.fmhz = BitVec.ofNat 12 f) ∧
      (∀ f, x.nextV = some f → y.vset = BitVec.ofNat 10 f) ∧
      (x.nextF = none → y.fmhz = if x.safePend then 1000#12 else x.fmhz) ∧
      (x.nextV = none → y.vset = if x.safePend then 800#10 else x.vset)) ∧
    (x.pbusy = true → x.goal = 0#3 → x.wkStep = 0 → (s.logicRestored cl).tests = if x.pst = 3#3
      then s.tests ++ [(.coreLogic (clusterCore cl 0), false), (.coreLogic (clusterCore cl 1), false),
        (.coreLogic (clusterCore cl 2), false), (.coreLogic (clusterCore cl 3), false)]
      else s.tests) ∧
    (x.pbusy = true → x.goal = 0#3 → x.wkStep = 1 → s.clusterTests cl = false →
      ((s.wakeRelock cl).cluster cl).wkStep = 2 ∧ ((s.wakeRelock cl).cluster cl).busy =
        (x.busy || decide (2 ≤ x.pst.toNat) || x.nextF.isSome)) ∧
    (x.pbusy = false ∨ x.goal = 0#3 ∧ (x.wkStep ≠ 2 ∨ x.busy = true) → exec (.clusterTransitionDone cl) s = .next s) ∧
    (x.pbusy = true → x.goal ≠ 0#3 ∨ x.wkStep = 2 ∧ x.busy = false → x.wkp = true → ∃ y,
      exec (.clusterTransitionDone cl) s = .next (s.setCluster cl y) ∧ y.pst = x.goal ∧ y.wkp = false ∧ y.goal = 0#3 ∧ y.pbusy = true ∧
      y.saved = (decide (2 ≤ x.goal.toNat) || (x.saved && x.goal != 0#3))) ∧
    (x.pbusy = true → x.goal ≠ 0#3 ∨ x.wkStep = 2 ∧ x.busy = false → x.wkp = false → ∃ u, exec (.clusterTransitionDone cl) s = .next u ∧ (u.cluster cl).pst = x.goal ∧
      (u.cluster cl).pbusy = false ∧ (u.cluster cl).saved = (decide (2 ≤ x.goal.toNat) || (x.saved && x.goal != 0#3))))

/-- A register write by a master acts at its block; one to a power-controller window by the management core that PFSEL does not
name does nothing. A context without launches and tasks takes its configuration. An attestation is requested and done once. A
trained port, a route and a lost one decide which modules are reached. A grant from another module is taken, or waits with a NAK
where the 1,024 records are taken; an arrival counts and is acknowledged, one outside the grid is acknowledged as such, and one
for no admitted launch waits; a good flit in order is delivered once and a bad one is dropped; replayed flits are sent again.
Bring-up goes on stage by stage, its last one making the capability list, whose first header stands at CAPBASE, and a reset of
the module is the reset state with the spare rows and device time as they were. DONE and ERR cleared by a new GO, what a module
reset keeps, how arrivals and grants wait, what stage 3 stands for, and the order of the list are the model's reading or choice
(log entries 12, 45, 54, 81, 91). (R4, R26, R60, R471, R473, R474, R476, R477, R478, R479, R484, R489) -/
def Obligations.ModuleRegistersLinksAndBringUp : Prop :=
  (∀ (s : State) (m : Master) (v : Word),
    exec (.registerWrite m .queueBlock 0x100 v) s = .next { s with age := v.extractLsb' 0 32 } ∧
    ((∀ p ∈ s.ports, p.2.en = false) → exec (.registerWrite m .moduleBlock 0 v) s = .next { s with modid := v.extractLsb' 0 12 }) ∧
    (∀ st o, (m = .B) ≠ (s.pfsel = true) → exec (.registerWrite m (.stackWindow st) o v) s = .next s) ∧
    (∀ st, (m = .B) = (s.pfsel = true) → exec (.registerWrite m (.stackWindow st) 0x4050 v) s =
      .next (s.setStack st { s.stack st with frval := v }))) ∧
  (∀ (s : State) (sel : Bool), exec (.pfSelect sel) s = .next { s with pfsel := sel }) ∧
  (∀ (s : State) (ctx : CtxId) (v : Word),
    (s.ctxLaunched ctx = true → exec (.contextConfigure ctx v) s = .next s) ∧
    (s.ctxLaunched ctx = false → s.ctxCores ctx = [] → ∃ y, exec (.contextConfigure ctx v) s = .next (s.setCtx ctx y) ∧
      y = { s.ctx ctx with valid := v.getLsbD 63, priv := v.getLsbD 62, ctr := y.ctr, sbchk := y.sbchk } ∧
      ((s.ctx ctx).valid = true → y.ctr = (s.ctx ctx).ctr ∧ y.sbchk = (s.ctx ctx).sbchk) ∧
      ((s.ctx ctx).valid = false → v.getLsbD 63 = true → y.ctr = [] ∧ y.sbchk = false))) ∧
  (∀ (s : State) (v : Word) (e : Bool),
    (s.attBusy = true → exec (.attestRequest v) s = .next s) ∧
    (s.attBusy = false → exec (.attestRequest v) s = .next { s with
      attBusy := true, attDone := false, attErr := false, attFrame := v.extractLsb' 12 40 } ∧ exec (.attestDone e) s = .next s) ∧
    (s.attBusy = true → ∃ u, exec (.attestDone e) s = .next u ∧ u.attBusy = false ∧ u.attDone = true ∧
      (e = true → u = { s with attBusy := false, attDone := true, attErr := true }))) ∧
  (∀ (s : State) (p : PortId) (m : ModuleId) (v : Word),
    (∃ u, exec (.linkEnable p true) s = .next u ∧ (s.stage < 4 → u.mem = s.mem) ∧ (u.port p.val).en = true ∧ (u.port p.val).up = (s.port p.val).up) ∧
    (∃ u, exec (.linkEnable p false) s = .next u ∧ (s.stage < 4 → u.mem = s.mem) ∧ (u.port p.val).en = false ∧ (u.port p.val).up = false) ∧
    ((s.port p.val).en = true → ∃ u, exec (.linkUp p m) s = .next u ∧
      u.ports = s.ports.set p.val { s.port p.val with up := true, peer := BitVec.ofNat 12 m.val } ∧
      (s.stage < 4 → u.mem = s.mem)) ∧
    (∃ u, exec (.routeWrite m v) s = .next u ∧ u.mem = s.mem ∧ u.rtab = s.rtab.set m.val (v.extractLsb' 0 5)) ∧
    (∃ u, exec (.moduleUnreachable m) s = .next u ∧ (s.stage < 4 → u.mem = s.mem) ∧ u.reaches m = false)) ∧
  (∀ (s : State) (g : GrantMsg), g.lender.val ≠ s.modid.toNat →
    (s.grantsOf none < 1024 → exec (.remoteGrantReceive g) s = .next { s with
      grants := s.grants ++ [⟨g.lender, g.ctx, g.va, g.sizeExp, g.depth, none, none, none⟩] }) ∧
    (1024 ≤ s.grantsOf none → exec (.remoteGrantReceive g) s = .next { s with grantQ := s.grantQ ++ [(g, 1)] })) ∧
  (∀ (s : State) (r : RemoteArr), s.launchOf r.ctx r.lid = none →
    exec (.remoteArrival r) s = .next { s with inbox := s.inbox ++ [r] }) ∧
  (∀ (s u : State) (r : RemoteArr) (n : Nat) (l : Launch) (st : StackId) (m : Nat) (tm : Team),
    s.launchOf r.ctx r.lid = some (n, l) → inGrid l.ext r.coord = true →
    s.findTeam n r.coord = some (st, m, tm) → (s.unprotectTeam st m).countArrival st m r.phase.val .sy none 0 = some u →
    exec (.remoteArrival r) s = .next (u.acknowledge r false)) ∧
  (∀ (s : State) (r : RemoteArr) (n : Nat) (l : Launch) (b : Bool),
    (s.launchOf r.ctx r.lid = some (n, l) → inGrid l.ext r.coord = false → exec (.remoteArrival r) s = .next (s.acknowledge r true)) ∧
    (s.acknowledge r b).outbox = s.outbox ++ (if s.reaches r.sender
      then [⟨Fin.ofNat 16 ((s.rtab.get 0#5 r.sender.val).toNat % 16), .ack r.sender r.ctx r.lid r.coord b⟩] else [])) ∧
  (∀ (s : State) (h : Hop) (f : BitVec 2048), let x := s.links.get LinkS.reset (hopKey h)
    (flitGood f = false ∨ s.hopRuns h = false → exec (.flitReceive h f) s = .next s) ∧
    (flitGood f = true → s.hopRuns h = true → hopKey h ≠ hopBack h → ∃ u, exec (.flitReceive h f) s = .next u ∧ u = { s with links := u.links } ∧
      u.links.get LinkS.reset (hopKey h) = (if (f.extractLsb' 84 12).toNat = x.expect
        then { x with delivered := x.delivered ++ [f], expect := (x.expect + 1) % 4096 } else x)) ∧
    exec (.flitReplay h) s = .next { s with links := s.links.set (hopKey h) { x with replay := x.replay ++ x.unacked } }) ∧
  (∀ s : State, exec .moduleReset s = .next { State.reset with spared := s.spared, spares := s.spares, free := s.free, ns := s.ns }) ∧
  (∀ (s : State) (b : Bool), s.bfail = false → ∃ u, exec (.bringUpStage b) s = .next u ∧
    (s.stage = 0 → u.stage = 1 ∧ u.rom.isNone = b) ∧ (s.stage = 1 → u.stage = (if b then 2 else 1) ∧ u.bfail = !b) ∧
    (s.stage = 2 → u.stage = (if b then 3 else 2)) ∧ (s.stage = 3 → u.stage = 4 ∧
      (MemOk s → Memory.word u.mem u.capbase.toNat = 0x0101000100000010#64)) ∧ (4 ≤ s.stage → u = s))

/-- After reset the module is at stage 0 with no agenda. As the spec states it: AGE is 1000 and DLPOL walks every 100 us with
VICT 0; every queue has EN 0, PRIO 3, IRQB 0, CTX 0; every semaphore is free with LEASE 0; every cluster has LIM 480, DRTH 40,
DSTR 6, DHIW 64, GAP 8, FMHZ 1500, set point 850 mV, PRE 0 and no status bit; the L2 split reads 64 cache units, QUI is 1 and
FEN 0; an array has n = 1, W = 0, no command, DRN 1 and the pair n8 by n8. The rest is the model's choice (log entries 2, 10,
11): no core has a task or a loaded plane, no message, launch, operation, error or interrupt is outstanding, no link or other
module is known, no queue holds a record, every other register is zero (the watchdog's count 5,000,000, not running), and memory
lists nothing. (R63, R65, R240, R310, R336, R411, R449, R489, R66, R67, R82, R425) -/
def Obligations.ResetState : Prop :=
  MemOk State.reset ∧ (∀ a, Memory.get State.reset.mem a = 0#8) ∧
  State.reset.stage = 0 ∧ State.reset.agenda = [] ∧ State.reset.age = 1000#32 ∧
  State.reset.dlPer = 100#16 ∧ State.reset.dlEn = true ∧ State.reset.dlVict = 0#2 ∧
  (∀ q : QueueId, let x := State.reset.queue q
    x.en = false ∧ x.prio = 3#2 ∧ x.irqb = false ∧ x.ctx = 0 ∧ x.recs = [] ∧ x.resA = 0#64 ∧ x.resB = 0#64) ∧
  (∀ n : SemId, (State.reset.sem n).own = none ∧ (State.reset.sem n).lease = 0#32) ∧
  (∀ k : ClusterId, let x := State.reset.cluster k
    x.lim = 480#10 ∧ x.drth = 40#8 ∧ x.dstr = 6#4 ∧ x.dhiw = 64#10 ∧ x.gap = 8#6 ∧ x.fmhz = 1500#12 ∧ x.busy = false ∧
    x.ref = false ∧ x.vset = 850#10 ∧ x.safe = false ∧ x.ttrip = false ∧ x.ctrip = false ∧ x.pre = 0#8 ∧ x.drp = 0#8 ∧
    x.strOn = false ∧ x.hiwOn = false) ∧
  (∀ k : StackId, let x := State.reset.stack k
    x.cu = 64 ∧ x.gain = 0#16 ∧ x.loss = 0#16 ∧ x.qui = true ∧ x.fen = false ∧ x.rstBusy = false ∧ x.qdone = false ∧
    x.toks = [] ∧ x.fb = [] ∧ x.elbase = 0#64 ∧ x.elcfg = 0#64 ∧ x.elhead = 0#32 ∧ x.eltail = 0#32 ∧
    x.l2 = [] ∧ x.objs = [] ∧ x.wft = [] ∧ x.tlb = []) ∧
  (let r := State.reset
   r.pwrites = [] ∧ r.fes = [] ∧ r.toks = [] ∧ r.arrs = [] ∧ r.rounds = [] ∧ r.amos = [] ∧ r.trigs = [] ∧ r.grows = [] ∧
   r.fatals = [] ∧ r.regw = [] ∧ r.jobs = [] ∧ r.launches = [] ∧ r.hold = none ∧ r.disp = none ∧ r.drops = [] ∧ r.tests = [] ∧
   r.live = [] ∧ r.pools = [] ∧ r.backed = [] ∧ r.poison = [] ∧ r.rest = [] ∧ r.irqs = [] ∧ r.grants = [] ∧ r.grantQ = [] ∧
   r.outbox = [] ∧ r.remq = [] ∧ r.inbox = [] ∧ r.syArrs = [] ∧ r.links = [] ∧ r.ports = [] ∧ r.rtab = [] ∧
   r.modid = 0#12 ∧ r.capbase = 0#52 ∧ r.pfsel = false ∧ r.attBusy = false ∧ r.attDone = false ∧ r.attErr = false ∧
   r.attFrame = 0#40 ∧ r.wdogExp = false ∧ r.wdogRun = false ∧ r.wdogLeft = 5000000 ∧ r.fwRun = false ∧ r.bfail = false ∧
   r.rom = none ∧ r.ns = 0 ∧ r.spared = 0 ∧ r.spares = []) ∧
  (∀ k : CtxId, let x := State.reset.ctx k
    x.valid = false ∧ x.priv = false ∧ x.hb = 0#64 ∧ x.hl = 0#64 ∧ x.ho = 0#64 ∧ x.ptroot = 0#64 ∧ x.savea = 0#64 ∧ x.saveb = 0#64 ∧
    x.slots = 0#16 ∧ x.ok = false ∧ x.syph = 0#64 ∧ x.sbchk = false ∧ x.ctr = []) ∧
  (∀ k : StackId, let x := State.reset.stack k
    x.frval = 0#64 ∧ x.stpark = 0#64 ∧ x.precmd = 0#64 ∧ x.preBusy = false ∧ x.preDone = false ∧ x.preRef = false ∧
    x.preTeam = 0#16 ∧ x.preTasks = 0#16 ∧ x.resv = [] ∧ x.ops = [] ∧ x.requests = [] ∧ x.teams = [] ∧ x.spills = [] ∧
    x.fbOrder = [] ∧ x.elwait = [] ∧ x.elheld = [] ∧ x.elseq = 0#32 ∧ x.fenced = false ∧ x.engFenced = 0#2 ∧ x.linkFen = false) ∧
  (∀ k : ClusterId, let x := State.reset.cluster k
    x.cc = [] ∧ x.cyc = 0 ∧ x.pst = 0#3 ∧ x.tgt = 0#3 ∧ x.pbusy = false ∧ x.pref = false ∧ x.saved = false ∧ x.wkp = false ∧
    x.req = false ∧ x.alarm = false) ∧
  (∀ k : CoreId, let x := State.reset.core k
    x.dbgsel = 0#64 ∧ x.cause = 0 ∧ x.haltReq = 0 ∧ x.brkh = false ∧ x.decl = none ∧ x.weights = []) ∧
  (∀ k : CoreId, let x := State.reset.core k
    x.live = none ∧ x.next = none ∧ x.act.st = .empty ∧ x.shd.st = .empty ∧ x.fenced = false ∧ x.hlt = false ∧
    x.l1 = [] ∧ x.tlb = [] ∧ x.tokc = []) ∧
  ArrayS.reset.fmt = 0x7700#17 ∧ ArrayS.reset.sl = 1 ∧ ArrayS.reset.gw = 0 ∧ ArrayS.reset.mute = 0#256 ∧
  ArrayS.reset.cur = none ∧ ArrayS.reset.pnd = none ∧ ArrayS.reset.drn = true

/-- From every state whose memory lists rising addresses and no byte equal to what an unlisted one reads as, whatever
instruction, event or cycle the step runs, the memory of the next state has that form. (R223, R241, R245, R255, R11) -/
def Obligations.StepKeepsMemoryCanonical : Prop :=
  ∀ s t : State, MemOk s → step s = .next t → MemOk t

/-- For an integer type of w bits: the value read from a source is its low w bits, in the range of the type, and congruent to
them modulo 2^w; fit of an exact integer is congruent to it modulo 2^w, lies in the range of the type, and fills the 64-bit
register by the type; saturation leaves a value in range as it is and gives the nearest end otherwise. (R155, R156, R187) -/
def Obligations.IntegerFitAndSaturation : Prop :=
  ∀ ty : Ty, (tyIsInt ty = true ∨ ty = .dflt) →
    (∀ n : Nat, tyMin ty ≤ tyVal ty n ∧ tyVal ty n ≤ tyMax ty ∧ (tyVal ty n - n) % 2 ^ tyWidth ty = 0) ∧
    (∀ v : Int,
      let r : Int := if tySigned ty then (fit64 ty v).toInt else (fit64 ty v).toNat
      (r - v) % 2 ^ tyWidth ty = 0 ∧ tyMin ty ≤ r ∧ r ≤ tyMax ty) ∧
    (∀ v : Int, (tyMin ty ≤ v → v ≤ tyMax ty → satInt ty v = v) ∧ (v < tyMin ty → satInt ty v = tyMin ty) ∧
      (tyMax ty < v → satInt ty v = tyMax ty))

/-- Issued, each of add, sub, mul, mulh, div, rem, min, max, abs, neg, sadd, ssub, madd, ext, clamp and cmp puts in flight, at
its latency, the fit of the exact integer its row gives; div rounds toward zero and gives -1 for a zero divisor, for which rem
gives x. (R137, R156, R187, R188) -/
def Obligations.IntegerArithmeticResults : Prop :=
  let x (f : FmtAR) (t : Task) : Int := tyVal f.ty (t.regs.readW .A (f.s3.signExtend 64) f.s1).toNat
  let y (f : FmtAR) (t : Task) : Int := tyVal f.ty (t.regs.readW .A (f.s3.signExtend 64) f.s2).toNat
  let z (f : FmtAR) (t : Task) : Int := tyVal f.ty (t.regs.readW .A 0#64 (s3Opd f.s3)).toNat
  let q (f : FmtAR) (t : Task) : Int := if y f t = 0 then -1 else (x f t).tdiv (y f t)
  let gives (i : FmtAR → Instr) (lat : Nat) (v : FmtAR → Task → Int) : Prop :=
    ∀ f : FmtAR, ChangesTask (i f) f.gd fun _ t => t.putW lat .A f.d (fit64 f.ty (v f t))
  gives .add 1 (fun f t => x f t + y f t) ∧ gives .sub 1 (fun f t => x f t - y f t) ∧
  gives .mul 3 (fun f t => x f t * y f t) ∧ gives .mulh 3 (fun f t => (x f t * y f t) / 2 ^ tyWidth f.ty) ∧
  gives .div 20 q ∧ gives .rem 20 (fun f t => if y f t = 0 then x f t else x f t - y f t * q f t) ∧
  gives .min 1 (fun f t => if x f t ≤ y f t then x f t else y f t) ∧
  gives .max 1 (fun f t => if x f t ≤ y f t then y f t else x f t) ∧
  gives .abs 1 (fun f t => if x f t < 0 then -(x f t) else x f t) ∧ gives .neg 1 (fun f t => -(x f t)) ∧
  gives .sadd 1 (fun f t => satInt f.ty (x f t + y f t)) ∧ gives .ssub 1 (fun f t => satInt f.ty (x f t - y f t)) ∧
  gives .madd 3 (fun f t => x f t * y f t + z f t) ∧ gives .ext 1 x ∧
  gives .clamp 1 (fun f t => Min.min (Max.max (x f t) (y f t)) (z f t)) ∧
  (∀ f : FmtAR, ChangesTask (.cmp f) f.gd fun _ t => t.putP (predIx f.d) (cndInt f.cnd (x f t) (y f t)))

/-- Issued, each of and, or, xor, andn, shl, shr, sar, rot, bset, bclr, bflip and tst puts in flight at latency 1 what its row
gives of the low w bits of its sources, with the count k = src(S2)[5:0] mod w; clz and ctz the numbers of leading and trailing
zeros of the low w bits, w for zero; pcnt the number of their ones; brev a value whose bit i is bit w-1-i of the source; bswap
one whose byte i is byte w/8-1-i. (R137, R187, R188) -/
def Obligations.ScalarBitsCountsAndReversals : Prop :=
  let u (f : FmtAR) (t : Task) : Nat := (t.regs.readW .A (f.s3.signExtend 64) f.s1).toNat % 2 ^ tyWidth f.ty
  let v (f : FmtAR) (t : Task) : Nat := (t.regs.readW .A (f.s3.signExtend 64) f.s2).toNat % 2 ^ tyWidth f.ty
  let k (f : FmtAR) (t : Task) : Nat := (t.regs.readW .A (f.s3.signExtend 64) f.s2).toNat % 64 % tyWidth f.ty
  let gives (i : FmtAR → Instr) (n : FmtAR → Task → Int) : Prop :=
    ∀ f : FmtAR, ChangesTask (i f) f.gd fun _ t => t.putW 1 .A f.d (fit64 f.ty (n f t))
  gives .and (fun f t => (u f t &&& v f t : Nat)) ∧ gives .or (fun f t => (u f t ||| v f t : Nat)) ∧
  gives .xor (fun f t => (u f t ^^^ v f t : Nat)) ∧
  gives .andn (fun f t => (u f t &&& (2 ^ tyWidth f.ty - 1 - v f t) : Nat)) ∧
  gives .shl (fun f t => (u f t * 2 ^ k f t : Nat)) ∧ gives .shr (fun f t => (u f t / 2 ^ k f t : Nat)) ∧
  gives .sar (fun f t => (if 2 ^ (tyWidth f.ty - 1) ≤ u f t then (u f t : Int) - 2 ^ tyWidth f.ty else u f t) / 2 ^ k f t) ∧
  gives .rot (fun f t => ((u f t * 2 ^ k f t) % 2 ^ tyWidth f.ty + u f t / 2 ^ (tyWidth f.ty - k f t) : Nat)) ∧
  gives .bset (fun f t => (u f t ||| 2 ^ k f t : Nat)) ∧
  gives .bclr (fun f t => (u f t &&& (2 ^ tyWidth f.ty - 1 - 2 ^ k f t) : Nat)) ∧
  gives .bflip (fun f t => (u f t ^^^ 2 ^ k f t : Nat)) ∧
  (∀ f : FmtAR, ChangesTask (.tst f) f.gd fun _ t => t.putP (predIx f.d)
    (match f.cnd with
      | .eq => decide (u f t &&& v f t = 0)
      | _ => decide (u f t &&& v f t ≠ 0))) ∧
  (∀ f : FmtAR, ChangesTask (.clz f) f.gd fun _ t => t.putW 1 .A f.d (BitVec.ofNat 64 (leadZeros (tyWidth f.ty) (u f t)))) ∧
  (∀ f : FmtAR, ChangesTask (.ctz f) f.gd fun _ t => t.putW 1 .A f.d (BitVec.ofNat 64 (trailZeros (tyWidth f.ty) (u f t)))) ∧
  (∀ f : FmtAR, ChangesTask (.pcnt f) f.gd fun _ t => t.putW 1 .A f.d (BitVec.ofNat 64 (popCount (tyWidth f.ty) (u f t)))) ∧
  (∀ f : FmtAR, ChangesTask (.brev f) f.gd fun _ t => t.putW 1 .A f.d (fit64 f.ty (bitRev (tyWidth f.ty) (u f t) : Nat))) ∧
  (∀ f : FmtAR, ChangesTask (.bswap f) f.gd fun _ t =>
    t.putW 1 .A f.d (fit64 f.ty (byteRev (tyWidth f.ty / 8) (u f t) : Nat))) ∧
  (∀ w n : Nat, n < 2 ^ w →
    (leadZeros w n ≤ w ∧ (∀ i, i < leadZeros w n → n.testBit (w - 1 - i) = false) ∧
      (leadZeros w n < w → n.testBit (w - 1 - leadZeros w n) = true)) ∧
    (trailZeros w n ≤ w ∧ (∀ i, i < trailZeros w n → n.testBit i = false) ∧
      (trailZeros w n < w → n.testBit (trailZeros w n) = true)) ∧
    popCount w n = ((List.range w).filter (fun i => n.testBit i)).length ∧
    (∀ i, i < w → (bitRev w n).testBit i = n.testBit (w - 1 - i))) ∧
  (∀ k n i : Nat, i < k → byteRev k n / 256 ^ i % 256 = n / 256 ^ (k - 1 - i) % 256)

/-- Issued, each puts in flight at latency 1 what its row gives of the 64-bit sources: sel by p[S3]; lea shifts S2 by S3; addc
and subb also put the carry or borrow in flight to p[S3]; align takes 64 bits at byte S3 of S1 above S2; pack joins halves; li,
lih and lih.hi place their immediate; bfx and bfi take and replace a field. (R187, R188, R190, R191) -/
def Obligations.ScalarMovesAndWideForms : Prop :=
  let a (f : FmtAR) (t : Task) : Word := t.regs.readW .A (f.s3.signExtend 64) f.s1
  let b (f : FmtAR) (t : Task) : Word := t.regs.readW .A (f.s3.signExtend 64) f.s2
  let u (f : FmtAR) (t : Task) : Nat := (t.regs.readW .A 0#64 f.s1).toNat
  let v (f : FmtAR) (t : Task) : Nat := (t.regs.readW .A 0#64 f.s2).toNat
  let c (f : FmtAR) (t : Task) : Bool := t.regs.p.getLsbD (f.s3.toNat % 64)
  let i1 (f : FmtAI) (t : Task) : Nat := (t.regs.readW .A (f.imm.signExtend 64) f.s1).toNat
  (∀ f : FmtAR, ChangesTask (.sel f) f.gd fun _ t => t.putW 1 .A f.d (BitVec.ofNat 64 (if c f t then u f t else v f t))) ∧
  (∀ f : FmtAR, ChangesTask (.mov f) f.gd fun _ t => t.putW 1 .A f.d (a f t)) ∧
  (∀ f : FmtAR, ChangesTask (.lea f) f.gd fun _ t => t.putW 1 .A f.d (BitVec.ofNat 64 (u f t + v f t * 2 ^ f.s3.toNat))) ∧
  (∀ f : FmtAR, ChangesTask (.addc f) f.gd fun _ t =>
    let n := u f t + v f t + (c f t).toNat
    (t.putW 1 .A f.d (BitVec.ofNat 64 n)).putP (f.s3.extractLsb' 0 6) (decide (2 ^ 64 ≤ n))) ∧
  (∀ f : FmtAR, ChangesTask (.subb f) f.gd fun _ t =>
    let n := v f t + (c f t).toNat
    (t.putW 1 .A f.d (BitVec.ofInt 64 ((u f t : Int) - n))).putP (f.s3.extractLsb' 0 6) (decide (u f t < n))) ∧
  (∀ f : FmtAR, ChangesTask (.align f) f.gd fun _ t =>
    t.putW 1 .A f.d (BitVec.ofNat 64 ((u f t * 2 ^ 64 + v f t) / 2 ^ (8 * f.s3.toNat)))) ∧
  (∀ f : FmtAR, ChangesTask (.pack f) f.gd fun _ t =>
    let h := match f.ty with | .n16 => 16 | .n8 => 8 | _ => 32
    t.putW 1 .A f.d (BitVec.ofNat 64 ((b f t).toNat % 2 ^ h * 2 ^ h + (a f t).toNat % 2 ^ h))) ∧
  (∀ f : FmtAI, ChangesTask (.li f) f.gd fun _ t => t.putW 1 .A f.d (BitVec.ofInt 64 f.imm.toInt)) ∧
  (∀ f : FmtAI, ChangesTask (.lih f) f.gd fun _ t =>
    t.putW 1 .A f.d (BitVec.ofInt 64 (f.imm.toInt * 2 ^ 24 + (i1 f t % 2 ^ 24 : Nat)))) ∧
  (∀ f : FmtAI, ChangesTask (.lihHi f) f.gd fun _ t =>
    t.putW 1 .A f.d (BitVec.ofNat 64 (f.imm.toNat * 2 ^ 40 + i1 f t % 2 ^ 40))) ∧
  (∀ f : FmtAF, ChangesTask (.bfx f) f.gd fun _ t => t.putW 1 .A f.d
    (BitVec.ofNat 64 ((t.regs.readW .A 0#64 f.s1).toNat / 2 ^ f.pos.toNat % 2 ^ (f.wid.toNat + 1)))) ∧
  (∀ f : FmtAF, ∀ s t, Issues s t f.gd → ∃ r : Word, exec (.bfi f) s = .next (s.setTask s.cur (t.putW 1 .A f.d r)) ∧
    ∀ j, j < 64 → r.getLsbD j = (if f.pos.toNat ≤ j ∧ j ≤ f.pos.toNat + f.wid.toNat then
      (t.regs.readW .A 0#64 f.s1).getLsbD (j - f.pos.toNat) else (t.regs.readW .A 0#64 f.s2).getLsbD j))

/-- Issued, hmix and crc put in flight, at latencies 3 and 2, the functions of their sources that R189 writes out; nine steps of
crc over the bytes of "123456789" from 0xFFFFFFFF give the complement of 0xE3069283. (R189) -/
def Obligations.HashAndCyclicCheckSteps : Prop :=
  let mix (a b : Nat) : Nat :=
    let h := a ^^^ b
    let h := h ^^^ (h / 2 ^ 29)
    let h := h * 0xBF58476D1CE4E5B9 % 2 ^ 64
    h ^^^ (h / 2 ^ 32)
  let bit (c : Nat) : Nat := if c % 2 = 1 then (c / 2) ^^^ 0x82F63B78 else c / 2
  let byte (c b : Nat) : Nat := Nat.repeat bit 8 (c ^^^ b)
  let step (w c v : Nat) : Nat := (List.range (w / 8)).foldl (fun c j => byte c (v / 2 ^ (8 * j) % 256)) c
  (∀ f : FmtAR, ChangesTask (.hmix f) f.gd fun _ t => t.putW 3 .A f.d (BitVec.ofNat 64
    (mix (t.regs.readW .A (f.s3.signExtend 64) f.s1).toNat (t.regs.readW .A (f.s3.signExtend 64) f.s2).toNat))) ∧
  (∀ f : FmtAR, ChangesTask (.crc f) f.gd fun _ t => t.putW 2 .A f.d (BitVec.ofNat 64
    (step (tyWidth f.ty) ((t.regs.readW .A (f.s3.signExtend 64) f.s1).toNat % 2 ^ 32)
      (t.regs.readW .A (f.s3.signExtend 64) f.s2).toNat))) ∧
  [0x31, 0x32, 0x33, 0x34, 0x35, 0x36, 0x37, 0x38, 0x39].foldl (step 8) 0xFFFFFFFF = 0xFFFFFFFF ^^^ 0xE3069283

/-- Issued, crd puts in flight at latency 1: for selectors 0 to 2 that component of the coordinate of the task; for 3 the packed
coordinate; for 4 to 6 an extent as written in the launch record, whatever grow has changed; for 8 to 15 the trip count of that
temporal level in loop-table order, 0 where the image has fewer. Every other selector is a reserved modifier. (R193) -/
def Obligations.CoordinateSelectors : Prop :=
  (∀ (f : FmtAI) (s : State) (t : Task) (l : Launch), Issues s t f.gd → s.launch? t.launch = some l →
    let sel := f.imm.toNat
    (∀ v : Word,
      (sel < 3 → v = BitVec.ofNat 64 (t.coord.toNat / 2 ^ (16 * sel) % 2 ^ 16)) →
      (sel = 3 → v = BitVec.ofNat 64 t.coord.toNat) →
      (sel = 4 → v = BitVec.ofNat 64 l.rcd.ext.1) → (sel = 5 → v = BitVec.ofNat 64 l.rcd.ext.2.1) →
      (sel = 6 → v = BitVec.ofNat 64 l.rcd.ext.2.2) →
      (8 ≤ sel → v = BitVec.ofNat 64 ((((l.img.loops.filter (fun x => x.lkind == 0)).map LoopRec.trip)[sel - 8]?).getD 0)) →
      sel < 16 → sel ≠ 7 → exec (.crd f) s = .next (s.setTask s.cur (t.putW 1 .A f.d v)))) ∧
  (∀ f : FmtAI, f.imm.toNat = 7 ∨ 16 ≤ f.imm.toNat → (Instr.crd f).wf = false)

/-- Issued, each puts in flight what the launch fixes for the task, at latency 1 (argb at 4): team rank and size, the address of
the constant block, the argument word as captured at admission, context and launch numbers, live depths and bases. locq names
its destination in the interlocked queue, pending until the query of the coordinate in S1, or of its own, is answered. (R99,
R100, R101, R141, R143, R192, R194) -/
def Obligations.TaskConstantsAndLocate : Prop :=
  (∀ f : FmtAI, ChangesTask (.rank f) f.gd fun _ t => t.putW 1 .A f.d (BitVec.ofNat 64 t.rank)) ∧
  (∀ f : FmtAI, ChangesTask (.ctxid f) f.gd fun _ t => t.putW 1 .A f.d (BitVec.ofNat 64 t.ctx.val)) ∧
  (∀ f : FmtAI, ChangesTask (.rdld f) f.gd fun _ t =>
    t.putW 1 .A f.d (BitVec.ofNat 64 (t.regs.ald.toNat + 256 * t.regs.vld.toNat))) ∧
  (∀ f : FmtAI, ChangesTask (.rdrb f) f.gd fun _ t =>
    t.putW 1 .A f.d (BitVec.ofNat 64 (t.regs.arb.toNat + 256 * t.regs.vrb.toNat))) ∧
  (∀ (f : FmtAI) (s : State) (t : Task) (l : Launch), Issues s t f.gd → s.launch? t.launch = some l →
    exec (.rankSz f) s = .next (s.setTask s.cur (t.putW 1 .A f.d (BitVec.ofNat 64 (teamSize l.img l.ext)))) ∧
    exec (.cbase f) s = .next (s.setTask s.cur (t.putW 1 .A f.d (l.img.va + BitVec.ofNat 64 l.img.constOff))) ∧
    exec (.argb f) s = .next (s.setTask s.cur (t.putW 4 .A f.d
      (BitVec.ofNat 64 (leNat ((l.argb.drop f.imm.toNat).take 8))))) ∧
    exec (.ctxidLid f) s = .next (s.setTask s.cur (t.putW 1 .A f.d (BitVec.ofNat 64 l.rcd.lid.toNat)))) ∧
  (∀ f : FmtAI, ChangesTask (.locq f) f.gd fun _ t =>
    t.putPend (t.regs.dest .A f.d) (.locq (t.regs.readW .A 0#64 f.s1)) none) ∧
  (∀ f : FmtAI, ChangesTask (.locqSelf f) f.gd fun _ t =>
    t.putPend (t.regs.dest .A f.d) (.locq (BitVec.ofNat 64 t.coord.toNat)) none)

/-- For every element width: each element of a vector result is what the operation gives there, reduced to the width, where MK
and K enable the element, and otherwise what D held; the flags are the union of those of the enabled elements. An element of w
bits up to 32 is governed by the mask bit of the 32-bit lane it lies in, an element of 64 bits by the mask bit of its even lane.
The result goes in flight at the latency given. (R151, R162, R196, R197, R198) -/
def Obligations.LanesRunElementwise : Prop :=
  (∀ (w : Nat) (en : Nat → Bool) (old : Vec) (op : Nat → Nat × FFlags), w = 4 ∨ w = 8 ∨ w = 16 ∨ w = 32 ∨ w = 64 →
    (∀ i, i < 1024 / w →
      elem w (lanesRun w en old op).1 i = if en i then (op i).1 % 2 ^ w else elem w old i) ∧
    (∀ b, b < 7 → (lanesRun w en old op).2.getLsbD b =
      (List.range (1024 / w)).any (fun i => en i && (op i).2.getLsbD b))) ∧
  (∀ (km : BitVec 32) (w i : Nat), laneEn false km w i = true ∧
    (w ≤ 32 → laneEn true km w i = km.getLsbD (i * w / 32)) ∧ (w = 64 → laneEn true km w i = km.getLsbD (2 * i))) ∧
  (∀ (t : Task) (f : FmtVR) (ty : Ty) (lat : Nat) (op : Nat → Nat → Nat → Nat × FFlags),
    t.eachVR f ty lat op =
      let w := tyWidth ty
      let x := t.regs.read .V (immVec ty f.s3) f.s1
      let y := t.regs.read .V (immVec ty f.s3) f.s2
      let z := t.regs.read .V 0#1024 (s3Opd f.s3)
      let r := lanesRun w (laneEn f.msk (t.regs.k.get 0#32 f.k.toNat) w) (t.regs.read .V 0#1024 f.d)
        (fun i => op (elem w x i) (elem w y i) (elem w z i))
      t.put lat (t.regs.dest .V f.d) r.1 r.2)

/-- A sum of finite terms, not all zero, is exact, a zero one negative in RDN and positive else; a product of finite values is
exact, its sign the exclusive OR; fadd, fmul and ffma round the exact value once. A quotient and a root are rounded once from
2^70 or more units, with a mark of whether something lies above them, which rounds as half a unit more would. A magnitude of m
units rounded to a multiple of 2^k of them: toward zero and, against the sign, up or down give the quotient rounded down; with
the sign, up and down give it rounded up; nearest even gives a multiple no farther off than half a step, and the even one of two
equally near. The result is inexact exactly where m is no multiple. Units scale out. (R157, R159, R163, R174) -/
def Obligations.RoundingIsToTheModesNeighbour : Prop :=
  (∀ (rm : Rm) (l : List (Bool × Nat × Int)) (q : Int), (∀ x ∈ l, q ≤ x.2.2) → (∃ x ∈ l, x.2.1 ≠ 0) → ∃ s m e,
    ftotal rm (l.map (fun x => .fin x.1 x.2.1 x.2.2)) = (.fin s m e, 0#7) ∧ q ≤ e ∧
    toUnits s m e q = (l.map (fun x => toUnits x.1 x.2.1 x.2.2 q)).foldl (fun a b => a + b) 0 ∧ (m = 0 → s = (rm == .rdn))) ∧
  (∀ (s t : Bool) (m n : Nat) (e f : Int), fmulX (.fin s m e) (.fin t n f) = (.fin (s != t) (m * n) (e + f), 0#7)) ∧
  (∀ (F : FFmt) (rm : Rm) (sat : Bool) (x y z : FVal),
    (fadd F rm sat x y).1 = (roundF F rm sat (ftotal rm [x, y]).1).1 ∧ (fmul F rm sat x y).1 = (roundF F rm sat (fmulX x y).1).1 ∧
    (ffma F rm sat x y z).1 = (roundF F rm sat (ftotal rm [(fmulX x y).1, z]).1).1) ∧
  (∀ (F : FFmt) (rm : Rm) (sat s t : Bool) (m n : Nat) (e f : Int), 0 < m → 0 < n → ∃ (d k : Nat) (st : Bool),
    fdiv F rm sat (.fin s m e) (.fin t n f) = roundFin F rm sat (s != t) d (e - f - k) st ∧ 2 ^ 70 ≤ d ∧
    d * n ≤ m * 2 ^ k ∧ m * 2 ^ k < (d + 1) * n ∧ (st = false ↔ d * n = m * 2 ^ k)) ∧
  (∀ (F : FFmt) (rm : Rm) (sat : Bool) (m : Nat) (e : Int), 0 < m → ∃ (r k : Nat) (h : Int) (st : Bool),
    fsqrt F rm sat (.fin false m e) = roundFin F rm sat false r h st ∧ 2 * h = e - k ∧ 2 ^ 70 ≤ r ∧
    r * r ≤ m * 2 ^ k ∧ m * 2 ^ k < (r + 1) * (r + 1) ∧ (st = false ↔ r * r = m * 2 ^ k)) ∧
  (∀ (rm : Rm) (s : Bool) (m : Nat), (∀ (e q : Int) (st : Bool), roundMag rm s m e st q = roundMag rm s m 0 st (q - e)) ∧
    (∀ k : Nat, 1 ≤ k → roundMag rm s m 0 true k = roundMag rm s (2 * m + 1) (-1) false k)) ∧
  (∀ (s : Bool) (m k : Nat),
    (∀ rm : Rm, (roundMag rm s m 0 false k).2 = decide (m % 2 ^ k ≠ 0)) ∧
    (roundMag .rtz s m 0 false k).1 = m / 2 ^ k ∧
    (roundMag .rup s m 0 false k).1 = (if s then m / 2 ^ k else (m + 2 ^ k - 1) / 2 ^ k) ∧
    (roundMag .rdn s m 0 false k).1 = (if s then (m + 2 ^ k - 1) / 2 ^ k else m / 2 ^ k) ∧
    (let y := (roundMag .rne s m 0 false k).1
     2 * (y * 2 ^ k) ≤ 2 * m + 2 ^ k ∧ 2 * m ≤ 2 * (y * 2 ^ k) + 2 ^ k ∧
     (2 * m + 2 ^ k = 2 * (y * 2 ^ k) ∨ 2 * m = 2 * (y * 2 ^ k) + 2 ^ k → y % 2 = 0)))

/-- For each of the six formats, in every rounding mode: the value of an encoding that is not a NaN rounds back to that encoding
with no flag; a NaN gives the canonical NaN of its format with no flag; and an infinity, under SAT, gives the largest finite
value of its sign with SO alone. A finite value that is not zero, with q the spacing of the format there, becomes the encoding
of its magnitude rounded to a multiple of 2^q, inexact with NX, and with UF below the smallest normal magnitude; where that
exceeds the largest finite value it overflows: to infinity or to the largest finite value as the mode and sign have it, with OF
and NX, and under SAT always to the latter, with SO where it changes the result. (R152, R153, R157, R158, R160) -/
def Obligations.EncodingsRoundToThemselves : Prop :=
  (∀ F ∈ [fmtF64, fmtF32, fmtF16, fmtBF16, fmtE4M3, fmtE5M2], ∀ (rm : Rm) (n : Nat), n < 2 ^ F.width →
    (isNan (fdec F n) = false → roundF F rm false (fdec F n) = (n, 0#7)) ∧
    (isNan (fdec F n) = true → ∀ sat, roundF F rm sat (fdec F n) = (F.nanBits, 0#7)) ∧
    (∀ s : Bool, roundF F rm true (.inf s) = (maxBits F s, flSO))) ∧
  (∀ F ∈ [fmtF64, fmtF32, fmtF16, fmtBF16, fmtE4M3, fmtE5M2], ∀ (rm : Rm) (sat s : Bool) (m : Nat) (e : Int), 0 < m →
    let top : Int := Nat.log2 m + e
    let q : Int := max top (1 - F.bias) - F.fbits
    let y := roundMag rm s m e false q
    let r := roundF F rm sat (.fin s m e)
    (F.maxQ < q ∨ (q = F.maxQ ∧ F.maxM < y.1) →
      r = if rm = .rtz ∨ (rm = .rup ∧ s = true) ∨ (rm = .rdn ∧ s = false) then (maxBits F s, flOF ||| flNX)
        else if sat then (maxBits F s, flOF ||| flNX ||| flSO) else (infBits F s, flOF ||| flNX)) ∧
    (q < F.maxQ ∨ (q = F.maxQ ∧ y.1 ≤ F.maxM) → r.2 = flIf y.2 flNX ||| flIf (y.2 && decide (top < 1 - F.bias)) flUF ∧
      r.1 < 2 ^ F.width ∧ ∃ (n : Nat) (f : Int), fdec F r.1 = .fin s n f ∧ q ≤ f ∧ n * 2 ^ (f - q).toNat = y.1))

/-- Issued, each of these computes its elements as its row gives them, a floating result being the exact one rounded once in the
mode of RM with SAT, an integer one the exact integer wrapped or, with SAT, saturated, at its latency; the default type is f32
(i32 for the integer forms). (R163, R174, R198, R201, R202, R203, R204) -/
def Obligations.FloatingAndIntegerLaneArithmetic : Prop :=
  let arith (i : FmtVR → Instr) (dty : Ty) (lat : Ty → Nat) (op : FmtVR → Ty → Nat → Nat → Nat → Nat × FFlags) : Prop :=
    ∀ f : FmtVR, ChangesTask (i f) f.gd fun _ t => t.eachVR f (tyOr dty f.ty) (lat (tyOr dty f.ty)) (op f (tyOr dty f.ty))
  let v (ty : Ty) (x : Nat) : FVal := fdec (tyFmt ty) x
  let more (ty : Ty) (a b : Nat) : Nat := if ty = .f64 then a + b else a
  arith .vadd .f32 (fun ty => if tyIsFloat ty then more ty 3 1 else 1) (fun f ty x y _ =>
    if tyIsFloat ty then fadd (tyFmt ty) f.rm f.sat (v ty x) (v ty y) else fitE ty f.sat (tyVal ty x + tyVal ty y)) ∧
  arith .vsub .f32 (fun ty => if tyIsFloat ty then more ty 3 1 else 1) (fun f ty x y _ =>
    if tyIsFloat ty then fadd (tyFmt ty) f.rm f.sat (v ty x) (fneg (v ty y)) else fitE ty f.sat (tyVal ty x - tyVal ty y)) ∧
  arith .vmul .f32 (fun ty => more ty 3 1) (fun f ty x y _ =>
    if tyIsFloat ty then fmul (tyFmt ty) f.rm f.sat (v ty x) (v ty y) else fitE ty f.sat (tyVal ty x * tyVal ty y)) ∧
  arith .vfma .f32 (fun ty => more ty 4 1) (fun f ty x y z => ffma (tyFmt ty) f.rm f.sat (v ty x) (v ty y) (v ty z)) ∧
  arith .vfms .f32 (fun ty => more ty 4 1) (fun f ty x y z => ffma (tyFmt ty) f.rm f.sat (v ty x) (v ty y) (fneg (v ty z))) ∧
  arith .vfnma .f32 (fun ty => more ty 4 1) (fun f ty x y z => ffma (tyFmt ty) f.rm f.sat (fneg (v ty x)) (v ty y) (v ty z)) ∧
  arith .vfrcp .f32 (fun ty => more ty 8 4) (fun f ty x _ _ => fdiv (tyFmt ty) f.rm f.sat (.fin false 1 0) (v ty x)) ∧
  arith .vfsqrt .f32 (fun ty => more ty 12 8) (fun f ty x _ _ => fsqrt (tyFmt ty) f.rm f.sat (v ty x)) ∧
  arith .vdiv .f32 (fun ty => more ty 16 8) (fun f ty x y _ => fdiv (tyFmt ty) f.rm f.sat (v ty x) (v ty y)) ∧
  arith .vmulh .i32 (fun _ => 3) (fun _ ty x y _ => fitE ty false ((tyVal ty x * tyVal ty y) / 2 ^ tyWidth ty)) ∧
  arith .vsadd .i32 (fun _ => 1) (fun _ ty x y _ => fitE ty true (tyVal ty x + tyVal ty y)) ∧
  arith .vssub .i32 (fun _ => 1) (fun _ ty x y _ => fitE ty true (tyVal ty x - tyVal ty y)) ∧
  arith .vmadd .i32 (fun _ => 3) (fun f ty x y z => fitE ty f.sat (tyVal ty x * tyVal ty y + tyVal ty z)) ∧
  (∀ f : FmtVR, ChangesTask (.vscl f) f.gd fun _ t =>
    let ty := tyOr .f32 f.ty
    let w := tyWidth ty
    let x := t.regs.read .V (immVec ty f.s3) f.s1
    t.runVR f w 2 (immIntVec w f.s3) (fun _ y _ i => roundF (tyFmt ty) f.rm f.sat
      (fscale (if w = 16 then sval 16 (elem w y i) else sval 32 (elem w y i)) (fdec (tyFmt ty) (elem w x i)))))

/-- Issued, each of these computes its elements as its row gives them at its latency: orders and signs by type with a single NaN
giving way, an infinite floating vabs, vneg or vsgn saturating under SAT, vrnd to an integral value, vclass the class bit,
shifts by the count modulo the width, counts, bitwise forms on 32-bit lanes, vsel by a zero third source and vmerge by the lane
mask. (R157, R163, R202, R203, R204, R205, R207) -/
def Obligations.LaneOrderSignAndBitForms : Prop :=
  let arith (i : FmtVR → Instr) (dty : Ty) (lat : Nat) (op : FmtVR → Ty → Nat → Nat → Nat → Nat × FFlags) : Prop :=
    ∀ f : FmtVR, ChangesTask (i f) f.gd fun _ t => t.eachVR f (tyOr dty f.ty) lat (op f (tyOr dty f.ty))
  let bits (i : FmtVR → Instr) (op : Nat → Nat → Nat) : Prop :=
    ∀ f : FmtVR, ChangesTask (i f) f.gd fun _ t =>
      t.runVR f 32 1 (immIntVec 32 f.s3) (fun x y _ i => (op (elem 32 x i) (elem 32 y i), 0#7))
  arith .vmin .f32 1 (fun _ ty x y _ => (minmaxE false ty x y, 0#7)) ∧
  arith .vmax .f32 1 (fun _ ty x y _ => (minmaxE true ty x y, 0#7)) ∧
  arith .vclamp .f32 1 (fun _ ty x y z => (minmaxE false ty (minmaxE true ty x y) z, 0#7)) ∧
  arith .vabs .f32 1 (fun f ty x _ _ => if tyIsFloat ty then roundF (tyFmt ty) .rne f.sat (fabs (fdec (tyFmt ty) x))
    else fitE ty f.sat (if tyVal ty x < 0 then -(tyVal ty x) else tyVal ty x)) ∧
  arith .vneg .f32 1 (fun f ty x _ _ => if tyIsFloat ty then roundF (tyFmt ty) .rne f.sat (fneg (fdec (tyFmt ty) x))
    else fitE ty f.sat (-(tyVal ty x))) ∧
  arith .vsgn .f32 1 (fun f ty x y _ => sgnE ty f.sat x y) ∧
  arith .vrnd .f32 2 (fun f ty x _ _ => rndE ty f.rm x) ∧
  arith .vclass .f32 1 (fun _ ty x _ _ => (classE ty x, 0#7)) ∧
  arith .vshl .i32 1 (fun f ty x y _ => fitE ty f.sat (x * 2 ^ (y % tyWidth ty) : Nat)) ∧
  arith .vshr .i32 1 (fun f ty x y _ => fitE ty f.sat (x / 2 ^ (y % tyWidth ty) : Nat)) ∧
  arith .vsar .i32 1 (fun f ty x y _ => fitE ty f.sat (sval (tyWidth ty) x / 2 ^ (y % tyWidth ty))) ∧
  arith .vclz .i32 1 (fun _ ty x _ _ => (leadZeros (tyWidth ty) x, 0#7)) ∧
  arith .vpcnt .i32 1 (fun _ ty x _ _ => (popCount (tyWidth ty) x, 0#7)) ∧
  bits .vand (fun x y => x &&& y) ∧ bits .vor (fun x y => x ||| y) ∧ bits .vxor (fun x y => x ^^^ y) ∧
  bits .vandn (fun x y => x - (x &&& y)) ∧ bits .vmov (fun x _ => x) ∧
  (∀ f : FmtVR, ChangesTask (.vsel f) f.gd fun _ t => let w := tyWidth (tyOr .n32 f.ty)
    t.runVR f w 1 0#1024 (fun x y z i => (if elem w z i = 0 then elem w y i else elem w x i, 0#7))) ∧
  (∀ f : FmtVR, ChangesTask (.vmerge f) f.gd fun _ t => let w := tyWidth (tyOr .n32 f.ty)
    t.runVR { f with msk := false } w 1 (immIntVec w f.s3) (fun x y _ i =>
      (if (t.regs.k.get 0#32 f.k.toNat).getLsbD (laneOf w i) then elem w x i else elem w y i, 0#7)))

/-- Issued, vcmp puts in flight at latency 1 the mask whose bit j is the condition on the element that lies in 32-bit lane j, a
64-bit element giving both bits of its lanes, and 0 where MK is 1 and the mask bit that governs the element is 0, for a 64-bit
element that of its even lane. kand, kor, kxor and kmov put in flight the function of their masks, vany and vall whether any bit
or every bit of one is set, and kpop its count in every lane at latency 2. (R206, R208) -/
def Obligations.LaneMasksAndCompares : Prop :=
  (∀ (f : FmtVR) (s : State) (t : Task), Issues s t f.gd →
    let ty := tyOr .f32 f.ty
    let w := tyWidth ty
    let x := t.regs.read .V (immVec ty f.s3) f.s1
    let y := t.regs.read .V (immVec ty f.s3) f.s2
    w = 8 ∨ w = 16 ∨ w = 32 ∨ w = 64 →
    ∃ m : BitVec 32, exec (.vcmp f) s = .next (s.setTask s.cur (t.putK 1 (maskIx f.d) m 0#7)) ∧
      ∀ j, j < 32 → m.getLsbD j = ((!f.msk || (t.regs.k.get 0#32 f.k.toNat).getLsbD (if w = 64 then j / 2 * 2 else j)) &&
        (if tyIsFloat ty then cndF (cndOfSub f.sub) (fdec (tyFmt ty) (elem w x (32 * j / w))) (fdec (tyFmt ty) (elem w y (32 * j / w)))
         else cndInt (cndOfSub f.sub) (tyVal ty (elem w x (32 * j / w))) (tyVal ty (elem w y (32 * j / w)))))) ∧
  (∀ f : FmtVK, ChangesTask (.vany f) f.gd fun _ t => t.putP (predIx f.d) (decide (t.maskSrc f.s1 ≠ 0#32))) ∧
  (∀ f : FmtVK, ChangesTask (.vall f) f.gd fun _ t => t.putP (predIx f.d) (decide (~~~ t.maskSrc f.s1 = 0#32))) ∧
  (∀ f : FmtVK, ChangesTask (.kand f) f.gd fun _ t => t.putK 1 (maskIx f.d) (t.maskSrc f.s1 &&& t.maskSrc f.s2) 0#7) ∧
  (∀ f : FmtVK, ChangesTask (.kor f) f.gd fun _ t => t.putK 1 (maskIx f.d) (t.maskSrc f.s1 ||| t.maskSrc f.s2) 0#7) ∧
  (∀ f : FmtVK, ChangesTask (.kxor f) f.gd fun _ t => t.putK 1 (maskIx f.d) (t.maskSrc f.s1 ^^^ t.maskSrc f.s2) 0#7) ∧
  (∀ f : FmtVK, ChangesTask (.kmov f) f.gd fun _ t => t.putK 1 (maskIx f.d) (t.maskSrc f.s1) 0#7) ∧
  (∀ f : FmtVK, ChangesTask (.kpop f) f.gd fun _ t => t.putV 2 .V f.d
    (ofElems 32 (List.replicate 32 (((List.range 32).filter (fun j => (t.maskSrc f.s1).getLsbD j)).length))) 0#7)

/-- Issued, each V-P permute puts in flight, at latency 2, the register whose element i is the element of the source that its
row names; vsort2 and vext give their elements through the mask; vli and vlane fill their elements with the constant, and with
the constant plus the element number, at latency 1. (R209, R210) -/
def Obligations.PermutesMoveElements : Prop :=
  let w (f : FmtVP) : Nat := tyWidth (tyOr .n32 f.ty)
  let n (f : FmtVP) : Nat := 1024 / w f
  let x (f : FmtVP) (t : Task) (i : Nat) : Nat := elem (w f) (t.regs.read .V 0#1024 f.s1) i
  let y (f : FmtVP) (t : Task) (i : Nat) : Nat := elem (w f) (t.regs.read .V 0#1024 f.s2) i
  let moves (i : FmtVP → Instr) (from_ : FmtVP → Task → Nat → Nat) : Prop :=
    ∀ (f : FmtVP) (s : State) (t : Task), Issues s t f.gd → ∃ r : Vec,
      exec (i f) s = .next (s.setTask s.cur (t.putV 2 .V f.d r 0#7)) ∧ ∀ e, e < n f → elem (w f) r e = from_ f t e
  moves .vperm (fun f t e => x f t (y f t e % n f)) ∧
  moves .vshuf (fun f t e => x f t (e ^^^ f.ctl.toNat)) ∧
  moves .vrotl (fun f t e => x f t ((e + n f - f.ctl.toNat) % n f)) ∧
  moves .vbrev (fun f t e => x f t (e / 2 ^ f.ctl.toNat * 2 ^ f.ctl.toNat + bitRev f.ctl.toNat (e % 2 ^ f.ctl.toNat))) ∧
  moves .vzip (fun f t e => if e % 2 = 0 then x f t (e / 2 + f.ctl.toNat * n f / 2) else y f t (e / 2 + f.ctl.toNat * n f / 2)) ∧
  moves .vuzp (fun f t e => if e < n f / 2 then x f t (2 * e + f.ctl.toNat) else y f t (2 * (e - n f / 2) + f.ctl.toNat)) ∧
  moves .vtrn (fun f t e => if e % 2 = 0 then x f t (e + f.ctl.toNat) else y f t (e - 1 + f.ctl.toNat)) ∧
  moves .vrev (fun f t e => x f t (e ^^^ (2 ^ f.ctl.toNat - 1))) ∧
  moves .vinsl (fun f t e => if e = f.ctl.toNat then y f t 0 else x f t e) ∧
  moves .vbcst (fun f t _ => x f t f.ctl.toNat) ∧
  (∀ f : FmtVR, ChangesTask (.vext f) f.gd fun _ t =>
    let m := tyWidth (tyOr .n32 f.ty)
    t.runVR f m 2 0#1024 (fun x y _ i => (if i + f.s3.toNat < 1024 / m then elem m x (i + f.s3.toNat)
      else elem m y (i + f.s3.toNat - 1024 / m), 0#7))) ∧
  (∀ f : FmtVR, ChangesTask (.vsort2 f) f.gd fun _ t =>
    let ty := tyOr .f32 f.ty
    t.runVR f (tyWidth ty) 2 (immVec ty f.s3) (fun x _ _ i => (sortE ty (f.sub.toNat % 8) (f.sub.getLsbD 3) x i, 0#7))) ∧
  (∀ f : FmtVI, ChangesTask (.vli f) f.gd fun _ t =>
    let ty := tyOr .f32 f.ty
    let r := lanesRun (tyWidth ty) (laneEn f.msk (t.regs.k.get 0#32 f.k.toNat) (tyWidth ty)) (t.regs.read .V 0#1024 f.d)
      (fun _ => if tyIsFloat ty then roundF (tyFmt ty) .rne false (fOfInt f.imm.toInt) else fitE ty false f.imm.toInt)
    t.putV 1 .V f.d r.1 r.2) ∧
  (∀ f : FmtVI, ChangesTask (.vlane f) f.gd fun _ t =>
    let ty := tyOr .i32 f.ty
    let r := lanesRun (tyWidth ty) (laneEn f.msk (t.regs.k.get 0#32 f.k.toNat) (tyWidth ty)) (t.regs.read .V 0#1024 f.d)
      (fun i => fitE ty false (f.imm.toInt + i))
    t.putV 1 .V f.d r.1 r.2)

/-- Issued, each puts in flight at its latency the elements its rule gives: a complex element is the exact sum of its products
rounded once, a butterfly adds or subtracts the twiddled partner, a reduction writes element 0 and zeroes the rest (vred by the
pairwise tree for floating sums and minima, an exact integer sum otherwise), and a dot product accumulates exactly into 32-bit
lanes and rounds or narrows once. The parts of a complex product are the rounded exact sums of the two products that R212 names.
(R175, R211, R212, R213, R214, R215, R216) -/
def Obligations.ComplexReductionsAndDotProducts : Prop :=
  (∀ f : FmtVR, ChangesTask (.vcmul f) f.gd fun _ t =>
    let ty := tyOr .f32 f.ty
    let x := t.regs.read .V (immVec ty f.s3) f.s1
    t.runVR f (tyWidth ty) 4 (immComplex ty f.s3) (fun _ y _ i => cmulE ty f.rm f.sat (f.sub.getLsbD 0) x y i)) ∧
  (∀ (ty : Ty) (rm : Rm) (sat conj : Bool) (x y : Vec) (c : Nat),
    let F := tyFmt ty
    let at_ (v : Vec) (k : Nat) : FVal := fdec F (elem (tyWidth ty) v k)
    let im := if conj then fneg (at_ y (2 * c + 1)) else at_ y (2 * c + 1)
    let p := fmulX (at_ x (2 * c + 1)) im
    cmulE ty rm sat conj x y (2 * c) = sumRound F rm sat [fmulX (at_ x (2 * c)) (at_ y (2 * c)), (fneg p.1, p.2)] ∧
    cmulE ty rm sat conj x y (2 * c + 1) = sumRound F rm sat [fmulX (at_ x (2 * c)) im, fmulX (at_ x (2 * c + 1)) (at_ y (2 * c))]) ∧
  (∀ f : FmtVR, ChangesTask (.vconj f) f.gd fun _ t =>
    let ty := tyOr .f32 f.ty
    let w := tyWidth ty
    t.runVR f w 1 (immVec ty f.s3) (fun x _ _ i =>
      if i % 2 = 1 then negE ty false (elem w x i) else (canonE ty (elem w x i), 0#7))) ∧
  (∀ f : FmtVR, ChangesTask (.vbfly f) f.gd fun _ t =>
    let ty := tyOr .f32 f.ty
    let x := t.regs.read .V (immVec ty f.s3) f.s1
    t.runVR f (tyWidth ty) 5 (immComplex ty f.s3) (fun _ y _ i =>
      bflyE ty f.rm f.sat (f.sub.getLsbD 3) (f.sub.toNat % 8) x y i)) ∧
  (∀ f : FmtVR, ChangesTask (.vred f) f.gd fun _ t =>
    let r := vredE f.ty f.rm f.sat f.sub.toNat (laneEn f.msk (t.regs.k.get 0#32 f.k.toNat) (tyWidth f.ty))
      (t.regs.read .V (immVec f.ty f.s3) f.s1)
    t.putV (if f.ty = .f64 then 12 else 10) .V f.d (BitVec.ofNat 1024 (r.1 % 2 ^ tyWidth f.ty)) r.2) ∧
  (∀ f : FmtVR, ChangesTask (.vmaxi f) f.gd fun _ t =>
    let ty := tyOr .f32 f.ty
    t.putV 6 .V f.d (BitVec.ofNat 1024 (vbestE true ty (laneEn f.msk (t.regs.k.get 0#32 f.k.toNat) (tyWidth ty))
      (t.regs.read .V (immVec ty f.s3) f.s1) % 2 ^ 32)) 0#7) ∧
  (∀ f : FmtVR, ChangesTask (.vmini f) f.gd fun _ t =>
    let ty := tyOr .f32 f.ty
    t.putV 6 .V f.d (BitVec.ofNat 1024 (vbestE false ty (laneEn f.msk (t.regs.k.get 0#32 f.k.toNat) (tyWidth ty))
      (t.regs.read .V (immVec ty f.s3) f.s1) % 2 ^ 32)) 0#7) ∧
  (∀ f : FmtVR, ChangesTask (.vdot f) f.gd fun _ t =>
    t.runVR f 32 4 0#1024 (fun x y z j =>
      let q := 32 / tyWidth f.ty
      let p (v : Vec) (e : Nat) : Nat := elem (tyWidth f.ty) v (q * j + e)
      if tyIsFloat f.ty then
        sumRound fmtF32 f.rm f.sat ((fdec fmtF32 (elem 32 z j), 0#7) ::
          (List.range q).map (fun e => fmulX (fdec (tyFmt f.ty) (p x e)) (fdec (tyFmt f.ty) (p y e))))
      else fitE (if tySigned f.ty then .i32 else .n32) f.sat
        ((List.range q).foldl (fun a e => a + tyVal f.ty (p x e) * tyVal f.ty (p y e))
          (tyVal (if tySigned f.ty then .i32 else .n32) (elem 32 z j)))))

/-- Issued, each puts in flight at its latency the register its rule gives: vcvt narrows two sources into one register or widens
the part S3 names; vqnt writes the part of D that S3 names, scaled by the entries that GR selects, and keeps the rest; vdqnt
reads it back; vamax the block maxima; vcnt the scaled count; vpack4 and vunpk4 the 4-bit forms. (R164, R165, R166, R167, R169,
R170, R173, R217, R218, R219, R220, R222) -/
def Obligations.ConversionsAndQuantisation : Prop :=
  let x (f : FmtVC) (t : Task) : Vec := t.regs.read .V 0#1024 f.s1
  let y (f : FmtVC) (t : Task) : Vec := t.regs.read .V 0#1024 f.s2
  (∀ f : FmtVC, ChangesTask (.vcvt f) f.gd fun _ t =>
    let ws := tyWidth f.ts
    let wd := tyWidth f.ty
    let r := lanesRun wd (fun _ => true) 0#1024 (fun i =>
      if ws < wd then cvtE f.ty f.ts f.rm f.sat (elem ws (x f t) (f.s3.toNat * (1024 / wd) + i))
      else if wd < ws then
        if i < 1024 / ws then cvtE f.ty f.ts f.rm f.sat (elem ws (x f t) i)
        else if i < 2 * (1024 / ws) then cvtE f.ty f.ts f.rm f.sat (elem ws (y f t) (i - 1024 / ws))
        else (0, 0#7)
      else cvtE f.ty f.ts f.rm f.sat (elem ws (x f t) i))
    t.putV 3 .V f.d r.1 r.2) ∧
  (∀ f : FmtVC, ChangesTask (.vqnt f) f.gd fun _ t =>
    let ns := 1024 / tyWidth f.ts
    let lo := f.s3.toNat / 32 * ns
    let r := lanesRun (tyWidth f.ty) (fun j => decide (lo ≤ j) && decide (j < lo + ns)) (t.regs.read .V 0#1024 f.d) (fun j =>
      let v := fdec (tyFmt f.ts) (elem (tyWidth f.ts) (x f t) (j - lo))
      let en := scaleEntry f.gr.toNat (f.s3.toNat % 32) j (y f t)
      if f.ty = .n4x then quantN4x f.rm en v else quantFp8 f.ty f.rm f.sat en v)
    t.putV 4 .V f.d r.1 r.2) ∧
  (∀ f : FmtVC, ChangesTask (.vdqnt f) f.gd fun _ t =>
    let ws := tyWidth f.ts
    let r := lanesRun (tyWidth f.ty) (fun _ => true) 0#1024 (fun i =>
      let j := f.s3.toNat / 32 * (1024 / tyWidth f.ty) + i
      let en := scaleEntry f.gr.toNat (f.s3.toNat % 32) j (y f t)
      let v := if f.ts = .n4x then n4xRead en (elem ws (x f t) j) (elem ws (x f t) (j ^^^ 1))
        else fp8Read f.ts en (elem ws (x f t) j)
      let o := roundF (tyFmt f.ty) f.rm f.sat v.1
      (o.1, v.2 ||| o.2))
    t.putV 4 .V f.d r.1 r.2) ∧
  (∀ f : FmtVC, ChangesTask (.vamax f) f.gd fun _ t => t.putV 3 .V f.d (vamaxV f.ts f.gr.toNat (x f t) (y f t)) 0#7) ∧
  (∀ f : FmtVC, ChangesTask (.vcnt f) f.gd fun _ t =>
    let ty := tyOr .f32 f.ty
    let r := vcntV ty (decide (f.ts = .i32)) f.rm f.sat (x f t) (y f t) (t.regs.read .V 0#1024 (s3Opd f.s3))
    t.putV (if ty = .f64 then 5 else 4) .V f.d r.1 r.2) ∧
  (∀ f : FmtVC, ChangesTask (.vpack4 f) f.gd fun _ t =>
    let r := lanesRun 4 (fun _ => true) 0#1024 (fun i =>
      let v := sval 8 (if i < 128 then elem 8 (x f t) i else elem 8 (y f t) (i - 128))
      if f.sat then (truncInt 4 (max (-7) (min 7 v)), if max (-7) (min 7 v) = v then 0#7 else flSO)
      else (truncInt 4 v, 0#7))
    t.putV 2 .V f.d r.1 r.2) ∧
  (∀ f : FmtVC, ChangesTask (.vunpk4 f) f.gd fun _ t =>
    t.putV 2 .V f.d (ofElems 8 ((List.range 128).map (fun i =>
      truncInt 8 (sval 4 (elem 4 (x f t) (f.s3.toNat / 32 * 128 + i)))))) 0#7)

/-- Issued, with an admitted access to the scratchpad window of its own core that shows its own scratchpad, nothing poisoned and
no full/empty access in flight, ld, ldv, ldb and ldpi put in flight at latency 4 the little-endian bytes at the address, as they
stand at issue (log entry 15), extended by type, whole, or in every element; ldpi also puts base + OFF16 in flight to its base
register at latency 1. Nothing else changes, so no register, no flag and no byte of memory does at issue. (R137, R234, R250,
R251, R254, R257, R258) -/
def Obligations.ScratchpadLoads : Prop :=
  ∀ (s : State) (t : Task) (l : Leaf), s.poison = [] → s.fes = [] → t.failed = false →
    paWindow l.pa = true → winKind l.pa = 0 → winIsCore l.pa = true → winCoreId l.pa = s.cur → s.windowTask l.pa = some t →
    let bytes (n : Nat) : Nat := leNat (t.scrBytes (winOff l.pa) n)
    (∀ f : FmtML, Issues s t f.gd →
      let ty := tyOr .n64 (tyOfBits f.aux)
      (s.access s.cur t (t.srcM f.s1 + f.off.signExtend 64) (tyWidth ty / 8) .load = .ok l →
        exec (.ld f) s = .next (s.setTask s.cur (t.put 4 (t.regs.dest .M f.d)
          ((fit64 ty (bytes (tyWidth ty / 8))).setWidth 1024) 0#7))) ∧
      (s.access s.cur t (t.srcM f.s1) (tyWidth ty / 8) .load = .ok l →
        exec (.ldpi f) s = .next (s.setTask s.cur ((t.put 4 (t.regs.dest .M f.d)
          ((fit64 ty (bytes (tyWidth ty / 8))).setWidth 1024) 0#7).putW 1 .M f.s1 (t.srcM f.s1 + f.off.signExtend 64)))) ∧
      (s.access s.cur t (t.srcM f.s1 + f.off.signExtend 64) 128 .load = .ok l →
        exec (.ldv f) s = .next (s.setTask s.cur (t.put 4 (t.regs.dest .M f.d) (BitVec.ofNat 1024 (bytes 128)) 0#7))) ∧
      (let ty := tyOr .n32 (tyOfBits f.aux)
       s.access s.cur t (t.srcM f.s1 + f.off.signExtend 64) (tyWidth ty / 8) .load = .ok l →
        exec (.ldb f) s = .next (s.setTask s.cur (t.put 4 (t.regs.dest .M f.d)
          (ofElems (tyWidth ty) (List.replicate (1024 / tyWidth ty) (bytes (tyWidth ty / 8)))) 0#7))))

/-- Issued, with an admitted access to the scratchpad window of its own core, at an address of the task current there, and no
full/empty access in flight, st, stv and stpi complete: byte o of the scratchpad is then byte o - a of the stored value where o
lies in the n bytes from the offset a of the address, and what it was elsewhere; every tag, register, flag and byte of memory,
and the scratchpad of every other core, is as before. Only stpi puts anything in flight: base + OFF16 to its base register at
latency 1. (R250, R251, R257, R258, R261) -/
def Obligations.ScratchpadStoresWriteTheirBytes : Prop :=
  ∀ (s : State) (t : Task) (l : Leaf), s.fes = [] → t.failed = false →
    paWindow l.pa = true → winKind l.pa = 0 → winIsCore l.pa = true → winCoreId l.pa = s.cur → l.pa < 2 ^ 52 →
    let wrote (n v : Nat) (r : Host.Outcome State Fault Refusal) (fl : List Flight) : Prop :=
      ∃ (u : State) (t' : Task), r = .next u ∧ u.task? s.cur = some t' ∧
        (∀ o, t'.scrByte o = if winOff l.pa ≤ o ∧ o < winOff l.pa + n then BitVec.ofNat 8 (v / 256 ^ (o - winOff l.pa))
          else t.scrByte o) ∧
        t'.full = t.full ∧ t'.regs = t.regs ∧ t'.fstat = t.fstat ∧ t'.flight = t.flight ++ fl ∧ u.mem = s.mem ∧
        (∀ c, c ≠ s.cur → (u.task? c).map Task.scratch = (s.task? c).map Task.scratch)
    (∀ f : FmtML, Issues s t f.gd →
      let n := tyWidth (tyOr .n64 (tyOfBits f.aux)) / 8
      (s.access s.cur t (t.srcM f.s1 + f.off.signExtend 64) n .store = .ok l →
        wrote n (t.srcM f.s2).toNat (exec (.st f) s) []) ∧
      (s.access s.cur t (t.srcM f.s1) n .store = .ok l →
        wrote n (t.srcM f.s2).toNat (exec (.stpi f) s)
          [⟨1, t.ord, t.regs.dest .M f.s1, ((t.srcM f.s1 + f.off.signExtend 64).setWidth 1024 : Vec), 0#7,
            t.regs.destDead (t.regs.dest .M f.s1), false, false, false⟩]) ∧
      (s.access s.cur t (t.srcM f.s1 + f.off.signExtend 64) 128 .store = .ok l →
        wrote 128 (t.regs.read .M 0#1024 f.s2).toNat (exec (.stv f) s) []))

/-- With no posted write in flight, the core reads back every byte that a store within one line of a page that is not ATOM has
written. Where its L1 and its cluster cache hold the line, every other byte of the line reads as before, nothing is posted, and
neither memory nor any L2 changes. A store to an ATOM page only joins the posted writes. Issued, with an admitted access to a
page that is not ATOM whose line the L1 holds sound, ld, ldv, ldb and ldpi put the little-endian bytes of the line, as they
stand at issue (log entry 15), in flight, at latency 160 through a mapping of class 0 and 1200 through one of class 1, or
through the interlocked queue at class 2; where the cluster cache holds the line too and the team keeps no pre-images, st, stv
and stpi write the low bytes of their source, and the first write of a team without a replay record before its first cut is
counted (log entry 66); ldpi and stpi step their base at latency 1. (R230, R235, R236, R254, R255, R257, R258) -/
def Obligations.CachedStoreIsReadBack : Prop :=
  (∀ (s : State) (w : WrTag) (pa : Nat) (bytes : List (Option Byte)), s.pwrites = [] → pa % 128 + bytes.length ≤ 128 →
    let u := s.writeLine w pa bytes false
    ∀ i b, i < bytes.length → bytes[i]? = some (some b) → lineByte (u.readLine w (lineOf pa) false).2.1 (pa % 128 + i) = b) ∧
  (∀ (s : State) (w : WrTag) (pa : Nat) (bytes : List (Option Byte)) (l k : Line), pa % 128 + bytes.length ≤ 128 →
    (s.core w.core).l1.find (lineOf pa) = some l → l.spoilt = false → (s.cluster (clusterOf w.core)).cc.find (lineOf pa) = some k →
    k.spoilt = false →
    let u := s.writeLine w pa bytes false
    u.mem = s.mem ∧ u.pwrites = s.pwrites ∧ u.stackTab = s.stackTab ∧ ∃ l', (u.core w.core).l1.find (lineOf pa) = some l' ∧
      ∀ i, i < 128 → lineByte l'.data i = (match bytes[i - pa % 128]? with
        | some (some b) => if pa % 128 ≤ i then b else lineByte l.data i
        | _ => lineByte l.data i)) ∧
  (∀ (s : State) (pa : Nat) (bytes : List (Option Byte)) (w : WrTag),
    s.writeLine w pa bytes true = { s with pwrites := s.pwrites ++ [⟨pa, bytes, w, false, false, [], true, 0#16⟩] }) ∧
  (∀ (s : State) (t : Task) (l : Leaf) (k : Line) (f : FmtML), Issues s t f.gd → t.failed = false → paWindow l.pa = false →
    l.atom = false → (s.core s.cur).l1.find (lineOf l.pa) = some k → k.bad = 0#16 →
    let num (n : Nat) : Nat := leNat ((List.range n).map (fun i => lineByte k.data (l.pa % 128 + i)))
    let put (v : Vec) : Task := match l.lclass with
      | 0 => t.putMem 160 (t.regs.dest .M f.d) v
      | 1 => t.putMem 1200 (t.regs.dest .M f.d) v
      | _ => t.putPend (t.regs.dest .M f.d) .value (some v)
    let ty := tyOr .n64 (tyOfBits f.aux)
    let n := tyWidth ty / 8
    let b := tyOr .n32 (tyOfBits f.aux)
    let a := t.srcM f.s1 + f.off.signExtend 64
    let low (n v : Nat) : List (Option Byte) := (List.range n).map (fun i => some (BitVec.ofNat 8 (v / 256 ^ i)))
    (s.access s.cur t a n .load = .ok l → exec (.ld f) s = .next (s.setTask s.cur (put ((fit64 ty (num n)).setWidth 1024)))) ∧
    (s.access s.cur t a 128 .load = .ok l → exec (.ldv f) s = .next (s.setTask s.cur (put (BitVec.ofNat 1024 (num 128))))) ∧
    (s.access s.cur t a (tyWidth b / 8) .load = .ok l → exec (.ldb f) s = .next (s.setTask s.cur
      (put (ofElems (tyWidth b) (List.replicate (1024 / tyWidth b) (num (tyWidth b / 8))))))) ∧
    (s.access s.cur t (t.srcM f.s1) n .load = .ok l → exec (.ldpi f) s = .next (s.setTask s.cur
      ((put ((fit64 ty (num n)).setWidth 1024)).putW 1 .M f.s1 a))) ∧
    (∀ x, (s.cluster (clusterOf s.cur)).cc.find (lineOf l.pa) = some x → x.spoilt = false →
      s.keepsPre (stackOf s.cur) t.team = false →
      let s' := s.noteWrite (stackOf s.cur) t.team
      (s.access s.cur t a n .store = .ok l → exec (.st f) s =
        .next (s'.writeLine (writeTag s.cur t l a) l.pa (low n (t.srcM f.s2).toNat) false)) ∧
      (s.access s.cur t a 128 .store = .ok l → exec (.stv f) s =
        .next (s'.writeLine (writeTag s.cur t l a) l.pa (low 128 (t.regs.read .M 0#1024 f.s2).toNat) false)) ∧
      (s.access s.cur t (t.srcM f.s1) n .store = .ok l → exec (.stpi f) s =
        .next ((s'.writeLine (writeTag s.cur t l (t.srcM f.s1)) l.pa (low n (t.srcM f.s2).toNat) false).mapTask s.cur
          (fun t => t.putW 1 .M f.s1 a)))))

/-- Issued, with every enabled element admitted (and for the masked forms a base that is a multiple of 128), a load reads the
elements in rising order into the present value of D and delivers the register through the interlocked queue; a store writes
them in rising order. Element i lies at base + sext(index i) * 2^LG, at base + i * stride, or at base + i * w/8. (R141, R250,
R259, R260) -/
def Obligations.GatherAndScatterForms : Prop :=
  ∀ (f : FmtMG) (s : State) (t : Task), Issues s t f.gd →
    let w := tyWidth (tyOr .n32 f.ty)
    let n := w / 8
    let on (i : Nat) : Bool := f.s3 == 0xC0#8 || elem 32 (t.regs.read .M 0#1024 (s3Opd f.s3)) (laneOf w i) != 0
    let els (a : Nat → Word) : List (Nat × Word) := ((List.range (1024 / w)).filter on).map (fun i => (i, a i))
    let base := t.srcM f.s1
    let indexed := els (fun i => base + BitVec.ofInt 64 (sval 32 (elem 32 (t.regs.read .M 0#1024 f.s2) i) * 2 ^ f.lg.toNat))
    let strided := els (fun i => base + BitVec.ofNat 64 i * t.srcM f.s2)
    let packed := els (fun i => base + BitVec.ofNat 64 (i * w / 8))
    let loads (l : List (Nat × Word)) : State :=
      let r := s.mgRead s.cur t n l (t.regs.read .M 0#1024 f.d)
      r.1.mapTask s.cur (fun t => t.putPend (t.regs.dest .M f.d) .value (some r.2))
    let stores (l : List (Nat × Word)) : State := s.mgWrite s.cur t n (t.regs.read .M 0#1024 f.d) l
    (s.mgError s.cur t n .load indexed = none → exec (.gth f) s = .next (loads indexed)) ∧
    (s.mgError s.cur t n .store indexed = none → exec (.sct f) s = .next (stores indexed)) ∧
    (s.mgError s.cur t n .load strided = none → exec (.ldvs f) s = .next (loads strided)) ∧
    (s.mgError s.cur t n .store strided = none → exec (.stvs f) s = .next (stores strided)) ∧
    (s.mgError s.cur t n .load packed = none → base.toNat % 128 = 0 → exec (.ldvm f) s = .next (loads packed)) ∧
    (s.mgError s.cur t n .store packed = none → base.toNat % 128 = 0 → exec (.stvm f) s = .next (stores packed))

/-- Issued with an admitted access: ldf and lde name their destination in the queue and send the access; ste, stf and clre make
their release and send it. An access that arrives with its condition unmet joins the waiters. At the task whose scratchpad the
word is, stf and clre find their condition met always, ste where every tag is empty, ldf and lde where every tag is full; where
no task owns the scratchpad its tags are empty. A clre that makes no edge between teams clears its tags and does nothing else.
(R141, R261, R262, R263, R370) -/
def Obligations.FullEmptyForms : Prop :=
  (∀ (f : FmtML) (s : State) (t : Task) (l : Leaf), Issues s t f.gd →
    let n := if f.aux = 2#4 then 2 else if f.aux = 3#4 then 32 else 1
    let ea := t.srcM f.s1 + f.off.signExtend 64
    let sc := scopeOr .st f.sc
    (s.access s.cur t ea (4 * n) .feLoad = .ok l →
      let load (op : FeOp) (e : Bool) : State :=
        { s.setTask s.cur (t.putPend (t.regs.dest .M f.d) (.feWait e l.pa f.aux sc s.feSeq) none) with
          fes := s.fes ++ [⟨op, s.cur, t.ctx, t.launch, t.coord, t.nextPend, l.pa, n, f.aux == 1#4, 0#1024, sc, false, none,
            s.feSeq⟩]
          feSeq := s.feSeq + 1 }
      exec (.ldf f) s = .next (load .ldf false) ∧ exec (.lde f) s = .next (load .lde true)) ∧
    (s.access s.cur t ea (4 * n) .feStore = .ok l →
      let r := s.releaseFor s.cur t sc
      let store (op : FeOp) (d : Vec) : State :=
        { r with
          fes := r.fes ++ [⟨op, s.cur, t.ctx, t.launch, t.coord, 0, l.pa, n, false, d, sc, false, none, r.feSeq⟩]
          feSeq := r.feSeq + 1 }
      exec (.ste f) s = .next (store .ste (t.regs.read .M 0#1024 f.s2)) ∧
      exec (.stf f) s = .next (store .stf (t.regs.read .M 0#1024 f.s2)) ∧
      exec (.clre f) s = .next (store .clre 0#1024))) ∧
  (∀ (s : State) (n : Nat) (a : FeAcc), s.fes[n]? = some a → s.feMayArrive n = true → s.feReady a = false →
    exec (.feAccessArrival n) s = .next { s with fes := listDrop s.fes n ++ [{ a with waiting := true }] }) ∧
  (∀ (s : State) (a : FeAcc) (t : Task), s.keyTask a.pa (s.feKey a) = some t →
    (a.op = .ldf ∨ a.op = .lde → (s.feReady a = true ↔ ∀ i, i < a.nwords → t.isFull (winOff a.pa / 4 + i) = true)) ∧
    (a.op = .ste → (s.feReady a = true ↔ ∀ i, i < a.nwords → t.isFull (winOff a.pa / 4 + i) = false)) ∧
    (a.op = .stf ∨ a.op = .clre → s.feReady a = true)) ∧
  (∀ (s : State) (a : FeAcc), s.keyTask a.pa (s.feKey a) = none → (s.feReady a = true ↔ a.op ≠ .ldf ∧ a.op ≠ .lde)) ∧
  (∀ (s : State) (a : FeAcc), s.feEdge a = s → a.op = .clre →
    s.fePerform a = s.keyMap a.pa (s.feKey a) (fun t => t.setTags (winOff a.pa / 4) a.nwords false)) ∧
  (∀ (t : Task) (w n k : Nat) (b : Bool), (t.setTags w n b).isFull k =
    (if w ≤ k ∧ k < w + n then b else t.isFull k))

/-- A one-word stf to the scratchpad of a current task on the same core as its issuer, which is the task that owns it, arriving
with no other write, round, amo form or full/empty access in flight, leaves the word with its data, its tag full and every other
tag and byte as it was; a one-word lde there delivers the word to its queue entry and leaves the tag empty and every byte as it
was. (R261, R262, R263) -/
def Obligations.ArrivedFullEmptyAccessIsPerformed : Prop :=
  ∀ (s : State) (a : FeAcc) (t : Task), s.fes = [a] → a.waiting = false → a.handle = none → a.nwords = 1 → a.pa % 4 = 0 →
    winCoreId a.pa = a.core → winKind a.pa = 0 → s.task? a.core = some t → isTask t a.launch a.coord = true →
    s.taskOf a.launch a.coord = some t → s.pwrites = [] → s.amos = [] → s.rounds = [] → a.pa < 2 ^ 52 → winOff a.pa < 0x80000 →
    (a.op = .stf → s.earlierFe a.launch a.coord a.seq = false → ∃ (u : State) (t' : Task),
      exec (.feAccessArrival 0) s = .next u ∧ u.fes = [] ∧ u.task? a.core = some t' ∧
      (∀ k, t'.isFull k = (if k = winOff a.pa / 4 then true else t.isFull k)) ∧
      (∀ o, t'.scrByte o = if o / 4 = winOff a.pa / 4 then a.data.extractLsb' (8 * (o % 4)) 8 else t.scrByte o)) ∧
    (a.op = .lde → a.signed = false → t.isFull (winOff a.pa / 4) = true → ∃ (u : State) (t' : Task),
      exec (.feAccessArrival 0) s = .next u ∧ u.fes = [] ∧ u.task? a.core = some t' ∧
      (∀ k, t'.isFull k = (if k = winOff a.pa / 4 then false else t.isFull k)) ∧
      (∀ o, t'.scrByte o = t.scrByte o) ∧
      (∀ p ∈ t'.pend, p.id = a.pend → p.val = some (BitVec.ofNat 1024 (leNat (t.scrBytes (winOff a.pa) 4)))))

/-- Issued: fence waits at its scope until FENCE_COMPLETE, which acts once every earlier full/empty store has been performed and
ends the wait once no write and no round of the task is held; pref moves the line of its address into the cluster cache, or,
where the address does not translate to a cached line of memory, counts HINTDROP; disc of admitted lines makes them read zero,
line by line; probe examines its pages at once: its result goes into the queue, or its fault is raised for the first missing
page, and either way the task waits for the result to arrive. (R249, R266, R267, R269, R270, R271, R272, R273) -/
def Obligations.FencesHintsAndDiscard : Prop :=
  (∀ f : FmtML, ChangesTask (.fence f) f.gd fun _ t => { t with waits := t.waits ++ [.fence (scopeOr .dv f.sc) t.ord] }) ∧
  (∀ (s : State) (c : CoreId) (t : Task) (sc : Scope) (n : Nat), s.task? c = some t →
    t.waits.find? (fun w => match w with | .fence _ _ => true | _ => false) = some (.fence sc n) →
    let u := s.fenceAct c t sc
    exec (.fenceComplete c) s = .next (
      if s.fenceReady c t = false then s
      else if u.heldWrites t.launch t.coord = true ∨ u.roundsWait t.launch t.coord u.feSeq = true then u
      else u.mapTask c (fun t => { t with waits := t.waits.erase (.fence sc n) }))) ∧
  (∀ f : FmtML, ActsBy (.pref f) f.gd fun s t =>
    let va := t.srcM f.s1 + f.off.signExtend 64
    match s.translateOn s.cur t.ctx va with
    | .ok l =>
      if l.atom = true ∨ paWindow l.pa = true ∨ l.lclass = 0 ∨ (l.unb = true ∧ s.live.find (lineOf l.pa) = none) then
        s.count t.ctx ctrHINTDROP 1
      else s.fillCC (writeTag s.cur t l va) (lineOf l.pa)
    | .error _ => s.count t.ctx ctrHINTDROP 1) ∧
  (∀ (f : FmtML) (s : State) (t : Task), Issues s t f.gd →
    let va := t.srcM f.s1 + f.off.signExtend 64
    let len := (t.srcM f.s2).toNat % 2 ^ 32
    va.toNat % 128 = 0 → 0 < len → len % 128 = 0 → s.discError s.cur t false len (len / 128) va = none →
    exec (.disc f) s = .next (s.discLines s.cur t (len / 128) va)) ∧
  (∀ (f : FmtML) (s : State) (t : Task), Issues s t f.gd → t.pend = [] → t.probeRefused = none → t.event = none →
    let va := t.srcM f.s1 + f.off.signExtend 64
    let n := (t.srcM f.s2).toNat % 2 ^ 32
    let d := t.regs.dest .M f.d
    let u (v : Option Vec) : Task := { t with
      nextPend := t.nextPend + 1
      pend := [⟨t.nextPend, d, .value, v, 0#7, t.regs.destDead d⟩]
      waits := t.waits ++ [.probe va (t.srcM f.s2) f.aux d] }
    exec (.probe f) s = .next (match s.probeFrom s.cur t.ctx f.aux (va.toNat + n) (n / 4096 + 2) va.toNat with
      | .result w => s.setTask s.cur (u (some (w.setWidth 1024)))
      | .missing pg => (s.setTask s.cur (u none)).raiseEvent s.cur (u none) 0
          (BitVec.ofNat 64 (pg.toNat % 2 ^ 56 + f.aux.toNat % 8))))

/-- Issued, of a buffer that has no claimed, filled or held slot: cbdef of an admitted configuration over bytes of the own
scratchpad that meet no other buffer defines the buffer with every slot free, and a count of 0 undefines it; copies of the same
bundle, and earlier ones that have not claimed a slot, still see what it was (log entry 90). cbget of a buffer with a filled
slot, for which no other cbget waits, takes the next one, answers its address through the queue, counts it held, and joins the
operation that filled it, which is then joined; cbput gives a held slot back; cbqry reads the state word. xli, xadd, xmov and
mmov put their value in flight at latency 1. (R247, R274, R275, R276, R285) -/
def Obligations.CircularBuffersAndMemorySlotMoves : Prop :=
  (∀ (f : FmtML) (s : State) (t : Task) (l : Leaf), Issues s t f.gd →
    let b := f.aux.toNat
    let v := (t.srcM f.s2).toNat
    let va := t.srcM f.s1 + f.off.signExtend 64
    let count := v % 512
    let size := 128 * (v / 2 ^ 16 % 1024)
    let s' : State := match t.cbs.find b with
      | some old => s.setStack (stackOf s.cur) ((s.stack (stackOf s.cur)).keepBufs t b old)
      | none => s
    (∀ x, t.cbs.find b = some x → x.claim = [] ∧ x.filled = 0 ∧ x.held = 0) → cbCfgOk (t.srcM f.s2) = true →
    (count = 0 → exec (.cbdef f) s = .next (s'.setTask s.cur
      { t with cbs := t.cbs.drop b, cbChanged := some (b, t.cbs.find b) })) ∧
    (0 < count → s.translateOn s.cur t.ctx va = .ok l → paWindow l.pa = true → winKind l.pa = 0 → winPlaceOk l.pa = true →
      winCoreId l.pa = s.cur → winOff l.pa % 128 = 0 → winOff l.pa + count * size ≤ 0x80000 →
      (∀ e ∈ t.cbs, e.1 ≠ b → rangesMeet e.2.off (e.2.count * e.2.size) (winOff l.pa) (count * size) = false) →
      exec (.cbdef f) s = .next (s'.setTask s.cur
        { t with
          cbs := t.cbs.set b ⟨va, winOff l.pa, size, count, count, 0, 0, 0, 0, [], 0⟩
          cbChanged := some (b, t.cbs.find b) }))) ∧
  (∀ (f : FmtML) (s : State) (t : Task) (x : CircBuf), Issues s t f.gd → t.cbs.find f.aux.toNat = some x →
    (0 < x.held → exec (.cbput f) s = .next (s.setTask s.cur
      { t with cbs := t.cbs.set f.aux.toNat { x with held := x.held - 1, free := x.free + 1 } })) ∧
    (0 < x.filled → t.cbWaiter f.aux.toNat = none → (∀ p ∈ t.pend, p.id < t.nextPend) →
      let d := t.regs.dest .M f.d
      let u := s.setTask s.cur { t with
        nextPend := t.nextPend + 1
        pend := t.pend ++ [⟨t.nextPend, d, .cbget f.aux.toNat,
          some ((x.base + BitVec.ofNat 64 (x.rd * x.size)).setWidth 1024), 0#7, t.regs.destDead d⟩]
        cbs := t.cbs.set f.aux.toNat { x with filled := x.filled - 1, held := x.held + 1, rd := (x.rd + 1) % x.count } }
      let filler (e : Nat × TaskOp) : Bool := e.2.cb == some f.aux.toNat && e.2.slot == some x.rd && e.2.done && !e.2.joined
      (∀ h o, t.ops.find? filler = some (h, o) → exec (.cbget f) s = .next (u.joinOp s.cur h)) ∧
      (t.ops.find? filler = none → exec (.cbget f) s = .next u)) ∧
    exec (.cbqry f) s = .next (s.setTask s.cur (t.putW 1 .M f.d (BitVec.ofNat 64
      (2 ^ 63 + x.filled * 2 ^ 47 + x.free * 2 ^ 38 + x.rd * 2 ^ 30 + x.wr * 2 ^ 22 + x.held * 2 ^ 13))))) ∧
  (∀ (s : State) (c : CoreId) (h : Nat) (t : Task) (o : TaskOp), s.task? c = some t → t.ops.find h = some o →
    ∃ u, (s.joinOp c h).task? c = some u ∧ u.ops.find h = some { o with joined := true }) ∧
  (∀ (f : FmtML) (s : State) (t : Task), Issues s t f.gd → t.cbs.find f.aux.toNat = none →
    exec (.cbqry f) s = .next (s.setTask s.cur (t.putW 1 .M f.d 0#64))) ∧
  (∀ f : FmtMI, ChangesTask (.xli f) f.gd fun _ t => t.putW 1 .M f.d (BitVec.ofInt 64 f.imm.toInt)) ∧
  (∀ f : FmtMI, ChangesTask (.xadd f) f.gd fun _ t =>
    t.putW 1 .M f.d (BitVec.ofInt 64 ((t.srcM f.s1).toNat + f.imm.toInt))) ∧
  (∀ f : FmtMI, ChangesTask (.xmov f) f.gd fun _ t => t.putW 1 .M f.d (t.srcM f.s1)) ∧
  (∀ f : FmtMI, ChangesTask (.mmov f) f.gd fun _ t => t.putV 1 .M f.d (t.regs.read .M 0#1024 f.s1) 0#7)

/-- Issued with a readable descriptor whose checks hold (and, for cpymx, a follow-on command whose checks hold), a copy makes
its fork, a release at .dv, and then an operation with the next handle of its task and puts its request last at the queue of its
stack; the operation carries the descriptor, has no engine, has moved no byte and keeps the follow-on. cpyq only puts the word
of an operation into the interlocked queue: 1, 2 or 3 in bits 63:62 for running, done or joined, its bytes in bits 31:0, and
zero for a handle the task never had. (R277, R279, R280, R281, R282, R285, R289, R290, R291) -/
def Obligations.CopiesAreRequested : Prop :=
  (∀ (f : FmtEC) (s : State) (t : Task) (bytes : List Byte), Issues s t f.gd →
    s.copyDesc s.cur t (t.srcE f.s1) = .ok bytes →
    let u := s.consumeDesc s.cur t (t.srcE f.s1)
    let r := u.forkRelease s.cur t
    (∀ p q, u.copyPlan s.cur t .cpy bytes = .ok p → r.copyPlan s.cur t .cpy bytes = .ok q →
      exec (.cpy f) s = .next (r.launchCopy s.cur t .cpy q f.d 0 none)) ∧
    (∀ p q, u.copyPlan s.cur t .remote bytes = .ok p → r.copyPlan s.cur t .remote bytes = .ok q →
      exec (.cpyx f) s = .next (r.launchCopy s.cur t .remote q f.d 0 none)) ∧
    (∀ p q, u.migPlan s.cur t bytes = .ok p → r.migPlan s.cur t bytes = .ok q →
      exec (.cpyMig f) s = .next (r.launchCopy s.cur t .mig q f.d 0 none)) ∧
    (∀ p q k, u.copyPlan s.cur t .mx bytes = .ok p → r.copyPlan s.cur t .mx bytes = .ok q →
      u.mxError s.cur t f.arr.toNat = none →
      u.mxCapture s.cur t f.arr.toNat .go (if f.s2 = .zero then none else some (t.srcE f.s2)) (f.s3.toNat % 4) = .ok k →
      exec (.cpymx f) s = .next (r.launchCopy s.cur t .mx q f.d f.arr.toNat (some k)))) ∧
  (∀ (s : State) (c : CoreId) (t : Task) (k : CopyKind) (p : CopyPlan) (d : Opd) (arr : Nat) (fo : Option Cmd),
    ∃ op, ((s.launchCopy c t k p d arr fo).stack (stackOf c)).requests.getLast? = some op ∧ op.core = c ∧ op.kind = k ∧
      op.ofTask t.launch t.coord = true ∧ op.handle = t.handles + 1 ∧ op.desc = p.desc ∧ op.follow = fo ∧ op.arr = arr ∧
      op.eng = none ∧ op.ran = false ∧ op.committed = false) ∧
  (∀ f : FmtEC, ChangesTask (.cpyq f) f.gd fun _ t => t.putPend (t.regs.dest .E f.d) .value
    (some (((match t.ops.find (t.srcE f.s1).toNat with
      | none => 0#64
      | some o => (if o.joined then 3#2 else if o.done then 2#2 else 1#2) ++ 0#30 ++ BitVec.ofNat 32 (min (2 ^ 32 - 1) o.bytes)
      : Word)).setWidth 1024)))

/-- Issued while no operation holds the registers of the named array, each of these instructions completes and changes that
array of its own task alone: the format pair, the step count, seeds, two thresholds, 64 mute bits, the column group or one word
of the shadow set; mxclr of sets that no command holds and that lie in no lent region makes their counts and status words zero;
mxstop, where no unjoined set lies in a lent region, leaves no command, every unjoined set at zero with ABT, every other set as
it was, and DRN set. (R313, R314, R316, R317, R318, R327, R328) -/
def Obligations.ArrayConfiguration : Prop :=
  let cfg (i : Instr) (gd : Guard) (arr : Bool) (pre : State → Task → ArrayS → Prop) (post : Task → ArrayS → ArrayS → Prop) : Prop :=
    ∀ (s : State) (t : Task), Issues s t gd → s.mxError s.cur t arr.toNat = none → pre s t (t.arr arr.toNat) →
      ∃ y, exec i s = .next (s.setTask s.cur (t.setArr arr.toNat y)) ∧ post t (t.arr arr.toNat) y
  let any : State → Task → ArrayS → Prop := fun _ _ _ => True
  (∀ f : FmtEI, cfg (.mxfmt f) f.gd f.arr any fun _ x y => y = { x with fmt := f.imm.setWidth 17 }) ∧
  (∀ f : FmtEI, cfg (.mxlen f) f.gd f.arr any fun _ x y => y = { x with sl := f.imm.toNat }) ∧
  (∀ f : FmtEI, cfg (.mxsel f) f.gd f.arr any fun _ x y =>
    y = { x with gw := (f.imm.extractLsb' 8 9).toNat, gcol := (f.imm.extractLsb' 0 8).toNat }) ∧
  (∀ f : FmtEM, f.set.toNat < 4 → cfg (.mxseed f) f.gd f.arr any fun t x y =>
    let v := t.srcE f.s1
    y = { x with seed1 := y.seed1, seed2 := y.seed2 } ∧
    (∀ i, i < 256 →
      y.seed1.get 0#16 i = (if f.set = 0#3 then v.extractLsb' 0 16 + BitVec.ofNat 16 i * v.extractLsb' 16 16
        else if f.set = 2#3 ∧ i = (v.extractLsb' 16 8).toNat then v.extractLsb' 0 16 else x.seed1.get 0#16 i) ∧
      y.seed2.get 0#16 i = (if f.set = 1#3 then v.extractLsb' 0 16 + BitVec.ofNat 16 i * v.extractLsb' 16 16
        else if f.set = 3#3 ∧ i = (v.extractLsb' 16 8).toNat then v.extractLsb' 0 16 else x.seed2.get 0#16 i))) ∧
  (∀ f : FmtEM, cfg (.mxthr f) f.gd f.arr any fun t x y =>
    y = { x with thr := y.thr } ∧
    (∀ i, y.thr.get 0xFFFFFFFF#32 i = (if i = 2 * f.set.toNat then (t.srcE f.s1).extractLsb' 0 32
      else if i = 2 * f.set.toNat + 1 then (t.srcE f.s1).extractLsb' 32 32 else x.thr.get 0xFFFFFFFF#32 i))) ∧
  (∀ f : FmtEM, f.set.toNat < 4 → cfg (.mxmute f) f.gd f.arr any fun t x y =>
    y = { x with mute := y.mute } ∧
    (∀ r, r < 256 → y.mute.getLsbD r = (if r / 64 = f.set.toNat then (t.srcE f.s1).getLsbD (r % 64) else x.mute.getLsbD r))) ∧
  (∀ f : FmtEM, cfg (.mxset f) f.gd f.arr any fun t x y =>
    y = if f.set = 0#3 then { x with abase := t.srcE f.s1 } else { x with ctrl := t.srcE f.s1 }) ∧
  (∀ f : FmtEI, cfg (.mxclr f) f.gd f.arr (fun s t x =>
      (∀ h ∈ x.holds, ∀ n ∈ h.2, n < 8 → f.imm.getLsbD n = false) ∧
      (∀ n, n < 8 → f.imm.getLsbD n = true → s.lentWithin s.cur t 3 (0x2000 * f.arr.toNat + 0x400 * n) 0x400 = none)) fun _ x y =>
    y = { x with counts := y.counts, stat := y.stat } ∧
    (∀ n j, n < 8 → j < 256 →
      y.counts.get 0#32 (256 * n + j) = (if f.imm.getLsbD n then 0#32 else x.counts.get 0#32 (256 * n + j)) ∧
      y.stat.get 0#64 n = (if f.imm.getLsbD n then 0#64 else x.stat.get 0#64 n))) ∧
  (∀ f : FmtEI, cfg (.mxstop f) f.gd f.arr (fun s t x => ∀ h ∈ x.holds, ∀ n ∈ h.2,
      s.lentWithin s.cur t 3 (0x2000 * f.arr.toNat + 0x400 * n) 0x400 = none) fun _ x y =>
    y = { x with counts := y.counts, stat := y.stat, cur := none, pnd := none, holds := [], drn := true } ∧
    (∀ n j, j < 256 →
      y.counts.get 0#32 (256 * n + j) = (if ∃ h ∈ x.holds, n ∈ h.2 then 0#32 else x.counts.get 0#32 (256 * n + j)) ∧
      y.stat.get 0#64 n = (if ∃ h ∈ x.holds, n ∈ h.2 then 0x2000000#64 else x.stat.get 0#64 n)))

/-- Issued while no operation holds the registers of the named array, with the pending slot free and the checks of R320 met,
mxgo, mxgos and mxgoa commit at once: the captured command becomes current on an idle array and pending otherwise, it holds its
sets, DRN is 0, and mxgos then waits for its own command. Where the named set has ended, mxrd joins that set and delivers its
status word; on an idle array mxst and mxdrain join every set, and mxst delivers K, W, GCOL, SL and FMT. No byte of memory
changes. The loading counts 68 and 4 are R329 as log entry 51 reads it (DEDUCED), and an operand that names the address 2^64 - 1
is left out here (log entry 53). (R319, R321, R323, R324, R325, R326) -/
def Obligations.ArrayCommitsAndJoins : Prop :=
  let comm (i : Instr) (f : FmtEM) (form : MxForm) : Prop :=
    ∀ (s : State) (t : Task) (k : Cmd), Issues s t f.gd → s.mxError s.cur t f.arr.toNat = none →
    let x := t.arr f.arr.toNat
    let sc := if f.s3 = 0xC0#8 then none else some (t.srcE (s3Opd f.s3))
    x.pnd = none → t.waits = [] → sc ≠ some 0xFFFFFFFFFFFFFFFF#64 →
    s.mxCapture s.cur t f.arr.toNat form sc f.gr.toNat = .ok k →
    let w : Wait := .commit f.arr.toNat form (sc.getD 0xFFFFFFFFFFFFFFFF#64) f.gr.toNat k.scr k.cols
    let s1 := s.setTask s.cur { t with waits := t.waits ++ [w] }
    s1.mxCapture s.cur { t with waits := t.waits ++ [w] } f.arr.toNat form sc f.gr.toNat = .ok k →
    ∃ (u : State) (y : ArrayS), exec i s = .next u ∧ u.mem = s.mem ∧
      u.task? s.cur = some { t.setArr f.arr.toNat y with waits := if form = .gos then [.joinCmd f.arr.toNat x.nextCmd] else [] } ∧
      y = { x with cur := y.cur, pnd := y.pnd, holds := y.holds, drn := false, nextCmd := x.nextCmd + 1 } ∧
      (x.cur = none → y.cur = some { k with id := x.nextCmd, load := 68 } ∧ y.pnd = none) ∧
      (x.cur ≠ none → y.cur = x.cur ∧ y.pnd = some { k with id := x.nextCmd, load := 4 }) ∧
      y.holds.map Prod.snd = x.holds.map Prod.snd ++
        [(List.range (ctrlNvec k.ctrl)).map (fun i => ctrlCset k.ctrl + i)]
  let join (i : Instr) (gd : Guard) (arr : Bool) (d : Task → Option Dest) (rdy : ArrayS → Prop) (y : ArrayS → ArrayS)
      (v : ArrayS → Word) : Prop :=
    ∀ (s : State) (t : Task), Issues s t gd → s.mxError s.cur t arr.toNat = none → rdy (t.arr arr.toNat) → t.waits = [] →
    (∀ p ∈ t.pend, some p.dest ≠ d t) →
    ∃ u, exec i s = .next u ∧ u.mem = s.mem ∧ u.task? s.cur = some ((match d t with
      | some d => t.putPend d .value (some ((v (t.arr arr.toNat)).setWidth 1024))
      | none => t).setArr arr.toNat (y (t.arr arr.toNat)))
  let all (x : ArrayS) : ArrayS := { x with holds := [], drn := true }
  (∀ f : FmtEM, comm (.mxgo f) f .go ∧ comm (.mxgos f) f .gos ∧ comm (.mxgoa f) f .goa) ∧
  (∀ f : FmtEM, join (.mxrd f) f.gd f.arr (fun t => some (t.regs.dest .E f.d))
    (fun x => ∀ h ∈ x.holds, f.set.toNat ∈ h.1.sets → x.hasEnded h.1.id = true)
    (fun x => x.joinSet f.set.toNat) (fun x => x.stat.get 0#64 f.set.toNat)) ∧
  (∀ f : FmtEM, join (.mxst f) f.gd f.arr (fun t => some (t.regs.dest .E f.d)) (fun x => x.cur = none ∧ x.pnd = none) all
    (fun x => BitVec.ofNat 64 (((List.range 256).filter (fun r => !x.mute.getLsbD r)).length * 2 ^ 55 + x.gw * 2 ^ 46 +
      x.gcol * 2 ^ 38 + x.sl * 2 ^ 24 + x.fmt.toNat))) ∧
  (∀ f : FmtEI, join (.mxdrain f) f.gd f.arr (fun _ => none) (fun x => x.cur = none ∧ x.pnd = none) all (fun _ => 0#64))

/-- Issued: end marks its task ended and waits; svc and brk with a fault-buffer entry free write the four words of the event
record into the lowest free entry and mark the task to be suspended, except that brk on a core with BRKH set asks for a halt
instead; an admitted sysr puts the value of the register in flight at latency 2, which for each assigned register is the field
of the state that it names; sysw clears the FSTAT bits written as 1, writes SBCHK, DLPOL or TLBINV where admitted, and changes
nothing at any other register; a read or write that needs privilege and has none is a fatal permission violation. (R139, R161,
R182, R183, R411, R430, R431, R452, R454, R455) -/
def Obligations.SystemInstructions : Prop :=
  (∀ f : FmtN, ChangesTask (.endTask f) f.gd fun _ t => { t with ended := true, waits := t.waits ++ [.endTask] }) ∧
  (∀ (f : FmtCK) (s : State) (t : Task) (e : Nat), Issues s t f.gd → e < 4096 →
    (s.stack (stackOf s.cur)).fb.find e = none → (∀ k, k < e → (s.stack (stackOf s.cur)).fb.find k ≠ none) →
    let event (i : Instr) (kind : Nat) : Prop := ∃ u, exec i s = .next u ∧ u.mem = s.mem ∧
      u.task? s.cur = some { t with
        events := t.events + 1#32, suspend := true
        event := some ⟨kind, e, f.code.setWidth 64, t.events + 1#32, false, false, 0#64⟩ } ∧
      (u.stack (stackOf s.cur)).fb.find e = some
        ⟨BitVec.ofNat 4 kind ++ BitVec.ofNat 12 t.ctx.val ++ BitVec.ofNat 10 s.cur.val ++ 0#6 ++ (t.events + 1#32),
         0#4 ++ BitVec.ofNat 12 e ++ t.coord, f.code.setWidth 64, t.fpos.setWidth 32 ++ s.lid t.launch, false⟩
    event (.svc f) 1 ∧ ((s.core s.cur).brkh = false → event (.brk f) 2) ∧
    ((s.core s.cur).brkh = true → exec (.brk f) s = .next (s.setCore s.cur { s.core s.cur with haltReq := 2 }))) ∧
  (∀ (f : FmtCS) (s : State) (t : Task), Issues s t f.gd → let n := f.sreg.toNat
    (n ≠ 0x50 ∨ s.privileged t.ctx = true → ∃ v : Word, exec (.sysr f) s = .next (s.setTask s.cur (t.putW 2 .C f.d v)) ∧
      let x := s.ctx t.ctx
      let y := s.stack (stackOf s.cur)
      (n = 0x20 → v = if x.sbchk then 1#64 else 0#64) ∧ (n = 0x21 → v = t.fstat.setWidth 64) ∧
      (n = 0x30 → v = x.hb) ∧ (n = 0x31 → v = x.hl) ∧ (n = 0x32 → v = x.ho) ∧ (n = 0x33 → v = x.ptroot) ∧ (n = 0x34 → v = 0#64) ∧
      (n = 0x35 → v = pack64 [(y.loss.toNat, 48), (y.gain.toNat, 32), (min 64 (s.stor (stackOf s.cur)), 22),
        (s.l2Hi (stackOf s.cur), 15), (s.l2Lo (stackOf s.cur), 8), (y.cu, 0)]) ∧
      (n = 0x38 → v = x.savea) ∧ (n = 0x39 → v = x.saveb) ∧
      (n = 0x3A → v = BitVec.ofBool x.ok ++ (x.slots.setWidth 63 : BitVec 63)) ∧
      (0x40 ≤ n → n ≤ 0x4F → v = x.ctr.get 0#64 n) ∧
      (n = 0x50 → v = 0#32 ++ s.dlPer ++ 0#7 ++ BitVec.ofBool s.dlEn ++ 0#6 ++ s.dlVict) ∧
      (n = 0x51 → v = x.syph) ∧ (n = 0x52 → v = s.capbase.setWidth 64)) ∧
    (n = 0x50 → s.privileged t.ctx = false →
      exec (.sysr f) s = .next (s.raiseFatal s.cur t errPermission 1 (encode (.sysr f)) 0#64 0#64)) ∧
    (let v := t.regs.readW .C 0#64 f.s1
     (n = 0x20 → exec (.sysw f) s = .next (s.setCtx t.ctx { s.ctx t.ctx with sbchk := v.getLsbD 0 })) ∧
     (n = 0x21 → exec (.sysw f) s = .next (s.setTask s.cur { t with fstat := t.fstat &&& ~~~(v.setWidth 7) })) ∧
     (n = 0x50 → s.privileged t.ctx = true → exec (.sysw f) s = .next { s with
        dlPer := if v.extractLsb' 16 16 = 0#16 then 1#16 else v.extractLsb' 16 16
        dlEn := v.getLsbD 8
        dlVict := if v.extractLsb' 0 2 = 3#2 then 0#2 else v.extractLsb' 0 2 }) ∧
     (n = 0x34 → s.privileged t.ctx = true → ∃ u, exec (.sysw f) s = .next u ∧
        u.task? s.cur = some { t with waits := t.waits ++ [.tlbinv s.nextDrop] } ∧
        u.drops = s.drops ++ [⟨s.nextDrop, Fin.ofNat 4096 (v.toNat / 2 ^ 52), v.extractLsb' 0 44, false⟩]) ∧
     (n = 0x34 ∨ n = 0x50 → s.privileged t.ctx = false →
        exec (.sysw f) s = .next (s.raiseFatal s.cur t errPermission 1 (encode (.sysw f)) 0#64 0#64)) ∧
     (n ≠ 0x20 → n ≠ 0x21 → n ≠ 0x34 → n ≠ 0x50 → exec (.sysw f) s = .next s)))

/-- Issued, phase replaces the declaration of its core by R340 and phq puts the word of R344 in flight at latency 1; no
register, memory byte or task field changes otherwise. The events: an open window is marked once its cycle has come; a due start
marks its command started, at half rate unless covered; a step of a streaming command adds to every column of its set what the
stream gives, limited to 2^32 - 1 and counted from 0 in the first step unless the command adds; a command that has ended gives
way to the pending one. Model choices: a VOID declaration keeps ICLS and BID and reads REM 0 (log entry 61); the rail stands at
its target for a window with ONSET of 64 or more as log entry 30 reads R343; the cycles of an array and what covers them are log
entries 51 and 32. (R293, R321, R329, R339, R340, R341, R342, R344) -/
def Obligations.DeclarationsAndArraySteps : Prop :=
  (∀ (f : FmtEP) (s : State) (t : Task), Issues s t f.gd →
    let len := ((t.srcE f.s1).extractLsb' 0 32).toNat
    let c := (s.cluster (clusterOf s.cur)).cyc
    ∃ u d, exec (.phase f) s = .next u ∧ (u.core s.cur) = { s.core s.cur with decl := d } ∧ u.mem = s.mem ∧
      (len = 0 → d = none) ∧
      (len ≠ 0 → ∀ i, s.imageOf t = some i → ∀ r, i.bursts.find? (fun r => r.bid == f.bid.toNat) = some r →
        d = some (if (i.bursts.any fun b => decide (f.icls.toNat ≤ b.icls)) = true
          then ⟨false, c + f.onset.toNat, c + f.onset.toNat + min len r.steps, f.icls, f.bid, false, decide (64 ≤ f.onset.toNat)⟩
          else ⟨true, 0, 0, f.icls, f.bid, false, false⟩)) ∧
      (len ≠ 0 → ∀ i, s.imageOf t = some i → i.bursts.find? (fun r => r.bid == f.bid.toNat) = none →
        d = some ⟨true, 0, 0, f.icls, f.bid, false, false⟩)) ∧
  (∀ (f : FmtEI) (s : State) (t : Task), Issues s t f.gd → ∃ v, exec (.phq f) s = .next (s.setTask s.cur (t.putW 1 .E f.d v)) ∧
    (∀ k, (t.arr f.arr.toNat).cur = some k → v.getLsbD 60 = (k.started && k.cov.isSome) ∧ v.getLsbD 59 = (k.started && k.half)) ∧
    ((t.arr f.arr.toNat).cur = none → v.getLsbD 60 = false ∧ v.getLsbD 59 = false) ∧
    ((s.core s.cur).decl = none → v &&& 0xE7FFFFFFFFFFFFFF#64 = 0#64) ∧
    (∀ d, (s.core s.cur).decl = some d → v.getLsbD 63 = true ∧ v.getLsbD 62 = d.isVoid ∧ v.getLsbD 61 = d.opened ∧
      v.extractLsb' 56 3 = d.icls ∧ v.extractLsb' 50 6 = d.bid ∧ v.extractLsb' 32 18 = 0#18 ∧
      v.extractLsb' 0 32 = BitVec.ofNat 32 (d.to_ - (s.cluster (clusterOf s.cur)).cyc))) ∧
  (∀ (s : State) (c : CoreId) (d : Decl), (s.core c).decl = some d → d.isVoid = false → d.opened = false →
    d.from_ ≤ (s.cluster (clusterOf c)).cyc → ∃ u, exec (.phaseWindowOpen c) s = .next u ∧ u.mem = s.mem ∧
      u.core c = { s.core c with decl := some { d with opened := true } }) ∧
  (∀ (s : State) (c : CoreId), exec (.phaseWindowEnd c) s = .next (s.setCluster (clusterOf c)
    { s.cluster (clusterOf c) with pre := BitVec.ofNat 8 (s.preTarget (clusterOf c)) })) ∧
  (∀ (s : State) (a : ArrayId) (t : Task) (k : Cmd), let c := arrCore a
    let x := t.arr (arrIn a)
    s.task? c = some t → x.cur = some k →
    (∀ cov, k.started = false → k.ended = false → (s.cluster (clusterOf c)).clocked = true →
      s.startAns c t (arrIn a) = .due cov → ∃ u, exec (.arrayStart a) s = .next u ∧ u.mem = s.mem ∧
        u.task? c = some (t.setArr (arrIn a) { x with cur := some { k with started := true, cov := cov, half := cov.isNone } })) ∧
    (k.started = true → k.ended = false → k.load = 0 → ∃ u y, exec (.arrayStep a) s = .next u ∧ u.mem = s.mem ∧
      u.task? c = some (t.setArr (arrIn a) y) ∧
      (∀ n j, j < 256 → y.counts.get 0#32 (256 * n + j) =
        (if n = ctrlCset k.ctrl + k.v then BitVec.ofNat 32 (min (2 ^ 32 - 1)
            ((if k.t = 0 ∧ k.form ≠ .goa then 0 else (x.counts.get 0#32 (256 * n + j)).toNat) +
              k.stepGain (arrIn a) k.v (k.t + 1) j))
          else x.counts.get 0#32 (256 * n + j))) ∧
      (∀ n, n ≠ ctrlCset k.ctrl + k.v → y.stat.get 0#64 n = x.stat.get 0#64 n) ∧
      (k.t + 1 < k.sl → k.gw = 0 → y.cur = some { k with t := k.t + 1 }) ∧
      (k.sl ≤ k.t + 1 → y.cur = some { k with
        v := k.v + 1, t := 0, ended := decide (ctrlNvec k.ctrl ≤ k.v + 1)
        load := if ctrlNvec k.ctrl ≤ k.v + 1 then 0 else 4 })) ∧
    (k.ended = true → exec (.arrayCommandEnd a) s = .next (s.setTask c (t.setArr (arrIn a)
      { x with cur := x.pnd, pnd := none }))))

/-- Issued on a region that the task names and no part of which is LOST, with no message, access, posted write, amo form or
round in flight, nothing cached, no link fenced, no two records of one number and a general record free: tklend of a token held
outright at depth 6 or less leaves it LENT and sends a record one deeper to the agent; tkret clears the own record and sends the
token back; tkshr leaves it SHARED with one more share and sends the share; tkunsh clears the own share and sends it back; tkrcl
of shares that all have come back leaves the token outright again. (R364, R365, R366, R369, R387, R388, R389, R391, R408, R463)
-/
def Obligations.TokenTransfers : Prop :=
  ∀ (f : FmtYT) (s : State) (t : Task) (r : Named) (e : Nat) (x : TokRec), Issues s t f.gd →
    let va := t.srcY f.s3 f.s1
    let ag := t.agent s.cur
    let msgs (i : Instr) (m : TokMsg) (p : State → Prop) : Prop :=
      ∃ u, exec i s = .next u ∧ u.toks = [m] ∧ p u
    isAlias va = false → s.named s.cur t va (fun r => r.claimed) = .ok r → s.lostRegion r = false →
    (∀ st, s.linkShut (stackOf s.cur) st = false) → s.toks = [] → s.fes = [] → s.pwrites = [] → s.amos = [] → s.rounds = [] → t.ops = [] → t.waits = [] → s.sliceOf r.base = r.st →
    (s.core s.cur).l1 = [] → (s.cluster (clusterOf s.cur)).cc = [] →
    (∀ d e', s.coordAgent t (t.srcY f.s3 f.s2) = some d → freeTok (s.stack r.st).toks 15344 0 = some e' →
      (s.stack r.st).ownRec ag r.base r.size = some (e, x) → x.claimed = true →
      (f.shk.getLsbD 1 = false → x.st = .excl → x.nsh = 0 → x.depth ≤ 6 →
        msgs (.tklend f) (.deliver r.st e' ag.src s.feSeq) fun u =>
          (u.stack r.st).ownRec ag r.base r.size = some (e, { x with st := .lent }) ∧
          (u.stack r.st).toks.find e' = some
            (TokRec.fresh r.base r.size (x.depth + 1) (scopeOr .dv f.sc) (s.taskAgent t.ctx t.launch d))) ∧
      (x.st = .excl ∨ x.st = .shared → x.nsh < 65535 →
        msgs (.tkshr f) (.deliver r.st e' ag.src s.feSeq) fun u =>
          (u.stack r.st).ownRec ag r.base r.size = some (e, { x with
            st := .shared, nsh := x.nsh + 1, nat := x.nat + (if f.shk.getLsbD 0 then 1 else 0) }) ∧
          (u.stack r.st).toks.find e' = some
            (TokRec.share r.base r.size 0 (f.shk.getLsbD 0) (scopeOr .dv f.sc) (s.taskAgent t.ctx t.launch d)))) ∧
    ((s.stack r.st).ownRec ag r.base r.size = some (e, x) → x.claimed = true → (∀ p ∈ (s.stack r.st).toks, p.1 = e → p.2 = x) →
      (x.st = .excl → x.nsh = 0 → msgs (.tkret f) (.ret r.st r.base r.size x.depth (scopeOr .dv f.sc) ag.src s.feSeq) fun u =>
        (u.stack r.st).toks.find e = none) ∧
      (x.st = .excl ∨ x.st = .shared → x.nsh = x.backSh + x.eng →
        ∃ u, exec (.tkrcl f) s = .next u ∧ u.toks = [] ∧
          let y : TokRec := { x with nsh := x.eng, nat := 0, backSh := 0, backAt := 0, backSc := [],
                                     st := if x.eng = 0 then .excl else .shared }
          if y.idle then (u.stack r.st).toks.find e = none else (u.stack r.st).ownRec ag r.base r.size = some (e, y))) ∧
    ((s.stack r.st).shareRec ag r.base r.size true = some (e, x) → (s.stack r.st).toks.find e = some x → x.st ≠ .lost →
      msgs (.tkunsh f) (.unshare r.st r.base r.size x.at_ (scopeOr .dv f.sc) ag.src s.feSeq) fun u =>
        (u.stack r.st).toks.find e = none)

/-- Issued on a region the task names, with no link fenced: tkwait completes at once where its claim is met, and a claim takes
the record that has been sent to the task and has arrived, which is its acquire; tksplit of a token held outright replaces its
record by two of the halves; tkjoin of two such halves of one depth and chain replaces them by one of the whole; tkqry delivers
the word of R393 through the interlocked queue, with state, depth, size and share counts of the own record, and changes nothing
else. (R361, R371, R372, R384, R390, R392, R393) -/
def Obligations.TokenClaimsSplitsAndQueries : Prop :=
  ∀ (f : FmtYT) (s : State) (t : Task), Issues s t f.gd →
    let va := t.srcY f.s3 f.s1
    let ag := t.agent s.cur
    isAlias va = false → (∀ st, s.linkShut (stackOf s.cur) st = false) →
    (∀ l l' share s', let e := (t.srcY f.s3 f.s2).toNat
      s.regionLeaf s.cur t va = .ok l → e < 256 → waitSizeOk l e = true → t.waits = [] →
      let w : Wait := .token share va (l.pa / 2 ^ e * 2 ^ e) (sizeExp e)
      let s1 := s.setTask s.cur { t with waits := [w] }
      s1.translateFor s.cur { t with waits := [w] } va = .ok l' →
      s1.claim s.cur { t with waits := [w] } share (regionHome l') (l'.pa / regionBytes (sizeExp e) * regionBytes (sizeExp e))
        (sizeExp e) = .done s' →
      exec (if share then .tkwaitSh f else .tkwait f) s = .next (s'.mapTask s.cur (fun t =>
        { t with waits := t.waits.erase w, naks := 0 }))) ∧
    (∀ st base size e r, s.lostIn st base (regionBytes size) = false →
      (s.stack st).ownRec ag base size = some (e, r) → r.claimed = false → r.arr = true →
      ∃ s', s.claim s.cur t false st base size = .done s' ∧ (s'.stack st).toks.find e = some { r with claimed := true } ∧
        s'.mem = s.mem) ∧
    (∀ r e x k, s.named s.cur t va (fun r => r.claimed) = .ok r → s.lostRegion r = false → paWindow r.leaf.pa = false →
      r.leaf.heap = false → 4 < r.size → (s.stack r.st).ownRec ag r.base r.size = some (e, x) → x.exclusive = true →
      (s.stack r.st).toks.find e = some x → (s.stack r.st).toks.filter (fun p => p.2.isFor r.base r.size) = [(e, x)] →
      s.sliceOf r.base = r.st → (s.stack r.st).newTok s.cur t.naks = some k → ∃ u, exec (.tksplit f) s = .next u ∧
        (u.stack r.st).toks.find e = some { x with size := r.size - 1 } ∧
        (u.stack r.st).toks.find k = some { x with base := r.base + regionBytes (r.size - 1), size := r.size - 1 }) ∧
    (∀ r ea a eb b, s.named s.cur t va (fun r => r.claimed) = .ok r → paWindow r.leaf.pa = false → r.leaf.heap = false →
      let n := regionBytes r.size
      let lo := r.base / (2 * n) * (2 * n)
      s.lostRegion { r with base := lo, size := r.size + 1 } = false → 2 * n ≤ 2 ^ r.leaf.bits →
      (s.stack r.st).ownRec ag lo r.size = some (ea, a) → (s.stack r.st).ownRec ag (lo + n) r.size = some (eb, b) →
      a.exclusive = true → b.exclusive = true → a.depth = b.depth →
      (s.stack r.st).chainOf lo r.size a.depth = (s.stack r.st).chainOf (lo + n) r.size a.depth →
      (s.stack r.st).toks.find ea = some a → ∃ u, exec (.tkjoin f) s = .next u ∧
        (u.stack r.st).toks.find ea = some { a with size := r.size + 1 } ∧
        (∀ p ∈ (u.stack r.st).toks, p.2.isFor (lo + n) r.size = true → p.2.sh = true)) ∧
    (∀ r, s.named s.cur t va (fun r => r.claimed) = .ok r → ∃ v,
      exec (.tkqry f) s = .next (s.setTask s.cur (t.putPend (t.regs.dest .Y f.d) .value (some ((v : Word).setWidth 1024)))) ∧
      (∀ e x, s.lostRegion r = false → (s.stack r.st).ownRec ag r.base r.size = some (e, x) → x.claimed = true →
        x.depth < 8 → r.size < 32 → x.nsh < 65536 → x.nat < 65536 →
        v.extractLsb' 61 3 = (match x.st with | .excl => 1#3 | .shared => 2#3 | .lent => 3#3 | .lost => 5#3) ∧
        (v.extractLsb' 58 3).toNat = x.depth ∧ v.getLsbD 57 = false ∧ (v.extractLsb' 51 5).toNat = r.size ∧
        (v.extractLsb' 35 16).toNat = x.nsh ∧ (v.extractLsb' 19 16).toNat = x.nat ∧ v.extractLsb' 0 19 = 0#19))

/-- Issued: yli, ymov and yadd put their result in flight at latency 1; arrive, and after its release arrive.rel, send an
arrival to the own team, which the task counts, or to another team of the grid, or at .sy through the SYPH of the context to
another module, once what its release covers is done; waitph of a complete instance goes on at once; phdef of an undefined phase
defines it; a round and an amo whose word passes the checks of R401 send their message at the mapping that holds once the own
earlier writes to the line have been performed, with the destination of a round waiting; the first trig of a task makes its
release and sends its message, a later one only leaves the interval unprotected; every grow sends its request. Model choices: an
arrival with OTH = 1 that names the own team counts as an own one (log entry 60), and the own earlier writes to the line of a
round or an amo are performed first (log entry 16). (R394, R395, R396, R397, R400, R401, R404, R405, R406, R407, R446, R479) -/
def Obligations.SynchronisationInstructions : Prop :=
  (∀ f : FmtYI, ChangesTask (.yli f) f.gd fun _ t => t.putW 1 .Y f.d (f.imm.signExtend 64)) ∧
  (∀ f : FmtYS, ChangesTask (.ymov f) f.gd fun _ t => t.putW 1 .Y f.d (t.srcY f.s3 f.s1)) ∧
  (∀ f : FmtYS, ChangesTask (.yadd f) f.gd fun _ t => t.putW 1 .Y f.d (t.srcY f.s3 f.s1 + t.srcY f.s3 f.s2)) ∧
  (∀ (f : FmtYS) (s : State) (t : Task) (i : Image), Issues s t f.gd → s.imageOf t = some i →
    let v := t.srcY f.s3 f.s1
    let ph := (v.extractLsb' 0 4).toNat
    let oth := v.getLsbD 15
    let sc := scopeOr .st f.sc
    let d := if oth then v.extractLsb' 16 48 else t.coord
    let own := sameTeam i t.coord d
    v.extractLsb' 4 11 = 0#11 → (oth = true → inGrid (s.taskExt t) d = true) →
    (∃ u, exec (.arrive f) s = .next u ∧ u.mem = s.mem ∧
      u.arrs = s.arrs ++ [⟨s.cur, t.ctx, t.launch, t.coord, d, ph, false, .dflt, !own, s.feSeq, 0⟩] ∧
      u.task? s.cur = some (if own then { t with arrived := t.arrived.set ph (t.arrived.get 0 ph + 1) } else t)) ∧
    (¬ (oth = true ∧ sc = .sy ∧ (s.ctx t.ctx).syphOn = true) →
      exec (.arriveRel f) s = .next ((s.releaseFor s.cur t sc).sendArrival s.cur t ph d true sc))) ∧
  (∀ (r : State) (c : CoreId) (t : Task) (ph : Nat) (d : BitVec 48) (rel : Bool) (sc : Scope) (i : Image), r.imageOf t = some i →
    let own := sameTeam i t.coord d
    let u := r.sendArrival c t ph d rel sc
    u.arrs = r.arrs ++ [⟨c, t.ctx, t.launch, t.coord, d, ph, rel, sc, !own, r.feSeq, 0⟩] ∧
    u.task? c = (r.task? c).map (fun x => if own then { x with arrived := x.arrived.set ph (x.arrived.get 0 ph + 1) } else x)) ∧
  (∀ (f : FmtYS) (s : State) (t : Task), Issues s t f.gd →
    let v := t.srcY f.s3 f.s1
    let m : ModuleId := Fin.ofNat 4096 (s.ctx t.ctx).syph.toNat
    let r := (s.releaseFor s.cur t .sy).unprotect s.cur t
    v.extractLsb' 4 11 = 0#11 → v.getLsbD 15 = true → f.sc = .sy → (s.ctx t.ctx).syph.getLsbD 63 = true → r.reaches m = true →
      exec (.arriveRel f) s = .next ({ r with
        syArrs := r.syArrs ++ [⟨s.cur, t.ctx, t.launch, t.coord, t.fpos.setWidth 32⟩] : State }.sendAfter ⟨s.cur, t.launch, t.coord⟩ r.feSeq
          (.arrival m t.ctx (r.lid t.launch) (v.extractLsb' 16 48) (v.extractLsb' 0 4).toNat))) ∧
  (∀ (s : State) (x : Src) (n : Nat) (m : OutMsg),
    let waits := s.heldWrites x.launch x.coord = true ∨ s.earlierFe x.launch x.coord n = true ∨
      s.roundsWait x.launch x.coord n = true ∨ ∃ r ∈ s.remq, r.src = x
    (waits → s.sendAfter x n m = { s with remq := s.remq ++ [⟨x, n, m⟩] }) ∧
    (¬ waits → s.sendAfter x n m =
      { s with outbox := s.outbox ++ [⟨Fin.ofNat 16 ((s.rtab.get 0#5 m.to_.val).toNat % 16), m⟩] })) ∧
  (∀ (f : FmtYS) (s : State) (t : Task) (tm : Team), Issues s t f.gd → s.team? s.cur t = some tm → t.waits = [] →
    let v := t.srcY f.s3 f.s1
    let ph := (v.extractLsb' 0 4).toNat
    (v.extractLsb' 4 12 = 0#12 → max (t.arrived.get 0 ph) 1 ≤ (tm.phases.get .none ph).inst →
      ∃ u, exec (.waitph f) s = .next u ∧ u.mem = s.mem ∧ u.task? s.cur = some { t with naks := 0 }) ∧
    (let p := (v.extractLsb' 16 16).toNat
     v.extractLsb' 4 12 = 0#12 → v.extractLsb' 32 32 = 0#32 → ph ≠ 0 → p ≠ 0 → (tm.phases.get .none ph).p = 0 →
      (∀ e ∈ tm.early, e.1 ≠ ph) → ∃ u, exec (.phdef f) s = .next u ∧ u.mem = s.mem ∧
        u.team? s.cur t = some { tm with phases := tm.phases.set ph ⟨p, 0, 0, [], []⟩ })) ∧
  (∀ (f : FmtYS) (s : State) (t : Task) (l : Leaf), Issues s t f.gd →
    let ty := tyOr .n32 f.ty
    let va := t.srcY f.s3 f.s1
    let ph := f.s3.toNat % 16
    s.atomAccess s.cur t va (tyWidth ty / 8) = .ok l →
    (∀ p ∈ [(.rmin f, AtomOp.rmin), (.rmax f, .rmax), (.rsum f, .rsum), (.redf f, .redf), (.amor f, .amor), (.cas f, .cas)],
      let r := s.ownLine t (lineOf l.pa)
      let k := r.leafNow s.cur t va l
      ∃ u, exec p.1 s = .next u ∧ u.rounds = r.rounds ++ [⟨s.cur, t.ctx, t.launch, t.coord, stackOf s.cur, t.team, ph,
        t.arrived.get 0 ph + 1, p.2, ty, k.pa, va, k.home, k.leafPa, k.late, t.regs.readW .Y 0#64 f.s2,
        if p.2 = .cas then t.regs.readW .Y 0#64 f.d else 0#64, t.nextPend, false, false, 0#64, 0#7, k.lclass, 0, r.feSeq,
        t.fpos.setWidth 32⟩] ∧
        u.task? s.cur = (r.task? s.cur).map (fun x => x.putPend (x.regs.dest .Y f.d) .round none)) ∧
    (∀ p ∈ [(.amoAdd f, AtomOp.add), (.amoMin f, .min), (.amoMax f, .max), (.amoAnd f, .and), (.amoOr f, .or), (.amoXor f, .xor)],
      let r := ((s.unprotect s.cur t).noteWrite (stackOf s.cur) t.team).drain (fun w => isTask t w.tag.launch w.tag.coord && lineOf w.pa == lineOf l.pa)
      let k := r.leafNow s.cur t va l
      exec p.1 s = .next { r with
        amos := r.amos ++ [⟨s.cur, t.ctx, t.launch, t.coord, p.2, ty, k.pa, va, k.home, k.leafPa, k.late, t.srcY f.s3 f.s2, false,
          k.lclass, t.fpos.setWidth 32⟩] })) ∧
  (∀ (f : FmtYS) (s : State) (t : Task), Issues s t f.gd →
    (t.trig = true → exec (.trig f) s = .next (s.unprotect s.cur t)) ∧
    (t.trig = false → let r := (s.unprotect s.cur t).releaseFor s.cur t .dv
      ∃ u, exec (.trig f) s = .next u ∧ u.mem = r.mem ∧ u.trigs = r.trigs ++ [⟨s.cur, t.launch, t.coord, r.feSeq⟩] ∧
        u.task? s.cur = (r.task? s.cur).map (fun x => { x with trig := true })) ∧
    (∃ u, exec (.grow f) s = .next u ∧ u.task? s.cur = some t ∧ u.mem = s.mem ∧
      u.grows = s.grows ++ [⟨t.launch, ((t.srcY f.s3 f.s1).extractLsb' 0 32).toNat, t.trig⟩]))

/-- A delivered record is marked as arrived and a returned token marks the record one depth above; a LOST record is cleared; a
request that finds a free general record takes it; an arrival counts at its phase, and the last one closes the instance; the
sync unit takes a round into a free object, and answers one that finds none with a NAK; an amo that no earlier one of its way
precedes leaves once its word has been written; a trigger counts at its launch; a growth request grows the last extent up to its
bound; an acknowledged arrival leaves, with a fatal error where it lay outside the grid; the deadlock walk takes the tables as
they stand, ends nothing while EN is 0, and else ends the victim of one cycle. Model choices: NAK counts stop at 3, as none
above two tells (log entry 70); the victim, and the moment at which waits are entered, are log entry 26. (R367, R369, R372,
R382, R384, R395, R398, R401, R404, R405, R406, R410) -/
def Obligations.MessagesOfTokensAndSynchronisation : Prop :=
  (∀ (s : State) (n e : Nat) (st : StackId) (c : Src) (k : Nat) (r : TokRec), s.msgMayArrive n = true →
    (s.toks[n]? = some (.deliver st e c k) → (s.stack st).toks.find e = some r → s.agentGone r.holder = false →
      ∃ u, exec (.tokenMessageArrival n) s = .next u ∧ u.mem = s.mem ∧ u.toks = listDrop s.toks n ∧
        (u.stack st).toks.find e = some { r with arr := true }) ∧
    (∀ base size d sc, s.toks[n]? = some (.ret st base size (d + 1) sc c k) →
      (s.stack st).toks.find? (fun e => e.2.isFor base size && !e.2.sh && e.2.depth + 1 == d + 1) = some (e, r) →
      s.agentGone r.holder = false → (∀ g, r.holder ≠ .stack g) →
      ∃ u, exec (.tokenMessageArrival n) s = .next u ∧ u.mem = s.mem ∧ u.toks = listDrop s.toks n ∧
        (u.stack st).toks.find e = some { r with back := true, backSc := [sc] })) ∧
  (∀ (s : State) (st : StackId) (e : Fin 16384) (r : TokRec), (s.stack st).toks.find e.val = some r →
    exec (.tokenRecordClear st e) s =
      .next (if r.st = .lost then s.setStack st ((s.stack st).dropTok e.val) else s)) ∧
  (∀ (s : State) (n e : Nat) (st : StackId) (r : TokRec) (c : Src) (k a : Nat), s.toks[n]? = some (.need st r c k a) →
    s.msgMayArrive n = true → s.agentGone r.holder = false → freeTok (s.stack st).toks 15344 0 = some e → ∃ u, exec (.nakRetry n) s = .next u ∧
      u.toks = listDrop s.toks n ∧ (u.stack st).toks.find e = some { r with arr := true }) ∧
  (∀ (s : State) (a : ArrMsg) (st : StackId) (m : Nat) (tm : Team), s.arrs = [a] → s.rounds = [] → s.toks = [] →
    s.arrMay 0 a = true → a.outside = false → s.findTeam a.launch a.target = some (st, m, tm) →
    (s.stack st).teams.find m = some tm →
    let p := tm.phases.get .none a.ph
    let sc := addScope p.openSc (if a.rel then a.sc else .dflt)
    let after (q : PhaseObj) : Prop := ∃ u tm', exec (.phaseArrival 0) s = .next u ∧ u.arrs = [] ∧ u.mem = s.mem ∧
      (u.stack st).teams.find m = some tm' ∧ tm'.phases = tm.phases.set a.ph q
    (p.arv + 1 < p.p → after { p with arv := p.arv + 1, openSc := sc }) ∧
    (p.arv + 1 = p.p → ∃ u tm', exec (.phaseArrival 0) s = .next u ∧ u.arrs = [] ∧ u.mem = s.mem ∧
      (u.stack st).teams.find m = some tm' ∧
      tm'.phases.get .none a.ph = { p with
        arv := 0, inst := p.inst + 1, openSc := [], doneSc := if sc = [] then p.doneSc else p.doneSc.set (p.inst + 1) sc })) ∧
  (∀ (s : State) (n : Nat) (r : RoundMsg), s.rounds[n]? = some r → r.received = false →
    exec (.roundReceive n) s = .next (match (s.stack r.st).takeObj r.core r.naks (.round r.core r.launch r.coord r.pend) with
      | some x => { s.setStack r.st x with rounds := listSet s.rounds n { r with received := true } }.healObjs r.st
          (fun u => u == ObjUse.round r.core r.launch r.coord r.pend)
      | none => { s with rounds := listSet s.rounds n { r with naks := min 3 (r.naks + 1) } })) ∧
  (∀ (s : State) (n : Nat) (a : AmoMsg) (s' : State), s.amos[n]? = some a → s.amoMay n = true →
    s.putHome (atomTag a.core a.ctx a.launch a.coord a.home a.leafPa a.late a.va a.pa a.cls a.fpos) a.pa (tyWidth a.ty)
      (atomNew a.op a.ty (s.homeNum a.home a.pa (tyWidth a.ty)) a.v.toNat 0).1 = (s', .done) →
    exec (.amoApply n false) s = .next { s' with amos := listDrop s'.amos n }) ∧
  (∀ (ty : Ty) (w v : Nat), let b := tyWidth ty
    (atomNew .add ty w v 0).1 = (w + v) % 2 ^ b ∧ (atomNew .and ty w v 0).1 = (w % 2 ^ b) &&& (v % 2 ^ b) ∧
    (atomNew .or ty w v 0).1 = (w % 2 ^ b) ||| (v % 2 ^ b) ∧ (atomNew .xor ty w v 0).1 = (w % 2 ^ b) ^^^ (v % 2 ^ b)) ∧
  (∀ (s : State) (n : Nat) (m : TrigMsg) (l : Launch), s.trigs[n]? = some m → s.heldWrites m.launch m.coord = false →
    s.earlierFe m.launch m.coord m.after = false → s.roundsWait m.launch m.coord m.after = false → s.grows = [] → s.launch? m.launch = some l → ∃ u l',
      exec (.triggerCount n) s = .next u ∧ u.trigs = listDrop s.trigs n ∧ u.launch? m.launch = some l' ∧
      l'.triggered = l.triggered + 1 ∧ l'.finished = l.finished) ∧
  (∀ (s : State) (g : GrowMsg) (gs : List GrowMsg) (l : Launch) (x : LoopRec), s.grows = g :: gs → s.launch? g.launch = some l →
    l.done = false → s.ending g.launch = false → g.n ≠ 0 → l.img.loops.find? (fun x => x.lkind == 2) = some x → g.triggered = false → ∃ u l',
      exec (.growApply 0) s = .next u ∧ u.grows = gs ∧ u.mem = s.mem ∧ u.launch? g.launch = some l' ∧
      extOf l'.ext x.comp = min (extOf l.ext x.comp + g.n) x.trip ∧ l'.gref = l.gref) ∧
  (∀ (s : State) (n : Nat) (a : SyArr), s.syArrs[n]? = some a →
    exec (.arrivalAcknowledgement n false) s = .next { s with syArrs := listDrop s.syArrs n } ∧
    ∃ x, exec (.arrivalAcknowledgement n true) s = .next { s with syArrs := listDrop s.syArrs n, fatals := s.fatals ++ [x] } ∧
      x.code = errPermission ∧ x.ctx = a.ctx ∧ x.core = a.core ∧ x.coord = a.coord) ∧
  (∀ s : State, s.dlEn = false → exec .deadlockWalk s = .next { s.enterWaits with dlAt := s.ns }) ∧
  (∀ (s : State) (v : WaitEnt), s.dlEn = true →
    let u : State := { s.enterWaits with dlAt := s.ns }
    pickVictim s.dlVict (oneCycle u.waitEdges) = some v → (∀ e ∈ u.waitEdges, e.1.2.ctx = v.ctx) →
    exec .deadlockWalk s = .next (u.endVictim v))

/-- A due result lands, alone and in its latch; one whose data was late lands when the data comes; an interlocked value reaches
its register, and ends the wait of a probe for it. A posted write to backed memory, of bytes within a line that is not poisoned,
leaves the queue and changes exactly its bytes of the line as its home has it; where the cache part has room, no other line and
no byte of LPDDR changes. A pool takes an aligned frame of its die and ignores any other; a reservation is refused whole where
its raise leaves no room or another entry has its context, and else written, with the counts of its context, and where it is
valid pages are backed until USED fits; a held backing takes the oldest frame of its pool, the page is backed by it and what
waited for it goes on, and one of a page unmapped meanwhile ends with no frame (log entry 43); TLBINV starts a drop, and when
the drop is complete no TLB has an entry it names and the sysw that waits for it goes on; a period of the carve-out that has
passed keeps its totals and chooses its step by the rows of R239, and the end of the move takes it and evicts what no longer
fits. Model choices: a period ends with the totals that the sampling sets have counted, and the move is followed by the trim
(log entry 75); a write at its home stays dirty in the L2 (log entry 64). (R137, R140, R141, R223, R229, R236, R239, R242, R243,
R245, R255, R269) -/
def Obligations.LandingsAndWritesAtHome : Prop :=
  (∀ (s : State) (c : CoreId) (t : Task) (f : Flight), s.task? c = some t → t.flight = [f] → f.rem = 0 →
    let u := s.setTask c { t with
      flight := [], fstat := t.fstat ||| f.fl
      regs := (if f.dead then t.regs else t.regs.write f.dest f.val).latchLand f.dest f.val
      bad := (if f.bad then [(f.dest, 0)] else []) ++ t.bad.filter (fun e => e.1 != f.dest) }
    (f.late = false → exec (.resultLand c) s = .next u) ∧
    (f.late = true → exec (.resultLand c) s = .next (s.setTask c t) ∧ exec (.lateLoadArrival c 0) s = .next u)) ∧
  (∀ (s : State) (c : CoreId) (t : Task) (p : Pend) (v : Vec), s.task? c = some t →
    t.pend.find? (fun q => q.id == p.id) = some p → p.val = some v → p.kind = .value →
    exec (.interlockedArrival c p.id) s = .next (s.setTask c { t with
      regs := if p.dead then t.regs else t.regs.write p.dest v
      fstat := t.fstat ||| p.fl, pend := t.pend.filter (fun q => q.id != p.id)
      bad := t.bad.filter (fun e => e.1 != p.dest)
      waits := t.waits.filter (fun w => match w with | .probe _ _ _ e => e != p.dest | _ => true) })) ∧
  (∀ (s : State) (n : Nat) (w : PWrite), s.pwrites[n]? = some w → s.writeMay n = true → paUnbacked w.pa = false → w.disc = false →
    w.pa % 128 + w.bytes.length ≤ 128 → s.homeBad w.tag.home (lineOf w.pa) = 0#16 → MemOk s →
    let old := s.homeLine w.tag.home (lineOf w.pa)
    ∃ u, exec (.writeAtHome n) s = .next u ∧ u.pwrites = listDrop s.pwrites n ∧ MemOk u ∧ u.cores = s.cores ∧
      (∀ i, i < 128 → lineByte (u.homeLine w.tag.home (lineOf w.pa)) i = (match w.bytes[i - w.pa % 128]? with
        | some (some b) => if w.pa % 128 ≤ i then b else lineByte old i
        | _ => lineByte old i)) ∧
      ((s.stack w.tag.home).l2.length < (s.stack w.tag.home).cacheRoom → u.mem = s.mem ∧
        ∀ home line, home ≠ w.tag.home ∨ line ≠ lineOf w.pa → u.homeLine home line = s.homeLine home line)) ∧
  (∀ (s : State) (st : StackId) (n : Nat) (p : Spill), (s.stack st).spills[n]? = some p → s.mapsUnbacked p.ctx p.leafPa = false →
    p.ent = 4096 → ∃ u, exec (.spillProceed st n) s = .next u ∧ u.mem = s.mem ∧ u.pools = s.pools ∧
      (u.stack st).spills = listDrop (s.stack st).spills n) ∧
  (∀ (s : State) (st : StackId) (n : Nat) (p : Spill) (f : BitVec 52) (fs : List (BitVec 52)), (s.stack st).spills[n]? = some p →
    s.mapsUnbacked p.ctx p.leafPa = true → p.ent = 4096 → s.pools.get [] (poolKey p.poolDie p.size) = f :: fs →
      ∃ u, exec (.spillProceed st n) s = .next u ∧ u.pools.get [] (poolKey p.poolDie p.size) = fs ∧
        (u.stack st).spills = listDrop (s.stack st).spills n ∧ u.pageLines p.leafPa = [] ∧
        u.backed.find p.leafPa = some (leafWith (s.entry p.leafPa) false f.toNat (Fin.ofNat 64 p.newHome)) ∧
        (∀ w ∈ u.pwrites, w.tag.leafPa = p.leafPa → w.held = false)) ∧
  (∀ (s : State) (die : DieId) (z : Fin 5) (v : Word), let q := s.pools.get [] (poolKey die.val z.val)
    (v.toNat % 2 ^ pageBits z.val = 0 → v.toNat % 4096 = 0 → v.toNat < 2 ^ 52 → q.length < 4096 → inDie die v.toNat = true →
      ∃ u, exec (.poolPush die z v) s = .next u ∧ u = { s with pools := u.pools } ∧
        u.pools.get [] (poolKey die.val z.val) = q ++ [v.setWidth 52]) ∧
    (¬ (v.toNat % 2 ^ pageBits z.val = 0 ∧ v.toNat < 2 ^ 52 ∧ q.length < 4096 ∧ inDie die v.toNat = true) →
      exec (.poolPush die z v) s = .next s)) ∧
  (∀ (s : State) (st : StackId) (e : Fin 256) (v : Word), let x := s.stack st
    let ctx : CtxId := Fin.ofNat 4096 v.toNat
    let n := (v.extractLsb' 32 32).toNat
    let old := (x.resv.get ⟨0#32, false, 0, 0#32, 0#32⟩ e.val).resv.toNat
    let raise := old < n ∧ 64 < s.storWith st (x.resvLines - old + n) + s.l2Lo st
    let twice := v.getLsbD 12 = true ∧ ∃ p ∈ x.resv, p.1 ≠ e.val ∧ p.2.valid = true ∧ p.2.ctx = ctx
    let r : Resv := ⟨v.extractLsb' 32 32, v.getLsbD 12, ctx, BitVec.ofNat 32 (s.usedLines st ctx), BitVec.ofNat 32 (s.heldLines st ctx)⟩
    let u := s.setStack st { x with resv := x.resv.set e.val r }
    (raise ∨ twice → exec (.resvWrite st e v) s = .next s) ∧
    (¬ raise → ¬ twice →
      (v.getLsbD 12 = false ∨ r.used.toNat ≤ n + r.held.toNat → exec (.resvWrite st e v) s = .next u) ∧
      (v.getLsbD 12 = true → n + r.held.toNat < r.used.toNat → ∀ l ls, u.livePages st ctx = l :: ls →
        exec (.resvWrite st e v) s = .next ((u.backAll st ctx [l]).lowerResv st ctx (s.live.length - 1))))) ∧
  (∀ (s : State) (v : Word), ∃ u, exec (.tlbinv v) s = .next u ∧ u.cores = s.cores ∧
    u.drops = s.drops ++ [⟨s.nextDrop, Fin.ofNat 4096 (v.toNat / 2 ^ 52), v.extractLsb' 0 44, true⟩]) ∧
  (∀ (s : State) (c : CoreId) (t : Task) (n : Nat), s.task? c = some t → ∃ u, exec (.tlbDropComplete n) s = .next u ∧
    u.drops = s.drops.filter (fun d => d.id != n) ∧ (∀ d ∈ s.drops, d.id = n → ∀ e ∈ (u.core c).tlb, d.names e = false) ∧
    u.task? c = some { t with waits := t.waits.filter (fun w => w != .tlbinv n) }) ∧
  (∀ (s : State) (st : StackId) (gain loss : BitVec 16), let x := s.stack st
    let due := x.moving = none ∧ x.cuAt + 100000 ≤ s.ns ∧ gain.toNat = min x.gainNow 65535 ∧ loss.toNat = min x.lossNow 65535
    (¬ due → exec (.carveoutPeriod st gain loss) s = .next s) ∧
    (due → exec (.carveoutPeriod st gain loss) s = .next (s.setStack st { x with
      gain := gain, loss := loss, gainNow := 0, lossNow := 0, cuAt := s.ns
      moving := if s.l2Hi st < x.cu then some (x.cu - 1) else if x.cu < s.l2Lo st then some (x.cu + 1)
        else if 64 ≤ x.gainNow ∧ x.cu < s.l2Hi st then some (x.cu + 1)
        else if x.gainNow < 64 ∧ x.lossNow < 16 ∧ s.l2Lo st < x.cu then some (x.cu - 1) else none }))) ∧
  (∀ (s : State) (st : StackId) (c : Nat), (s.stack st).moving = some c →
    exec (.carveoutMoveDone st) s = .next ((s.setStack st { s.stack st with
      cu := c, moving := none, gainNow := 0, lossNow := 0, cuAt := s.ns }).trimL2 st))

/-- The first request of its task that a place admits joins the operations of its stack, and its handle reaches the register
that waits for it; one that none admits counts a NAK and stays. A ready operation is taken by an idle sound engine. An operation
whose bytes have moved, on an engine that goes on, commits its follow-on command where the pending slot is free, and without
one, or with one committed, completes: it leaves its stack, its task sees it done, the slot of its circular buffer is filled and
counted once every slot claimed before is, a cbget that waits takes it, and a full/empty store of its tag to its completion word
is sent. Model choices: NAK counts stop at 3 (log entry 70), and a queue of a stack holds 112 general places and one reserved
for each core (log entry 24). (R277, R283, R284, R286, R288, R408) -/
def Obligations.CopyOperationsProceed : Prop :=
  (∀ (s : State) (n i : Nat) (st : StackId) (o : CopyOp), s.copyRequests[n]? = some (st, i, o) →
    (∀ p ∈ (s.stack st).requests.take i, p.ofTask o.launch o.coord = false) → s.earlierFe o.launch o.coord o.after = false →
    s.roundsWait o.launch o.coord o.after = false →
    (∀ r, (s.stack st).acceptOp o = some r → ∃ u, exec (.copyAccept n) s = .next u ∧ u.mem = s.mem ∧
      (u.stack st).requests = listDrop (s.stack st).requests i ∧ (u.stack st).ops = (s.stack st).ops ++ [{ o with resv := r }]) ∧
    ((s.stack st).acceptOp o = none → exec (.copyAccept n) s = .next (s.setStack st { s.stack st with
      requests := listSet (s.stack st).requests i { o with naks := min 3 (o.naks + 1) } }))) ∧
  (∀ (t : Task) (h : Nat) (p : Pend), p ∈ t.pend → p.kind = .handle h →
    { p with val := some (BitVec.ofNat 1024 h) } ∈ (t.giveHandle h).pend) ∧
  (∀ (s : State) (st : StackId) (eng : Fin 2) (n : Nat) (o : CopyOp), (s.stack st).ops[n]? = some o → o.eng = none →
    o.desc.cb = none → (s.stack st).engFenced.getLsbD eng.val = false → (∀ u ∈ s.tests, u.1 ≠ .engine st eng) →
    (∀ p ∈ (s.stack st).ops, p.eng ≠ some eng) → s.opReady o = true →
    exec (.copyStart st eng n) s =
      .next (s.setStack st { s.stack st with ops := listSet (s.stack st).ops n { o with eng := some eng } })) ∧
  (∀ (s : State) (st : StackId) (n : Nat) (o : CopyOp) (t : Task) (k : Cmd), (s.stack st).ops[n]? = some o → o.ran = true →
    o.committed = false → o.follow = some k → s.opStopped st o = false → s.opHeld o = false → s.task? o.core = some t →
    isTask t o.launch o.coord = true → (t.arr o.arr).pnd = none → ∃ u, exec (.followOnCommit st n) s = .next u ∧ u.mem = s.mem ∧
      u.task? o.core = some (t.setArr o.arr ((t.arr o.arr).commit (k.capture t o.arr))) ∧
      (u.stack st).ops = listSet (s.stack st).ops n { o with committed := true }) ∧
  (∀ (s : State) (st : StackId) (n : Nat) (o : CopyOp) (t : Task) (p : TaskOp), (s.stack st).ops[n]? = some o → o.ran = true →
    s.opStopped st o = false → o.follow = none ∨ o.committed = true → s.opHeld o = false →
    s.task? o.core = some t → t.launch = o.launch → t.coord = o.coord → t.ops.find o.handle = some p →
    let cbs := match o.desc.cb, o.slot, o.buf with
      | some b, some k, none => (match t.cbs.find b with
        | some x => t.cbs.set b (x.fill k)
        | none => t.cbs)
      | _, _, _ => t.cbs
    ∃ w : State, w.mem = s.mem ∧ (w.stack st).ops = listDrop (s.stack st).ops n ∧ w.fes = s.fes ∧ w.feSeq = s.feSeq ∧
      w.task? o.core = some { t with ops := t.ops.set o.handle { p with done := true }, cbs := cbs } ∧
      let v := match o.desc.cb with
        | some b => w.cbServe o.core b
        | none => w
      exec (.copyComplete st n) s = .next { v with
        fes := v.fes ++ (if o.cwPa = 0 then [] else [⟨.stf, o.core, o.ctx, o.launch, o.coord, 0, o.cwPa, 1, false,
          o.desc.tag.setWidth 1024, if o.kind = .remote then .sy else .dv, false, some o.handle, v.feSeq⟩]) }) ∧
  (∀ (x : CircBuf) (k : Nat) (l : List (Nat × Bool)), (∀ e ∈ l, e.1 ≠ k) →
    let m := (l.takeWhile (fun e => e.2)).length
    (x.claim = (k, false) :: l → x.fill k = { x with claim := l.drop m, filled := x.filled + 1 + m }) ∧
    (∀ j r, x.claim = (j, false) :: r → j ≠ k →
      x.fill k = { x with claim := (j, false) :: r.map (fun e => if e.1 = k then (e.1, true) else e) })) ∧
  (∀ (s : State) (c : CoreId) (b : Nat) (t : Task) (x : CircBuf) (p : Pend), s.task? c = some t → t.cbs.find b = some x →
    t.cbWaiter b = some p → 0 < x.filled →
    t.ops.find? (fun e => e.2.cb == some b && e.2.slot == some x.rd && e.2.done && !e.2.joined) = none →
    s.cbServe c b = s.setTask c { t with
      cbs := t.cbs.set b { x with filled := x.filled - 1, held := x.held + 1, rd := (x.rd + 1) % x.count }
      pend := t.pend.map (fun q => if q.id = p.id then
        { q with val := some ((x.base + BitVec.ofNat 64 (x.rd * x.size)).setWidth 1024) } else q) })

/-- A free semaphore, or one already held, is acquired with its lease; only its holder releases it; a lease that has run out and
a reset of its holder free it; with semaphore 0 free the die that was not last active takes it for 500 microseconds, but of two
dies one of which stayed in its ROM, the other. A configuration write by the holder of semaphore 1 takes the fields of QCFG, and
any other changes nothing. A push answers RES 3, 2, 1 or 0 by the first condition that applies, and only RES 0 adds the record
and raises SEQ. Model choices: the first record that a queue accepts has acceptance number 1 (log entry 11); a die that stays in
its ROM is the state field rom, which a takeover passes over (log entry 45). (R62, R63, R64, R65, R66, R68, R82, R489) -/
def Obligations.SemaphoresAndQueues : Prop :=
  (∀ (s : State) (m : Master) (n : SemId) (lease : BitVec 32), let x := s.sem n
    (x.own = none ∨ x.own = some m → exec (.semAcquire m n lease) s = .next { s.setSem n
      ⟨some m, lease, if lease = 0#32 then none else some (s.ns + 1000 * lease.toNat)⟩ with
        disp := if n = 0 then some m else s.disp }) ∧
    (x.own ≠ none → x.own ≠ some m → exec (.semAcquire m n lease) s = .next s) ∧
    (x.own = some m → exec (.semRelease m n lease) s = .next (s.setSem n ⟨none, lease, none⟩)) ∧
    (x.own ≠ some m → exec (.semRelease m n lease) s = .next s) ∧
    (∀ e, x.ends = some e → e ≤ s.ns → exec (.semLeaseExpire n) s = .next (s.setSem n { x with own := none, ends := none })) ∧
    (∃ u, exec (.campionReset m) s = .next u ∧ u = { s with sems := u.sems } ∧
      ∀ k, u.sem k = if (s.sem k).own = some m then { s.sem k with own := none, ends := none } else s.sem k)) ∧
  (∀ s : State, (s.sem 0).own = none → ∃ m, exec .dispatcherTakeover s = .next { s with
      sems := s.sems.set 0 ⟨some m, 500#32, some (s.ns + 500000)⟩, disp := some m } ∧ s.rom ≠ some m ∧
      (s.rom = none → s.disp ≠ some m)) ∧
  (∀ (s : State) (m : Master), (s.sem 0).own = some m → exec .dispatcherTakeover s = .next s) ∧
  (∀ (s : State) (m : Master) (n : QueueId) (v : Word), let q := s.queue n
    let cfg (i : Instr) (en : Bool) : Prop := exec i s = .next (s.setQueue n { q with
      en := en, prio := v.extractLsb' 61 2, irqb := v.getLsbD 60, ctx := Fin.ofNat 4096 (v.toNat / 2 ^ 36) })
    ((s.sem 1).own = some m → q.recs = [] → s.queueActive n = false →
      (s.stage = 4 → cfg (.queueEnable m n v) true) ∧ cfg (.queueDisable m n v) false ∧
      (v.getLsbD 63 = false ∨ s.stage = 4 → cfg (.queueConfigure m n v) (v.getLsbD 63))) ∧
    ((s.sem 1).own ≠ some m → exec (.queueEnable m n v) s = .next s ∧ exec (.queueDisable m n v) s = .next s ∧
      exec (.queueConfigure m n v) s = .next s)) ∧
  (∀ (s : State) (m : Master) (n : QueueId) (v : Word), let q := s.queue n
    let old := match m with | .A => q.resA | .B => q.resB
    let answer (res : Nat) (recs : List Word) (seq : BitVec 16) : Prop := ∃ u r, exec (.queuePush m n v) s = .next u ∧
      u.queue n = (match m with
        | .A => { q with recs := recs, seq := seq, resA := r }
        | .B => { q with recs := recs, seq := seq, resB := r }) ∧
      r = 1#1 ++ BitVec.ofNat 3 res ++ 0#28 ++ (old.extractLsb' 16 16 + 1#16) ++
        (if res = 0 then seq else old.extractLsb' 0 16)
    (v.extractLsb' 56 8 ≠ 0#8 ∨ v.extractLsb' 0 7 ≠ 0#7 → answer 3 q.recs q.seq) ∧
    (v.extractLsb' 56 8 = 0#8 → v.extractLsb' 0 7 = 0#7 →
      (q.en = false → answer 2 q.recs q.seq) ∧
      (q.en = true → 256 ≤ q.recs.length → answer 1 q.recs q.seq) ∧
      (q.en = true → q.recs.length < 256 → answer 0 (q.recs ++ [v]) (q.seq + 1#16))))

/-- With a dispatcher active, the head record of an enabled queue that has no coordinates left to issue is read, validated and
marked ready as each stage finds nothing against it, and is refused with the lowest code its stage finds otherwise; admission
makes a launch of its record and image with every task of its grid still to be done, and frees the head. An issue decision
issues the first queue that can. A core at its drain point whose plane is ready starts its next task from the state of R98. A
loaded plane holds the dictionary of its image. An ended task that has settled what it holds leaves its core once its returns
have arrived, and waits until then. Model choices: a record is refused at the stage that finds the code, with the lowest (log
entry 72), and the release of an ended task leaves its interval unprotected (log entry 34). (R69, R71, R73, R76, R77, R81, R91,
R94, R96, R98, R182, R470) -/
def Obligations.LaunchStages : Prop :=
  (∀ (s : State) (n : QueueId) (va : Word) (l : List Word), let q := s.queue n
    q.recs = va :: l → s.headMay n = true →
    (q.head = .raw → (s.ctx q.ctx).valid = true →
      (∀ r, s.recordAt q.ctx va = some r →
        (s.recCodes q.ctx r = [] → s.ctxCodes q.ctx = [] →
          exec (.launchRecordRead n) s = .next (s.setQueue n { q with head := .read r })) ∧
        (∀ c ∈ s.recCodes q.ctx r ++ s.ctxCodes q.ctx, (∀ d ∈ s.recCodes q.ctx r ++ s.ctxCodes q.ctx, c ≤ d) →
          exec (.launchRecordRead n) s = .next (s.refuseHead n c))) ∧
      (s.recordAt q.ctx va = none → exec (.launchRecordRead n) s = .next (s.refuseHead n errUnreadable))) ∧
    (q.head = .raw → (s.ctx q.ctx).valid = false → exec (.launchRecordRead n) s = .next (s.refuseHead n 0x15)) ∧
    (∀ r, q.head = .read r →
      (∀ i, s.launchCodes q.ctx r = ([], some i) → exec (.imageValidate n) s = .next (s.setQueue n { q with head := .valid r i })) ∧
      (∀ c, c ∈ (s.launchCodes q.ctx r).1 → (∀ d ∈ (s.launchCodes q.ctx r).1, c ≤ d) →
        exec (.imageValidate n) s = .next (s.refuseHead n c))) ∧
    (∀ r i, q.head = .valid r i →
      (s.depCodes q.ctx r = [] → s.ctxCodes q.ctx = [] → s.depsMet q.ctx r = true →
        exec (.dependenceMet n) s = .next (s.setQueue n { q with head := .ready r i })) ∧
      (s.depCodes q.ctx r = [] → s.ctxCodes q.ctx = [] → s.depsMet q.ctx r = false → exec (.dependenceMet n) s = .next s) ∧
      (∀ c ∈ s.depCodes q.ctx r ++ s.ctxCodes q.ctx, (∀ d ∈ s.depCodes q.ctx r ++ s.ctxCodes q.ctx, c ≤ d) →
        exec (.dependenceMet n) s = .next (s.refuseHead n c)))) ∧
  (∀ (s : State) (n : QueueId) (c : Nat), ((s.refuseHead n c).queue n).recs = (s.queue n).recs.drop 1) ∧
  (∀ (s : State) (q : QueueId) (e : Nat) (l : List (Nat × QueueId)), s.active.isSome = true → (s.pendingLaunch q).isNone = true →
    s.ageQueues.decisionOrder = (e, q) :: l → exec (.launchAdmit q) s = .next ((s.ageQueues.admitHead q).issuedAt e q)) ∧
  (∀ (s : State) (n : QueueId) (r : LaunchRec) (i : Image), (s.queue n).head = .ready r i → s.mayAdmit n = true →
    s.ctxCodes (s.queue n).ctx = [] → let u := s.admitHead n
    u.nextLaunch = s.nextLaunch + 1 ∧ (u.queue n).head = .raw ∧ (u.queue n).recs = (s.queue n).recs.drop 1 ∧
    ∃ l, u.launch? s.nextLaunch = some l ∧ l.ctx = (s.queue n).ctx ∧ l.q = n ∧ l.rcd = r ∧ l.img = i ∧ l.ext = r.ext ∧
      l.total = r.ext.1 * r.ext.2.1 * r.ext.2.2 ∧ l.finished = 0 ∧ l.triggered = 0 ∧ l.done = false) ∧
  (∀ s : State, s.active = none → exec .issueDecision s = .next s) ∧
  (∀ (s s' : State) (e k : Nat) (n : QueueId) (l : List (Nat × QueueId)) (x : Launch), s.active.isSome = true →
    s.ageQueues.decisionOrder = (e, n) :: l → s.ageQueues.pendingLaunch n = some (k, x) → s.ageQueues.offer k x = some s' →
    exec .issueDecision s = .next (s'.issuedAt e n)) ∧
  (∀ (s : State) (c : CoreId) (ctx : CtxId) (n rank team seq : Nat) (coord : BitVec 48) (l : Launch),
    (s.core c).next = some (.new ctx n coord rank team seq) → s.launch? n = some l → s.coreMayStart c = true →
    (s.core c).planeReady (l.img.tag ctx) = true → ∃ u, exec (.taskStart c) s = .next u ∧
      u.task? c = some (startTask ctx n l coord rank team) ∧ (u.core c).next = none ∧ (u.core c).decl = none ∧
      (u.core c).l1 = [] ∧ (u.core c).act.st = .active ∧ (u.core c).act.tag = some (l.img.tag ctx)) ∧
  (∀ (ctx : CtxId) (n rank team : Nat) (coord : BitVec 48) (l : Launch), let t := startTask ctx n l coord rank team
    t.npos = BitVec.ofNat 64 l.img.entry ∧ t.regs = Regs.zero ∧ t.flight = [] ∧ t.pend = [] ∧ t.ops = [] ∧ t.cbs = [] ∧
    t.fstat = 0#7 ∧ t.cyc = 0 ∧ (∀ o, t.scrByte o = 0#8) ∧ (∀ k, t.isFull k = false)) ∧
  (∀ (s : State) (c : CoreId) (tag : PlaneTag) (i : Image) (b : List Byte), let x := s.core c
    x.shd.st = .loading → x.shd.tag = some tag → s.taggedImage tag = some i →
    x.shd.bad = false → s.virtPoisoned tag.ctx (48 * i.dictCnt / 4096 + 2) (i.va + BitVec.ofNat 64 i.dictOff) (48 * i.dictCnt) = false →
    s.readBytes tag.ctx (i.va + BitVec.ofNat 64 i.dictOff) (48 * i.dictCnt) = some b →
    exec (.planeLoadDone c) s = .next (s.setCore c { x with shd := ⟨.loaded, some tag, dictOf i.dictCnt b, false, false⟩ })) ∧
  (∀ (s : State) (c : CoreId) (t : Task), s.task? c = some t →
    (t.settled = false → s.endReady c t = false → exec (.taskRelease c) s = .next s) ∧
    (let r := (s.unprotect c t).releaseFor c t .dv
     t.settled = false → s.endReady c t = true → r.heldWrites t.launch t.coord = true ∨ r.earlierFe t.launch t.coord r.feSeq = true ∨
        r.roundsWait t.launch t.coord r.feSeq = true →
      (∀ x, r.task? c = some x → x.settled = false) → exec (.taskRelease c) s = .next r) ∧
    (t.settled = true → s.returnsComing t = true → exec (.taskRelease c) s = .next s) ∧
    (t.settled = true → s.returnsComing t = false →
      ∃ u, exec (.taskRelease c) s = .next u ∧ u.task? c = none ∧ (u.core c).decl = none))
end

