-- ==== Sys2Proof/Laws/Encoding.lean ====
section
/-! SUPPORT. Every format's parser reads back what its packer writes. -/

set_option linter.unusedSimpArgs false

namespace Sys2Proof.Laws

open Sys2Proof Sys2Proof.Machine

theorem extract_append_lo {a b : Nat} (x : BitVec a) (y : BitVec b) (s n : Nat) (h : s + n ≤ b) :
    (x ++ y).extractLsb' s n = y.extractLsb' s n := by
  ext j hj
  simp only [BitVec.getElem_extractLsb', BitVec.getLsbD_append]
  have : s + j < b := by omega
  simp [this]

theorem extract_append_hi {a b : Nat} (x : BitVec a) (y : BitVec b) (s n : Nat) (h : b ≤ s) :
    (x ++ y).extractLsb' s n = x.extractLsb' (s - b) n := by
  ext j hj
  simp only [BitVec.getElem_extractLsb', BitVec.getLsbD_append]
  have h1 : ¬ s + j < b := by omega
  have h2 : s + j - b = s - b + j := by omega
  simp [h1, h2]

theorem extract_all {a : Nat} (x : BitVec a) : x.extractLsb' 0 a = x := by simp

@[simp] theorem opdOfBits_opdToBits (o : Opd) : opdOfBits (opdToBits o) = some o := by
  cases o with
  | main i =>
    have h : (0#2 ++ i : BitVec 8).extractLsb' 6 2 = 0#2 :=
      (extract_append_hi 0#2 i 6 2 (by omega)).trans (extract_all 0#2)
    have h2 : (0#2 ++ i : BitVec 8).extractLsb' 0 6 = i :=
      (extract_append_lo 0#2 i 0 6 (by omega)).trans (extract_all i)
    simp only [opdOfBits, opdToBits, h, h2, if_true]
  | opf i => revert i; decide
  | latch => rfl
  | zero => rfl
  | imm => rfl

@[simp] theorem isOne_bit1 (b : Bool) : isOne (bit1 b) = b := by cases b <;> rfl
@[simp] theorem tyOfBits_tyToBits (t : Ty) : tyOfBits (tyToBits t) = t := by cases t <;> rfl
@[simp] theorem rmOfBits_rmToBits (t : Rm) : rmOfBits (rmToBits t) = t := by cases t <;> rfl
@[simp] theorem cndOfBits_cndToBits (t : Cnd) : cndOfBits (cndToBits t) = some t := by cases t <;> rfl
@[simp] theorem scopeOfBits_scopeToBits (t : Scope) : scopeOfBits (scopeToBits t) = some t := by cases t <;> rfl
@[simp] theorem slotOfBits_slotToBits (t : Slot) : slotOfBits (slotToBits t) = some t := by cases t <;> rfl

variable (op : BitVec 7) (g : Guard) (d s1 s2 : BitVec 8) (m : BitVec 25)

@[simp] theorem fOp_syl : fOp (syl op g d s1 s2 m) = op := by
  simp (disch := omega) only [fOp, syl, extract_append_hi, extract_append_lo]
  simp only [Nat.reduceSub, Nat.reduceAdd, extract_all, isOne_bit1]

@[simp] theorem fD_syl : fD (syl op g d s1 s2 m) = d := by
  simp (disch := omega) only [fD, syl, extract_append_hi, extract_append_lo]
  simp only [Nat.reduceSub, Nat.reduceAdd, extract_all, isOne_bit1]

@[simp] theorem fS1_syl : fS1 (syl op g d s1 s2 m) = s1 := by
  simp (disch := omega) only [fS1, syl, extract_append_hi, extract_append_lo]
  simp only [Nat.reduceSub, Nat.reduceAdd, extract_all, isOne_bit1]

@[simp] theorem fS2_syl : fS2 (syl op g d s1 s2 m) = s2 := by
  simp (disch := omega) only [fS2, syl, extract_append_hi, extract_append_lo]
  simp only [Nat.reduceSub, Nat.reduceAdd, extract_all, isOne_bit1]

@[simp] theorem fMod_syl : fMod (syl op g d s1 s2 m) = m := by
  simp (disch := omega) only [fMod, syl, extract_append_hi, extract_append_lo]
  simp only [Nat.reduceSub, Nat.reduceAdd, extract_all, isOne_bit1]

@[simp] theorem fGuard_syl : fGuard (syl op g d s1 s2 m) = g := by
  simp (disch := omega) only [fGuard, syl, extract_append_hi, extract_append_lo]
  simp only [Nat.reduceSub, Nat.reduceAdd, extract_all, isOne_bit1]

@[simp] theorem fOp_packN (f : FmtN) : fOp (packN op f) = op := by
  simp [packN]

theorem parseN_packN (f : FmtN) : parseN (packN op f) = some f := by
  simp only [parseN, packN, check, fD_syl, fS1_syl, fS2_syl, fMod_syl, fGuard_syl, opdOfBits_opdToBits]
  simp (disch := omega) only [extract_append_hi, extract_append_lo]
  simp only [Nat.reduceSub, Nat.reduceAdd, extract_all, isOne_bit1]
  simp

@[simp] theorem fOp_packX (f : FmtX) : fOp (packX op f) = op := by
  simp [packX]

theorem parseX_packX (f : FmtX) : parseX (packX op f) = some f := by
  simp only [parseX, packX, check, fD_syl, fS1_syl, fS2_syl, fMod_syl, fGuard_syl, opdOfBits_opdToBits]
  simp (disch := omega) only [extract_append_hi, extract_append_lo]
  simp only [Nat.reduceSub, Nat.reduceAdd, extract_all, isOne_bit1]
  simp

@[simp] theorem fOp_packCB (f : FmtCB) : fOp (packCB op f) = op := by
  simp [packCB]

theorem split28 (a : BitVec 28) :
    (a.extractLsb' 20 8 ++ (a.extractLsb' 12 8 ++ a.extractLsb' 0 12) : BitVec (8 + (8 + 12))) = a := by
  apply BitVec.eq_of_getLsbD_eq
  intro j hj
  simp only [BitVec.getLsbD_append, BitVec.getLsbD_extractLsb']
  by_cases h1 : j < 12
  · have h2 : j < 20 := by omega
    simp [h1, h2]
  · by_cases h2 : j < 20
    · have h3 : 12 + (j - 12) = j := by omega
      have h4 : j - 12 < 8 := by omega
      simp [h1, h2, h3, h4]
    · have h3 : 20 + (j - 20) = j := by omega
      have h4 : j - 20 < 8 := by omega
      simp [h2, h3, h4]

theorem parseCB_packCB (f : FmtCB) : parseCB (packCB op f) = some f := by
  simp only [parseCB, packCB, check, fOp_syl, fD_syl, fS1_syl, fS2_syl, fMod_syl, fGuard_syl, opdOfBits_opdToBits]
  simp (disch := omega) only [extract_append_hi, extract_append_lo]
  simp only [Nat.reduceSub, Nat.reduceAdd, extract_all]
  rw [split28]
  simp

@[simp] theorem fOp_packCR (f : FmtCR) : fOp (packCR op f) = op := by
  simp [packCR]

theorem parseCR_packCR (f : FmtCR) : parseCR (packCR op f) = some f := by
  simp only [parseCR, packCR, check, fD_syl, fS1_syl, fS2_syl, fMod_syl, fGuard_syl, opdOfBits_opdToBits]
  simp (disch := omega) only [extract_append_hi, extract_append_lo]
  simp only [Nat.reduceSub, Nat.reduceAdd, extract_all, isOne_bit1]
  simp

@[simp] theorem fOp_packCI (f : FmtCI) : fOp (packCI op f) = op := by
  simp [packCI]

theorem parseCI_packCI (f : FmtCI) : parseCI (packCI op f) = some f := by
  simp only [parseCI, packCI, check, fD_syl, fS1_syl, fS2_syl, fMod_syl, fGuard_syl, opdOfBits_opdToBits]
  simp (disch := omega) only [extract_append_hi, extract_append_lo]
  simp only [Nat.reduceSub, Nat.reduceAdd, extract_all, isOne_bit1]
  simp

@[simp] theorem fOp_packCP (f : FmtCP) : fOp (packCP op f) = op := by
  simp [packCP]

theorem parseCP_packCP (f : FmtCP) : parseCP (packCP op f) = some f := by
  simp only [parseCP, packCP, check, fD_syl, fS1_syl, fS2_syl, fMod_syl, fGuard_syl, opdOfBits_opdToBits]
  simp (disch := omega) only [extract_append_hi, extract_append_lo]
  simp only [Nat.reduceSub, Nat.reduceAdd, extract_all, isOne_bit1]
  simp

@[simp] theorem fOp_packCS (f : FmtCS) : fOp (packCS op f) = op := by
  simp [packCS]

theorem parseCS_packCS (f : FmtCS) : parseCS (packCS op f) = some f := by
  simp only [parseCS, packCS, check, fD_syl, fS1_syl, fS2_syl, fMod_syl, fGuard_syl, opdOfBits_opdToBits]
  simp (disch := omega) only [extract_append_hi, extract_append_lo]
  simp only [Nat.reduceSub, Nat.reduceAdd, extract_all, isOne_bit1]
  simp

@[simp] theorem fOp_packCK (f : FmtCK) : fOp (packCK op f) = op := by
  simp [packCK]

theorem parseCK_packCK (f : FmtCK) : parseCK (packCK op f) = some f := by
  simp only [parseCK, packCK, check, fD_syl, fS1_syl, fS2_syl, fMod_syl, fGuard_syl, opdOfBits_opdToBits]
  simp (disch := omega) only [extract_append_hi, extract_append_lo]
  simp only [Nat.reduceSub, Nat.reduceAdd, extract_all, isOne_bit1]
  simp

@[simp] theorem fOp_packAR (f : FmtAR) : fOp (packAR op f) = op := by
  simp [packAR]

theorem parseAR_packAR (f : FmtAR) : parseAR (packAR op f) = some f := by
  simp only [parseAR, packAR, check, fD_syl, fS1_syl, fS2_syl, fMod_syl, fGuard_syl, opdOfBits_opdToBits]
  simp (disch := omega) only [extract_append_hi, extract_append_lo]
  simp only [Nat.reduceSub, Nat.reduceAdd, extract_all, isOne_bit1]
  simp

@[simp] theorem fOp_packAI (x : Bool) (f : FmtAI) : fOp (packAI op x f) = op := by
  simp [packAI]

theorem parseAI_packAI (x : Bool) (f : FmtAI) : parseAI (packAI op x f) = some f := by
  simp only [parseAI, packAI, check, fD_syl, fS1_syl, fS2_syl, fMod_syl, fGuard_syl, opdOfBits_opdToBits]
  simp (disch := omega) only [extract_append_hi, extract_append_lo]
  simp only [Nat.reduceSub, Nat.reduceAdd, extract_all, isOne_bit1]
  simp

@[simp] theorem xBit_packAI (x : Bool) (f : FmtAI) : xBit (packAI op x f) = x := by
  have h : xBit (packAI op x f) = isOne ((fMod (packAI op x f)).extractLsb' 0 1) := by
    simp only [xBit, fMod]
    congr 1
    ext j hj
    simp
  have e : fMod (packAI op x f) = (f.imm ++ bit1 x : BitVec (24 + 1)) := by simp [packAI]
  rw [h, e]
  exact (congrArg isOne ((extract_append_lo f.imm (bit1 x) 0 1 (by omega)).trans (extract_all _))).trans (isOne_bit1 x)

theorem parseAI0_packAI (f : FmtAI) : parseAI0 (packAI op false f) = some f := by
  simp [parseAI0, parseAI_packAI]

@[simp] theorem fOp_packAF (f : FmtAF) : fOp (packAF op f) = op := by
  simp [packAF]

theorem parseAF_packAF (f : FmtAF) : parseAF (packAF op f) = some f := by
  simp only [parseAF, packAF, check, fD_syl, fS1_syl, fS2_syl, fMod_syl, fGuard_syl, opdOfBits_opdToBits]
  simp (disch := omega) only [extract_append_hi, extract_append_lo]
  simp only [Nat.reduceSub, Nat.reduceAdd, extract_all, isOne_bit1]
  simp

@[simp] theorem fOp_packVR (f : FmtVR) : fOp (packVR op f) = op := by
  simp [packVR]

theorem parseVR_packVR (f : FmtVR) : parseVR (packVR op f) = some f := by
  simp only [parseVR, packVR, check, fD_syl, fS1_syl, fS2_syl, fMod_syl, fGuard_syl, opdOfBits_opdToBits]
  simp (disch := omega) only [extract_append_hi, extract_append_lo]
  simp only [Nat.reduceSub, Nat.reduceAdd, extract_all, isOne_bit1]
  simp

@[simp] theorem fOp_packVI (f : FmtVI) : fOp (packVI op f) = op := by
  simp [packVI]

theorem parseVI_packVI (f : FmtVI) : parseVI (packVI op f) = some f := by
  simp only [parseVI, packVI, check, fD_syl, fS1_syl, fS2_syl, fMod_syl, fGuard_syl, opdOfBits_opdToBits]
  simp (disch := omega) only [extract_append_hi, extract_append_lo]
  simp only [Nat.reduceSub, Nat.reduceAdd, extract_all, isOne_bit1]
  simp

@[simp] theorem fOp_packVK (f : FmtVK) : fOp (packVK op f) = op := by
  simp [packVK]

theorem parseVK_packVK (f : FmtVK) : parseVK (packVK op f) = some f := by
  simp only [parseVK, packVK, check, fD_syl, fS1_syl, fS2_syl, fMod_syl, fGuard_syl, opdOfBits_opdToBits]
  simp

@[simp] theorem fOp_packVC (f : FmtVC) : fOp (packVC op f) = op := by
  simp [packVC]

theorem parseVC_packVC (f : FmtVC) : parseVC (packVC op f) = some f := by
  simp only [parseVC, packVC, check, fD_syl, fS1_syl, fS2_syl, fMod_syl, fGuard_syl, opdOfBits_opdToBits]
  simp (disch := omega) only [extract_append_hi, extract_append_lo]
  simp only [Nat.reduceSub, Nat.reduceAdd, extract_all, isOne_bit1]
  simp

@[simp] theorem fOp_packVP (f : FmtVP) : fOp (packVP op f) = op := by
  simp [packVP]

theorem parseVP_packVP (f : FmtVP) : parseVP (packVP op f) = some f := by
  simp only [parseVP, packVP, check, fD_syl, fS1_syl, fS2_syl, fMod_syl, fGuard_syl, opdOfBits_opdToBits]
  simp (disch := omega) only [extract_append_hi, extract_append_lo]
  simp only [Nat.reduceSub, Nat.reduceAdd, extract_all, isOne_bit1]
  simp

@[simp] theorem fOp_packML (f : FmtML) : fOp (packML op f) = op := by
  simp [packML]

theorem parseML_packML (f : FmtML) : parseML (packML op f) = some f := by
  simp only [parseML, packML, check, fD_syl, fS1_syl, fS2_syl, fMod_syl, fGuard_syl, opdOfBits_opdToBits]
  simp (disch := omega) only [extract_append_hi, extract_append_lo]
  simp only [Nat.reduceSub, Nat.reduceAdd, extract_all, isOne_bit1]
  simp

@[simp] theorem fOp_packMG (f : FmtMG) : fOp (packMG op f) = op := by
  simp [packMG]

theorem parseMG_packMG (f : FmtMG) : parseMG (packMG op f) = some f := by
  simp only [parseMG, packMG, check, fD_syl, fS1_syl, fS2_syl, fMod_syl, fGuard_syl, opdOfBits_opdToBits]
  simp (disch := omega) only [extract_append_hi, extract_append_lo]
  simp only [Nat.reduceSub, Nat.reduceAdd, extract_all, isOne_bit1]
  simp

@[simp] theorem fOp_packMI (f : FmtMI) : fOp (packMI op f) = op := by
  simp [packMI]

theorem parseMI_packMI (f : FmtMI) : parseMI (packMI op f) = some f := by
  simp only [parseMI, packMI, check, fD_syl, fS1_syl, fS2_syl, fMod_syl, fGuard_syl, opdOfBits_opdToBits]
  simp (disch := omega) only [extract_append_hi, extract_append_lo]
  simp only [Nat.reduceSub, Nat.reduceAdd, extract_all, isOne_bit1]
  simp

@[simp] theorem fOp_packEC (f : FmtEC) : fOp (packEC op f) = op := by
  simp [packEC]

theorem parseEC_packEC (f : FmtEC) : parseEC (packEC op f) = some f := by
  simp only [parseEC, packEC, check, fD_syl, fS1_syl, fS2_syl, fMod_syl, fGuard_syl, opdOfBits_opdToBits]
  simp (disch := omega) only [extract_append_hi, extract_append_lo]
  simp only [Nat.reduceSub, Nat.reduceAdd, extract_all, isOne_bit1]
  simp

@[simp] theorem fOp_packEM (f : FmtEM) : fOp (packEM op f) = op := by
  simp [packEM]

theorem parseEM_packEM (f : FmtEM) : parseEM (packEM op f) = some f := by
  simp only [parseEM, packEM, check, fD_syl, fS1_syl, fS2_syl, fMod_syl, fGuard_syl, opdOfBits_opdToBits]
  simp (disch := omega) only [extract_append_hi, extract_append_lo]
  simp only [Nat.reduceSub, Nat.reduceAdd, extract_all, isOne_bit1]
  simp

@[simp] theorem fOp_packEI (f : FmtEI) : fOp (packEI op f) = op := by
  simp [packEI]

theorem parseEI_packEI (f : FmtEI) : parseEI (packEI op f) = some f := by
  simp only [parseEI, packEI, check, fD_syl, fS1_syl, fS2_syl, fMod_syl, fGuard_syl, opdOfBits_opdToBits]
  simp (disch := omega) only [extract_append_hi, extract_append_lo]
  simp only [Nat.reduceSub, Nat.reduceAdd, extract_all, isOne_bit1]
  simp

@[simp] theorem fOp_packEP (f : FmtEP) : fOp (packEP op f) = op := by
  simp [packEP]

theorem parseEP_packEP (f : FmtEP) : parseEP (packEP op f) = some f := by
  simp only [parseEP, packEP, check, fD_syl, fS1_syl, fS2_syl, fMod_syl, fGuard_syl, opdOfBits_opdToBits]
  simp (disch := omega) only [extract_append_hi, extract_append_lo]
  simp only [Nat.reduceSub, Nat.reduceAdd, extract_all, isOne_bit1]
  simp

@[simp] theorem fOp_packYT (f : FmtYT) : fOp (packYT op f) = op := by
  simp [packYT]

theorem parseYT_packYT (f : FmtYT) : parseYT (packYT op f) = some f := by
  simp only [parseYT, packYT, check, fD_syl, fS1_syl, fS2_syl, fMod_syl, fGuard_syl, opdOfBits_opdToBits]
  simp (disch := omega) only [extract_append_hi, extract_append_lo]
  simp only [Nat.reduceSub, Nat.reduceAdd, extract_all, isOne_bit1]
  simp

@[simp] theorem shkBit_packYT (f : FmtYT) : shkBit (packYT op f) = isOne (f.shk.extractLsb' 0 1) := by
  have h : shkBit (packYT op f) = isOne ((fMod (packYT op f)).extractLsb' 12 1) := by
    simp only [shkBit, fMod]
    congr 1
    ext j hj
    simp
  have e : fMod (packYT op f) = (f.s3 ++ (scopeToBits f.sc ++ (f.shk ++ 0#12)) : BitVec (8 + (3 + (2 + 12)))) := by
    simp [packYT]
  rw [h, e]
  simp (disch := omega) only [extract_append_hi, extract_append_lo]

@[simp] theorem fOp_packYS (f : FmtYS) : fOp (packYS op f) = op := by
  simp [packYS]

theorem parseYS_packYS (f : FmtYS) : parseYS (packYS op f) = some f := by
  simp only [parseYS, packYS, check, fD_syl, fS1_syl, fS2_syl, fMod_syl, fGuard_syl, opdOfBits_opdToBits]
  simp (disch := omega) only [extract_append_hi, extract_append_lo]
  simp only [Nat.reduceSub, Nat.reduceAdd, extract_all, isOne_bit1]
  simp

@[simp] theorem fOp_packYI (f : FmtYI) : fOp (packYI op f) = op := by
  simp [packYI]

theorem parseYI_packYI (f : FmtYI) : parseYI (packYI op f) = some f := by
  simp only [parseYI, packYI, check, fD_syl, fS1_syl, fS2_syl, fMod_syl, fGuard_syl, opdOfBits_opdToBits]
  simp (disch := omega) only [extract_append_hi, extract_append_lo]
  simp only [Nat.reduceSub, Nat.reduceAdd, extract_all, isOne_bit1]
  simp

end Sys2Proof.Laws
end

