-- ==== Sys2Proof/Laws/Memory.lean ====
section
/-! SUPPORT. Memory: every operation keeps the canonical form, a byte written is read back and no other changes, and two
canonical memories that read alike are equal. -/

namespace Sys2Proof.Machine

/-! ## One byte -/

theorem Memory.above_mono (m : List Host.Cell) (a b : Nat) (h : a ≤ b) (hm : Memory.above b m = true) :
    Memory.above a m = true := by
  induction m with
  | nil => rfl
  | cons c m ih =>
    simp only [Memory.above, Bool.and_eq_true, decide_eq_true_eq] at hm ⊢
    exact ⟨by omega, ih hm.2⟩

theorem Memory.get_of_above (m : List Host.Cell) (a b : Nat) (h : b ≤ a) (hm : Memory.above a m = true) :
    Memory.get m b = memBlank := by
  induction m with
  | nil => rfl
  | cons c m ih =>
    simp only [Memory.above, Bool.and_eq_true, decide_eq_true_eq] at hm
    simp only [Memory.get]
    rw [if_neg (by omega), ih hm.2]

theorem Memory.above_put (m : List Host.Cell) (a b : Nat) (v : Byte) (hm : Memory.above b m = true) (h : b < a) :
    Memory.above b (Memory.put m a v) = true := by
  induction m with
  | nil =>
    unfold Memory.put
    split <;> simp [Memory.above, h]
  | cons c m ih =>
    obtain ⟨x, w⟩ := c
    simp only [Memory.above, Bool.and_eq_true, decide_eq_true_eq] at hm
    unfold Memory.put
    split
    · split <;> simp [Memory.above, h, hm]
    · split
      · split <;> simp [Memory.above, hm]
      · simp [Memory.above, hm.1, ih hm.2]

/-- Writing a byte keeps the canonical form. -/
theorem Memory.wf_put (m : List Host.Cell) (a : Nat) (v : Byte) (hm : Memory.wf m = true) :
    Memory.wf (Memory.put m a v) = true := by
  induction m with
  | nil =>
    unfold Memory.put
    split <;> simp_all [Memory.wf, Memory.above]
  | cons c m ih =>
    obtain ⟨x, w⟩ := c
    simp only [Memory.wf, Bool.and_eq_true] at hm
    obtain ⟨⟨h1, h2⟩, h3⟩ := hm
    unfold Memory.put
    split
    · rename_i h
      have := Memory.above_mono m a x (by omega) h2
      split <;> simp_all [Memory.wf, Memory.above]
    · split
      · subst_vars
        split <;> simp_all [Memory.wf]
      · have := Memory.above_put m a x v h2 (by omega)
        simp_all [Memory.wf]

/-- Any byte after one is written: the one written reads as its new value, every other as before. -/
theorem Memory.get_put (m : List Host.Cell) (a b : Nat) (v : Byte) (hm : Memory.wf m = true) :
    Memory.get (Memory.put m a v) b = if b = a then v else Memory.get m b := by
  induction m with
  | nil =>
    unfold Memory.put
    split <;> simp_all [Memory.get]
  | cons c m ih =>
    obtain ⟨x, w⟩ := c
    simp only [Memory.wf, Bool.and_eq_true] at hm
    obtain ⟨⟨h1, h2⟩, h3⟩ := hm
    unfold Memory.put
    by_cases hb : b = a
    · subst hb
      split
      · rename_i h
        have := Memory.get_of_above m x b (by omega) h2
        split
        · simp only [Memory.get]
          rw [if_neg (by omega)]
          simp_all
        · simp [Memory.get]
      · split
        · rename_i he
          subst he
          have := Memory.get_of_above m b b (by omega) h2
          split <;> simp_all [Memory.get]
        · simp only [Memory.get]
          rw [if_neg (by omega)]
          simp_all
    · simp only [hb, if_false]
      split
      · split <;> simp [Memory.get, hb]
      · split
        · subst_vars
          split <;> simp [Memory.get, hb]
        · simp only [Memory.get, ih h3, hb, if_false]

/-! ## Several bytes -/

theorem Memory.wf_putAll (l : List (Option Byte)) (m : List Host.Cell) (a : Nat) (hm : Memory.wf m = true) :
    Memory.wf (Memory.putAll m a l) = true := by
  induction l generalizing m a with
  | nil => exact hm
  | cons v l ih =>
    cases v with
    | none => exact ih m (a + 1) hm
    | some v => exact ih _ (a + 1) (Memory.wf_put m a v hm)

theorem Memory.wf_putNum (m : List Host.Cell) (a n v : Nat) (hm : Memory.wf m = true) :
    Memory.wf (Memory.putNum m a n v) = true :=
  Memory.wf_putAll _ m a hm

/-- Any byte after several are written: within the bytes written, those given read as given; every other reads as before. -/
theorem Memory.get_putAll (l : List (Option Byte)) (m : List Host.Cell) (a b : Nat) (hm : Memory.wf m = true) :
    Memory.get (Memory.putAll m a l) b =
      if a ≤ b then ((l[b - a]?).bind id).getD (Memory.get m b) else Memory.get m b := by
  induction l generalizing m a with
  | nil => simp [Memory.putAll]
  | cons v l ih =>
    by_cases h1 : a + 1 ≤ b
    · have hi : b - a = (b - (a + 1)) + 1 := by omega
      have hba : b ≠ a := by omega
      cases v with
      | none => simp only [Memory.putAll, ih m (a + 1) hm, if_pos h1, if_pos (by omega : a ≤ b), hi, List.getElem?_cons_succ]
      | some v =>
        simp only [Memory.putAll, ih _ (a + 1) (Memory.wf_put m a v hm), Memory.get_put m a b v hm, if_pos h1, hba, if_false,
          if_pos (by omega : a ≤ b), hi, List.getElem?_cons_succ]
    · by_cases h2 : b = a
      · subst h2
        cases v with
        | none => simp [Memory.putAll, ih m (b + 1) hm, h1]
        | some v => simp [Memory.putAll, ih _ (b + 1) (Memory.wf_put m b v hm), h1, Memory.get_put m b b v hm]
      · cases v with
        | none => simp only [Memory.putAll, ih m (a + 1) hm, if_neg h1, if_neg (by omega : ¬ a ≤ b)]
        | some v =>
          simp only [Memory.putAll, ih _ (a + 1) (Memory.wf_put m a v hm), Memory.get_put m a b v hm, h2, if_false, if_neg h1,
            if_neg (by omega : ¬ a ≤ b)]

theorem Memory.bytes_length (m : List Host.Cell) (a n : Nat) : (Memory.bytes m a n).length = n := by
  induction n generalizing a with
  | zero => rfl
  | succ n ih => simp [Memory.bytes, ih]

theorem Memory.bytes_congr (m k : List Host.Cell) (a n : Nat) (h : ∀ b, a ≤ b → b < a + n → Memory.get m b = Memory.get k b) :
    Memory.bytes m a n = Memory.bytes k a n := by
  induction n generalizing a with
  | zero => rfl
  | succ n ih =>
    simp only [Memory.bytes]
    rw [h a (by omega) (by omega), ih (a + 1) (fun b h1 h2 => h b (by omega) (by omega))]

theorem natBytes_length (n v : Nat) : (natBytes n v).length = n := by
  induction n generalizing v with
  | zero => rfl
  | succ n ih => simp [natBytes, ih]

theorem leNat_natBytes (n v : Nat) : leNat (natBytes n v) = v % 256 ^ n := by
  induction n generalizing v with
  | zero => simp [natBytes, leNat, Nat.mod_one]
  | succ n ih =>
    simp only [natBytes, leNat, ih]
    rw [BitVec.toNat_ofNat, Nat.pow_succ 256 n, Nat.mul_comm (256 ^ n) 256, Nat.mod_mul]
    simp

/-- Bytes outside those written are read as before. -/
theorem Memory.get_putNum_other (m : List Host.Cell) (a n v b : Nat) (hm : Memory.wf m = true) (h : b < a ∨ a + n ≤ b) :
    Memory.get (Memory.putNum m a n v) b = Memory.get m b := by
  simp only [Memory.putNum, Memory.get_putAll _ m a b hm]
  split
  · rw [List.getElem?_eq_none (by simp [natBytes_length]; omega)]
    rfl
  · rfl

theorem Memory.bytes_putAll_same (l : List Byte) (m : List Host.Cell) (a : Nat) (hm : Memory.wf m = true) :
    Memory.bytes (Memory.putAll m a (l.map some)) a l.length = l := by
  induction l generalizing m a with
  | nil => rfl
  | cons v l ih =>
    simp only [List.length_cons, Memory.bytes, List.map_cons, Memory.putAll]
    rw [ih _ (a + 1) (Memory.wf_put m a v hm), Memory.get_putAll _ _ (a + 1) a (Memory.wf_put m a v hm), if_neg (by omega),
      Memory.get_put m a a v hm, if_pos rfl]

/-- A number written is read back. -/
theorem Memory.num_putNum_same (m : List Host.Cell) (a n v : Nat) (hm : Memory.wf m = true) :
    Memory.num (Memory.putNum m a n v) a n = v % 256 ^ n := by
  have h := Memory.bytes_putAll_same (natBytes n v) m a hm
  rw [natBytes_length] at h
  simp only [Memory.num, Memory.putNum, h, leNat_natBytes]

/-- A number at bytes that are not written reads as before. -/
theorem Memory.num_putNum_other (m : List Host.Cell) (a n v b k : Nat) (hm : Memory.wf m = true) (h : b + k ≤ a ∨ a + n ≤ b) :
    Memory.num (Memory.putNum m a n v) b k = Memory.num m b k := by
  simp only [Memory.num]
  rw [Memory.bytes_congr _ m b k (fun c h1 h2 => Memory.get_putNum_other m a n v c hm (by omega))]

/-! ## Ranges cleared and moved -/

theorem Memory.above_filter (m : List Host.Cell) (p : Host.Cell → Bool) (a : Nat) (h : Memory.above a m = true) :
    Memory.above a (m.filter p) = true := by
  induction m with
  | nil => rfl
  | cons c m ih =>
    simp only [Memory.above, Bool.and_eq_true] at h
    simp only [List.filter_cons]
    split
    · simp [Memory.above, h.1, ih h.2]
    · exact ih h.2

theorem Memory.wf_filter (m : List Host.Cell) (p : Host.Cell → Bool) (h : Memory.wf m = true) :
    Memory.wf (m.filter p) = true := by
  induction m with
  | nil => rfl
  | cons c m ih =>
    simp only [Memory.wf, Bool.and_eq_true] at h
    simp only [List.filter_cons]
    split
    · simp [Memory.wf, h.1.1, Memory.above_filter m p _ h.1.2, ih h.2]
    · exact ih h.2

theorem Memory.wf_clear (m : List Host.Cell) (a n : Nat) (h : Memory.wf m = true) : Memory.wf (Memory.clear m a n) = true :=
  Memory.wf_filter m _ h

theorem Memory.wf_foldl {α : Type} (l : List α) (f : List Host.Cell → α → List Host.Cell)
    (hf : ∀ m x, Memory.wf m = true → Memory.wf (f m x) = true) (m : List Host.Cell) (h : Memory.wf m = true) :
    Memory.wf (l.foldl f m) = true := by
  induction l generalizing m with
  | nil => exact h
  | cons x l ih => exact ih _ (hf m x h)

theorem Memory.wf_relocate (m : List Host.Cell) (a b n : Nat) (h : Memory.wf m = true) :
    Memory.wf (Memory.relocate m a b n) = true :=
  Memory.wf_foldl _ _ (fun k _ hk => Memory.wf_put k _ _ hk) _ (Memory.wf_clear _ _ _ (Memory.wf_clear _ _ _ h))

/-! ## Equal memories are equal data -/

theorem Memory.get_above_head (m : List Host.Cell) (b : Nat) (v : Byte) (a : Nat) (h : Memory.wf ((b, v) :: m) = true)
    (ha : a < b) : Memory.get ((b, v) :: m) a = memBlank := by
  simp only [Memory.wf, Bool.and_eq_true] at h
  simp only [Memory.get]
  rw [if_neg (by omega)]
  exact Memory.get_of_above m b a (by omega) h.1.2

/-- Two canonical memories whose every byte reads alike are the same list. -/
theorem Memory.ext_of_get (m k : List Host.Cell) (hm : Memory.wf m = true) (hk : Memory.wf k = true)
    (h : ∀ a, Memory.get m a = Memory.get k a) : m = k := by
  induction m generalizing k with
  | nil =>
    cases k with
    | nil => rfl
    | cons c k =>
      obtain ⟨b, v⟩ := c
      have := h b
      simp [Memory.get] at this
      simp [Memory.wf, ← this] at hk
  | cons c m ih =>
    obtain ⟨b, v⟩ := c
    cases k with
    | nil =>
      have := h b
      simp [Memory.get] at this
      simp [Memory.wf, this] at hm
    | cons d k =>
      obtain ⟨e, w⟩ := d
      have hmv : v ≠ memBlank := by simp only [Memory.wf, Bool.and_eq_true, bne_iff_ne] at hm; exact hm.1.1
      have hkw : w ≠ memBlank := by simp only [Memory.wf, Bool.and_eq_true, bne_iff_ne] at hk; exact hk.1.1
      rcases Nat.lt_trichotomy b e with hlt | heq | hgt
      · have h1 := h b
        rw [Memory.get_above_head k e w b hk hlt] at h1
        simp [Memory.get] at h1
        exact absurd h1 hmv
      · subst heq
        have h1 := h b
        simp only [Memory.get, if_true] at h1
        subst h1
        simp only [Memory.wf, Bool.and_eq_true] at hm hk
        rw [ih k hm.2 hk.2]
        intro a
        by_cases hab : a = b
        · subst hab
          rw [Memory.get_of_above m a a (Nat.le_refl a) hm.1.2, Memory.get_of_above k a a (Nat.le_refl a) hk.1.2]
        · have := h a
          simpa [Memory.get, hab] using this
      · have h1 := h e
        rw [Memory.get_above_head m b v e hm hgt] at h1
        simp [Memory.get] at h1
        exact absurd h1.symm hkw

end Sys2Proof.Machine
end

