-- ==== Sys2Proof/Laws/Table.lean ====
section
/-! SUPPORT. Sparse tables: an entry written is read back, and every other entry is as it was. -/

namespace Sys2Proof

/-- Reading any entry after one is written. -/
theorem Tab.get_set {α : Type} (d : α) (t : Tab α) (k j : Nat) (v : α) :
    (t.set k v).get d j = if j = k then v else t.get d j := by
  induction t with
  | nil => simp [Tab.set, Tab.get]
  | cons e t ih =>
    obtain ⟨i, w⟩ := e
    unfold Tab.set
    split
    · simp [Tab.get]
    · split
      · subst_vars
        simp only [Tab.get]
        split <;> simp_all
      · simp only [Tab.get, ih]
        split
        · rw [if_neg (by omega)]
        · rfl

/-- The entry found after one is written. -/
theorem Tab.find_set {α : Type} (t : Tab α) (k j : Nat) (v : α) :
    (t.set k v).find j = if j = k then some v else t.find j := by
  induction t with
  | nil => simp [Tab.set, Tab.find]
  | cons e t ih =>
    obtain ⟨i, w⟩ := e
    unfold Tab.set
    split
    · simp [Tab.find]
    · split
      · subst_vars
        simp only [Tab.find]
        split <;> simp_all
      · simp only [Tab.find, ih]
        split
        · rw [if_neg (by omega)]
        · rfl

@[simp] theorem Tab.get_set_same {α : Type} (d : α) (t : Tab α) (k : Nat) (v : α) : (t.set k v).get d k = v := by
  simp [Tab.get_set]

@[simp] theorem Tab.find_set_same {α : Type} (t : Tab α) (k : Nat) (v : α) : (t.set k v).find k = some v := by
  simp [Tab.find_set]

/-- An entry removed is listed no more; every other is found as before. -/
theorem Tab.find_drop {α : Type} (t : Tab α) (k j : Nat) : (t.drop k).find j = if j = k then none else t.find j := by
  induction t with
  | nil => simp [Tab.drop, Tab.find]
  | cons e t ih =>
    obtain ⟨i, w⟩ := e
    simp only [Tab.drop] at ih
    simp only [Tab.drop, List.filter_cons, Tab.find]
    by_cases h : i = k
    · subst h
      simp only [bne_self_eq_false, Bool.false_eq_true, if_false, ih]
      split <;> simp_all
    · simp only [bne_iff_ne.mpr h, if_true, Tab.find, ih]
      split <;> simp_all

/-- Reading is finding, with the default where nothing is listed. -/
theorem Tab.get_eq_find {α : Type} (d : α) (t : Tab α) (k : Nat) : t.get d k = (t.find k).getD d := by
  induction t with
  | nil => rfl
  | cons e t ih =>
    obtain ⟨i, w⟩ := e
    simp only [Tab.get, Tab.find]
    split <;> simp_all

end Sys2Proof
end

