-- ==== Sys2Proof/Laws/State.lean ====
section
/-! SUPPORT. What each replacement of a part of the state leaves as it was, and what the part then reads as. -/

set_option Elab.async false

namespace Sys2Proof.Machine

/-! ## State.setCore -/

@[simp] theorem State.setCore_mem (s : State) (c : CoreId) (x : CoreS) : (s.setCore c x).mem = s.mem := rfl
@[simp] theorem State.setCore_cores (s : State) (c : CoreId) (x : CoreS) : (s.setCore c x).cores = s.cores.set c.val x := rfl
@[simp] theorem State.setCore_clusters (s : State) (c : CoreId) (x : CoreS) : (s.setCore c x).clusters = s.clusters := rfl
@[simp] theorem State.setCore_stackTab (s : State) (c : CoreId) (x : CoreS) : (s.setCore c x).stackTab = s.stackTab := rfl
@[simp] theorem State.setCore_ctxs (s : State) (c : CoreId) (x : CoreS) : (s.setCore c x).ctxs = s.ctxs := rfl
@[simp] theorem State.setCore_ns (s : State) (c : CoreId) (x : CoreS) : (s.setCore c x).ns = s.ns := rfl
@[simp] theorem State.setCore_live (s : State) (c : CoreId) (x : CoreS) : (s.setCore c x).live = s.live := rfl
@[simp] theorem State.setCore_pools (s : State) (c : CoreId) (x : CoreS) : (s.setCore c x).pools = s.pools := rfl
@[simp] theorem State.setCore_backed (s : State) (c : CoreId) (x : CoreS) : (s.setCore c x).backed = s.backed := rfl
@[simp] theorem State.setCore_poison (s : State) (c : CoreId) (x : CoreS) : (s.setCore c x).poison = s.poison := rfl
@[simp] theorem State.setCore_disp (s : State) (c : CoreId) (x : CoreS) : (s.setCore c x).disp = s.disp := rfl
@[simp] theorem State.setCore_sems (s : State) (c : CoreId) (x : CoreS) : (s.setCore c x).sems = s.sems := rfl
@[simp] theorem State.setCore_age (s : State) (c : CoreId) (x : CoreS) : (s.setCore c x).age = s.age := rfl
@[simp] theorem State.setCore_queues (s : State) (c : CoreId) (x : CoreS) : (s.setCore c x).queues = s.queues := rfl
@[simp] theorem State.setCore_lastStack (s : State) (c : CoreId) (x : CoreS) : (s.setCore c x).lastStack = s.lastStack := rfl
@[simp] theorem State.setCore_lastQ (s : State) (c : CoreId) (x : CoreS) : (s.setCore c x).lastQ = s.lastQ := rfl
@[simp] theorem State.setCore_hold (s : State) (c : CoreId) (x : CoreS) : (s.setCore c x).hold = s.hold := rfl
@[simp] theorem State.setCore_launches (s : State) (c : CoreId) (x : CoreS) : (s.setCore c x).launches = s.launches := rfl
@[simp] theorem State.setCore_nextLaunch (s : State) (c : CoreId) (x : CoreS) : (s.setCore c x).nextLaunch = s.nextLaunch := rfl
@[simp] theorem State.setCore_jobs (s : State) (c : CoreId) (x : CoreS) : (s.setCore c x).jobs = s.jobs := rfl
@[simp] theorem State.setCore_modid (s : State) (c : CoreId) (x : CoreS) : (s.setCore c x).modid = s.modid := rfl
@[simp] theorem State.setCore_wdogExp (s : State) (c : CoreId) (x : CoreS) : (s.setCore c x).wdogExp = s.wdogExp := rfl
@[simp] theorem State.setCore_wdogLeft (s : State) (c : CoreId) (x : CoreS) : (s.setCore c x).wdogLeft = s.wdogLeft := rfl
@[simp] theorem State.setCore_wdogRun (s : State) (c : CoreId) (x : CoreS) : (s.setCore c x).wdogRun = s.wdogRun := rfl
@[simp] theorem State.setCore_fwRun (s : State) (c : CoreId) (x : CoreS) : (s.setCore c x).fwRun = s.fwRun := rfl
@[simp] theorem State.setCore_pfsel (s : State) (c : CoreId) (x : CoreS) : (s.setCore c x).pfsel = s.pfsel := rfl
@[simp] theorem State.setCore_stage (s : State) (c : CoreId) (x : CoreS) : (s.setCore c x).stage = s.stage := rfl
@[simp] theorem State.setCore_bfail (s : State) (c : CoreId) (x : CoreS) : (s.setCore c x).bfail = s.bfail := rfl
@[simp] theorem State.setCore_rom (s : State) (c : CoreId) (x : CoreS) : (s.setCore c x).rom = s.rom := rfl
@[simp] theorem State.setCore_attBusy (s : State) (c : CoreId) (x : CoreS) : (s.setCore c x).attBusy = s.attBusy := rfl
@[simp] theorem State.setCore_attDone (s : State) (c : CoreId) (x : CoreS) : (s.setCore c x).attDone = s.attDone := rfl
@[simp] theorem State.setCore_attErr (s : State) (c : CoreId) (x : CoreS) : (s.setCore c x).attErr = s.attErr := rfl
@[simp] theorem State.setCore_attFrame (s : State) (c : CoreId) (x : CoreS) : (s.setCore c x).attFrame = s.attFrame := rfl
@[simp] theorem State.setCore_capbase (s : State) (c : CoreId) (x : CoreS) : (s.setCore c x).capbase = s.capbase := rfl
@[simp] theorem State.setCore_ports (s : State) (c : CoreId) (x : CoreS) : (s.setCore c x).ports = s.ports := rfl
@[simp] theorem State.setCore_rtab (s : State) (c : CoreId) (x : CoreS) : (s.setCore c x).rtab = s.rtab := rfl
@[simp] theorem State.setCore_dlPer (s : State) (c : CoreId) (x : CoreS) : (s.setCore c x).dlPer = s.dlPer := rfl
@[simp] theorem State.setCore_dlEn (s : State) (c : CoreId) (x : CoreS) : (s.setCore c x).dlEn = s.dlEn := rfl
@[simp] theorem State.setCore_dlVict (s : State) (c : CoreId) (x : CoreS) : (s.setCore c x).dlVict = s.dlVict := rfl
@[simp] theorem State.setCore_dlAt (s : State) (c : CoreId) (x : CoreS) : (s.setCore c x).dlAt = s.dlAt := rfl
@[simp] theorem State.setCore_drops (s : State) (c : CoreId) (x : CoreS) : (s.setCore c x).drops = s.drops := rfl
@[simp] theorem State.setCore_nextDrop (s : State) (c : CoreId) (x : CoreS) : (s.setCore c x).nextDrop = s.nextDrop := rfl
@[simp] theorem State.setCore_spared (s : State) (c : CoreId) (x : CoreS) : (s.setCore c x).spared = s.spared := rfl
@[simp] theorem State.setCore_spares (s : State) (c : CoreId) (x : CoreS) : (s.setCore c x).spares = s.spares := rfl
@[simp] theorem State.setCore_tests (s : State) (c : CoreId) (x : CoreS) : (s.setCore c x).tests = s.tests := rfl
@[simp] theorem State.setCore_regw (s : State) (c : CoreId) (x : CoreS) : (s.setCore c x).regw = s.regw := rfl
@[simp] theorem State.setCore_pwrites (s : State) (c : CoreId) (x : CoreS) : (s.setCore c x).pwrites = s.pwrites := rfl
@[simp] theorem State.setCore_fes (s : State) (c : CoreId) (x : CoreS) : (s.setCore c x).fes = s.fes := rfl
@[simp] theorem State.setCore_toks (s : State) (c : CoreId) (x : CoreS) : (s.setCore c x).toks = s.toks := rfl
@[simp] theorem State.setCore_arrs (s : State) (c : CoreId) (x : CoreS) : (s.setCore c x).arrs = s.arrs := rfl
@[simp] theorem State.setCore_rounds (s : State) (c : CoreId) (x : CoreS) : (s.setCore c x).rounds = s.rounds := rfl
@[simp] theorem State.setCore_amos (s : State) (c : CoreId) (x : CoreS) : (s.setCore c x).amos = s.amos := rfl
@[simp] theorem State.setCore_trigs (s : State) (c : CoreId) (x : CoreS) : (s.setCore c x).trigs = s.trigs := rfl
@[simp] theorem State.setCore_grows (s : State) (c : CoreId) (x : CoreS) : (s.setCore c x).grows = s.grows := rfl
@[simp] theorem State.setCore_fatals (s : State) (c : CoreId) (x : CoreS) : (s.setCore c x).fatals = s.fatals := rfl
@[simp] theorem State.setCore_grants (s : State) (c : CoreId) (x : CoreS) : (s.setCore c x).grants = s.grants := rfl
@[simp] theorem State.setCore_grantQ (s : State) (c : CoreId) (x : CoreS) : (s.setCore c x).grantQ = s.grantQ := rfl
@[simp] theorem State.setCore_outbox (s : State) (c : CoreId) (x : CoreS) : (s.setCore c x).outbox = s.outbox := rfl
@[simp] theorem State.setCore_remq (s : State) (c : CoreId) (x : CoreS) : (s.setCore c x).remq = s.remq := rfl
@[simp] theorem State.setCore_inbox (s : State) (c : CoreId) (x : CoreS) : (s.setCore c x).inbox = s.inbox := rfl
@[simp] theorem State.setCore_syArrs (s : State) (c : CoreId) (x : CoreS) : (s.setCore c x).syArrs = s.syArrs := rfl
@[simp] theorem State.setCore_links (s : State) (c : CoreId) (x : CoreS) : (s.setCore c x).links = s.links := rfl
@[simp] theorem State.setCore_irqs (s : State) (c : CoreId) (x : CoreS) : (s.setCore c x).irqs = s.irqs := rfl
@[simp] theorem State.setCore_rest (s : State) (c : CoreId) (x : CoreS) : (s.setCore c x).rest = s.rest := rfl
@[simp] theorem State.setCore_shut (s : State) (c : CoreId) (x : CoreS) : (s.setCore c x).shut = s.shut := rfl
@[simp] theorem State.setCore_feSeq (s : State) (c : CoreId) (x : CoreS) : (s.setCore c x).feSeq = s.feSeq := rfl
@[simp] theorem State.setCore_free (s : State) (c : CoreId) (x : CoreS) : (s.setCore c x).free = s.free := rfl
@[simp] theorem State.setCore_waitNo (s : State) (c : CoreId) (x : CoreS) : (s.setCore c x).waitNo = s.waitNo := rfl
@[simp] theorem State.setCore_cur (s : State) (c : CoreId) (x : CoreS) : (s.setCore c x).cur = s.cur := rfl
@[simp] theorem State.setCore_rr (s : State) (c : CoreId) (x : CoreS) : (s.setCore c x).rr = s.rr := rfl
@[simp] theorem State.setCore_agenda (s : State) (c : CoreId) (x : CoreS) : (s.setCore c x).agenda = s.agenda := rfl

/-! ## State.setCluster -/

@[simp] theorem State.setCluster_mem (s : State) (c : ClusterId) (x : ClusterS) : (s.setCluster c x).mem = s.mem := rfl
@[simp] theorem State.setCluster_cores (s : State) (c : ClusterId) (x : ClusterS) : (s.setCluster c x).cores = s.cores := rfl
@[simp] theorem State.setCluster_clusters (s : State) (c : ClusterId) (x : ClusterS) : (s.setCluster c x).clusters = s.clusters.set c.val x := rfl
@[simp] theorem State.setCluster_stackTab (s : State) (c : ClusterId) (x : ClusterS) : (s.setCluster c x).stackTab = s.stackTab := rfl
@[simp] theorem State.setCluster_ctxs (s : State) (c : ClusterId) (x : ClusterS) : (s.setCluster c x).ctxs = s.ctxs := rfl
@[simp] theorem State.setCluster_ns (s : State) (c : ClusterId) (x : ClusterS) : (s.setCluster c x).ns = s.ns := rfl
@[simp] theorem State.setCluster_live (s : State) (c : ClusterId) (x : ClusterS) : (s.setCluster c x).live = s.live := rfl
@[simp] theorem State.setCluster_pools (s : State) (c : ClusterId) (x : ClusterS) : (s.setCluster c x).pools = s.pools := rfl
@[simp] theorem State.setCluster_backed (s : State) (c : ClusterId) (x : ClusterS) : (s.setCluster c x).backed = s.backed := rfl
@[simp] theorem State.setCluster_poison (s : State) (c : ClusterId) (x : ClusterS) : (s.setCluster c x).poison = s.poison := rfl
@[simp] theorem State.setCluster_disp (s : State) (c : ClusterId) (x : ClusterS) : (s.setCluster c x).disp = s.disp := rfl
@[simp] theorem State.setCluster_sems (s : State) (c : ClusterId) (x : ClusterS) : (s.setCluster c x).sems = s.sems := rfl
@[simp] theorem State.setCluster_age (s : State) (c : ClusterId) (x : ClusterS) : (s.setCluster c x).age = s.age := rfl
@[simp] theorem State.setCluster_queues (s : State) (c : ClusterId) (x : ClusterS) : (s.setCluster c x).queues = s.queues := rfl
@[simp] theorem State.setCluster_lastStack (s : State) (c : ClusterId) (x : ClusterS) : (s.setCluster c x).lastStack = s.lastStack := rfl
@[simp] theorem State.setCluster_lastQ (s : State) (c : ClusterId) (x : ClusterS) : (s.setCluster c x).lastQ = s.lastQ := rfl
@[simp] theorem State.setCluster_hold (s : State) (c : ClusterId) (x : ClusterS) : (s.setCluster c x).hold = s.hold := rfl
@[simp] theorem State.setCluster_launches (s : State) (c : ClusterId) (x : ClusterS) : (s.setCluster c x).launches = s.launches := rfl
@[simp] theorem State.setCluster_nextLaunch (s : State) (c : ClusterId) (x : ClusterS) : (s.setCluster c x).nextLaunch = s.nextLaunch := rfl
@[simp] theorem State.setCluster_jobs (s : State) (c : ClusterId) (x : ClusterS) : (s.setCluster c x).jobs = s.jobs := rfl
@[simp] theorem State.setCluster_modid (s : State) (c : ClusterId) (x : ClusterS) : (s.setCluster c x).modid = s.modid := rfl
@[simp] theorem State.setCluster_wdogExp (s : State) (c : ClusterId) (x : ClusterS) : (s.setCluster c x).wdogExp = s.wdogExp := rfl
@[simp] theorem State.setCluster_wdogLeft (s : State) (c : ClusterId) (x : ClusterS) : (s.setCluster c x).wdogLeft = s.wdogLeft := rfl
@[simp] theorem State.setCluster_wdogRun (s : State) (c : ClusterId) (x : ClusterS) : (s.setCluster c x).wdogRun = s.wdogRun := rfl
@[simp] theorem State.setCluster_fwRun (s : State) (c : ClusterId) (x : ClusterS) : (s.setCluster c x).fwRun = s.fwRun := rfl
@[simp] theorem State.setCluster_pfsel (s : State) (c : ClusterId) (x : ClusterS) : (s.setCluster c x).pfsel = s.pfsel := rfl
@[simp] theorem State.setCluster_stage (s : State) (c : ClusterId) (x : ClusterS) : (s.setCluster c x).stage = s.stage := rfl
@[simp] theorem State.setCluster_bfail (s : State) (c : ClusterId) (x : ClusterS) : (s.setCluster c x).bfail = s.bfail := rfl
@[simp] theorem State.setCluster_rom (s : State) (c : ClusterId) (x : ClusterS) : (s.setCluster c x).rom = s.rom := rfl
@[simp] theorem State.setCluster_attBusy (s : State) (c : ClusterId) (x : ClusterS) : (s.setCluster c x).attBusy = s.attBusy := rfl
@[simp] theorem State.setCluster_attDone (s : State) (c : ClusterId) (x : ClusterS) : (s.setCluster c x).attDone = s.attDone := rfl
@[simp] theorem State.setCluster_attErr (s : State) (c : ClusterId) (x : ClusterS) : (s.setCluster c x).attErr = s.attErr := rfl
@[simp] theorem State.setCluster_attFrame (s : State) (c : ClusterId) (x : ClusterS) : (s.setCluster c x).attFrame = s.attFrame := rfl
@[simp] theorem State.setCluster_capbase (s : State) (c : ClusterId) (x : ClusterS) : (s.setCluster c x).capbase = s.capbase := rfl
@[simp] theorem State.setCluster_ports (s : State) (c : ClusterId) (x : ClusterS) : (s.setCluster c x).ports = s.ports := rfl
@[simp] theorem State.setCluster_rtab (s : State) (c : ClusterId) (x : ClusterS) : (s.setCluster c x).rtab = s.rtab := rfl
@[simp] theorem State.setCluster_dlPer (s : State) (c : ClusterId) (x : ClusterS) : (s.setCluster c x).dlPer = s.dlPer := rfl
@[simp] theorem State.setCluster_dlEn (s : State) (c : ClusterId) (x : ClusterS) : (s.setCluster c x).dlEn = s.dlEn := rfl
@[simp] theorem State.setCluster_dlVict (s : State) (c : ClusterId) (x : ClusterS) : (s.setCluster c x).dlVict = s.dlVict := rfl
@[simp] theorem State.setCluster_dlAt (s : State) (c : ClusterId) (x : ClusterS) : (s.setCluster c x).dlAt = s.dlAt := rfl
@[simp] theorem State.setCluster_drops (s : State) (c : ClusterId) (x : ClusterS) : (s.setCluster c x).drops = s.drops := rfl
@[simp] theorem State.setCluster_nextDrop (s : State) (c : ClusterId) (x : ClusterS) : (s.setCluster c x).nextDrop = s.nextDrop := rfl
@[simp] theorem State.setCluster_spared (s : State) (c : ClusterId) (x : ClusterS) : (s.setCluster c x).spared = s.spared := rfl
@[simp] theorem State.setCluster_spares (s : State) (c : ClusterId) (x : ClusterS) : (s.setCluster c x).spares = s.spares := rfl
@[simp] theorem State.setCluster_tests (s : State) (c : ClusterId) (x : ClusterS) : (s.setCluster c x).tests = s.tests := rfl
@[simp] theorem State.setCluster_regw (s : State) (c : ClusterId) (x : ClusterS) : (s.setCluster c x).regw = s.regw := rfl
@[simp] theorem State.setCluster_pwrites (s : State) (c : ClusterId) (x : ClusterS) : (s.setCluster c x).pwrites = s.pwrites := rfl
@[simp] theorem State.setCluster_fes (s : State) (c : ClusterId) (x : ClusterS) : (s.setCluster c x).fes = s.fes := rfl
@[simp] theorem State.setCluster_toks (s : State) (c : ClusterId) (x : ClusterS) : (s.setCluster c x).toks = s.toks := rfl
@[simp] theorem State.setCluster_arrs (s : State) (c : ClusterId) (x : ClusterS) : (s.setCluster c x).arrs = s.arrs := rfl
@[simp] theorem State.setCluster_rounds (s : State) (c : ClusterId) (x : ClusterS) : (s.setCluster c x).rounds = s.rounds := rfl
@[simp] theorem State.setCluster_amos (s : State) (c : ClusterId) (x : ClusterS) : (s.setCluster c x).amos = s.amos := rfl
@[simp] theorem State.setCluster_trigs (s : State) (c : ClusterId) (x : ClusterS) : (s.setCluster c x).trigs = s.trigs := rfl
@[simp] theorem State.setCluster_grows (s : State) (c : ClusterId) (x : ClusterS) : (s.setCluster c x).grows = s.grows := rfl
@[simp] theorem State.setCluster_fatals (s : State) (c : ClusterId) (x : ClusterS) : (s.setCluster c x).fatals = s.fatals := rfl
@[simp] theorem State.setCluster_grants (s : State) (c : ClusterId) (x : ClusterS) : (s.setCluster c x).grants = s.grants := rfl
@[simp] theorem State.setCluster_grantQ (s : State) (c : ClusterId) (x : ClusterS) : (s.setCluster c x).grantQ = s.grantQ := rfl
@[simp] theorem State.setCluster_outbox (s : State) (c : ClusterId) (x : ClusterS) : (s.setCluster c x).outbox = s.outbox := rfl
@[simp] theorem State.setCluster_remq (s : State) (c : ClusterId) (x : ClusterS) : (s.setCluster c x).remq = s.remq := rfl
@[simp] theorem State.setCluster_inbox (s : State) (c : ClusterId) (x : ClusterS) : (s.setCluster c x).inbox = s.inbox := rfl
@[simp] theorem State.setCluster_syArrs (s : State) (c : ClusterId) (x : ClusterS) : (s.setCluster c x).syArrs = s.syArrs := rfl
@[simp] theorem State.setCluster_links (s : State) (c : ClusterId) (x : ClusterS) : (s.setCluster c x).links = s.links := rfl
@[simp] theorem State.setCluster_irqs (s : State) (c : ClusterId) (x : ClusterS) : (s.setCluster c x).irqs = s.irqs := rfl
@[simp] theorem State.setCluster_rest (s : State) (c : ClusterId) (x : ClusterS) : (s.setCluster c x).rest = s.rest := rfl
@[simp] theorem State.setCluster_shut (s : State) (c : ClusterId) (x : ClusterS) : (s.setCluster c x).shut = s.shut := rfl
@[simp] theorem State.setCluster_feSeq (s : State) (c : ClusterId) (x : ClusterS) : (s.setCluster c x).feSeq = s.feSeq := rfl
@[simp] theorem State.setCluster_free (s : State) (c : ClusterId) (x : ClusterS) : (s.setCluster c x).free = s.free := rfl
@[simp] theorem State.setCluster_waitNo (s : State) (c : ClusterId) (x : ClusterS) : (s.setCluster c x).waitNo = s.waitNo := rfl
@[simp] theorem State.setCluster_cur (s : State) (c : ClusterId) (x : ClusterS) : (s.setCluster c x).cur = s.cur := rfl
@[simp] theorem State.setCluster_rr (s : State) (c : ClusterId) (x : ClusterS) : (s.setCluster c x).rr = s.rr := rfl
@[simp] theorem State.setCluster_agenda (s : State) (c : ClusterId) (x : ClusterS) : (s.setCluster c x).agenda = s.agenda := rfl

/-! ## State.setStack -/

@[simp] theorem State.setStack_mem (s : State) (c : StackId) (x : StackS) : (s.setStack c x).mem = s.mem := rfl
@[simp] theorem State.setStack_cores (s : State) (c : StackId) (x : StackS) : (s.setStack c x).cores = s.cores := rfl
@[simp] theorem State.setStack_clusters (s : State) (c : StackId) (x : StackS) : (s.setStack c x).clusters = s.clusters := rfl
@[simp] theorem State.setStack_stackTab (s : State) (c : StackId) (x : StackS) : (s.setStack c x).stackTab = s.stackTab.set c.val x := rfl
@[simp] theorem State.setStack_ctxs (s : State) (c : StackId) (x : StackS) : (s.setStack c x).ctxs = s.ctxs := rfl
@[simp] theorem State.setStack_ns (s : State) (c : StackId) (x : StackS) : (s.setStack c x).ns = s.ns := rfl
@[simp] theorem State.setStack_live (s : State) (c : StackId) (x : StackS) : (s.setStack c x).live = s.live := rfl
@[simp] theorem State.setStack_pools (s : State) (c : StackId) (x : StackS) : (s.setStack c x).pools = s.pools := rfl
@[simp] theorem State.setStack_backed (s : State) (c : StackId) (x : StackS) : (s.setStack c x).backed = s.backed := rfl
@[simp] theorem State.setStack_poison (s : State) (c : StackId) (x : StackS) : (s.setStack c x).poison = s.poison := rfl
@[simp] theorem State.setStack_disp (s : State) (c : StackId) (x : StackS) : (s.setStack c x).disp = s.disp := rfl
@[simp] theorem State.setStack_sems (s : State) (c : StackId) (x : StackS) : (s.setStack c x).sems = s.sems := rfl
@[simp] theorem State.setStack_age (s : State) (c : StackId) (x : StackS) : (s.setStack c x).age = s.age := rfl
@[simp] theorem State.setStack_queues (s : State) (c : StackId) (x : StackS) : (s.setStack c x).queues = s.queues := rfl
@[simp] theorem State.setStack_lastStack (s : State) (c : StackId) (x : StackS) : (s.setStack c x).lastStack = s.lastStack := rfl
@[simp] theorem State.setStack_lastQ (s : State) (c : StackId) (x : StackS) : (s.setStack c x).lastQ = s.lastQ := rfl
@[simp] theorem State.setStack_hold (s : State) (c : StackId) (x : StackS) : (s.setStack c x).hold = s.hold := rfl
@[simp] theorem State.setStack_launches (s : State) (c : StackId) (x : StackS) : (s.setStack c x).launches = s.launches := rfl
@[simp] theorem State.setStack_nextLaunch (s : State) (c : StackId) (x : StackS) : (s.setStack c x).nextLaunch = s.nextLaunch := rfl
@[simp] theorem State.setStack_jobs (s : State) (c : StackId) (x : StackS) : (s.setStack c x).jobs = s.jobs := rfl
@[simp] theorem State.setStack_modid (s : State) (c : StackId) (x : StackS) : (s.setStack c x).modid = s.modid := rfl
@[simp] theorem State.setStack_wdogExp (s : State) (c : StackId) (x : StackS) : (s.setStack c x).wdogExp = s.wdogExp := rfl
@[simp] theorem State.setStack_wdogLeft (s : State) (c : StackId) (x : StackS) : (s.setStack c x).wdogLeft = s.wdogLeft := rfl
@[simp] theorem State.setStack_wdogRun (s : State) (c : StackId) (x : StackS) : (s.setStack c x).wdogRun = s.wdogRun := rfl
@[simp] theorem State.setStack_fwRun (s : State) (c : StackId) (x : StackS) : (s.setStack c x).fwRun = s.fwRun := rfl
@[simp] theorem State.setStack_pfsel (s : State) (c : StackId) (x : StackS) : (s.setStack c x).pfsel = s.pfsel := rfl
@[simp] theorem State.setStack_stage (s : State) (c : StackId) (x : StackS) : (s.setStack c x).stage = s.stage := rfl
@[simp] theorem State.setStack_bfail (s : State) (c : StackId) (x : StackS) : (s.setStack c x).bfail = s.bfail := rfl
@[simp] theorem State.setStack_rom (s : State) (c : StackId) (x : StackS) : (s.setStack c x).rom = s.rom := rfl
@[simp] theorem State.setStack_attBusy (s : State) (c : StackId) (x : StackS) : (s.setStack c x).attBusy = s.attBusy := rfl
@[simp] theorem State.setStack_attDone (s : State) (c : StackId) (x : StackS) : (s.setStack c x).attDone = s.attDone := rfl
@[simp] theorem State.setStack_attErr (s : State) (c : StackId) (x : StackS) : (s.setStack c x).attErr = s.attErr := rfl
@[simp] theorem State.setStack_attFrame (s : State) (c : StackId) (x : StackS) : (s.setStack c x).attFrame = s.attFrame := rfl
@[simp] theorem State.setStack_capbase (s : State) (c : StackId) (x : StackS) : (s.setStack c x).capbase = s.capbase := rfl
@[simp] theorem State.setStack_ports (s : State) (c : StackId) (x : StackS) : (s.setStack c x).ports = s.ports := rfl
@[simp] theorem State.setStack_rtab (s : State) (c : StackId) (x : StackS) : (s.setStack c x).rtab = s.rtab := rfl
@[simp] theorem State.setStack_dlPer (s : State) (c : StackId) (x : StackS) : (s.setStack c x).dlPer = s.dlPer := rfl
@[simp] theorem State.setStack_dlEn (s : State) (c : StackId) (x : StackS) : (s.setStack c x).dlEn = s.dlEn := rfl
@[simp] theorem State.setStack_dlVict (s : State) (c : StackId) (x : StackS) : (s.setStack c x).dlVict = s.dlVict := rfl
@[simp] theorem State.setStack_dlAt (s : State) (c : StackId) (x : StackS) : (s.setStack c x).dlAt = s.dlAt := rfl
@[simp] theorem State.setStack_drops (s : State) (c : StackId) (x : StackS) : (s.setStack c x).drops = s.drops := rfl
@[simp] theorem State.setStack_nextDrop (s : State) (c : StackId) (x : StackS) : (s.setStack c x).nextDrop = s.nextDrop := rfl
@[simp] theorem State.setStack_spared (s : State) (c : StackId) (x : StackS) : (s.setStack c x).spared = s.spared := rfl
@[simp] theorem State.setStack_spares (s : State) (c : StackId) (x : StackS) : (s.setStack c x).spares = s.spares := rfl
@[simp] theorem State.setStack_tests (s : State) (c : StackId) (x : StackS) : (s.setStack c x).tests = s.tests := rfl
@[simp] theorem State.setStack_regw (s : State) (c : StackId) (x : StackS) : (s.setStack c x).regw = s.regw := rfl
@[simp] theorem State.setStack_pwrites (s : State) (c : StackId) (x : StackS) : (s.setStack c x).pwrites = s.pwrites := rfl
@[simp] theorem State.setStack_fes (s : State) (c : StackId) (x : StackS) : (s.setStack c x).fes = s.fes := rfl
@[simp] theorem State.setStack_toks (s : State) (c : StackId) (x : StackS) : (s.setStack c x).toks = s.toks := rfl
@[simp] theorem State.setStack_arrs (s : State) (c : StackId) (x : StackS) : (s.setStack c x).arrs = s.arrs := rfl
@[simp] theorem State.setStack_rounds (s : State) (c : StackId) (x : StackS) : (s.setStack c x).rounds = s.rounds := rfl
@[simp] theorem State.setStack_amos (s : State) (c : StackId) (x : StackS) : (s.setStack c x).amos = s.amos := rfl
@[simp] theorem State.setStack_trigs (s : State) (c : StackId) (x : StackS) : (s.setStack c x).trigs = s.trigs := rfl
@[simp] theorem State.setStack_grows (s : State) (c : StackId) (x : StackS) : (s.setStack c x).grows = s.grows := rfl
@[simp] theorem State.setStack_fatals (s : State) (c : StackId) (x : StackS) : (s.setStack c x).fatals = s.fatals := rfl
@[simp] theorem State.setStack_grants (s : State) (c : StackId) (x : StackS) : (s.setStack c x).grants = s.grants := rfl
@[simp] theorem State.setStack_grantQ (s : State) (c : StackId) (x : StackS) : (s.setStack c x).grantQ = s.grantQ := rfl
@[simp] theorem State.setStack_outbox (s : State) (c : StackId) (x : StackS) : (s.setStack c x).outbox = s.outbox := rfl
@[simp] theorem State.setStack_remq (s : State) (c : StackId) (x : StackS) : (s.setStack c x).remq = s.remq := rfl
@[simp] theorem State.setStack_inbox (s : State) (c : StackId) (x : StackS) : (s.setStack c x).inbox = s.inbox := rfl
@[simp] theorem State.setStack_syArrs (s : State) (c : StackId) (x : StackS) : (s.setStack c x).syArrs = s.syArrs := rfl
@[simp] theorem State.setStack_links (s : State) (c : StackId) (x : StackS) : (s.setStack c x).links = s.links := rfl
@[simp] theorem State.setStack_irqs (s : State) (c : StackId) (x : StackS) : (s.setStack c x).irqs = s.irqs := rfl
@[simp] theorem State.setStack_rest (s : State) (c : StackId) (x : StackS) : (s.setStack c x).rest = s.rest := rfl
@[simp] theorem State.setStack_shut (s : State) (c : StackId) (x : StackS) : (s.setStack c x).shut = s.shut := rfl
@[simp] theorem State.setStack_feSeq (s : State) (c : StackId) (x : StackS) : (s.setStack c x).feSeq = s.feSeq := rfl
@[simp] theorem State.setStack_free (s : State) (c : StackId) (x : StackS) : (s.setStack c x).free = s.free := rfl
@[simp] theorem State.setStack_waitNo (s : State) (c : StackId) (x : StackS) : (s.setStack c x).waitNo = s.waitNo := rfl
@[simp] theorem State.setStack_cur (s : State) (c : StackId) (x : StackS) : (s.setStack c x).cur = s.cur := rfl
@[simp] theorem State.setStack_rr (s : State) (c : StackId) (x : StackS) : (s.setStack c x).rr = s.rr := rfl
@[simp] theorem State.setStack_agenda (s : State) (c : StackId) (x : StackS) : (s.setStack c x).agenda = s.agenda := rfl

/-! ## State.setCtx -/

@[simp] theorem State.setCtx_mem (s : State) (c : CtxId) (x : CtxS) : (s.setCtx c x).mem = s.mem := rfl
@[simp] theorem State.setCtx_cores (s : State) (c : CtxId) (x : CtxS) : (s.setCtx c x).cores = s.cores := rfl
@[simp] theorem State.setCtx_clusters (s : State) (c : CtxId) (x : CtxS) : (s.setCtx c x).clusters = s.clusters := rfl
@[simp] theorem State.setCtx_stackTab (s : State) (c : CtxId) (x : CtxS) : (s.setCtx c x).stackTab = s.stackTab := rfl
@[simp] theorem State.setCtx_ctxs (s : State) (c : CtxId) (x : CtxS) : (s.setCtx c x).ctxs = s.ctxs.set c.val x := rfl
@[simp] theorem State.setCtx_ns (s : State) (c : CtxId) (x : CtxS) : (s.setCtx c x).ns = s.ns := rfl
@[simp] theorem State.setCtx_live (s : State) (c : CtxId) (x : CtxS) : (s.setCtx c x).live = s.live := rfl
@[simp] theorem State.setCtx_pools (s : State) (c : CtxId) (x : CtxS) : (s.setCtx c x).pools = s.pools := rfl
@[simp] theorem State.setCtx_backed (s : State) (c : CtxId) (x : CtxS) : (s.setCtx c x).backed = s.backed := rfl
@[simp] theorem State.setCtx_poison (s : State) (c : CtxId) (x : CtxS) : (s.setCtx c x).poison = s.poison := rfl
@[simp] theorem State.setCtx_disp (s : State) (c : CtxId) (x : CtxS) : (s.setCtx c x).disp = s.disp := rfl
@[simp] theorem State.setCtx_sems (s : State) (c : CtxId) (x : CtxS) : (s.setCtx c x).sems = s.sems := rfl
@[simp] theorem State.setCtx_age (s : State) (c : CtxId) (x : CtxS) : (s.setCtx c x).age = s.age := rfl
@[simp] theorem State.setCtx_queues (s : State) (c : CtxId) (x : CtxS) : (s.setCtx c x).queues = s.queues := rfl
@[simp] theorem State.setCtx_lastStack (s : State) (c : CtxId) (x : CtxS) : (s.setCtx c x).lastStack = s.lastStack := rfl
@[simp] theorem State.setCtx_lastQ (s : State) (c : CtxId) (x : CtxS) : (s.setCtx c x).lastQ = s.lastQ := rfl
@[simp] theorem State.setCtx_hold (s : State) (c : CtxId) (x : CtxS) : (s.setCtx c x).hold = s.hold := rfl
@[simp] theorem State.setCtx_launches (s : State) (c : CtxId) (x : CtxS) : (s.setCtx c x).launches = s.launches := rfl
@[simp] theorem State.setCtx_nextLaunch (s : State) (c : CtxId) (x : CtxS) : (s.setCtx c x).nextLaunch = s.nextLaunch := rfl
@[simp] theorem State.setCtx_jobs (s : State) (c : CtxId) (x : CtxS) : (s.setCtx c x).jobs = s.jobs := rfl
@[simp] theorem State.setCtx_modid (s : State) (c : CtxId) (x : CtxS) : (s.setCtx c x).modid = s.modid := rfl
@[simp] theorem State.setCtx_wdogExp (s : State) (c : CtxId) (x : CtxS) : (s.setCtx c x).wdogExp = s.wdogExp := rfl
@[simp] theorem State.setCtx_wdogLeft (s : State) (c : CtxId) (x : CtxS) : (s.setCtx c x).wdogLeft = s.wdogLeft := rfl
@[simp] theorem State.setCtx_wdogRun (s : State) (c : CtxId) (x : CtxS) : (s.setCtx c x).wdogRun = s.wdogRun := rfl
@[simp] theorem State.setCtx_fwRun (s : State) (c : CtxId) (x : CtxS) : (s.setCtx c x).fwRun = s.fwRun := rfl
@[simp] theorem State.setCtx_pfsel (s : State) (c : CtxId) (x : CtxS) : (s.setCtx c x).pfsel = s.pfsel := rfl
@[simp] theorem State.setCtx_stage (s : State) (c : CtxId) (x : CtxS) : (s.setCtx c x).stage = s.stage := rfl
@[simp] theorem State.setCtx_bfail (s : State) (c : CtxId) (x : CtxS) : (s.setCtx c x).bfail = s.bfail := rfl
@[simp] theorem State.setCtx_rom (s : State) (c : CtxId) (x : CtxS) : (s.setCtx c x).rom = s.rom := rfl
@[simp] theorem State.setCtx_attBusy (s : State) (c : CtxId) (x : CtxS) : (s.setCtx c x).attBusy = s.attBusy := rfl
@[simp] theorem State.setCtx_attDone (s : State) (c : CtxId) (x : CtxS) : (s.setCtx c x).attDone = s.attDone := rfl
@[simp] theorem State.setCtx_attErr (s : State) (c : CtxId) (x : CtxS) : (s.setCtx c x).attErr = s.attErr := rfl
@[simp] theorem State.setCtx_attFrame (s : State) (c : CtxId) (x : CtxS) : (s.setCtx c x).attFrame = s.attFrame := rfl
@[simp] theorem State.setCtx_capbase (s : State) (c : CtxId) (x : CtxS) : (s.setCtx c x).capbase = s.capbase := rfl
@[simp] theorem State.setCtx_ports (s : State) (c : CtxId) (x : CtxS) : (s.setCtx c x).ports = s.ports := rfl
@[simp] theorem State.setCtx_rtab (s : State) (c : CtxId) (x : CtxS) : (s.setCtx c x).rtab = s.rtab := rfl
@[simp] theorem State.setCtx_dlPer (s : State) (c : CtxId) (x : CtxS) : (s.setCtx c x).dlPer = s.dlPer := rfl
@[simp] theorem State.setCtx_dlEn (s : State) (c : CtxId) (x : CtxS) : (s.setCtx c x).dlEn = s.dlEn := rfl
@[simp] theorem State.setCtx_dlVict (s : State) (c : CtxId) (x : CtxS) : (s.setCtx c x).dlVict = s.dlVict := rfl
@[simp] theorem State.setCtx_dlAt (s : State) (c : CtxId) (x : CtxS) : (s.setCtx c x).dlAt = s.dlAt := rfl
@[simp] theorem State.setCtx_drops (s : State) (c : CtxId) (x : CtxS) : (s.setCtx c x).drops = s.drops := rfl
@[simp] theorem State.setCtx_nextDrop (s : State) (c : CtxId) (x : CtxS) : (s.setCtx c x).nextDrop = s.nextDrop := rfl
@[simp] theorem State.setCtx_spared (s : State) (c : CtxId) (x : CtxS) : (s.setCtx c x).spared = s.spared := rfl
@[simp] theorem State.setCtx_spares (s : State) (c : CtxId) (x : CtxS) : (s.setCtx c x).spares = s.spares := rfl
@[simp] theorem State.setCtx_tests (s : State) (c : CtxId) (x : CtxS) : (s.setCtx c x).tests = s.tests := rfl
@[simp] theorem State.setCtx_regw (s : State) (c : CtxId) (x : CtxS) : (s.setCtx c x).regw = s.regw := rfl
@[simp] theorem State.setCtx_pwrites (s : State) (c : CtxId) (x : CtxS) : (s.setCtx c x).pwrites = s.pwrites := rfl
@[simp] theorem State.setCtx_fes (s : State) (c : CtxId) (x : CtxS) : (s.setCtx c x).fes = s.fes := rfl
@[simp] theorem State.setCtx_toks (s : State) (c : CtxId) (x : CtxS) : (s.setCtx c x).toks = s.toks := rfl
@[simp] theorem State.setCtx_arrs (s : State) (c : CtxId) (x : CtxS) : (s.setCtx c x).arrs = s.arrs := rfl
@[simp] theorem State.setCtx_rounds (s : State) (c : CtxId) (x : CtxS) : (s.setCtx c x).rounds = s.rounds := rfl
@[simp] theorem State.setCtx_amos (s : State) (c : CtxId) (x : CtxS) : (s.setCtx c x).amos = s.amos := rfl
@[simp] theorem State.setCtx_trigs (s : State) (c : CtxId) (x : CtxS) : (s.setCtx c x).trigs = s.trigs := rfl
@[simp] theorem State.setCtx_grows (s : State) (c : CtxId) (x : CtxS) : (s.setCtx c x).grows = s.grows := rfl
@[simp] theorem State.setCtx_fatals (s : State) (c : CtxId) (x : CtxS) : (s.setCtx c x).fatals = s.fatals := rfl
@[simp] theorem State.setCtx_grants (s : State) (c : CtxId) (x : CtxS) : (s.setCtx c x).grants = s.grants := rfl
@[simp] theorem State.setCtx_grantQ (s : State) (c : CtxId) (x : CtxS) : (s.setCtx c x).grantQ = s.grantQ := rfl
@[simp] theorem State.setCtx_outbox (s : State) (c : CtxId) (x : CtxS) : (s.setCtx c x).outbox = s.outbox := rfl
@[simp] theorem State.setCtx_remq (s : State) (c : CtxId) (x : CtxS) : (s.setCtx c x).remq = s.remq := rfl
@[simp] theorem State.setCtx_inbox (s : State) (c : CtxId) (x : CtxS) : (s.setCtx c x).inbox = s.inbox := rfl
@[simp] theorem State.setCtx_syArrs (s : State) (c : CtxId) (x : CtxS) : (s.setCtx c x).syArrs = s.syArrs := rfl
@[simp] theorem State.setCtx_links (s : State) (c : CtxId) (x : CtxS) : (s.setCtx c x).links = s.links := rfl
@[simp] theorem State.setCtx_irqs (s : State) (c : CtxId) (x : CtxS) : (s.setCtx c x).irqs = s.irqs := rfl
@[simp] theorem State.setCtx_rest (s : State) (c : CtxId) (x : CtxS) : (s.setCtx c x).rest = s.rest := rfl
@[simp] theorem State.setCtx_shut (s : State) (c : CtxId) (x : CtxS) : (s.setCtx c x).shut = s.shut := rfl
@[simp] theorem State.setCtx_feSeq (s : State) (c : CtxId) (x : CtxS) : (s.setCtx c x).feSeq = s.feSeq := rfl
@[simp] theorem State.setCtx_free (s : State) (c : CtxId) (x : CtxS) : (s.setCtx c x).free = s.free := rfl
@[simp] theorem State.setCtx_waitNo (s : State) (c : CtxId) (x : CtxS) : (s.setCtx c x).waitNo = s.waitNo := rfl
@[simp] theorem State.setCtx_cur (s : State) (c : CtxId) (x : CtxS) : (s.setCtx c x).cur = s.cur := rfl
@[simp] theorem State.setCtx_rr (s : State) (c : CtxId) (x : CtxS) : (s.setCtx c x).rr = s.rr := rfl
@[simp] theorem State.setCtx_agenda (s : State) (c : CtxId) (x : CtxS) : (s.setCtx c x).agenda = s.agenda := rfl

/-! ## State.setQueue -/

@[simp] theorem State.setQueue_mem (s : State) (c : QueueId) (x : QueueS) : (s.setQueue c x).mem = s.mem := rfl
@[simp] theorem State.setQueue_cores (s : State) (c : QueueId) (x : QueueS) : (s.setQueue c x).cores = s.cores := rfl
@[simp] theorem State.setQueue_clusters (s : State) (c : QueueId) (x : QueueS) : (s.setQueue c x).clusters = s.clusters := rfl
@[simp] theorem State.setQueue_stackTab (s : State) (c : QueueId) (x : QueueS) : (s.setQueue c x).stackTab = s.stackTab := rfl
@[simp] theorem State.setQueue_ctxs (s : State) (c : QueueId) (x : QueueS) : (s.setQueue c x).ctxs = s.ctxs := rfl
@[simp] theorem State.setQueue_ns (s : State) (c : QueueId) (x : QueueS) : (s.setQueue c x).ns = s.ns := rfl
@[simp] theorem State.setQueue_live (s : State) (c : QueueId) (x : QueueS) : (s.setQueue c x).live = s.live := rfl
@[simp] theorem State.setQueue_pools (s : State) (c : QueueId) (x : QueueS) : (s.setQueue c x).pools = s.pools := rfl
@[simp] theorem State.setQueue_backed (s : State) (c : QueueId) (x : QueueS) : (s.setQueue c x).backed = s.backed := rfl
@[simp] theorem State.setQueue_poison (s : State) (c : QueueId) (x : QueueS) : (s.setQueue c x).poison = s.poison := rfl
@[simp] theorem State.setQueue_disp (s : State) (c : QueueId) (x : QueueS) : (s.setQueue c x).disp = s.disp := rfl
@[simp] theorem State.setQueue_sems (s : State) (c : QueueId) (x : QueueS) : (s.setQueue c x).sems = s.sems := rfl
@[simp] theorem State.setQueue_age (s : State) (c : QueueId) (x : QueueS) : (s.setQueue c x).age = s.age := rfl
@[simp] theorem State.setQueue_queues (s : State) (c : QueueId) (x : QueueS) : (s.setQueue c x).queues = s.queues.set c.val x := rfl
@[simp] theorem State.setQueue_lastStack (s : State) (c : QueueId) (x : QueueS) : (s.setQueue c x).lastStack = s.lastStack := rfl
@[simp] theorem State.setQueue_lastQ (s : State) (c : QueueId) (x : QueueS) : (s.setQueue c x).lastQ = s.lastQ := rfl
@[simp] theorem State.setQueue_hold (s : State) (c : QueueId) (x : QueueS) : (s.setQueue c x).hold = s.hold := rfl
@[simp] theorem State.setQueue_launches (s : State) (c : QueueId) (x : QueueS) : (s.setQueue c x).launches = s.launches := rfl
@[simp] theorem State.setQueue_nextLaunch (s : State) (c : QueueId) (x : QueueS) : (s.setQueue c x).nextLaunch = s.nextLaunch := rfl
@[simp] theorem State.setQueue_jobs (s : State) (c : QueueId) (x : QueueS) : (s.setQueue c x).jobs = s.jobs := rfl
@[simp] theorem State.setQueue_modid (s : State) (c : QueueId) (x : QueueS) : (s.setQueue c x).modid = s.modid := rfl
@[simp] theorem State.setQueue_wdogExp (s : State) (c : QueueId) (x : QueueS) : (s.setQueue c x).wdogExp = s.wdogExp := rfl
@[simp] theorem State.setQueue_wdogLeft (s : State) (c : QueueId) (x : QueueS) : (s.setQueue c x).wdogLeft = s.wdogLeft := rfl
@[simp] theorem State.setQueue_wdogRun (s : State) (c : QueueId) (x : QueueS) : (s.setQueue c x).wdogRun = s.wdogRun := rfl
@[simp] theorem State.setQueue_fwRun (s : State) (c : QueueId) (x : QueueS) : (s.setQueue c x).fwRun = s.fwRun := rfl
@[simp] theorem State.setQueue_pfsel (s : State) (c : QueueId) (x : QueueS) : (s.setQueue c x).pfsel = s.pfsel := rfl
@[simp] theorem State.setQueue_stage (s : State) (c : QueueId) (x : QueueS) : (s.setQueue c x).stage = s.stage := rfl
@[simp] theorem State.setQueue_bfail (s : State) (c : QueueId) (x : QueueS) : (s.setQueue c x).bfail = s.bfail := rfl
@[simp] theorem State.setQueue_rom (s : State) (c : QueueId) (x : QueueS) : (s.setQueue c x).rom = s.rom := rfl
@[simp] theorem State.setQueue_attBusy (s : State) (c : QueueId) (x : QueueS) : (s.setQueue c x).attBusy = s.attBusy := rfl
@[simp] theorem State.setQueue_attDone (s : State) (c : QueueId) (x : QueueS) : (s.setQueue c x).attDone = s.attDone := rfl
@[simp] theorem State.setQueue_attErr (s : State) (c : QueueId) (x : QueueS) : (s.setQueue c x).attErr = s.attErr := rfl
@[simp] theorem State.setQueue_attFrame (s : State) (c : QueueId) (x : QueueS) : (s.setQueue c x).attFrame = s.attFrame := rfl
@[simp] theorem State.setQueue_capbase (s : State) (c : QueueId) (x : QueueS) : (s.setQueue c x).capbase = s.capbase := rfl
@[simp] theorem State.setQueue_ports (s : State) (c : QueueId) (x : QueueS) : (s.setQueue c x).ports = s.ports := rfl
@[simp] theorem State.setQueue_rtab (s : State) (c : QueueId) (x : QueueS) : (s.setQueue c x).rtab = s.rtab := rfl
@[simp] theorem State.setQueue_dlPer (s : State) (c : QueueId) (x : QueueS) : (s.setQueue c x).dlPer = s.dlPer := rfl
@[simp] theorem State.setQueue_dlEn (s : State) (c : QueueId) (x : QueueS) : (s.setQueue c x).dlEn = s.dlEn := rfl
@[simp] theorem State.setQueue_dlVict (s : State) (c : QueueId) (x : QueueS) : (s.setQueue c x).dlVict = s.dlVict := rfl
@[simp] theorem State.setQueue_dlAt (s : State) (c : QueueId) (x : QueueS) : (s.setQueue c x).dlAt = s.dlAt := rfl
@[simp] theorem State.setQueue_drops (s : State) (c : QueueId) (x : QueueS) : (s.setQueue c x).drops = s.drops := rfl
@[simp] theorem State.setQueue_nextDrop (s : State) (c : QueueId) (x : QueueS) : (s.setQueue c x).nextDrop = s.nextDrop := rfl
@[simp] theorem State.setQueue_spared (s : State) (c : QueueId) (x : QueueS) : (s.setQueue c x).spared = s.spared := rfl
@[simp] theorem State.setQueue_spares (s : State) (c : QueueId) (x : QueueS) : (s.setQueue c x).spares = s.spares := rfl
@[simp] theorem State.setQueue_tests (s : State) (c : QueueId) (x : QueueS) : (s.setQueue c x).tests = s.tests := rfl
@[simp] theorem State.setQueue_regw (s : State) (c : QueueId) (x : QueueS) : (s.setQueue c x).regw = s.regw := rfl
@[simp] theorem State.setQueue_pwrites (s : State) (c : QueueId) (x : QueueS) : (s.setQueue c x).pwrites = s.pwrites := rfl
@[simp] theorem State.setQueue_fes (s : State) (c : QueueId) (x : QueueS) : (s.setQueue c x).fes = s.fes := rfl
@[simp] theorem State.setQueue_toks (s : State) (c : QueueId) (x : QueueS) : (s.setQueue c x).toks = s.toks := rfl
@[simp] theorem State.setQueue_arrs (s : State) (c : QueueId) (x : QueueS) : (s.setQueue c x).arrs = s.arrs := rfl
@[simp] theorem State.setQueue_rounds (s : State) (c : QueueId) (x : QueueS) : (s.setQueue c x).rounds = s.rounds := rfl
@[simp] theorem State.setQueue_amos (s : State) (c : QueueId) (x : QueueS) : (s.setQueue c x).amos = s.amos := rfl
@[simp] theorem State.setQueue_trigs (s : State) (c : QueueId) (x : QueueS) : (s.setQueue c x).trigs = s.trigs := rfl
@[simp] theorem State.setQueue_grows (s : State) (c : QueueId) (x : QueueS) : (s.setQueue c x).grows = s.grows := rfl
@[simp] theorem State.setQueue_fatals (s : State) (c : QueueId) (x : QueueS) : (s.setQueue c x).fatals = s.fatals := rfl
@[simp] theorem State.setQueue_grants (s : State) (c : QueueId) (x : QueueS) : (s.setQueue c x).grants = s.grants := rfl
@[simp] theorem State.setQueue_grantQ (s : State) (c : QueueId) (x : QueueS) : (s.setQueue c x).grantQ = s.grantQ := rfl
@[simp] theorem State.setQueue_outbox (s : State) (c : QueueId) (x : QueueS) : (s.setQueue c x).outbox = s.outbox := rfl
@[simp] theorem State.setQueue_remq (s : State) (c : QueueId) (x : QueueS) : (s.setQueue c x).remq = s.remq := rfl
@[simp] theorem State.setQueue_inbox (s : State) (c : QueueId) (x : QueueS) : (s.setQueue c x).inbox = s.inbox := rfl
@[simp] theorem State.setQueue_syArrs (s : State) (c : QueueId) (x : QueueS) : (s.setQueue c x).syArrs = s.syArrs := rfl
@[simp] theorem State.setQueue_links (s : State) (c : QueueId) (x : QueueS) : (s.setQueue c x).links = s.links := rfl
@[simp] theorem State.setQueue_irqs (s : State) (c : QueueId) (x : QueueS) : (s.setQueue c x).irqs = s.irqs := rfl
@[simp] theorem State.setQueue_rest (s : State) (c : QueueId) (x : QueueS) : (s.setQueue c x).rest = s.rest := rfl
@[simp] theorem State.setQueue_shut (s : State) (c : QueueId) (x : QueueS) : (s.setQueue c x).shut = s.shut := rfl
@[simp] theorem State.setQueue_feSeq (s : State) (c : QueueId) (x : QueueS) : (s.setQueue c x).feSeq = s.feSeq := rfl
@[simp] theorem State.setQueue_free (s : State) (c : QueueId) (x : QueueS) : (s.setQueue c x).free = s.free := rfl
@[simp] theorem State.setQueue_waitNo (s : State) (c : QueueId) (x : QueueS) : (s.setQueue c x).waitNo = s.waitNo := rfl
@[simp] theorem State.setQueue_cur (s : State) (c : QueueId) (x : QueueS) : (s.setQueue c x).cur = s.cur := rfl
@[simp] theorem State.setQueue_rr (s : State) (c : QueueId) (x : QueueS) : (s.setQueue c x).rr = s.rr := rfl
@[simp] theorem State.setQueue_agenda (s : State) (c : QueueId) (x : QueueS) : (s.setQueue c x).agenda = s.agenda := rfl

/-! ## State.setSem -/

@[simp] theorem State.setSem_mem (s : State) (c : SemId) (x : SemS) : (s.setSem c x).mem = s.mem := rfl
@[simp] theorem State.setSem_cores (s : State) (c : SemId) (x : SemS) : (s.setSem c x).cores = s.cores := rfl
@[simp] theorem State.setSem_clusters (s : State) (c : SemId) (x : SemS) : (s.setSem c x).clusters = s.clusters := rfl
@[simp] theorem State.setSem_stackTab (s : State) (c : SemId) (x : SemS) : (s.setSem c x).stackTab = s.stackTab := rfl
@[simp] theorem State.setSem_ctxs (s : State) (c : SemId) (x : SemS) : (s.setSem c x).ctxs = s.ctxs := rfl
@[simp] theorem State.setSem_ns (s : State) (c : SemId) (x : SemS) : (s.setSem c x).ns = s.ns := rfl
@[simp] theorem State.setSem_live (s : State) (c : SemId) (x : SemS) : (s.setSem c x).live = s.live := rfl
@[simp] theorem State.setSem_pools (s : State) (c : SemId) (x : SemS) : (s.setSem c x).pools = s.pools := rfl
@[simp] theorem State.setSem_backed (s : State) (c : SemId) (x : SemS) : (s.setSem c x).backed = s.backed := rfl
@[simp] theorem State.setSem_poison (s : State) (c : SemId) (x : SemS) : (s.setSem c x).poison = s.poison := rfl
@[simp] theorem State.setSem_disp (s : State) (c : SemId) (x : SemS) : (s.setSem c x).disp = s.disp := rfl
@[simp] theorem State.setSem_sems (s : State) (c : SemId) (x : SemS) : (s.setSem c x).sems = s.sems.set c.val x := rfl
@[simp] theorem State.setSem_age (s : State) (c : SemId) (x : SemS) : (s.setSem c x).age = s.age := rfl
@[simp] theorem State.setSem_queues (s : State) (c : SemId) (x : SemS) : (s.setSem c x).queues = s.queues := rfl
@[simp] theorem State.setSem_lastStack (s : State) (c : SemId) (x : SemS) : (s.setSem c x).lastStack = s.lastStack := rfl
@[simp] theorem State.setSem_lastQ (s : State) (c : SemId) (x : SemS) : (s.setSem c x).lastQ = s.lastQ := rfl
@[simp] theorem State.setSem_hold (s : State) (c : SemId) (x : SemS) : (s.setSem c x).hold = s.hold := rfl
@[simp] theorem State.setSem_launches (s : State) (c : SemId) (x : SemS) : (s.setSem c x).launches = s.launches := rfl
@[simp] theorem State.setSem_nextLaunch (s : State) (c : SemId) (x : SemS) : (s.setSem c x).nextLaunch = s.nextLaunch := rfl
@[simp] theorem State.setSem_jobs (s : State) (c : SemId) (x : SemS) : (s.setSem c x).jobs = s.jobs := rfl
@[simp] theorem State.setSem_modid (s : State) (c : SemId) (x : SemS) : (s.setSem c x).modid = s.modid := rfl
@[simp] theorem State.setSem_wdogExp (s : State) (c : SemId) (x : SemS) : (s.setSem c x).wdogExp = s.wdogExp := rfl
@[simp] theorem State.setSem_wdogLeft (s : State) (c : SemId) (x : SemS) : (s.setSem c x).wdogLeft = s.wdogLeft := rfl
@[simp] theorem State.setSem_wdogRun (s : State) (c : SemId) (x : SemS) : (s.setSem c x).wdogRun = s.wdogRun := rfl
@[simp] theorem State.setSem_fwRun (s : State) (c : SemId) (x : SemS) : (s.setSem c x).fwRun = s.fwRun := rfl
@[simp] theorem State.setSem_pfsel (s : State) (c : SemId) (x : SemS) : (s.setSem c x).pfsel = s.pfsel := rfl
@[simp] theorem State.setSem_stage (s : State) (c : SemId) (x : SemS) : (s.setSem c x).stage = s.stage := rfl
@[simp] theorem State.setSem_bfail (s : State) (c : SemId) (x : SemS) : (s.setSem c x).bfail = s.bfail := rfl
@[simp] theorem State.setSem_rom (s : State) (c : SemId) (x : SemS) : (s.setSem c x).rom = s.rom := rfl
@[simp] theorem State.setSem_attBusy (s : State) (c : SemId) (x : SemS) : (s.setSem c x).attBusy = s.attBusy := rfl
@[simp] theorem State.setSem_attDone (s : State) (c : SemId) (x : SemS) : (s.setSem c x).attDone = s.attDone := rfl
@[simp] theorem State.setSem_attErr (s : State) (c : SemId) (x : SemS) : (s.setSem c x).attErr = s.attErr := rfl
@[simp] theorem State.setSem_attFrame (s : State) (c : SemId) (x : SemS) : (s.setSem c x).attFrame = s.attFrame := rfl
@[simp] theorem State.setSem_capbase (s : State) (c : SemId) (x : SemS) : (s.setSem c x).capbase = s.capbase := rfl
@[simp] theorem State.setSem_ports (s : State) (c : SemId) (x : SemS) : (s.setSem c x).ports = s.ports := rfl
@[simp] theorem State.setSem_rtab (s : State) (c : SemId) (x : SemS) : (s.setSem c x).rtab = s.rtab := rfl
@[simp] theorem State.setSem_dlPer (s : State) (c : SemId) (x : SemS) : (s.setSem c x).dlPer = s.dlPer := rfl
@[simp] theorem State.setSem_dlEn (s : State) (c : SemId) (x : SemS) : (s.setSem c x).dlEn = s.dlEn := rfl
@[simp] theorem State.setSem_dlVict (s : State) (c : SemId) (x : SemS) : (s.setSem c x).dlVict = s.dlVict := rfl
@[simp] theorem State.setSem_dlAt (s : State) (c : SemId) (x : SemS) : (s.setSem c x).dlAt = s.dlAt := rfl
@[simp] theorem State.setSem_drops (s : State) (c : SemId) (x : SemS) : (s.setSem c x).drops = s.drops := rfl
@[simp] theorem State.setSem_nextDrop (s : State) (c : SemId) (x : SemS) : (s.setSem c x).nextDrop = s.nextDrop := rfl
@[simp] theorem State.setSem_spared (s : State) (c : SemId) (x : SemS) : (s.setSem c x).spared = s.spared := rfl
@[simp] theorem State.setSem_spares (s : State) (c : SemId) (x : SemS) : (s.setSem c x).spares = s.spares := rfl
@[simp] theorem State.setSem_tests (s : State) (c : SemId) (x : SemS) : (s.setSem c x).tests = s.tests := rfl
@[simp] theorem State.setSem_regw (s : State) (c : SemId) (x : SemS) : (s.setSem c x).regw = s.regw := rfl
@[simp] theorem State.setSem_pwrites (s : State) (c : SemId) (x : SemS) : (s.setSem c x).pwrites = s.pwrites := rfl
@[simp] theorem State.setSem_fes (s : State) (c : SemId) (x : SemS) : (s.setSem c x).fes = s.fes := rfl
@[simp] theorem State.setSem_toks (s : State) (c : SemId) (x : SemS) : (s.setSem c x).toks = s.toks := rfl
@[simp] theorem State.setSem_arrs (s : State) (c : SemId) (x : SemS) : (s.setSem c x).arrs = s.arrs := rfl
@[simp] theorem State.setSem_rounds (s : State) (c : SemId) (x : SemS) : (s.setSem c x).rounds = s.rounds := rfl
@[simp] theorem State.setSem_amos (s : State) (c : SemId) (x : SemS) : (s.setSem c x).amos = s.amos := rfl
@[simp] theorem State.setSem_trigs (s : State) (c : SemId) (x : SemS) : (s.setSem c x).trigs = s.trigs := rfl
@[simp] theorem State.setSem_grows (s : State) (c : SemId) (x : SemS) : (s.setSem c x).grows = s.grows := rfl
@[simp] theorem State.setSem_fatals (s : State) (c : SemId) (x : SemS) : (s.setSem c x).fatals = s.fatals := rfl
@[simp] theorem State.setSem_grants (s : State) (c : SemId) (x : SemS) : (s.setSem c x).grants = s.grants := rfl
@[simp] theorem State.setSem_grantQ (s : State) (c : SemId) (x : SemS) : (s.setSem c x).grantQ = s.grantQ := rfl
@[simp] theorem State.setSem_outbox (s : State) (c : SemId) (x : SemS) : (s.setSem c x).outbox = s.outbox := rfl
@[simp] theorem State.setSem_remq (s : State) (c : SemId) (x : SemS) : (s.setSem c x).remq = s.remq := rfl
@[simp] theorem State.setSem_inbox (s : State) (c : SemId) (x : SemS) : (s.setSem c x).inbox = s.inbox := rfl
@[simp] theorem State.setSem_syArrs (s : State) (c : SemId) (x : SemS) : (s.setSem c x).syArrs = s.syArrs := rfl
@[simp] theorem State.setSem_links (s : State) (c : SemId) (x : SemS) : (s.setSem c x).links = s.links := rfl
@[simp] theorem State.setSem_irqs (s : State) (c : SemId) (x : SemS) : (s.setSem c x).irqs = s.irqs := rfl
@[simp] theorem State.setSem_rest (s : State) (c : SemId) (x : SemS) : (s.setSem c x).rest = s.rest := rfl
@[simp] theorem State.setSem_shut (s : State) (c : SemId) (x : SemS) : (s.setSem c x).shut = s.shut := rfl
@[simp] theorem State.setSem_feSeq (s : State) (c : SemId) (x : SemS) : (s.setSem c x).feSeq = s.feSeq := rfl
@[simp] theorem State.setSem_free (s : State) (c : SemId) (x : SemS) : (s.setSem c x).free = s.free := rfl
@[simp] theorem State.setSem_waitNo (s : State) (c : SemId) (x : SemS) : (s.setSem c x).waitNo = s.waitNo := rfl
@[simp] theorem State.setSem_cur (s : State) (c : SemId) (x : SemS) : (s.setSem c x).cur = s.cur := rfl
@[simp] theorem State.setSem_rr (s : State) (c : SemId) (x : SemS) : (s.setSem c x).rr = s.rr := rfl
@[simp] theorem State.setSem_agenda (s : State) (c : SemId) (x : SemS) : (s.setSem c x).agenda = s.agenda := rfl

/-! ## State.setLaunch -/

@[simp] theorem State.setLaunch_mem (s : State) (c : Nat) (x : Launch) : (s.setLaunch c x).mem = s.mem := rfl
@[simp] theorem State.setLaunch_cores (s : State) (c : Nat) (x : Launch) : (s.setLaunch c x).cores = s.cores := rfl
@[simp] theorem State.setLaunch_clusters (s : State) (c : Nat) (x : Launch) : (s.setLaunch c x).clusters = s.clusters := rfl
@[simp] theorem State.setLaunch_stackTab (s : State) (c : Nat) (x : Launch) : (s.setLaunch c x).stackTab = s.stackTab := rfl
@[simp] theorem State.setLaunch_ctxs (s : State) (c : Nat) (x : Launch) : (s.setLaunch c x).ctxs = s.ctxs := rfl
@[simp] theorem State.setLaunch_ns (s : State) (c : Nat) (x : Launch) : (s.setLaunch c x).ns = s.ns := rfl
@[simp] theorem State.setLaunch_live (s : State) (c : Nat) (x : Launch) : (s.setLaunch c x).live = s.live := rfl
@[simp] theorem State.setLaunch_pools (s : State) (c : Nat) (x : Launch) : (s.setLaunch c x).pools = s.pools := rfl
@[simp] theorem State.setLaunch_backed (s : State) (c : Nat) (x : Launch) : (s.setLaunch c x).backed = s.backed := rfl
@[simp] theorem State.setLaunch_poison (s : State) (c : Nat) (x : Launch) : (s.setLaunch c x).poison = s.poison := rfl
@[simp] theorem State.setLaunch_disp (s : State) (c : Nat) (x : Launch) : (s.setLaunch c x).disp = s.disp := rfl
@[simp] theorem State.setLaunch_sems (s : State) (c : Nat) (x : Launch) : (s.setLaunch c x).sems = s.sems := rfl
@[simp] theorem State.setLaunch_age (s : State) (c : Nat) (x : Launch) : (s.setLaunch c x).age = s.age := rfl
@[simp] theorem State.setLaunch_queues (s : State) (c : Nat) (x : Launch) : (s.setLaunch c x).queues = s.queues := rfl
@[simp] theorem State.setLaunch_lastStack (s : State) (c : Nat) (x : Launch) : (s.setLaunch c x).lastStack = s.lastStack := rfl
@[simp] theorem State.setLaunch_lastQ (s : State) (c : Nat) (x : Launch) : (s.setLaunch c x).lastQ = s.lastQ := rfl
@[simp] theorem State.setLaunch_hold (s : State) (c : Nat) (x : Launch) : (s.setLaunch c x).hold = s.hold := rfl
@[simp] theorem State.setLaunch_launches (s : State) (c : Nat) (x : Launch) : (s.setLaunch c x).launches = s.launches.set c x := rfl
@[simp] theorem State.setLaunch_nextLaunch (s : State) (c : Nat) (x : Launch) : (s.setLaunch c x).nextLaunch = s.nextLaunch := rfl
@[simp] theorem State.setLaunch_jobs (s : State) (c : Nat) (x : Launch) : (s.setLaunch c x).jobs = s.jobs := rfl
@[simp] theorem State.setLaunch_modid (s : State) (c : Nat) (x : Launch) : (s.setLaunch c x).modid = s.modid := rfl
@[simp] theorem State.setLaunch_wdogExp (s : State) (c : Nat) (x : Launch) : (s.setLaunch c x).wdogExp = s.wdogExp := rfl
@[simp] theorem State.setLaunch_wdogLeft (s : State) (c : Nat) (x : Launch) : (s.setLaunch c x).wdogLeft = s.wdogLeft := rfl
@[simp] theorem State.setLaunch_wdogRun (s : State) (c : Nat) (x : Launch) : (s.setLaunch c x).wdogRun = s.wdogRun := rfl
@[simp] theorem State.setLaunch_fwRun (s : State) (c : Nat) (x : Launch) : (s.setLaunch c x).fwRun = s.fwRun := rfl
@[simp] theorem State.setLaunch_pfsel (s : State) (c : Nat) (x : Launch) : (s.setLaunch c x).pfsel = s.pfsel := rfl
@[simp] theorem State.setLaunch_stage (s : State) (c : Nat) (x : Launch) : (s.setLaunch c x).stage = s.stage := rfl
@[simp] theorem State.setLaunch_bfail (s : State) (c : Nat) (x : Launch) : (s.setLaunch c x).bfail = s.bfail := rfl
@[simp] theorem State.setLaunch_rom (s : State) (c : Nat) (x : Launch) : (s.setLaunch c x).rom = s.rom := rfl
@[simp] theorem State.setLaunch_attBusy (s : State) (c : Nat) (x : Launch) : (s.setLaunch c x).attBusy = s.attBusy := rfl
@[simp] theorem State.setLaunch_attDone (s : State) (c : Nat) (x : Launch) : (s.setLaunch c x).attDone = s.attDone := rfl
@[simp] theorem State.setLaunch_attErr (s : State) (c : Nat) (x : Launch) : (s.setLaunch c x).attErr = s.attErr := rfl
@[simp] theorem State.setLaunch_attFrame (s : State) (c : Nat) (x : Launch) : (s.setLaunch c x).attFrame = s.attFrame := rfl
@[simp] theorem State.setLaunch_capbase (s : State) (c : Nat) (x : Launch) : (s.setLaunch c x).capbase = s.capbase := rfl
@[simp] theorem State.setLaunch_ports (s : State) (c : Nat) (x : Launch) : (s.setLaunch c x).ports = s.ports := rfl
@[simp] theorem State.setLaunch_rtab (s : State) (c : Nat) (x : Launch) : (s.setLaunch c x).rtab = s.rtab := rfl
@[simp] theorem State.setLaunch_dlPer (s : State) (c : Nat) (x : Launch) : (s.setLaunch c x).dlPer = s.dlPer := rfl
@[simp] theorem State.setLaunch_dlEn (s : State) (c : Nat) (x : Launch) : (s.setLaunch c x).dlEn = s.dlEn := rfl
@[simp] theorem State.setLaunch_dlVict (s : State) (c : Nat) (x : Launch) : (s.setLaunch c x).dlVict = s.dlVict := rfl
@[simp] theorem State.setLaunch_dlAt (s : State) (c : Nat) (x : Launch) : (s.setLaunch c x).dlAt = s.dlAt := rfl
@[simp] theorem State.setLaunch_drops (s : State) (c : Nat) (x : Launch) : (s.setLaunch c x).drops = s.drops := rfl
@[simp] theorem State.setLaunch_nextDrop (s : State) (c : Nat) (x : Launch) : (s.setLaunch c x).nextDrop = s.nextDrop := rfl
@[simp] theorem State.setLaunch_spared (s : State) (c : Nat) (x : Launch) : (s.setLaunch c x).spared = s.spared := rfl
@[simp] theorem State.setLaunch_spares (s : State) (c : Nat) (x : Launch) : (s.setLaunch c x).spares = s.spares := rfl
@[simp] theorem State.setLaunch_tests (s : State) (c : Nat) (x : Launch) : (s.setLaunch c x).tests = s.tests := rfl
@[simp] theorem State.setLaunch_regw (s : State) (c : Nat) (x : Launch) : (s.setLaunch c x).regw = s.regw := rfl
@[simp] theorem State.setLaunch_pwrites (s : State) (c : Nat) (x : Launch) : (s.setLaunch c x).pwrites = s.pwrites := rfl
@[simp] theorem State.setLaunch_fes (s : State) (c : Nat) (x : Launch) : (s.setLaunch c x).fes = s.fes := rfl
@[simp] theorem State.setLaunch_toks (s : State) (c : Nat) (x : Launch) : (s.setLaunch c x).toks = s.toks := rfl
@[simp] theorem State.setLaunch_arrs (s : State) (c : Nat) (x : Launch) : (s.setLaunch c x).arrs = s.arrs := rfl
@[simp] theorem State.setLaunch_rounds (s : State) (c : Nat) (x : Launch) : (s.setLaunch c x).rounds = s.rounds := rfl
@[simp] theorem State.setLaunch_amos (s : State) (c : Nat) (x : Launch) : (s.setLaunch c x).amos = s.amos := rfl
@[simp] theorem State.setLaunch_trigs (s : State) (c : Nat) (x : Launch) : (s.setLaunch c x).trigs = s.trigs := rfl
@[simp] theorem State.setLaunch_grows (s : State) (c : Nat) (x : Launch) : (s.setLaunch c x).grows = s.grows := rfl
@[simp] theorem State.setLaunch_fatals (s : State) (c : Nat) (x : Launch) : (s.setLaunch c x).fatals = s.fatals := rfl
@[simp] theorem State.setLaunch_grants (s : State) (c : Nat) (x : Launch) : (s.setLaunch c x).grants = s.grants := rfl
@[simp] theorem State.setLaunch_grantQ (s : State) (c : Nat) (x : Launch) : (s.setLaunch c x).grantQ = s.grantQ := rfl
@[simp] theorem State.setLaunch_outbox (s : State) (c : Nat) (x : Launch) : (s.setLaunch c x).outbox = s.outbox := rfl
@[simp] theorem State.setLaunch_remq (s : State) (c : Nat) (x : Launch) : (s.setLaunch c x).remq = s.remq := rfl
@[simp] theorem State.setLaunch_inbox (s : State) (c : Nat) (x : Launch) : (s.setLaunch c x).inbox = s.inbox := rfl
@[simp] theorem State.setLaunch_syArrs (s : State) (c : Nat) (x : Launch) : (s.setLaunch c x).syArrs = s.syArrs := rfl
@[simp] theorem State.setLaunch_links (s : State) (c : Nat) (x : Launch) : (s.setLaunch c x).links = s.links := rfl
@[simp] theorem State.setLaunch_irqs (s : State) (c : Nat) (x : Launch) : (s.setLaunch c x).irqs = s.irqs := rfl
@[simp] theorem State.setLaunch_rest (s : State) (c : Nat) (x : Launch) : (s.setLaunch c x).rest = s.rest := rfl
@[simp] theorem State.setLaunch_shut (s : State) (c : Nat) (x : Launch) : (s.setLaunch c x).shut = s.shut := rfl
@[simp] theorem State.setLaunch_feSeq (s : State) (c : Nat) (x : Launch) : (s.setLaunch c x).feSeq = s.feSeq := rfl
@[simp] theorem State.setLaunch_free (s : State) (c : Nat) (x : Launch) : (s.setLaunch c x).free = s.free := rfl
@[simp] theorem State.setLaunch_waitNo (s : State) (c : Nat) (x : Launch) : (s.setLaunch c x).waitNo = s.waitNo := rfl
@[simp] theorem State.setLaunch_cur (s : State) (c : Nat) (x : Launch) : (s.setLaunch c x).cur = s.cur := rfl
@[simp] theorem State.setLaunch_rr (s : State) (c : Nat) (x : Launch) : (s.setLaunch c x).rr = s.rr := rfl
@[simp] theorem State.setLaunch_agenda (s : State) (c : Nat) (x : Launch) : (s.setLaunch c x).agenda = s.agenda := rfl

/-! ## State.setTask -/

@[simp] theorem State.setTask_mem (s : State) (c : CoreId) (x : Task) : (s.setTask c x).mem = s.mem := rfl
@[simp] theorem State.setTask_cores (s : State) (c : CoreId) (x : Task) : (s.setTask c x).cores = s.cores.set c.val { s.core c with live := some x } := rfl
@[simp] theorem State.setTask_clusters (s : State) (c : CoreId) (x : Task) : (s.setTask c x).clusters = s.clusters := rfl
@[simp] theorem State.setTask_stackTab (s : State) (c : CoreId) (x : Task) : (s.setTask c x).stackTab = s.stackTab := rfl
@[simp] theorem State.setTask_ctxs (s : State) (c : CoreId) (x : Task) : (s.setTask c x).ctxs = s.ctxs := rfl
@[simp] theorem State.setTask_ns (s : State) (c : CoreId) (x : Task) : (s.setTask c x).ns = s.ns := rfl
@[simp] theorem State.setTask_live (s : State) (c : CoreId) (x : Task) : (s.setTask c x).live = s.live := rfl
@[simp] theorem State.setTask_pools (s : State) (c : CoreId) (x : Task) : (s.setTask c x).pools = s.pools := rfl
@[simp] theorem State.setTask_backed (s : State) (c : CoreId) (x : Task) : (s.setTask c x).backed = s.backed := rfl
@[simp] theorem State.setTask_poison (s : State) (c : CoreId) (x : Task) : (s.setTask c x).poison = s.poison := rfl
@[simp] theorem State.setTask_disp (s : State) (c : CoreId) (x : Task) : (s.setTask c x).disp = s.disp := rfl
@[simp] theorem State.setTask_sems (s : State) (c : CoreId) (x : Task) : (s.setTask c x).sems = s.sems := rfl
@[simp] theorem State.setTask_age (s : State) (c : CoreId) (x : Task) : (s.setTask c x).age = s.age := rfl
@[simp] theorem State.setTask_queues (s : State) (c : CoreId) (x : Task) : (s.setTask c x).queues = s.queues := rfl
@[simp] theorem State.setTask_lastStack (s : State) (c : CoreId) (x : Task) : (s.setTask c x).lastStack = s.lastStack := rfl
@[simp] theorem State.setTask_lastQ (s : State) (c : CoreId) (x : Task) : (s.setTask c x).lastQ = s.lastQ := rfl
@[simp] theorem State.setTask_hold (s : State) (c : CoreId) (x : Task) : (s.setTask c x).hold = s.hold := rfl
@[simp] theorem State.setTask_launches (s : State) (c : CoreId) (x : Task) : (s.setTask c x).launches = s.launches := rfl
@[simp] theorem State.setTask_nextLaunch (s : State) (c : CoreId) (x : Task) : (s.setTask c x).nextLaunch = s.nextLaunch := rfl
@[simp] theorem State.setTask_jobs (s : State) (c : CoreId) (x : Task) : (s.setTask c x).jobs = s.jobs := rfl
@[simp] theorem State.setTask_modid (s : State) (c : CoreId) (x : Task) : (s.setTask c x).modid = s.modid := rfl
@[simp] theorem State.setTask_wdogExp (s : State) (c : CoreId) (x : Task) : (s.setTask c x).wdogExp = s.wdogExp := rfl
@[simp] theorem State.setTask_wdogLeft (s : State) (c : CoreId) (x : Task) : (s.setTask c x).wdogLeft = s.wdogLeft := rfl
@[simp] theorem State.setTask_wdogRun (s : State) (c : CoreId) (x : Task) : (s.setTask c x).wdogRun = s.wdogRun := rfl
@[simp] theorem State.setTask_fwRun (s : State) (c : CoreId) (x : Task) : (s.setTask c x).fwRun = s.fwRun := rfl
@[simp] theorem State.setTask_pfsel (s : State) (c : CoreId) (x : Task) : (s.setTask c x).pfsel = s.pfsel := rfl
@[simp] theorem State.setTask_stage (s : State) (c : CoreId) (x : Task) : (s.setTask c x).stage = s.stage := rfl
@[simp] theorem State.setTask_bfail (s : State) (c : CoreId) (x : Task) : (s.setTask c x).bfail = s.bfail := rfl
@[simp] theorem State.setTask_rom (s : State) (c : CoreId) (x : Task) : (s.setTask c x).rom = s.rom := rfl
@[simp] theorem State.setTask_attBusy (s : State) (c : CoreId) (x : Task) : (s.setTask c x).attBusy = s.attBusy := rfl
@[simp] theorem State.setTask_attDone (s : State) (c : CoreId) (x : Task) : (s.setTask c x).attDone = s.attDone := rfl
@[simp] theorem State.setTask_attErr (s : State) (c : CoreId) (x : Task) : (s.setTask c x).attErr = s.attErr := rfl
@[simp] theorem State.setTask_attFrame (s : State) (c : CoreId) (x : Task) : (s.setTask c x).attFrame = s.attFrame := rfl
@[simp] theorem State.setTask_capbase (s : State) (c : CoreId) (x : Task) : (s.setTask c x).capbase = s.capbase := rfl
@[simp] theorem State.setTask_ports (s : State) (c : CoreId) (x : Task) : (s.setTask c x).ports = s.ports := rfl
@[simp] theorem State.setTask_rtab (s : State) (c : CoreId) (x : Task) : (s.setTask c x).rtab = s.rtab := rfl
@[simp] theorem State.setTask_dlPer (s : State) (c : CoreId) (x : Task) : (s.setTask c x).dlPer = s.dlPer := rfl
@[simp] theorem State.setTask_dlEn (s : State) (c : CoreId) (x : Task) : (s.setTask c x).dlEn = s.dlEn := rfl
@[simp] theorem State.setTask_dlVict (s : State) (c : CoreId) (x : Task) : (s.setTask c x).dlVict = s.dlVict := rfl
@[simp] theorem State.setTask_dlAt (s : State) (c : CoreId) (x : Task) : (s.setTask c x).dlAt = s.dlAt := rfl
@[simp] theorem State.setTask_drops (s : State) (c : CoreId) (x : Task) : (s.setTask c x).drops = s.drops := rfl
@[simp] theorem State.setTask_nextDrop (s : State) (c : CoreId) (x : Task) : (s.setTask c x).nextDrop = s.nextDrop := rfl
@[simp] theorem State.setTask_spared (s : State) (c : CoreId) (x : Task) : (s.setTask c x).spared = s.spared := rfl
@[simp] theorem State.setTask_spares (s : State) (c : CoreId) (x : Task) : (s.setTask c x).spares = s.spares := rfl
@[simp] theorem State.setTask_tests (s : State) (c : CoreId) (x : Task) : (s.setTask c x).tests = s.tests := rfl
@[simp] theorem State.setTask_regw (s : State) (c : CoreId) (x : Task) : (s.setTask c x).regw = s.regw := rfl
@[simp] theorem State.setTask_pwrites (s : State) (c : CoreId) (x : Task) : (s.setTask c x).pwrites = s.pwrites := rfl
@[simp] theorem State.setTask_fes (s : State) (c : CoreId) (x : Task) : (s.setTask c x).fes = s.fes := rfl
@[simp] theorem State.setTask_toks (s : State) (c : CoreId) (x : Task) : (s.setTask c x).toks = s.toks := rfl
@[simp] theorem State.setTask_arrs (s : State) (c : CoreId) (x : Task) : (s.setTask c x).arrs = s.arrs := rfl
@[simp] theorem State.setTask_rounds (s : State) (c : CoreId) (x : Task) : (s.setTask c x).rounds = s.rounds := rfl
@[simp] theorem State.setTask_amos (s : State) (c : CoreId) (x : Task) : (s.setTask c x).amos = s.amos := rfl
@[simp] theorem State.setTask_trigs (s : State) (c : CoreId) (x : Task) : (s.setTask c x).trigs = s.trigs := rfl
@[simp] theorem State.setTask_grows (s : State) (c : CoreId) (x : Task) : (s.setTask c x).grows = s.grows := rfl
@[simp] theorem State.setTask_fatals (s : State) (c : CoreId) (x : Task) : (s.setTask c x).fatals = s.fatals := rfl
@[simp] theorem State.setTask_grants (s : State) (c : CoreId) (x : Task) : (s.setTask c x).grants = s.grants := rfl
@[simp] theorem State.setTask_grantQ (s : State) (c : CoreId) (x : Task) : (s.setTask c x).grantQ = s.grantQ := rfl
@[simp] theorem State.setTask_outbox (s : State) (c : CoreId) (x : Task) : (s.setTask c x).outbox = s.outbox := rfl
@[simp] theorem State.setTask_remq (s : State) (c : CoreId) (x : Task) : (s.setTask c x).remq = s.remq := rfl
@[simp] theorem State.setTask_inbox (s : State) (c : CoreId) (x : Task) : (s.setTask c x).inbox = s.inbox := rfl
@[simp] theorem State.setTask_syArrs (s : State) (c : CoreId) (x : Task) : (s.setTask c x).syArrs = s.syArrs := rfl
@[simp] theorem State.setTask_links (s : State) (c : CoreId) (x : Task) : (s.setTask c x).links = s.links := rfl
@[simp] theorem State.setTask_irqs (s : State) (c : CoreId) (x : Task) : (s.setTask c x).irqs = s.irqs := rfl
@[simp] theorem State.setTask_rest (s : State) (c : CoreId) (x : Task) : (s.setTask c x).rest = s.rest := rfl
@[simp] theorem State.setTask_shut (s : State) (c : CoreId) (x : Task) : (s.setTask c x).shut = s.shut := rfl
@[simp] theorem State.setTask_feSeq (s : State) (c : CoreId) (x : Task) : (s.setTask c x).feSeq = s.feSeq := rfl
@[simp] theorem State.setTask_free (s : State) (c : CoreId) (x : Task) : (s.setTask c x).free = s.free := rfl
@[simp] theorem State.setTask_waitNo (s : State) (c : CoreId) (x : Task) : (s.setTask c x).waitNo = s.waitNo := rfl
@[simp] theorem State.setTask_cur (s : State) (c : CoreId) (x : Task) : (s.setTask c x).cur = s.cur := rfl
@[simp] theorem State.setTask_rr (s : State) (c : CoreId) (x : Task) : (s.setTask c x).rr = s.rr := rfl
@[simp] theorem State.setTask_agenda (s : State) (c : CoreId) (x : Task) : (s.setTask c x).agenda = s.agenda := rfl

/-! ## State.count -/

@[simp] theorem State.count_mem (s : State) (c : CtxId) (r n : Nat) : (s.count c r n).mem = s.mem := rfl
@[simp] theorem State.count_cores (s : State) (c : CtxId) (r n : Nat) : (s.count c r n).cores = s.cores := rfl
@[simp] theorem State.count_clusters (s : State) (c : CtxId) (r n : Nat) : (s.count c r n).clusters = s.clusters := rfl
@[simp] theorem State.count_stackTab (s : State) (c : CtxId) (r n : Nat) : (s.count c r n).stackTab = s.stackTab := rfl
@[simp] theorem State.count_ctxs (s : State) (c : CtxId) (r n : Nat) : (s.count c r n).ctxs = s.ctxs.set c.val ((s.ctx c).count r n) := rfl
@[simp] theorem State.count_ns (s : State) (c : CtxId) (r n : Nat) : (s.count c r n).ns = s.ns := rfl
@[simp] theorem State.count_live (s : State) (c : CtxId) (r n : Nat) : (s.count c r n).live = s.live := rfl
@[simp] theorem State.count_pools (s : State) (c : CtxId) (r n : Nat) : (s.count c r n).pools = s.pools := rfl
@[simp] theorem State.count_backed (s : State) (c : CtxId) (r n : Nat) : (s.count c r n).backed = s.backed := rfl
@[simp] theorem State.count_poison (s : State) (c : CtxId) (r n : Nat) : (s.count c r n).poison = s.poison := rfl
@[simp] theorem State.count_disp (s : State) (c : CtxId) (r n : Nat) : (s.count c r n).disp = s.disp := rfl
@[simp] theorem State.count_sems (s : State) (c : CtxId) (r n : Nat) : (s.count c r n).sems = s.sems := rfl
@[simp] theorem State.count_age (s : State) (c : CtxId) (r n : Nat) : (s.count c r n).age = s.age := rfl
@[simp] theorem State.count_queues (s : State) (c : CtxId) (r n : Nat) : (s.count c r n).queues = s.queues := rfl
@[simp] theorem State.count_lastStack (s : State) (c : CtxId) (r n : Nat) : (s.count c r n).lastStack = s.lastStack := rfl
@[simp] theorem State.count_lastQ (s : State) (c : CtxId) (r n : Nat) : (s.count c r n).lastQ = s.lastQ := rfl
@[simp] theorem State.count_hold (s : State) (c : CtxId) (r n : Nat) : (s.count c r n).hold = s.hold := rfl
@[simp] theorem State.count_launches (s : State) (c : CtxId) (r n : Nat) : (s.count c r n).launches = s.launches := rfl
@[simp] theorem State.count_nextLaunch (s : State) (c : CtxId) (r n : Nat) : (s.count c r n).nextLaunch = s.nextLaunch := rfl
@[simp] theorem State.count_jobs (s : State) (c : CtxId) (r n : Nat) : (s.count c r n).jobs = s.jobs := rfl
@[simp] theorem State.count_modid (s : State) (c : CtxId) (r n : Nat) : (s.count c r n).modid = s.modid := rfl
@[simp] theorem State.count_wdogExp (s : State) (c : CtxId) (r n : Nat) : (s.count c r n).wdogExp = s.wdogExp := rfl
@[simp] theorem State.count_wdogLeft (s : State) (c : CtxId) (r n : Nat) : (s.count c r n).wdogLeft = s.wdogLeft := rfl
@[simp] theorem State.count_wdogRun (s : State) (c : CtxId) (r n : Nat) : (s.count c r n).wdogRun = s.wdogRun := rfl
@[simp] theorem State.count_fwRun (s : State) (c : CtxId) (r n : Nat) : (s.count c r n).fwRun = s.fwRun := rfl
@[simp] theorem State.count_pfsel (s : State) (c : CtxId) (r n : Nat) : (s.count c r n).pfsel = s.pfsel := rfl
@[simp] theorem State.count_stage (s : State) (c : CtxId) (r n : Nat) : (s.count c r n).stage = s.stage := rfl
@[simp] theorem State.count_bfail (s : State) (c : CtxId) (r n : Nat) : (s.count c r n).bfail = s.bfail := rfl
@[simp] theorem State.count_rom (s : State) (c : CtxId) (r n : Nat) : (s.count c r n).rom = s.rom := rfl
@[simp] theorem State.count_attBusy (s : State) (c : CtxId) (r n : Nat) : (s.count c r n).attBusy = s.attBusy := rfl
@[simp] theorem State.count_attDone (s : State) (c : CtxId) (r n : Nat) : (s.count c r n).attDone = s.attDone := rfl
@[simp] theorem State.count_attErr (s : State) (c : CtxId) (r n : Nat) : (s.count c r n).attErr = s.attErr := rfl
@[simp] theorem State.count_attFrame (s : State) (c : CtxId) (r n : Nat) : (s.count c r n).attFrame = s.attFrame := rfl
@[simp] theorem State.count_capbase (s : State) (c : CtxId) (r n : Nat) : (s.count c r n).capbase = s.capbase := rfl
@[simp] theorem State.count_ports (s : State) (c : CtxId) (r n : Nat) : (s.count c r n).ports = s.ports := rfl
@[simp] theorem State.count_rtab (s : State) (c : CtxId) (r n : Nat) : (s.count c r n).rtab = s.rtab := rfl
@[simp] theorem State.count_dlPer (s : State) (c : CtxId) (r n : Nat) : (s.count c r n).dlPer = s.dlPer := rfl
@[simp] theorem State.count_dlEn (s : State) (c : CtxId) (r n : Nat) : (s.count c r n).dlEn = s.dlEn := rfl
@[simp] theorem State.count_dlVict (s : State) (c : CtxId) (r n : Nat) : (s.count c r n).dlVict = s.dlVict := rfl
@[simp] theorem State.count_dlAt (s : State) (c : CtxId) (r n : Nat) : (s.count c r n).dlAt = s.dlAt := rfl
@[simp] theorem State.count_drops (s : State) (c : CtxId) (r n : Nat) : (s.count c r n).drops = s.drops := rfl
@[simp] theorem State.count_nextDrop (s : State) (c : CtxId) (r n : Nat) : (s.count c r n).nextDrop = s.nextDrop := rfl
@[simp] theorem State.count_spared (s : State) (c : CtxId) (r n : Nat) : (s.count c r n).spared = s.spared := rfl
@[simp] theorem State.count_spares (s : State) (c : CtxId) (r n : Nat) : (s.count c r n).spares = s.spares := rfl
@[simp] theorem State.count_tests (s : State) (c : CtxId) (r n : Nat) : (s.count c r n).tests = s.tests := rfl
@[simp] theorem State.count_regw (s : State) (c : CtxId) (r n : Nat) : (s.count c r n).regw = s.regw := rfl
@[simp] theorem State.count_pwrites (s : State) (c : CtxId) (r n : Nat) : (s.count c r n).pwrites = s.pwrites := rfl
@[simp] theorem State.count_fes (s : State) (c : CtxId) (r n : Nat) : (s.count c r n).fes = s.fes := rfl
@[simp] theorem State.count_toks (s : State) (c : CtxId) (r n : Nat) : (s.count c r n).toks = s.toks := rfl
@[simp] theorem State.count_arrs (s : State) (c : CtxId) (r n : Nat) : (s.count c r n).arrs = s.arrs := rfl
@[simp] theorem State.count_rounds (s : State) (c : CtxId) (r n : Nat) : (s.count c r n).rounds = s.rounds := rfl
@[simp] theorem State.count_amos (s : State) (c : CtxId) (r n : Nat) : (s.count c r n).amos = s.amos := rfl
@[simp] theorem State.count_trigs (s : State) (c : CtxId) (r n : Nat) : (s.count c r n).trigs = s.trigs := rfl
@[simp] theorem State.count_grows (s : State) (c : CtxId) (r n : Nat) : (s.count c r n).grows = s.grows := rfl
@[simp] theorem State.count_fatals (s : State) (c : CtxId) (r n : Nat) : (s.count c r n).fatals = s.fatals := rfl
@[simp] theorem State.count_grants (s : State) (c : CtxId) (r n : Nat) : (s.count c r n).grants = s.grants := rfl
@[simp] theorem State.count_grantQ (s : State) (c : CtxId) (r n : Nat) : (s.count c r n).grantQ = s.grantQ := rfl
@[simp] theorem State.count_outbox (s : State) (c : CtxId) (r n : Nat) : (s.count c r n).outbox = s.outbox := rfl
@[simp] theorem State.count_remq (s : State) (c : CtxId) (r n : Nat) : (s.count c r n).remq = s.remq := rfl
@[simp] theorem State.count_inbox (s : State) (c : CtxId) (r n : Nat) : (s.count c r n).inbox = s.inbox := rfl
@[simp] theorem State.count_syArrs (s : State) (c : CtxId) (r n : Nat) : (s.count c r n).syArrs = s.syArrs := rfl
@[simp] theorem State.count_links (s : State) (c : CtxId) (r n : Nat) : (s.count c r n).links = s.links := rfl
@[simp] theorem State.count_irqs (s : State) (c : CtxId) (r n : Nat) : (s.count c r n).irqs = s.irqs := rfl
@[simp] theorem State.count_rest (s : State) (c : CtxId) (r n : Nat) : (s.count c r n).rest = s.rest := rfl
@[simp] theorem State.count_shut (s : State) (c : CtxId) (r n : Nat) : (s.count c r n).shut = s.shut := rfl
@[simp] theorem State.count_feSeq (s : State) (c : CtxId) (r n : Nat) : (s.count c r n).feSeq = s.feSeq := rfl
@[simp] theorem State.count_free (s : State) (c : CtxId) (r n : Nat) : (s.count c r n).free = s.free := rfl
@[simp] theorem State.count_waitNo (s : State) (c : CtxId) (r n : Nat) : (s.count c r n).waitNo = s.waitNo := rfl
@[simp] theorem State.count_cur (s : State) (c : CtxId) (r n : Nat) : (s.count c r n).cur = s.cur := rfl
@[simp] theorem State.count_rr (s : State) (c : CtxId) (r n : Nat) : (s.count c r n).rr = s.rr := rfl
@[simp] theorem State.count_agenda (s : State) (c : CtxId) (r n : Nat) : (s.count c r n).agenda = s.agenda := rfl

/-! ## State.interrupt -/

@[simp] theorem State.interrupt_mem (s : State) (i : Irq) : (s.interrupt i).mem = s.mem := rfl
@[simp] theorem State.interrupt_cores (s : State) (i : Irq) : (s.interrupt i).cores = s.cores := rfl
@[simp] theorem State.interrupt_clusters (s : State) (i : Irq) : (s.interrupt i).clusters = s.clusters := rfl
@[simp] theorem State.interrupt_stackTab (s : State) (i : Irq) : (s.interrupt i).stackTab = s.stackTab := rfl
@[simp] theorem State.interrupt_ctxs (s : State) (i : Irq) : (s.interrupt i).ctxs = s.ctxs := rfl
@[simp] theorem State.interrupt_ns (s : State) (i : Irq) : (s.interrupt i).ns = s.ns := rfl
@[simp] theorem State.interrupt_live (s : State) (i : Irq) : (s.interrupt i).live = s.live := rfl
@[simp] theorem State.interrupt_pools (s : State) (i : Irq) : (s.interrupt i).pools = s.pools := rfl
@[simp] theorem State.interrupt_backed (s : State) (i : Irq) : (s.interrupt i).backed = s.backed := rfl
@[simp] theorem State.interrupt_poison (s : State) (i : Irq) : (s.interrupt i).poison = s.poison := rfl
@[simp] theorem State.interrupt_disp (s : State) (i : Irq) : (s.interrupt i).disp = s.disp := rfl
@[simp] theorem State.interrupt_sems (s : State) (i : Irq) : (s.interrupt i).sems = s.sems := rfl
@[simp] theorem State.interrupt_age (s : State) (i : Irq) : (s.interrupt i).age = s.age := rfl
@[simp] theorem State.interrupt_queues (s : State) (i : Irq) : (s.interrupt i).queues = s.queues := rfl
@[simp] theorem State.interrupt_lastStack (s : State) (i : Irq) : (s.interrupt i).lastStack = s.lastStack := rfl
@[simp] theorem State.interrupt_lastQ (s : State) (i : Irq) : (s.interrupt i).lastQ = s.lastQ := rfl
@[simp] theorem State.interrupt_hold (s : State) (i : Irq) : (s.interrupt i).hold = s.hold := rfl
@[simp] theorem State.interrupt_launches (s : State) (i : Irq) : (s.interrupt i).launches = s.launches := rfl
@[simp] theorem State.interrupt_nextLaunch (s : State) (i : Irq) : (s.interrupt i).nextLaunch = s.nextLaunch := rfl
@[simp] theorem State.interrupt_jobs (s : State) (i : Irq) : (s.interrupt i).jobs = s.jobs := rfl
@[simp] theorem State.interrupt_modid (s : State) (i : Irq) : (s.interrupt i).modid = s.modid := rfl
@[simp] theorem State.interrupt_wdogExp (s : State) (i : Irq) : (s.interrupt i).wdogExp = s.wdogExp := rfl
@[simp] theorem State.interrupt_wdogLeft (s : State) (i : Irq) : (s.interrupt i).wdogLeft = s.wdogLeft := rfl
@[simp] theorem State.interrupt_wdogRun (s : State) (i : Irq) : (s.interrupt i).wdogRun = s.wdogRun := rfl
@[simp] theorem State.interrupt_fwRun (s : State) (i : Irq) : (s.interrupt i).fwRun = s.fwRun := rfl
@[simp] theorem State.interrupt_pfsel (s : State) (i : Irq) : (s.interrupt i).pfsel = s.pfsel := rfl
@[simp] theorem State.interrupt_stage (s : State) (i : Irq) : (s.interrupt i).stage = s.stage := rfl
@[simp] theorem State.interrupt_bfail (s : State) (i : Irq) : (s.interrupt i).bfail = s.bfail := rfl
@[simp] theorem State.interrupt_rom (s : State) (i : Irq) : (s.interrupt i).rom = s.rom := rfl
@[simp] theorem State.interrupt_attBusy (s : State) (i : Irq) : (s.interrupt i).attBusy = s.attBusy := rfl
@[simp] theorem State.interrupt_attDone (s : State) (i : Irq) : (s.interrupt i).attDone = s.attDone := rfl
@[simp] theorem State.interrupt_attErr (s : State) (i : Irq) : (s.interrupt i).attErr = s.attErr := rfl
@[simp] theorem State.interrupt_attFrame (s : State) (i : Irq) : (s.interrupt i).attFrame = s.attFrame := rfl
@[simp] theorem State.interrupt_capbase (s : State) (i : Irq) : (s.interrupt i).capbase = s.capbase := rfl
@[simp] theorem State.interrupt_ports (s : State) (i : Irq) : (s.interrupt i).ports = s.ports := rfl
@[simp] theorem State.interrupt_rtab (s : State) (i : Irq) : (s.interrupt i).rtab = s.rtab := rfl
@[simp] theorem State.interrupt_dlPer (s : State) (i : Irq) : (s.interrupt i).dlPer = s.dlPer := rfl
@[simp] theorem State.interrupt_dlEn (s : State) (i : Irq) : (s.interrupt i).dlEn = s.dlEn := rfl
@[simp] theorem State.interrupt_dlVict (s : State) (i : Irq) : (s.interrupt i).dlVict = s.dlVict := rfl
@[simp] theorem State.interrupt_dlAt (s : State) (i : Irq) : (s.interrupt i).dlAt = s.dlAt := rfl
@[simp] theorem State.interrupt_drops (s : State) (i : Irq) : (s.interrupt i).drops = s.drops := rfl
@[simp] theorem State.interrupt_nextDrop (s : State) (i : Irq) : (s.interrupt i).nextDrop = s.nextDrop := rfl
@[simp] theorem State.interrupt_spared (s : State) (i : Irq) : (s.interrupt i).spared = s.spared := rfl
@[simp] theorem State.interrupt_spares (s : State) (i : Irq) : (s.interrupt i).spares = s.spares := rfl
@[simp] theorem State.interrupt_tests (s : State) (i : Irq) : (s.interrupt i).tests = s.tests := rfl
@[simp] theorem State.interrupt_regw (s : State) (i : Irq) : (s.interrupt i).regw = s.regw := rfl
@[simp] theorem State.interrupt_pwrites (s : State) (i : Irq) : (s.interrupt i).pwrites = s.pwrites := rfl
@[simp] theorem State.interrupt_fes (s : State) (i : Irq) : (s.interrupt i).fes = s.fes := rfl
@[simp] theorem State.interrupt_toks (s : State) (i : Irq) : (s.interrupt i).toks = s.toks := rfl
@[simp] theorem State.interrupt_arrs (s : State) (i : Irq) : (s.interrupt i).arrs = s.arrs := rfl
@[simp] theorem State.interrupt_rounds (s : State) (i : Irq) : (s.interrupt i).rounds = s.rounds := rfl
@[simp] theorem State.interrupt_amos (s : State) (i : Irq) : (s.interrupt i).amos = s.amos := rfl
@[simp] theorem State.interrupt_trigs (s : State) (i : Irq) : (s.interrupt i).trigs = s.trigs := rfl
@[simp] theorem State.interrupt_grows (s : State) (i : Irq) : (s.interrupt i).grows = s.grows := rfl
@[simp] theorem State.interrupt_fatals (s : State) (i : Irq) : (s.interrupt i).fatals = s.fatals := rfl
@[simp] theorem State.interrupt_grants (s : State) (i : Irq) : (s.interrupt i).grants = s.grants := rfl
@[simp] theorem State.interrupt_grantQ (s : State) (i : Irq) : (s.interrupt i).grantQ = s.grantQ := rfl
@[simp] theorem State.interrupt_outbox (s : State) (i : Irq) : (s.interrupt i).outbox = s.outbox := rfl
@[simp] theorem State.interrupt_remq (s : State) (i : Irq) : (s.interrupt i).remq = s.remq := rfl
@[simp] theorem State.interrupt_inbox (s : State) (i : Irq) : (s.interrupt i).inbox = s.inbox := rfl
@[simp] theorem State.interrupt_syArrs (s : State) (i : Irq) : (s.interrupt i).syArrs = s.syArrs := rfl
@[simp] theorem State.interrupt_links (s : State) (i : Irq) : (s.interrupt i).links = s.links := rfl
@[simp] theorem State.interrupt_irqs (s : State) (i : Irq) : (s.interrupt i).irqs = s.irqs ++ [i] := rfl
@[simp] theorem State.interrupt_rest (s : State) (i : Irq) : (s.interrupt i).rest = s.rest := rfl
@[simp] theorem State.interrupt_shut (s : State) (i : Irq) : (s.interrupt i).shut = s.shut := rfl
@[simp] theorem State.interrupt_feSeq (s : State) (i : Irq) : (s.interrupt i).feSeq = s.feSeq := rfl
@[simp] theorem State.interrupt_free (s : State) (i : Irq) : (s.interrupt i).free = s.free := rfl
@[simp] theorem State.interrupt_waitNo (s : State) (i : Irq) : (s.interrupt i).waitNo = s.waitNo := rfl
@[simp] theorem State.interrupt_cur (s : State) (i : Irq) : (s.interrupt i).cur = s.cur := rfl
@[simp] theorem State.interrupt_rr (s : State) (i : Irq) : (s.interrupt i).rr = s.rr := rfl
@[simp] theorem State.interrupt_agenda (s : State) (i : Irq) : (s.interrupt i).agenda = s.agenda := rfl

/-! ## Reading a part after a replacement -/

@[simp] theorem State.setCore_cluster (s : State) (c : CoreId) (x : CoreS) (d : ClusterId) : (s.setCore c x).cluster d = s.cluster d := rfl
@[simp] theorem State.setCore_stack (s : State) (c : CoreId) (x : CoreS) (d : StackId) : (s.setCore c x).stack d = s.stack d := rfl
@[simp] theorem State.setCore_ctx (s : State) (c : CoreId) (x : CoreS) (d : CtxId) : (s.setCore c x).ctx d = s.ctx d := rfl
@[simp] theorem State.setCore_queue (s : State) (c : CoreId) (x : CoreS) (d : QueueId) : (s.setCore c x).queue d = s.queue d := rfl
@[simp] theorem State.setCore_sem (s : State) (c : CoreId) (x : CoreS) (d : SemId) : (s.setCore c x).sem d = s.sem d := rfl
@[simp] theorem State.setCore_launch (s : State) (c : CoreId) (x : CoreS) (d : Nat) : (s.setCore c x).launch? d = s.launch? d := rfl
@[simp] theorem State.setCluster_core (s : State) (c : ClusterId) (x : ClusterS) (d : CoreId) : (s.setCluster c x).core d = s.core d := rfl
@[simp] theorem State.setCluster_stack (s : State) (c : ClusterId) (x : ClusterS) (d : StackId) : (s.setCluster c x).stack d = s.stack d := rfl
@[simp] theorem State.setCluster_ctx (s : State) (c : ClusterId) (x : ClusterS) (d : CtxId) : (s.setCluster c x).ctx d = s.ctx d := rfl
@[simp] theorem State.setCluster_queue (s : State) (c : ClusterId) (x : ClusterS) (d : QueueId) : (s.setCluster c x).queue d = s.queue d := rfl
@[simp] theorem State.setCluster_sem (s : State) (c : ClusterId) (x : ClusterS) (d : SemId) : (s.setCluster c x).sem d = s.sem d := rfl
@[simp] theorem State.setCluster_launch (s : State) (c : ClusterId) (x : ClusterS) (d : Nat) : (s.setCluster c x).launch? d = s.launch? d := rfl
@[simp] theorem State.setCluster_task (s : State) (c : ClusterId) (x : ClusterS) (d : CoreId) : (s.setCluster c x).task? d = s.task? d := rfl
@[simp] theorem State.setStack_core (s : State) (c : StackId) (x : StackS) (d : CoreId) : (s.setStack c x).core d = s.core d := rfl
@[simp] theorem State.setStack_cluster (s : State) (c : StackId) (x : StackS) (d : ClusterId) : (s.setStack c x).cluster d = s.cluster d := rfl
@[simp] theorem State.setStack_ctx (s : State) (c : StackId) (x : StackS) (d : CtxId) : (s.setStack c x).ctx d = s.ctx d := rfl
@[simp] theorem State.setStack_queue (s : State) (c : StackId) (x : StackS) (d : QueueId) : (s.setStack c x).queue d = s.queue d := rfl
@[simp] theorem State.setStack_sem (s : State) (c : StackId) (x : StackS) (d : SemId) : (s.setStack c x).sem d = s.sem d := rfl
@[simp] theorem State.setStack_launch (s : State) (c : StackId) (x : StackS) (d : Nat) : (s.setStack c x).launch? d = s.launch? d := rfl
@[simp] theorem State.setStack_task (s : State) (c : StackId) (x : StackS) (d : CoreId) : (s.setStack c x).task? d = s.task? d := rfl
@[simp] theorem State.setCtx_core (s : State) (c : CtxId) (x : CtxS) (d : CoreId) : (s.setCtx c x).core d = s.core d := rfl
@[simp] theorem State.setCtx_cluster (s : State) (c : CtxId) (x : CtxS) (d : ClusterId) : (s.setCtx c x).cluster d = s.cluster d := rfl
@[simp] theorem State.setCtx_stack (s : State) (c : CtxId) (x : CtxS) (d : StackId) : (s.setCtx c x).stack d = s.stack d := rfl
@[simp] theorem State.setCtx_queue (s : State) (c : CtxId) (x : CtxS) (d : QueueId) : (s.setCtx c x).queue d = s.queue d := rfl
@[simp] theorem State.setCtx_sem (s : State) (c : CtxId) (x : CtxS) (d : SemId) : (s.setCtx c x).sem d = s.sem d := rfl
@[simp] theorem State.setCtx_launch (s : State) (c : CtxId) (x : CtxS) (d : Nat) : (s.setCtx c x).launch? d = s.launch? d := rfl
@[simp] theorem State.setCtx_task (s : State) (c : CtxId) (x : CtxS) (d : CoreId) : (s.setCtx c x).task? d = s.task? d := rfl
@[simp] theorem State.setQueue_core (s : State) (c : QueueId) (x : QueueS) (d : CoreId) : (s.setQueue c x).core d = s.core d := rfl
@[simp] theorem State.setQueue_cluster (s : State) (c : QueueId) (x : QueueS) (d : ClusterId) : (s.setQueue c x).cluster d = s.cluster d := rfl
@[simp] theorem State.setQueue_stack (s : State) (c : QueueId) (x : QueueS) (d : StackId) : (s.setQueue c x).stack d = s.stack d := rfl
@[simp] theorem State.setQueue_ctx (s : State) (c : QueueId) (x : QueueS) (d : CtxId) : (s.setQueue c x).ctx d = s.ctx d := rfl
@[simp] theorem State.setQueue_sem (s : State) (c : QueueId) (x : QueueS) (d : SemId) : (s.setQueue c x).sem d = s.sem d := rfl
@[simp] theorem State.setQueue_launch (s : State) (c : QueueId) (x : QueueS) (d : Nat) : (s.setQueue c x).launch? d = s.launch? d := rfl
@[simp] theorem State.setQueue_task (s : State) (c : QueueId) (x : QueueS) (d : CoreId) : (s.setQueue c x).task? d = s.task? d := rfl
@[simp] theorem State.setSem_core (s : State) (c : SemId) (x : SemS) (d : CoreId) : (s.setSem c x).core d = s.core d := rfl
@[simp] theorem State.setSem_cluster (s : State) (c : SemId) (x : SemS) (d : ClusterId) : (s.setSem c x).cluster d = s.cluster d := rfl
@[simp] theorem State.setSem_stack (s : State) (c : SemId) (x : SemS) (d : StackId) : (s.setSem c x).stack d = s.stack d := rfl
@[simp] theorem State.setSem_ctx (s : State) (c : SemId) (x : SemS) (d : CtxId) : (s.setSem c x).ctx d = s.ctx d := rfl
@[simp] theorem State.setSem_queue (s : State) (c : SemId) (x : SemS) (d : QueueId) : (s.setSem c x).queue d = s.queue d := rfl
@[simp] theorem State.setSem_launch (s : State) (c : SemId) (x : SemS) (d : Nat) : (s.setSem c x).launch? d = s.launch? d := rfl
@[simp] theorem State.setSem_task (s : State) (c : SemId) (x : SemS) (d : CoreId) : (s.setSem c x).task? d = s.task? d := rfl
@[simp] theorem State.setLaunch_core (s : State) (c : Nat) (x : Launch) (d : CoreId) : (s.setLaunch c x).core d = s.core d := rfl
@[simp] theorem State.setLaunch_cluster (s : State) (c : Nat) (x : Launch) (d : ClusterId) : (s.setLaunch c x).cluster d = s.cluster d := rfl
@[simp] theorem State.setLaunch_stack (s : State) (c : Nat) (x : Launch) (d : StackId) : (s.setLaunch c x).stack d = s.stack d := rfl
@[simp] theorem State.setLaunch_ctx (s : State) (c : Nat) (x : Launch) (d : CtxId) : (s.setLaunch c x).ctx d = s.ctx d := rfl
@[simp] theorem State.setLaunch_queue (s : State) (c : Nat) (x : Launch) (d : QueueId) : (s.setLaunch c x).queue d = s.queue d := rfl
@[simp] theorem State.setLaunch_sem (s : State) (c : Nat) (x : Launch) (d : SemId) : (s.setLaunch c x).sem d = s.sem d := rfl
@[simp] theorem State.setLaunch_task (s : State) (c : Nat) (x : Launch) (d : CoreId) : (s.setLaunch c x).task? d = s.task? d := rfl
@[simp] theorem State.setTask_cluster (s : State) (c : CoreId) (x : Task) (d : ClusterId) : (s.setTask c x).cluster d = s.cluster d := rfl
@[simp] theorem State.setTask_stack (s : State) (c : CoreId) (x : Task) (d : StackId) : (s.setTask c x).stack d = s.stack d := rfl
@[simp] theorem State.setTask_ctx (s : State) (c : CoreId) (x : Task) (d : CtxId) : (s.setTask c x).ctx d = s.ctx d := rfl
@[simp] theorem State.setTask_queue (s : State) (c : CoreId) (x : Task) (d : QueueId) : (s.setTask c x).queue d = s.queue d := rfl
@[simp] theorem State.setTask_sem (s : State) (c : CoreId) (x : Task) (d : SemId) : (s.setTask c x).sem d = s.sem d := rfl
@[simp] theorem State.setTask_launch (s : State) (c : CoreId) (x : Task) (d : Nat) : (s.setTask c x).launch? d = s.launch? d := rfl
@[simp] theorem State.count_core (s : State) (c : CtxId) (r n : Nat) (d : CoreId) : (s.count c r n).core d = s.core d := rfl
@[simp] theorem State.count_cluster (s : State) (c : CtxId) (r n : Nat) (d : ClusterId) : (s.count c r n).cluster d = s.cluster d := rfl
@[simp] theorem State.count_stack (s : State) (c : CtxId) (r n : Nat) (d : StackId) : (s.count c r n).stack d = s.stack d := rfl
@[simp] theorem State.count_queue (s : State) (c : CtxId) (r n : Nat) (d : QueueId) : (s.count c r n).queue d = s.queue d := rfl
@[simp] theorem State.count_sem (s : State) (c : CtxId) (r n : Nat) (d : SemId) : (s.count c r n).sem d = s.sem d := rfl
@[simp] theorem State.count_launch (s : State) (c : CtxId) (r n : Nat) (d : Nat) : (s.count c r n).launch? d = s.launch? d := rfl
@[simp] theorem State.count_task (s : State) (c : CtxId) (r n : Nat) (d : CoreId) : (s.count c r n).task? d = s.task? d := rfl
@[simp] theorem State.interrupt_core (s : State) (i : Irq) (d : CoreId) : (s.interrupt i).core d = s.core d := rfl
@[simp] theorem State.interrupt_cluster (s : State) (i : Irq) (d : ClusterId) : (s.interrupt i).cluster d = s.cluster d := rfl
@[simp] theorem State.interrupt_stack (s : State) (i : Irq) (d : StackId) : (s.interrupt i).stack d = s.stack d := rfl
@[simp] theorem State.interrupt_ctx (s : State) (i : Irq) (d : CtxId) : (s.interrupt i).ctx d = s.ctx d := rfl
@[simp] theorem State.interrupt_queue (s : State) (i : Irq) (d : QueueId) : (s.interrupt i).queue d = s.queue d := rfl
@[simp] theorem State.interrupt_sem (s : State) (i : Irq) (d : SemId) : (s.interrupt i).sem d = s.sem d := rfl
@[simp] theorem State.interrupt_launch (s : State) (i : Irq) (d : Nat) : (s.interrupt i).launch? d = s.launch? d := rfl
@[simp] theorem State.interrupt_task (s : State) (i : Irq) (d : CoreId) : (s.interrupt i).task? d = s.task? d := rfl

/-- The part replaced reads as its new value, every other part as before. -/
theorem State.setCore_core_of (s : State) (c d : CoreId) (x : CoreS) : (s.setCore c x).core d = if d = c then x else s.core d := by
  simp only [State.setCore, State.core, Tab.get_set, Fin.val_inj]

@[simp] theorem State.setCore_core_same (s : State) (c : CoreId) (x : CoreS) : (s.setCore c x).core c = x := by simp [State.setCore_core_of]

/-- The part replaced reads as its new value, every other part as before. -/
theorem State.setCluster_cluster_of (s : State) (c d : ClusterId) (x : ClusterS) : (s.setCluster c x).cluster d = if d = c then x else s.cluster d := by
  simp only [State.setCluster, State.cluster, Tab.get_set, Fin.val_inj]

@[simp] theorem State.setCluster_cluster_same (s : State) (c : ClusterId) (x : ClusterS) : (s.setCluster c x).cluster c = x := by simp [State.setCluster_cluster_of]

/-- The part replaced reads as its new value, every other part as before. -/
theorem State.setStack_stack_of (s : State) (c d : StackId) (x : StackS) : (s.setStack c x).stack d = if d = c then x else s.stack d := by
  simp only [State.setStack, State.stack, Tab.get_set, Fin.val_inj]

@[simp] theorem State.setStack_stack_same (s : State) (c : StackId) (x : StackS) : (s.setStack c x).stack c = x := by simp [State.setStack_stack_of]

/-- The part replaced reads as its new value, every other part as before. -/
theorem State.setCtx_ctx_of (s : State) (c d : CtxId) (x : CtxS) : (s.setCtx c x).ctx d = if d = c then x else s.ctx d := by
  simp only [State.setCtx, State.ctx, Tab.get_set, Fin.val_inj]

@[simp] theorem State.setCtx_ctx_same (s : State) (c : CtxId) (x : CtxS) : (s.setCtx c x).ctx c = x := by simp [State.setCtx_ctx_of]

/-- The part replaced reads as its new value, every other part as before. -/
theorem State.setQueue_queue_of (s : State) (c d : QueueId) (x : QueueS) : (s.setQueue c x).queue d = if d = c then x else s.queue d := by
  simp only [State.setQueue, State.queue, Tab.get_set, Fin.val_inj]

@[simp] theorem State.setQueue_queue_same (s : State) (c : QueueId) (x : QueueS) : (s.setQueue c x).queue c = x := by simp [State.setQueue_queue_of]

/-- The part replaced reads as its new value, every other part as before. -/
theorem State.setSem_sem_of (s : State) (c d : SemId) (x : SemS) : (s.setSem c x).sem d = if d = c then x else s.sem d := by
  simp only [State.setSem, State.sem, Tab.get_set, Fin.val_inj]

@[simp] theorem State.setSem_sem_same (s : State) (c : SemId) (x : SemS) : (s.setSem c x).sem c = x := by simp [State.setSem_sem_of]

/-- A launch replaced is found; every other is as before. -/
theorem State.setLaunch_launch_of (s : State) (c d : Nat) (x : Launch) :
    (s.setLaunch c x).launch? d = if d = c then some x else s.launch? d := by
  simp only [State.setLaunch, State.launch?, Tab.find_set]

/-- The task replaced is the core's current task; every other core's task is as before. -/
theorem State.setTask_task_of (s : State) (c d : CoreId) (t : Task) :
    (s.setTask c t).task? d = if d = c then some t else s.task? d := by
  simp only [State.setTask, State.task?, State.setCore_core_of]
  split <;> simp_all

@[simp] theorem State.setTask_task_same (s : State) (c : CoreId) (t : Task) : (s.setTask c t).task? c = some t := by
  simp [State.setTask_task_of]

/-- Replacing a task leaves every other core as it was. -/
theorem State.setTask_core_of (s : State) (c d : CoreId) (t : Task) :
    (s.setTask c t).core d = if d = c then { s.core c with live := some t } else s.core d := by
  simp only [State.setTask, State.setCore_core_of]

end Sys2Proof.Machine
end

