-- ==== Sys2Proof/Laws/Ops.lean ====
section
/-! SUPPORT. What the shared operations do, said once: issuing a syllable, taking a fatal error or a recoverable event, putting
results in flight and landing them. -/

namespace Sys2Proof.Machine

/-! ## Issuing a syllable -/

/-- Where the guard of a syllable passes, it acts on its task. -/
theorem State.issue_of_issues (s : State) (t : Task) (g : Guard) (f : Task → Task) (h : Issues s t g) :
    s.issue g f = .next (s.setTask s.cur (f t)) := by
  simp [State.issue, h.current, h.passes]

/-- Where the guard of a syllable passes, it acts on the state. -/
theorem State.issueS_of_issues (s : State) (t : Task) (g : Guard) (f : Task → State) (h : Issues s t g) :
    s.issueS g f = .next (f t) := by
  simp [State.issueS, h.current, h.passes]

/-- A syllable on its task acts, where its task's guard passes, or changes nothing. -/
theorem State.issue_cases (s u : State) (g : Guard) (f : Task → Task) (h : s.issue g f = .next u) :
    (∃ t, Issues s t g ∧ u = s.setTask s.cur (f t)) ∨ (u = s ∧ ∀ t, s.task? s.cur = some t → t.passes g = false) := by
  unfold State.issue at h
  split at h
  · rename_i t ht
    split at h
    · rename_i hp
      exact .inl ⟨t, ⟨ht, hp⟩, (Host.Outcome.next.inj h).symm⟩
    · rename_i hp
      exact .inr ⟨(Host.Outcome.next.inj h).symm, fun v hv => by rw [ht] at hv; cases hv; simpa using hp⟩
  · rename_i ht
    exact .inr ⟨(Host.Outcome.next.inj h).symm, fun v hv => by rw [ht] at hv; cases hv⟩

theorem State.issueS_cases (s u : State) (g : Guard) (f : Task → State) (h : s.issueS g f = .next u) :
    (∃ t, Issues s t g ∧ u = f t) ∨ (u = s ∧ ∀ t, s.task? s.cur = some t → t.passes g = false) := by
  unfold State.issueS at h
  split at h
  · rename_i t ht
    split at h
    · rename_i hp
      exact .inl ⟨t, ⟨ht, hp⟩, (Host.Outcome.next.inj h).symm⟩
    · rename_i hp
      exact .inr ⟨(Host.Outcome.next.inj h).symm, fun v hv => by rw [ht] at hv; cases hv; simpa using hp⟩
  · rename_i ht
    exact .inr ⟨(Host.Outcome.next.inj h).symm, fun v hv => by rw [ht] at hv; cases hv⟩

/-- Neither ever stops the machine. -/
theorem State.issue_next (s : State) (g : Guard) (f : Task → Task) : ∃ u, s.issue g f = .next u := by
  unfold State.issue; split
  · split <;> exact ⟨_, rfl⟩
  · exact ⟨_, rfl⟩

theorem State.issueS_next (s : State) (g : Guard) (f : Task → State) : ∃ u, s.issueS g f = .next u := by
  unfold State.issueS; split
  · split <;> exact ⟨_, rfl⟩
  · exact ⟨_, rfl⟩

/-! ## Fatal errors and recoverable events -/

@[simp] theorem State.raiseFatal_fatals (s : State) (c : CoreId) (t : Task) (code slot : Nat) (syl va d : Word) :
    (s.raiseFatal c t code slot syl va d).fatals = s.fatals ++ [s.fatalOf c t code slot syl va d] := rfl

@[simp] theorem State.raiseFatal_mem (s : State) (c : CoreId) (t : Task) (code slot : Nat) (syl va d : Word) :
    (s.raiseFatal c t code slot syl va d).mem = s.mem := rfl

/-- A fatal error marks its task as failed and changes no other task. -/
theorem State.raiseFatal_task (s : State) (c d : CoreId) (t : Task) (code slot : Nat) (syl va x : Word) :
    (s.raiseFatal c t code slot syl va x).task? d = if d = c then some { t with failed := true } else s.task? d := by
  simp only [State.raiseFatal, State.setTask_task_of]
  split <;> rfl

@[simp] theorem State.fatalAt_mem (s : State) (c : CoreId) (code slot : Nat) (syl va d : Word) :
    (s.fatalAt c code slot syl va d).mem = s.mem := by
  unfold State.fatalAt; split <;> simp

@[simp] theorem State.fatalFor_mem (s : State) (c : CoreId) (x : CtxId) (l : Nat) (co : BitVec 48) (fp : BitVec 32) (code slot : Nat)
    (ag : BitVec 32) (va d : Word) : (s.fatalFor c x l co fp code slot ag va d).mem = s.mem := rfl

/-- A recoverable event suspends its task with a record delivered to the fault buffer, or is held unwritten and counted. -/
theorem State.raiseEvent_cases (s : State) (c : CoreId) (t : Task) (kind : Nat) (info : Word) :
    (∃ x e, (s.stack (stackOf c)).putFault (eventRecord kind t.ctx.val c.val (t.events + 1#32) t.coord info
        (t.fpos.setWidth 32) (s.lid t.launch)) = some (x, e) ∧
      s.raiseEvent c t kind info = (s.setStack (stackOf c) x).setTask c
        { t with events := t.events + 1#32, event := some ⟨kind, e, info, t.events + 1#32, false, false, 0#64⟩, suspend := true }) ∨
    (s.raiseEvent c t kind info = ((s.count t.ctx ctrFBOVF 1).interrupt (.faultBuffer (stackOf c))).setTask c
        { t with events := t.events + 1#32, event := some ⟨kind, 4096, info, t.events + 1#32, false, false, 0#64⟩ }) := by
  unfold State.raiseEvent
  dsimp only
  split
  · rename_i x e h
    exact .inl ⟨x, e, h, rfl⟩
  · exact .inr rfl

@[simp] theorem State.raiseEvent_mem (s : State) (c : CoreId) (t : Task) (kind : Nat) (info : Word) :
    (s.raiseEvent c t kind info).mem = s.mem := by
  unfold State.raiseEvent
  dsimp only
  split <;> simp

/-! ## Results in flight -/

@[simp] theorem Task.put_regs (t : Task) (n : Nat) (d : Dest) (v : Vec) (fl : BitVec 7) : (t.put n d v fl).regs = t.regs := rfl
@[simp] theorem Task.put_fstat (t : Task) (n : Nat) (d : Dest) (v : Vec) (fl : BitVec 7) : (t.put n d v fl).fstat = t.fstat := rfl
@[simp] theorem Task.put_flight (t : Task) (n : Nat) (d : Dest) (v : Vec) (fl : BitVec 7) :
    (t.put n d v fl).flight = t.flight ++ [⟨n, t.ord, d, v, fl, t.regs.destDead d, false, false, false⟩] := rfl
@[simp] theorem Task.put_pend (t : Task) (n : Nat) (d : Dest) (v : Vec) (fl : BitVec 7) : (t.put n d v fl).pend = t.pend := rfl
@[simp] theorem Task.putPend_regs (t : Task) (d : Dest) (k : PendKind) (v : Option Vec) : (t.putPend d k v).regs = t.regs := rfl
@[simp] theorem Task.putPend_flight (t : Task) (d : Dest) (k : PendKind) (v : Option Vec) :
    (t.putPend d k v).flight = t.flight := rfl

/-- With nothing due, the end of an issue cycle only brings every result one cycle nearer. -/
theorem Task.landDue_of_none (t : Task) (h : ∀ f ∈ t.flight, 2 ≤ f.rem) :
    t.landDue = { t with flight := t.flight.map (fun f => { f with rem := f.rem - 1 }) } := by
  have hz : ∀ f ∈ t.flight.map (fun f => { f with rem := f.rem - 1 }), f.rem ≠ 0 := by
    intro f hf
    obtain ⟨g, hg, rfl⟩ := List.mem_map.mp hf
    have := h g hg
    simp only
    omega
  have hl : t.age.lateNow = false := by
    simp only [Task.lateNow, Task.age, List.any_eq_false]
    intro f hf
    simp [hz f hf]
  have hd : t.age.flight.filter (fun f => f.rem == 0) = [] := by
    simp only [Task.age, List.filter_eq_nil_iff]
    intro f hf
    simp [hz f hf]
  have hk : t.age.flight.filter (fun f => f.rem != 0) = t.age.flight := by
    simp only [Task.age, List.filter_eq_self]
    intro f hf
    simp [hz f hf]
  simp only [Task.landDue, Task.landReady, hl, hd, hk, Bool.false_eq_true, if_false, List.filter_nil, List.append_nil,
    List.foldl_nil]
  rfl

/-- A landing writes its register and latch, ORs its flags into FSTAT, marks or clears the poison of its register, and changes nothing
else of the task. -/
theorem Task.land_eq (t : Task) (f : Flight) :
    t.land f = { t with
      regs := (if f.dead then t.regs else t.regs.write f.dest f.val).latchLand f.dest f.val
      fstat := t.fstat ||| f.fl
      bad := if f.bad then (f.dest, 0) :: t.bad.filter (fun e => e.1 != f.dest) else t.bad.filter (fun e => e.1 != f.dest) } := rfl

end Sys2Proof.Machine
end

