-- ==== Sys2Proof/Laws/Home.lean ====
section
/-! SUPPORT. Writes at their home, lines that enter and leave an L2, freed lines, leaf entries and pages that are backed keep memory
in its canonical form. -/

namespace Sys2Proof.Machine

/-! ## Operations that leave memory alone -/

@[simp] theorem State.setMemBad_mem (s : State) (n : Nat) (b : BitVec 16) : (s.setMemBad n b).mem = s.mem := rfl
@[simp] theorem State.addUsed_mem (s : State) (st : StackId) (x : CtxId) (n : Int) : (s.addUsed st x n).mem = s.mem := rfl
@[simp] theorem State.dropTlbs_mem (s : State) (p : TlbEnt → Bool) : (s.dropTlbs p).mem = s.mem := rfl
@[simp] theorem State.rehomeWrites_mem (s : State) (p : Nat) (h : StackId) : (s.rehomeWrites p h).mem = s.mem := rfl

@[simp] theorem State.setBacked_mem (s : State) (p : Nat) (e : Word) : (s.setBacked p e).mem = s.mem := rfl

@[simp] theorem State.chargeWriter_mem (s : State) (w : Option CtxId) : (s.chargeWriter w).mem = s.mem := by
  cases w <;> rfl

@[simp] theorem State.countLine_mem (s : State) (l : LiveLine) (n : Int) : (s.countLine l n).mem = s.mem := by
  unfold State.countLine
  dsimp only
  split <;> rfl

@[simp] theorem State.makeLive_mem (s : State) (n : Nat) (l : LiveLine) : (s.makeLive n l).mem = s.mem := by
  simp [State.makeLive]

@[simp] theorem State.moveRecs_mem (s : State) (a b : StackId) (base n : Nat) : (s.moveRecs a b base n).mem = s.mem := by
  unfold State.moveRecs
  split <;> rfl

theorem State.takeFrame_mem (s u : State) (die z f : Nat) (h : s.takeFrame die z = some (f, u)) : u.mem = s.mem := by
  unfold State.takeFrame at h
  split at h
  · cases h; rfl
  · cases h

theorem State.foldl_mem {α : Type} (l : List α) (f : State → α → State) (hf : ∀ s x, (f s x).mem = s.mem) (s : State) :
    (l.foldl f s).mem = s.mem := by
  induction l generalizing s with
  | nil => rfl
  | cons x l ih => rw [List.foldl_cons, ih, hf]

theorem State.foldl_wf {α : Type} (l : List α) (f : State → α → State)
    (hf : ∀ s x, Memory.wf s.mem = true → Memory.wf (f s x).mem = true) (s : State) (h : Memory.wf s.mem = true) :
    Memory.wf (l.foldl f s).mem = true := by
  induction l generalizing s with
  | nil => exact h
  | cons x l ih => exact ih _ (hf s x h)

/-! ## Bytes of memory -/

theorem State.putBytes_wf (s : State) (pa : Nat) (l : List (Option Byte)) (h : Memory.wf s.mem = true) :
    Memory.wf (s.putBytes pa l).mem = true :=
  Memory.wf_putAll l s.mem pa h

/-- Bytes written are read back, and every other byte of memory reads as before. -/
theorem State.putBytes_get (s : State) (pa b : Nat) (l : List (Option Byte)) (h : Memory.wf s.mem = true) :
    Memory.get (s.putBytes pa l).mem b =
      if pa ≤ b then ((l[b - pa]?).bind id).getD (Memory.get s.mem b) else Memory.get s.mem b :=
  Memory.get_putAll l s.mem pa b h

theorem State.putMarked_wf (s : State) (pa : Nat) (l : List (Option Byte)) (bad : BitVec 16) (h : Memory.wf s.mem = true) :
    Memory.wf (s.putMarked pa l bad).mem = true :=
  Memory.wf_putAll l s.mem pa h

theorem State.putPhys_wf (s : State) (pa : Nat) (l : List (Option Byte)) (h : Memory.wf s.mem = true) :
    Memory.wf (s.putPhys pa l).mem = true :=
  Memory.wf_putAll l s.mem pa h

theorem State.putPhysNum_wf (s : State) (pa n v : Nat) (h : Memory.wf s.mem = true) : Memory.wf (s.putPhysNum pa n v).mem = true :=
  State.putPhys_wf s pa _ h

/-! ## The L2 -/

theorem State.cleanL2_wf (s : State) (st : StackId) (n : Nat) (h : Memory.wf s.mem = true) :
    Memory.wf (s.cleanL2 st n).mem = true := by
  unfold State.cleanL2
  split
  · exact h
  · split
    · exact h
    · dsimp only
      rw [State.chargeWriter_mem]
      exact State.putMarked_wf _ _ _ _ h

theorem State.evictL2_wf (s : State) (st : StackId) (n : Nat) (h : Memory.wf s.mem = true) :
    Memory.wf (s.evictL2 st n).mem = true :=
  State.cleanL2_wf s st n h

theorem State.trimL2_wf (s : State) (st : StackId) (h : Memory.wf s.mem = true) : Memory.wf (s.trimL2 st).mem = true :=
  State.foldl_wf _ _ (fun s x hs => State.evictL2_wf s st x.line hs) s h

@[simp] theorem State.absorb_mem (s : State) (u : ErrUnit) (good : Bool) : (s.absorb u good).mem = s.mem := by
  unfold State.absorb
  split <;> rfl

/-- Bringing a line into an L2 may write other lines back, and no more. -/
theorem State.touchL2_wf (s : State) (w : WrTag) (n : Nat) (h : Memory.wf s.mem = true) :
    Memory.wf (s.touchL2 w n).mem = true := by
  unfold State.touchL2
  dsimp only
  split
  · exact h
  · split
    · split
      · exact h
      · rw [State.absorb_mem]
        split <;> exact h
    · split
      · exact h
      · exact State.trimL2_wf _ _ h

/-- A write into an L2 reaches memory by what it drives out, or itself where the L2 has no room. -/
theorem State.writeL2_wf (s : State) (w : WrTag) (pa : Nat) (l : List (Option Byte)) (bad : BitVec 16)
    (h : Memory.wf s.mem = true) : Memory.wf (s.writeL2 w pa l bad).mem = true := by
  have ht := State.touchL2_wf s w (lineOf pa) h
  unfold State.writeL2
  dsimp only
  split
  · rw [State.chargeWriter_mem]
    exact State.putMarked_wf _ pa l bad ht
  · exact ht

theorem State.zeroLine_wf (s : State) (w : WrTag) (n : Nat) (h : Memory.wf s.mem = true) :
    Memory.wf (s.zeroLine w n).mem = true := by
  unfold State.zeroLine
  generalize List.replicate 128 (some 0#8) = l
  dsimp only
  exact State.putBytes_wf _ _ _ (State.touchL2_wf s w n h)

/-! ## Unbacked lines and pages -/

theorem State.freeLine_wf (s : State) (n : Nat) (h : Memory.wf s.mem = true) : Memory.wf (s.freeLine n).mem = true := by
  unfold State.freeLine
  split
  · rw [State.countLine_mem]
    exact Memory.wf_clear s.mem _ _ h
  · exact h

theorem State.movePage_wf (s : State) (a b n : Nat) (h : Memory.wf s.mem = true) : Memory.wf (s.movePage a b n).mem = true :=
  Memory.wf_relocate s.mem a b n h

theorem State.putLeaf_wf (s : State) (p : Nat) (e : Word) (h : Memory.wf s.mem = true) : Memory.wf (s.putLeaf p e).mem = true := by
  unfold State.putLeaf
  dsimp only
  rw [State.dropTlbs_mem]
  generalize List.range _ = l
  exact State.foldl_wf l _ (fun s _ hs => State.putPhysNum_wf s _ _ _ hs) s h

@[simp] theorem State.unlistPage_mem (s : State) (p : Nat) : (s.unlistPage p).mem = s.mem := by
  unfold State.unlistPage
  exact State.foldl_mem _ _ (fun s (x : Nat × LiveLine) => by simp) s

theorem State.backPage_wf (s : State) (p f : Nat) (st : StackId) (h : Memory.wf s.mem = true) :
    Memory.wf (s.backPage p f st).mem = true := by
  unfold State.backPage
  dsimp only
  rw [State.setBacked_mem]
  apply State.putLeaf_wf
  rw [State.rehomeWrites_mem, State.moveRecs_mem]
  exact State.movePage_wf _ _ _ _ (by rw [State.unlistPage_mem]; exact h)

theorem State.needFrame_wf (s : State) (x : CtxId) (p : Nat) (st : StackId) (die : Nat) (n : StackId)
    (h : Memory.wf s.mem = true) : Memory.wf (s.needFrame x p st die n).1.mem = true := by
  unfold State.needFrame
  dsimp only
  split
  · exact h
  · split
    · rename_i f u hf
      exact State.backPage_wf u p f n (by rw [State.takeFrame_mem s u _ _ f hf]; exact h)
    · simp only [State.interrupt_mem, State.setStack_mem]
      exact h

/-! ## Writes at their home -/

theorem State.writeOverrun_wf (s : State) (w : WrTag) (pa : Nat) (l : List (Option Byte)) (bad : BitVec 16)
    (h : Memory.wf s.mem = true) : Memory.wf (s.writeOverrun w pa l bad).1.mem = true := by
  unfold State.writeOverrun
  split
  · exact h
  · have hn := State.needFrame_wf s w.ctx w.leafPa w.home (poolDie w.home) w.home h
    revert hn
    dsimp only
    generalize s.needFrame w.ctx w.leafPa w.home (poolDie w.home) w.home = p
    obtain ⟨u, b⟩ := p
    intro hn
    cases b
    · exact hn
    · exact State.writeL2_wf u w _ l bad hn

theorem State.writeUnbacked_wf (s : State) (w : WrTag) (wr : Option CtxId) (pa : Nat) (l : List (Option Byte)) (disc : Bool)
    (bad : BitVec 16) (h : Memory.wf s.mem = true) : Memory.wf (s.writeUnbacked w wr pa l disc bad).1.mem = true := by
  unfold State.writeUnbacked
  dsimp only
  split
  · exact State.freeLine_wf s _ h
  · split
    · exact State.putMarked_wf _ pa l bad h
    · split
      · exact State.putMarked_wf _ pa l bad (by simpa using h)
      · exact State.writeOverrun_wf s w pa l bad h

/-- A write performed at its home keeps the canonical form, however it ends. -/
theorem State.writeHome_wf (s : State) (w : WrTag) (pa : Nat) (l : List (Option Byte)) (disc : Bool) (bad : BitVec 16)
    (h : Memory.wf s.mem = true) : Memory.wf (s.writeHome w pa l disc bad).1.mem = true := by
  unfold State.writeHome
  split
  · split
    · exact State.writeUnbacked_wf s w _ pa l disc bad h
    · split
      · exact State.writeUnbacked_wf s _ _ pa l disc bad h
      · exact h
  · split
    · exact State.zeroLine_wf s w _ h
    · exact State.writeL2_wf s w pa l bad h

/-- So does the performance of a posted write, and of every one that a release or an edge waits for. -/
theorem State.performWrite_wf (s : State) (n : Nat) (h : Memory.wf s.mem = true) : Memory.wf (s.performWrite n).mem = true := by
  unfold State.performWrite
  cases s.pwrites[n]? with
  | none => exact h
  | some w =>
    have hw := State.writeHome_wf s w.tag w.pa w.bytes w.disc w.bad h
    revert hw
    simp only
    generalize s.writeHome w.tag w.pa w.bytes w.disc w.bad = p
    obtain ⟨u, e⟩ := p
    intro hw
    cases e
    · exact hw
    · exact hw
    · simp only [State.fatalFor_mem]
      exact hw

theorem State.performWhere_wf (s : State) (p : PWrite → Bool) (k n : Nat) (h : Memory.wf s.mem = true) :
    Memory.wf (s.performWhere p k n).mem = true := by
  induction k generalizing s n with
  | zero => exact h
  | succ k ih =>
    unfold State.performWhere
    cases s.pwrites[n]? with
    | none => exact h
    | some w =>
      simp only
      split
      · split <;> exact ih _ _ (State.performWrite_wf s n h)
      · exact ih s (n + 1) h

theorem State.drain_wf (s : State) (p : PWrite → Bool) (h : Memory.wf s.mem = true) : Memory.wf (s.drain p).mem = true :=
  State.performWhere_wf s _ _ _ h

end Sys2Proof.Machine
end

