-- ==== Sys2Proof/Laws/PerInstr.lean ====
section
/-! SUPPORT. One lemma per constructor: the decoder reads back the syllable of every well-formed instruction. -/

set_option Elab.async false

namespace Sys2Proof.Laws

open Sys2Proof Sys2Proof.Machine

/-- The decoder, given the encoding of a well-formed instruction in its slot, answers that instruction. -/
def RoundTrip.Statement (i : Instr) : Prop :=
  i.WellFormed → ∀ sl, slotOf i = some sl → decodeSyl sl (encode i) = .ok i

theorem roundTrip_of (i : Instr) (sl : Slot) (h : decodeFields sl (encode i) = .ok i) (hs : slotOf i = some sl) :
    RoundTrip.Statement i := by
  intro hw sl' h'
  have e : sl = sl' := by
    rw [hs] at h'
    exact Option.some.inj h'
  subst e
  have hw' : entryOk i = true := hw
  simp [decodeSyl, h, hw']

theorem decodeFieldsC {α : Type} (op : BitVec 7) (w : Word) (c : α → Instr) (p : Word → Option α) (f : α)
    (h1 : fOp w = op) (h2 : decodeC op.toNat w = under c (p w)) (h3 : p w = some f) :
    decodeFields .C w = .ok (c f) := by
  simp only [decodeFields, h1, h2, h3, under]

theorem decodeFieldsA {α : Type} (op : BitVec 7) (w : Word) (c : α → Instr) (p : Word → Option α) (f : α)
    (h1 : fOp w = op) (h2 : decodeA op.toNat w = under c (p w)) (h3 : p w = some f) :
    decodeFields .A w = .ok (c f) := by
  simp only [decodeFields, h1, h2, h3, under]

theorem decodeFieldsV {α : Type} (op : BitVec 7) (w : Word) (c : α → Instr) (p : Word → Option α) (f : α)
    (h1 : fOp w = op) (h2 : decodeV op.toNat w = under c (p w)) (h3 : p w = some f) :
    decodeFields .V w = .ok (c f) := by
  simp only [decodeFields, h1, h2, h3, under]

theorem decodeFieldsM {α : Type} (op : BitVec 7) (w : Word) (c : α → Instr) (p : Word → Option α) (f : α)
    (h1 : fOp w = op) (h2 : decodeM op.toNat w = under c (p w)) (h3 : p w = some f) :
    decodeFields .M w = .ok (c f) := by
  simp only [decodeFields, h1, h2, h3, under]

theorem decodeFieldsE {α : Type} (op : BitVec 7) (w : Word) (c : α → Instr) (p : Word → Option α) (f : α)
    (h1 : fOp w = op) (h2 : decodeE op.toNat w = under c (p w)) (h3 : p w = some f) :
    decodeFields .E w = .ok (c f) := by
  simp only [decodeFields, h1, h2, h3, under]

theorem decodeFieldsY {α : Type} (op : BitVec 7) (w : Word) (c : α → Instr) (p : Word → Option α) (f : α)
    (h1 : fOp w = op) (h2 : decodeY op.toNat w = under c (p w)) (h3 : p w = some f) :
    decodeFields .Y w = .ok (c f) := by
  simp only [decodeFields, h1, h2, h3, under]

theorem RoundTrip.nop (sl : Slot) (f : FmtN) : RoundTrip.Statement (.nop sl f) :=
  roundTrip_of _ sl (by cases sl <;> simp [decodeFields, encode, decodeC, decodeA, decodeV, decodeM, decodeE, decodeY, under, parseN_packN]) rfl

theorem RoundTrip.xcp (sl : Slot) (f : FmtX) : RoundTrip.Statement (.xcp sl f) :=
  roundTrip_of _ sl (by cases sl <;> simp [decodeFields, encode, decodeC, decodeA, decodeV, decodeM, decodeE, decodeY, under, parseX_packX]) rfl

theorem RoundTrip.br (f : FmtCB) : RoundTrip.Statement (.br f) :=
  roundTrip_of _ .C (decodeFieldsC 0x02#7 _ .br parseCB f (fOp_packCB _ f) rfl (parseCB_packCB _ f)) rfl

theorem RoundTrip.brx (f : FmtCR) : RoundTrip.Statement (.brx f) :=
  roundTrip_of _ .C (decodeFieldsC 0x03#7 _ .brx parseCR f (fOp_packCR _ f) rfl (parseCR_packCR _ f)) rfl

theorem RoundTrip.call (f : FmtCB) : RoundTrip.Statement (.call f) :=
  roundTrip_of _ .C (decodeFieldsC 0x04#7 _ .call parseCB f (fOp_packCB _ f) rfl (parseCB_packCB _ f)) rfl

theorem RoundTrip.callx (f : FmtCR) : RoundTrip.Statement (.callx f) :=
  roundTrip_of _ .C (decodeFieldsC 0x05#7 _ .callx parseCR f (fOp_packCR _ f) rfl (parseCR_packCR _ f)) rfl

theorem RoundTrip.ret (f : FmtCR) : RoundTrip.Statement (.ret f) :=
  roundTrip_of _ .C (decodeFieldsC 0x06#7 _ .ret parseCR f (fOp_packCR _ f) rfl (parseCR_packCR _ f)) rfl

theorem RoundTrip.loop (f : FmtCR) : RoundTrip.Statement (.loop f) :=
  roundTrip_of _ .C (decodeFieldsC 0x07#7 _ .loop parseCR f (fOp_packCR _ f) rfl (parseCR_packCR _ f)) rfl

theorem RoundTrip.loopRot (f : FmtCB) : RoundTrip.Statement (.loopRot f) :=
  roundTrip_of _ .C (decodeFieldsC 0x08#7 _ .loopRot parseCB f (fOp_packCB _ f) rfl (parseCB_packCB _ f)) rfl

theorem RoundTrip.lpend (f : FmtCB) : RoundTrip.Statement (.lpend f) :=
  roundTrip_of _ .C (decodeFieldsC 0x09#7 _ .lpend parseCB f (fOp_packCB _ f) rfl (parseCB_packCB _ f)) rfl

theorem RoundTrip.lpbrk (f : FmtCB) : RoundTrip.Statement (.lpbrk f) :=
  roundTrip_of _ .C (decodeFieldsC 0x0A#7 _ .lpbrk parseCB f (fOp_packCB _ f) rfl (parseCB_packCB _ f)) rfl

theorem RoundTrip.endTask (f : FmtN) : RoundTrip.Statement (.endTask f) :=
  roundTrip_of _ .C (decodeFieldsC 0x0B#7 _ .endTask parseN f (fOp_packN _ f) rfl (parseN_packN _ f)) rfl

theorem RoundTrip.svc (f : FmtCK) : RoundTrip.Statement (.svc f) :=
  roundTrip_of _ .C (decodeFieldsC 0x0C#7 _ .svc parseCK f (fOp_packCK _ f) rfl (parseCK_packCK _ f)) rfl

theorem RoundTrip.brk (f : FmtCK) : RoundTrip.Statement (.brk f) :=
  roundTrip_of _ .C (decodeFieldsC 0x0D#7 _ .brk parseCK f (fOp_packCK _ f) rfl (parseCK_packCK _ f)) rfl

theorem RoundTrip.sysr (f : FmtCS) : RoundTrip.Statement (.sysr f) :=
  roundTrip_of _ .C (decodeFieldsC 0x0E#7 _ .sysr parseCS f (fOp_packCS _ f) rfl (parseCS_packCS _ f)) rfl

theorem RoundTrip.sysw (f : FmtCS) : RoundTrip.Statement (.sysw f) :=
  roundTrip_of _ .C (decodeFieldsC 0x0F#7 _ .sysw parseCS f (fOp_packCS _ f) rfl (parseCS_packCS _ f)) rfl

theorem RoundTrip.tstamp (f : FmtCR) : RoundTrip.Statement (.tstamp f) :=
  roundTrip_of _ .C (decodeFieldsC 0x10#7 _ .tstamp parseCR f (fOp_packCR _ f) rfl (parseCR_packCR _ f)) rfl

theorem RoundTrip.rdcyc (f : FmtCR) : RoundTrip.Statement (.rdcyc f) :=
  roundTrip_of _ .C (decodeFieldsC 0x11#7 _ .rdcyc parseCR f (fOp_packCR _ f) rfl (parseCR_packCR _ f)) rfl

theorem RoundTrip.cli (f : FmtCI) : RoundTrip.Statement (.cli f) :=
  roundTrip_of _ .C (decodeFieldsC 0x12#7 _ .cli parseCI f (fOp_packCI _ f) rfl (parseCI_packCI _ f)) rfl

theorem RoundTrip.cmov (f : FmtCR) : RoundTrip.Statement (.cmov f) :=
  roundTrip_of _ .C (decodeFieldsC 0x13#7 _ .cmov parseCR f (fOp_packCR _ f) rfl (parseCR_packCR _ f)) rfl

theorem RoundTrip.cadd (f : FmtCR) : RoundTrip.Statement (.cadd f) :=
  roundTrip_of _ .C (decodeFieldsC 0x14#7 _ .cadd parseCR f (fOp_packCR _ f) rfl (parseCR_packCR _ f)) rfl

theorem RoundTrip.csub (f : FmtCR) : RoundTrip.Statement (.csub f) :=
  roundTrip_of _ .C (decodeFieldsC 0x15#7 _ .csub parseCR f (fOp_packCR _ f) rfl (parseCR_packCR _ f)) rfl

theorem RoundTrip.cand (f : FmtCR) : RoundTrip.Statement (.cand f) :=
  roundTrip_of _ .C (decodeFieldsC 0x16#7 _ .cand parseCR f (fOp_packCR _ f) rfl (parseCR_packCR _ f)) rfl

theorem RoundTrip.cor (f : FmtCR) : RoundTrip.Statement (.cor f) :=
  roundTrip_of _ .C (decodeFieldsC 0x17#7 _ .cor parseCR f (fOp_packCR _ f) rfl (parseCR_packCR _ f)) rfl

theorem RoundTrip.cxor (f : FmtCR) : RoundTrip.Statement (.cxor f) :=
  roundTrip_of _ .C (decodeFieldsC 0x18#7 _ .cxor parseCR f (fOp_packCR _ f) rfl (parseCR_packCR _ f)) rfl

theorem RoundTrip.ccmp (f : FmtCR) : RoundTrip.Statement (.ccmp f) :=
  roundTrip_of _ .C (decodeFieldsC 0x19#7 _ .ccmp parseCR f (fOp_packCR _ f) rfl (parseCR_packCR _ f)) rfl

theorem RoundTrip.pand (f : FmtCP) : RoundTrip.Statement (.pand f) :=
  roundTrip_of _ .C (decodeFieldsC 0x1A#7 _ .pand parseCP f (fOp_packCP _ f) rfl (parseCP_packCP _ f)) rfl

theorem RoundTrip.por (f : FmtCP) : RoundTrip.Statement (.por f) :=
  roundTrip_of _ .C (decodeFieldsC 0x1B#7 _ .por parseCP f (fOp_packCP _ f) rfl (parseCP_packCP _ f)) rfl

theorem RoundTrip.pxor (f : FmtCP) : RoundTrip.Statement (.pxor f) :=
  roundTrip_of _ .C (decodeFieldsC 0x1C#7 _ .pxor parseCP f (fOp_packCP _ f) rfl (parseCP_packCP _ f)) rfl

theorem RoundTrip.pmov (f : FmtCP) : RoundTrip.Statement (.pmov f) :=
  roundTrip_of _ .C (decodeFieldsC 0x1D#7 _ .pmov parseCP f (fOp_packCP _ f) rfl (parseCP_packCP _ f)) rfl

theorem RoundTrip.pset (f : FmtCP) : RoundTrip.Statement (.pset f) :=
  roundTrip_of _ .C (decodeFieldsC 0x1E#7 _ .pset parseCP f (fOp_packCP _ f) rfl (parseCP_packCP _ f)) rfl

theorem RoundTrip.setld (f : FmtCR) : RoundTrip.Statement (.setld f) :=
  roundTrip_of _ .C (decodeFieldsC 0x1F#7 _ .setld parseCR f (fOp_packCR _ f) rfl (parseCR_packCR _ f)) rfl

theorem RoundTrip.add (f : FmtAR) : RoundTrip.Statement (.add f) :=
  roundTrip_of _ .A (decodeFieldsA 0x02#7 _ .add parseAR f (fOp_packAR _ f) rfl (parseAR_packAR _ f)) rfl

theorem RoundTrip.sub (f : FmtAR) : RoundTrip.Statement (.sub f) :=
  roundTrip_of _ .A (decodeFieldsA 0x03#7 _ .sub parseAR f (fOp_packAR _ f) rfl (parseAR_packAR _ f)) rfl

theorem RoundTrip.mul (f : FmtAR) : RoundTrip.Statement (.mul f) :=
  roundTrip_of _ .A (decodeFieldsA 0x04#7 _ .mul parseAR f (fOp_packAR _ f) rfl (parseAR_packAR _ f)) rfl

theorem RoundTrip.mulh (f : FmtAR) : RoundTrip.Statement (.mulh f) :=
  roundTrip_of _ .A (decodeFieldsA 0x05#7 _ .mulh parseAR f (fOp_packAR _ f) rfl (parseAR_packAR _ f)) rfl

theorem RoundTrip.div (f : FmtAR) : RoundTrip.Statement (.div f) :=
  roundTrip_of _ .A (decodeFieldsA 0x06#7 _ .div parseAR f (fOp_packAR _ f) rfl (parseAR_packAR _ f)) rfl

theorem RoundTrip.rem (f : FmtAR) : RoundTrip.Statement (.rem f) :=
  roundTrip_of _ .A (decodeFieldsA 0x07#7 _ .rem parseAR f (fOp_packAR _ f) rfl (parseAR_packAR _ f)) rfl

theorem RoundTrip.and (f : FmtAR) : RoundTrip.Statement (.and f) :=
  roundTrip_of _ .A (decodeFieldsA 0x08#7 _ .and parseAR f (fOp_packAR _ f) rfl (parseAR_packAR _ f)) rfl

theorem RoundTrip.or (f : FmtAR) : RoundTrip.Statement (.or f) :=
  roundTrip_of _ .A (decodeFieldsA 0x09#7 _ .or parseAR f (fOp_packAR _ f) rfl (parseAR_packAR _ f)) rfl

theorem RoundTrip.xor (f : FmtAR) : RoundTrip.Statement (.xor f) :=
  roundTrip_of _ .A (decodeFieldsA 0x0A#7 _ .xor parseAR f (fOp_packAR _ f) rfl (parseAR_packAR _ f)) rfl

theorem RoundTrip.andn (f : FmtAR) : RoundTrip.Statement (.andn f) :=
  roundTrip_of _ .A (decodeFieldsA 0x0B#7 _ .andn parseAR f (fOp_packAR _ f) rfl (parseAR_packAR _ f)) rfl

theorem RoundTrip.shl (f : FmtAR) : RoundTrip.Statement (.shl f) :=
  roundTrip_of _ .A (decodeFieldsA 0x0C#7 _ .shl parseAR f (fOp_packAR _ f) rfl (parseAR_packAR _ f)) rfl

theorem RoundTrip.shr (f : FmtAR) : RoundTrip.Statement (.shr f) :=
  roundTrip_of _ .A (decodeFieldsA 0x0D#7 _ .shr parseAR f (fOp_packAR _ f) rfl (parseAR_packAR _ f)) rfl

theorem RoundTrip.sar (f : FmtAR) : RoundTrip.Statement (.sar f) :=
  roundTrip_of _ .A (decodeFieldsA 0x0E#7 _ .sar parseAR f (fOp_packAR _ f) rfl (parseAR_packAR _ f)) rfl

theorem RoundTrip.rot (f : FmtAR) : RoundTrip.Statement (.rot f) :=
  roundTrip_of _ .A (decodeFieldsA 0x0F#7 _ .rot parseAR f (fOp_packAR _ f) rfl (parseAR_packAR _ f)) rfl

theorem RoundTrip.min (f : FmtAR) : RoundTrip.Statement (.min f) :=
  roundTrip_of _ .A (decodeFieldsA 0x10#7 _ .min parseAR f (fOp_packAR _ f) rfl (parseAR_packAR _ f)) rfl

theorem RoundTrip.max (f : FmtAR) : RoundTrip.Statement (.max f) :=
  roundTrip_of _ .A (decodeFieldsA 0x11#7 _ .max parseAR f (fOp_packAR _ f) rfl (parseAR_packAR _ f)) rfl

theorem RoundTrip.abs (f : FmtAR) : RoundTrip.Statement (.abs f) :=
  roundTrip_of _ .A (decodeFieldsA 0x12#7 _ .abs parseAR f (fOp_packAR _ f) rfl (parseAR_packAR _ f)) rfl

theorem RoundTrip.neg (f : FmtAR) : RoundTrip.Statement (.neg f) :=
  roundTrip_of _ .A (decodeFieldsA 0x13#7 _ .neg parseAR f (fOp_packAR _ f) rfl (parseAR_packAR _ f)) rfl

theorem RoundTrip.cmp (f : FmtAR) : RoundTrip.Statement (.cmp f) :=
  roundTrip_of _ .A (decodeFieldsA 0x14#7 _ .cmp parseAR f (fOp_packAR _ f) rfl (parseAR_packAR _ f)) rfl

theorem RoundTrip.sel (f : FmtAR) : RoundTrip.Statement (.sel f) :=
  roundTrip_of _ .A (decodeFieldsA 0x15#7 _ .sel parseAR f (fOp_packAR _ f) rfl (parseAR_packAR _ f)) rfl

theorem RoundTrip.mov (f : FmtAR) : RoundTrip.Statement (.mov f) :=
  roundTrip_of _ .A (decodeFieldsA 0x16#7 _ .mov parseAR f (fOp_packAR _ f) rfl (parseAR_packAR _ f)) rfl

theorem RoundTrip.li (f : FmtAI) : RoundTrip.Statement (.li f) :=
  roundTrip_of _ .A (decodeFieldsA 0x17#7 _ .li parseAI0 f (fOp_packAI _ false f) rfl (parseAI0_packAI _ f)) rfl

theorem RoundTrip.lih (f : FmtAI) : RoundTrip.Statement (.lih f) :=
  roundTrip_of _ .A (by simp [decodeFields, encode, decodeA, under, parseAI_packAI]) rfl

theorem RoundTrip.lihHi (f : FmtAI) : RoundTrip.Statement (.lihHi f) :=
  roundTrip_of _ .A (by simp [decodeFields, encode, decodeA, under, parseAI_packAI]) rfl

theorem RoundTrip.bfx (f : FmtAF) : RoundTrip.Statement (.bfx f) :=
  roundTrip_of _ .A (decodeFieldsA 0x19#7 _ .bfx parseAF f (fOp_packAF _ f) rfl (parseAF_packAF _ f)) rfl

theorem RoundTrip.bfi (f : FmtAF) : RoundTrip.Statement (.bfi f) :=
  roundTrip_of _ .A (decodeFieldsA 0x1A#7 _ .bfi parseAF f (fOp_packAF _ f) rfl (parseAF_packAF _ f)) rfl

theorem RoundTrip.clz (f : FmtAR) : RoundTrip.Statement (.clz f) :=
  roundTrip_of _ .A (decodeFieldsA 0x1B#7 _ .clz parseAR f (fOp_packAR _ f) rfl (parseAR_packAR _ f)) rfl

theorem RoundTrip.ctz (f : FmtAR) : RoundTrip.Statement (.ctz f) :=
  roundTrip_of _ .A (decodeFieldsA 0x1C#7 _ .ctz parseAR f (fOp_packAR _ f) rfl (parseAR_packAR _ f)) rfl

theorem RoundTrip.pcnt (f : FmtAR) : RoundTrip.Statement (.pcnt f) :=
  roundTrip_of _ .A (decodeFieldsA 0x1D#7 _ .pcnt parseAR f (fOp_packAR _ f) rfl (parseAR_packAR _ f)) rfl

theorem RoundTrip.brev (f : FmtAR) : RoundTrip.Statement (.brev f) :=
  roundTrip_of _ .A (decodeFieldsA 0x1E#7 _ .brev parseAR f (fOp_packAR _ f) rfl (parseAR_packAR _ f)) rfl

theorem RoundTrip.bswap (f : FmtAR) : RoundTrip.Statement (.bswap f) :=
  roundTrip_of _ .A (decodeFieldsA 0x1F#7 _ .bswap parseAR f (fOp_packAR _ f) rfl (parseAR_packAR _ f)) rfl

theorem RoundTrip.lea (f : FmtAR) : RoundTrip.Statement (.lea f) :=
  roundTrip_of _ .A (decodeFieldsA 0x20#7 _ .lea parseAR f (fOp_packAR _ f) rfl (parseAR_packAR _ f)) rfl

theorem RoundTrip.sadd (f : FmtAR) : RoundTrip.Statement (.sadd f) :=
  roundTrip_of _ .A (decodeFieldsA 0x21#7 _ .sadd parseAR f (fOp_packAR _ f) rfl (parseAR_packAR _ f)) rfl

theorem RoundTrip.ssub (f : FmtAR) : RoundTrip.Statement (.ssub f) :=
  roundTrip_of _ .A (decodeFieldsA 0x22#7 _ .ssub parseAR f (fOp_packAR _ f) rfl (parseAR_packAR _ f)) rfl

theorem RoundTrip.madd (f : FmtAR) : RoundTrip.Statement (.madd f) :=
  roundTrip_of _ .A (decodeFieldsA 0x23#7 _ .madd parseAR f (fOp_packAR _ f) rfl (parseAR_packAR _ f)) rfl

theorem RoundTrip.ext (f : FmtAR) : RoundTrip.Statement (.ext f) :=
  roundTrip_of _ .A (decodeFieldsA 0x24#7 _ .ext parseAR f (fOp_packAR _ f) rfl (parseAR_packAR _ f)) rfl

theorem RoundTrip.clamp (f : FmtAR) : RoundTrip.Statement (.clamp f) :=
  roundTrip_of _ .A (decodeFieldsA 0x25#7 _ .clamp parseAR f (fOp_packAR _ f) rfl (parseAR_packAR _ f)) rfl

theorem RoundTrip.tst (f : FmtAR) : RoundTrip.Statement (.tst f) :=
  roundTrip_of _ .A (decodeFieldsA 0x26#7 _ .tst parseAR f (fOp_packAR _ f) rfl (parseAR_packAR _ f)) rfl

theorem RoundTrip.addc (f : FmtAR) : RoundTrip.Statement (.addc f) :=
  roundTrip_of _ .A (decodeFieldsA 0x27#7 _ .addc parseAR f (fOp_packAR _ f) rfl (parseAR_packAR _ f)) rfl

theorem RoundTrip.subb (f : FmtAR) : RoundTrip.Statement (.subb f) :=
  roundTrip_of _ .A (decodeFieldsA 0x28#7 _ .subb parseAR f (fOp_packAR _ f) rfl (parseAR_packAR _ f)) rfl

theorem RoundTrip.hmix (f : FmtAR) : RoundTrip.Statement (.hmix f) :=
  roundTrip_of _ .A (decodeFieldsA 0x29#7 _ .hmix parseAR f (fOp_packAR _ f) rfl (parseAR_packAR _ f)) rfl

theorem RoundTrip.align (f : FmtAR) : RoundTrip.Statement (.align f) :=
  roundTrip_of _ .A (decodeFieldsA 0x2A#7 _ .align parseAR f (fOp_packAR _ f) rfl (parseAR_packAR _ f)) rfl

theorem RoundTrip.crc (f : FmtAR) : RoundTrip.Statement (.crc f) :=
  roundTrip_of _ .A (decodeFieldsA 0x2B#7 _ .crc parseAR f (fOp_packAR _ f) rfl (parseAR_packAR _ f)) rfl

theorem RoundTrip.bset (f : FmtAR) : RoundTrip.Statement (.bset f) :=
  roundTrip_of _ .A (decodeFieldsA 0x2C#7 _ .bset parseAR f (fOp_packAR _ f) rfl (parseAR_packAR _ f)) rfl

theorem RoundTrip.bclr (f : FmtAR) : RoundTrip.Statement (.bclr f) :=
  roundTrip_of _ .A (decodeFieldsA 0x2D#7 _ .bclr parseAR f (fOp_packAR _ f) rfl (parseAR_packAR _ f)) rfl

theorem RoundTrip.bflip (f : FmtAR) : RoundTrip.Statement (.bflip f) :=
  roundTrip_of _ .A (decodeFieldsA 0x2E#7 _ .bflip parseAR f (fOp_packAR _ f) rfl (parseAR_packAR _ f)) rfl

theorem RoundTrip.pack (f : FmtAR) : RoundTrip.Statement (.pack f) :=
  roundTrip_of _ .A (decodeFieldsA 0x2F#7 _ .pack parseAR f (fOp_packAR _ f) rfl (parseAR_packAR _ f)) rfl

theorem RoundTrip.crd (f : FmtAI) : RoundTrip.Statement (.crd f) :=
  roundTrip_of _ .A (decodeFieldsA 0x48#7 _ .crd parseAI0 f (fOp_packAI _ false f) rfl (parseAI0_packAI _ f)) rfl

theorem RoundTrip.rank (f : FmtAI) : RoundTrip.Statement (.rank f) :=
  roundTrip_of _ .A (by simp [decodeFields, encode, decodeA, under, parseAI_packAI]) rfl

theorem RoundTrip.rankSz (f : FmtAI) : RoundTrip.Statement (.rankSz f) :=
  roundTrip_of _ .A (by simp [decodeFields, encode, decodeA, under, parseAI_packAI]) rfl

theorem RoundTrip.cbase (f : FmtAI) : RoundTrip.Statement (.cbase f) :=
  roundTrip_of _ .A (decodeFieldsA 0x4A#7 _ .cbase parseAI0 f (fOp_packAI _ false f) rfl (parseAI0_packAI _ f)) rfl

theorem RoundTrip.argb (f : FmtAI) : RoundTrip.Statement (.argb f) :=
  roundTrip_of _ .A (decodeFieldsA 0x4B#7 _ .argb parseAI0 f (fOp_packAI _ false f) rfl (parseAI0_packAI _ f)) rfl

theorem RoundTrip.locq (f : FmtAI) : RoundTrip.Statement (.locq f) :=
  roundTrip_of _ .A (by simp [decodeFields, encode, decodeA, under, parseAI_packAI]) rfl

theorem RoundTrip.locqSelf (f : FmtAI) : RoundTrip.Statement (.locqSelf f) :=
  roundTrip_of _ .A (by simp [decodeFields, encode, decodeA, under, parseAI_packAI]) rfl

theorem RoundTrip.ctxid (f : FmtAI) : RoundTrip.Statement (.ctxid f) :=
  roundTrip_of _ .A (by simp [decodeFields, encode, decodeA, under, parseAI_packAI]) rfl

theorem RoundTrip.ctxidLid (f : FmtAI) : RoundTrip.Statement (.ctxidLid f) :=
  roundTrip_of _ .A (by simp [decodeFields, encode, decodeA, under, parseAI_packAI]) rfl

theorem RoundTrip.rdld (f : FmtAI) : RoundTrip.Statement (.rdld f) :=
  roundTrip_of _ .A (decodeFieldsA 0x4E#7 _ .rdld parseAI0 f (fOp_packAI _ false f) rfl (parseAI0_packAI _ f)) rfl

theorem RoundTrip.rdrb (f : FmtAI) : RoundTrip.Statement (.rdrb f) :=
  roundTrip_of _ .A (decodeFieldsA 0x4F#7 _ .rdrb parseAI0 f (fOp_packAI _ false f) rfl (parseAI0_packAI _ f)) rfl

theorem RoundTrip.vadd (f : FmtVR) : RoundTrip.Statement (.vadd f) :=
  roundTrip_of _ .V (decodeFieldsV 0x02#7 _ .vadd parseVR f (fOp_packVR _ f) rfl (parseVR_packVR _ f)) rfl

theorem RoundTrip.vsub (f : FmtVR) : RoundTrip.Statement (.vsub f) :=
  roundTrip_of _ .V (decodeFieldsV 0x03#7 _ .vsub parseVR f (fOp_packVR _ f) rfl (parseVR_packVR _ f)) rfl

theorem RoundTrip.vmul (f : FmtVR) : RoundTrip.Statement (.vmul f) :=
  roundTrip_of _ .V (decodeFieldsV 0x04#7 _ .vmul parseVR f (fOp_packVR _ f) rfl (parseVR_packVR _ f)) rfl

theorem RoundTrip.vfma (f : FmtVR) : RoundTrip.Statement (.vfma f) :=
  roundTrip_of _ .V (decodeFieldsV 0x05#7 _ .vfma parseVR f (fOp_packVR _ f) rfl (parseVR_packVR _ f)) rfl

theorem RoundTrip.vfms (f : FmtVR) : RoundTrip.Statement (.vfms f) :=
  roundTrip_of _ .V (decodeFieldsV 0x06#7 _ .vfms parseVR f (fOp_packVR _ f) rfl (parseVR_packVR _ f)) rfl

theorem RoundTrip.vfnma (f : FmtVR) : RoundTrip.Statement (.vfnma f) :=
  roundTrip_of _ .V (decodeFieldsV 0x07#7 _ .vfnma parseVR f (fOp_packVR _ f) rfl (parseVR_packVR _ f)) rfl

theorem RoundTrip.vmin (f : FmtVR) : RoundTrip.Statement (.vmin f) :=
  roundTrip_of _ .V (decodeFieldsV 0x08#7 _ .vmin parseVR f (fOp_packVR _ f) rfl (parseVR_packVR _ f)) rfl

theorem RoundTrip.vmax (f : FmtVR) : RoundTrip.Statement (.vmax f) :=
  roundTrip_of _ .V (decodeFieldsV 0x09#7 _ .vmax parseVR f (fOp_packVR _ f) rfl (parseVR_packVR _ f)) rfl

theorem RoundTrip.vabs (f : FmtVR) : RoundTrip.Statement (.vabs f) :=
  roundTrip_of _ .V (decodeFieldsV 0x0A#7 _ .vabs parseVR f (fOp_packVR _ f) rfl (parseVR_packVR _ f)) rfl

theorem RoundTrip.vneg (f : FmtVR) : RoundTrip.Statement (.vneg f) :=
  roundTrip_of _ .V (decodeFieldsV 0x0B#7 _ .vneg parseVR f (fOp_packVR _ f) rfl (parseVR_packVR _ f)) rfl

theorem RoundTrip.vfrcp (f : FmtVR) : RoundTrip.Statement (.vfrcp f) :=
  roundTrip_of _ .V (decodeFieldsV 0x0C#7 _ .vfrcp parseVR f (fOp_packVR _ f) rfl (parseVR_packVR _ f)) rfl

theorem RoundTrip.vfsqrt (f : FmtVR) : RoundTrip.Statement (.vfsqrt f) :=
  roundTrip_of _ .V (decodeFieldsV 0x0D#7 _ .vfsqrt parseVR f (fOp_packVR _ f) rfl (parseVR_packVR _ f)) rfl

theorem RoundTrip.vdiv (f : FmtVR) : RoundTrip.Statement (.vdiv f) :=
  roundTrip_of _ .V (decodeFieldsV 0x0E#7 _ .vdiv parseVR f (fOp_packVR _ f) rfl (parseVR_packVR _ f)) rfl

theorem RoundTrip.vscl (f : FmtVR) : RoundTrip.Statement (.vscl f) :=
  roundTrip_of _ .V (decodeFieldsV 0x0F#7 _ .vscl parseVR f (fOp_packVR _ f) rfl (parseVR_packVR _ f)) rfl

theorem RoundTrip.vcmp (f : FmtVR) : RoundTrip.Statement (.vcmp f) :=
  roundTrip_of _ .V (decodeFieldsV 0x10#7 _ .vcmp parseVR f (fOp_packVR _ f) rfl (parseVR_packVR _ f)) rfl

theorem RoundTrip.vsel (f : FmtVR) : RoundTrip.Statement (.vsel f) :=
  roundTrip_of _ .V (decodeFieldsV 0x11#7 _ .vsel parseVR f (fOp_packVR _ f) rfl (parseVR_packVR _ f)) rfl

theorem RoundTrip.vany (f : FmtVK) : RoundTrip.Statement (.vany f) :=
  roundTrip_of _ .V (decodeFieldsV 0x12#7 _ .vany parseVK f (fOp_packVK _ f) rfl (parseVK_packVK _ f)) rfl

theorem RoundTrip.vall (f : FmtVK) : RoundTrip.Statement (.vall f) :=
  roundTrip_of _ .V (decodeFieldsV 0x13#7 _ .vall parseVK f (fOp_packVK _ f) rfl (parseVK_packVK _ f)) rfl

theorem RoundTrip.kand (f : FmtVK) : RoundTrip.Statement (.kand f) :=
  roundTrip_of _ .V (decodeFieldsV 0x14#7 _ .kand parseVK f (fOp_packVK _ f) rfl (parseVK_packVK _ f)) rfl

theorem RoundTrip.kor (f : FmtVK) : RoundTrip.Statement (.kor f) :=
  roundTrip_of _ .V (decodeFieldsV 0x15#7 _ .kor parseVK f (fOp_packVK _ f) rfl (parseVK_packVK _ f)) rfl

theorem RoundTrip.kxor (f : FmtVK) : RoundTrip.Statement (.kxor f) :=
  roundTrip_of _ .V (decodeFieldsV 0x16#7 _ .kxor parseVK f (fOp_packVK _ f) rfl (parseVK_packVK _ f)) rfl

theorem RoundTrip.kmov (f : FmtVK) : RoundTrip.Statement (.kmov f) :=
  roundTrip_of _ .V (decodeFieldsV 0x17#7 _ .kmov parseVK f (fOp_packVK _ f) rfl (parseVK_packVK _ f)) rfl

theorem RoundTrip.vand (f : FmtVR) : RoundTrip.Statement (.vand f) :=
  roundTrip_of _ .V (decodeFieldsV 0x18#7 _ .vand parseVR f (fOp_packVR _ f) rfl (parseVR_packVR _ f)) rfl

theorem RoundTrip.vor (f : FmtVR) : RoundTrip.Statement (.vor f) :=
  roundTrip_of _ .V (decodeFieldsV 0x19#7 _ .vor parseVR f (fOp_packVR _ f) rfl (parseVR_packVR _ f)) rfl

theorem RoundTrip.vxor (f : FmtVR) : RoundTrip.Statement (.vxor f) :=
  roundTrip_of _ .V (decodeFieldsV 0x1A#7 _ .vxor parseVR f (fOp_packVR _ f) rfl (parseVR_packVR _ f)) rfl

theorem RoundTrip.vandn (f : FmtVR) : RoundTrip.Statement (.vandn f) :=
  roundTrip_of _ .V (decodeFieldsV 0x1B#7 _ .vandn parseVR f (fOp_packVR _ f) rfl (parseVR_packVR _ f)) rfl

theorem RoundTrip.vshl (f : FmtVR) : RoundTrip.Statement (.vshl f) :=
  roundTrip_of _ .V (decodeFieldsV 0x1C#7 _ .vshl parseVR f (fOp_packVR _ f) rfl (parseVR_packVR _ f)) rfl

theorem RoundTrip.vshr (f : FmtVR) : RoundTrip.Statement (.vshr f) :=
  roundTrip_of _ .V (decodeFieldsV 0x1D#7 _ .vshr parseVR f (fOp_packVR _ f) rfl (parseVR_packVR _ f)) rfl

theorem RoundTrip.vsar (f : FmtVR) : RoundTrip.Statement (.vsar f) :=
  roundTrip_of _ .V (decodeFieldsV 0x1E#7 _ .vsar parseVR f (fOp_packVR _ f) rfl (parseVR_packVR _ f)) rfl

theorem RoundTrip.vmov (f : FmtVR) : RoundTrip.Statement (.vmov f) :=
  roundTrip_of _ .V (decodeFieldsV 0x1F#7 _ .vmov parseVR f (fOp_packVR _ f) rfl (parseVR_packVR _ f)) rfl

theorem RoundTrip.vperm (f : FmtVP) : RoundTrip.Statement (.vperm f) :=
  roundTrip_of _ .V (decodeFieldsV 0x20#7 _ .vperm parseVP f (fOp_packVP _ f) rfl (parseVP_packVP _ f)) rfl

theorem RoundTrip.vshuf (f : FmtVP) : RoundTrip.Statement (.vshuf f) :=
  roundTrip_of _ .V (decodeFieldsV 0x21#7 _ .vshuf parseVP f (fOp_packVP _ f) rfl (parseVP_packVP _ f)) rfl

theorem RoundTrip.vrotl (f : FmtVP) : RoundTrip.Statement (.vrotl f) :=
  roundTrip_of _ .V (decodeFieldsV 0x22#7 _ .vrotl parseVP f (fOp_packVP _ f) rfl (parseVP_packVP _ f)) rfl

theorem RoundTrip.vbrev (f : FmtVP) : RoundTrip.Statement (.vbrev f) :=
  roundTrip_of _ .V (decodeFieldsV 0x23#7 _ .vbrev parseVP f (fOp_packVP _ f) rfl (parseVP_packVP _ f)) rfl

theorem RoundTrip.vzip (f : FmtVP) : RoundTrip.Statement (.vzip f) :=
  roundTrip_of _ .V (decodeFieldsV 0x24#7 _ .vzip parseVP f (fOp_packVP _ f) rfl (parseVP_packVP _ f)) rfl

theorem RoundTrip.vuzp (f : FmtVP) : RoundTrip.Statement (.vuzp f) :=
  roundTrip_of _ .V (decodeFieldsV 0x25#7 _ .vuzp parseVP f (fOp_packVP _ f) rfl (parseVP_packVP _ f)) rfl

theorem RoundTrip.vlane (f : FmtVI) : RoundTrip.Statement (.vlane f) :=
  roundTrip_of _ .V (decodeFieldsV 0x26#7 _ .vlane parseVI f (fOp_packVI _ f) rfl (parseVI_packVI _ f)) rfl

theorem RoundTrip.vli (f : FmtVI) : RoundTrip.Statement (.vli f) :=
  roundTrip_of _ .V (decodeFieldsV 0x27#7 _ .vli parseVI f (fOp_packVI _ f) rfl (parseVI_packVI _ f)) rfl

theorem RoundTrip.vcmul (f : FmtVR) : RoundTrip.Statement (.vcmul f) :=
  roundTrip_of _ .V (decodeFieldsV 0x28#7 _ .vcmul parseVR f (fOp_packVR _ f) rfl (parseVR_packVR _ f)) rfl

theorem RoundTrip.vbfly (f : FmtVR) : RoundTrip.Statement (.vbfly f) :=
  roundTrip_of _ .V (decodeFieldsV 0x29#7 _ .vbfly parseVR f (fOp_packVR _ f) rfl (parseVR_packVR _ f)) rfl

theorem RoundTrip.vconj (f : FmtVR) : RoundTrip.Statement (.vconj f) :=
  roundTrip_of _ .V (decodeFieldsV 0x2A#7 _ .vconj parseVR f (fOp_packVR _ f) rfl (parseVR_packVR _ f)) rfl

theorem RoundTrip.vmulh (f : FmtVR) : RoundTrip.Statement (.vmulh f) :=
  roundTrip_of _ .V (decodeFieldsV 0x2B#7 _ .vmulh parseVR f (fOp_packVR _ f) rfl (parseVR_packVR _ f)) rfl

theorem RoundTrip.vsadd (f : FmtVR) : RoundTrip.Statement (.vsadd f) :=
  roundTrip_of _ .V (decodeFieldsV 0x2C#7 _ .vsadd parseVR f (fOp_packVR _ f) rfl (parseVR_packVR _ f)) rfl

theorem RoundTrip.vssub (f : FmtVR) : RoundTrip.Statement (.vssub f) :=
  roundTrip_of _ .V (decodeFieldsV 0x2D#7 _ .vssub parseVR f (fOp_packVR _ f) rfl (parseVR_packVR _ f)) rfl

theorem RoundTrip.vdot (f : FmtVR) : RoundTrip.Statement (.vdot f) :=
  roundTrip_of _ .V (decodeFieldsV 0x2E#7 _ .vdot parseVR f (fOp_packVR _ f) rfl (parseVR_packVR _ f)) rfl

theorem RoundTrip.vpcnt (f : FmtVR) : RoundTrip.Statement (.vpcnt f) :=
  roundTrip_of _ .V (decodeFieldsV 0x2F#7 _ .vpcnt parseVR f (fOp_packVR _ f) rfl (parseVR_packVR _ f)) rfl

theorem RoundTrip.vcvt (f : FmtVC) : RoundTrip.Statement (.vcvt f) :=
  roundTrip_of _ .V (decodeFieldsV 0x30#7 _ .vcvt parseVC f (fOp_packVC _ f) rfl (parseVC_packVC _ f)) rfl

theorem RoundTrip.vqnt (f : FmtVC) : RoundTrip.Statement (.vqnt f) :=
  roundTrip_of _ .V (decodeFieldsV 0x31#7 _ .vqnt parseVC f (fOp_packVC _ f) rfl (parseVC_packVC _ f)) rfl

theorem RoundTrip.vdqnt (f : FmtVC) : RoundTrip.Statement (.vdqnt f) :=
  roundTrip_of _ .V (decodeFieldsV 0x32#7 _ .vdqnt parseVC f (fOp_packVC _ f) rfl (parseVC_packVC _ f)) rfl

theorem RoundTrip.vamax (f : FmtVC) : RoundTrip.Statement (.vamax f) :=
  roundTrip_of _ .V (decodeFieldsV 0x33#7 _ .vamax parseVC f (fOp_packVC _ f) rfl (parseVC_packVC _ f)) rfl

theorem RoundTrip.vred (f : FmtVR) : RoundTrip.Statement (.vred f) :=
  roundTrip_of _ .V (decodeFieldsV 0x34#7 _ .vred parseVR f (fOp_packVR _ f) rfl (parseVR_packVR _ f)) rfl

theorem RoundTrip.vcnt (f : FmtVC) : RoundTrip.Statement (.vcnt f) :=
  roundTrip_of _ .V (decodeFieldsV 0x35#7 _ .vcnt parseVC f (fOp_packVC _ f) rfl (parseVC_packVC _ f)) rfl

theorem RoundTrip.vpack4 (f : FmtVC) : RoundTrip.Statement (.vpack4 f) :=
  roundTrip_of _ .V (decodeFieldsV 0x36#7 _ .vpack4 parseVC f (fOp_packVC _ f) rfl (parseVC_packVC _ f)) rfl

theorem RoundTrip.vunpk4 (f : FmtVC) : RoundTrip.Statement (.vunpk4 f) :=
  roundTrip_of _ .V (decodeFieldsV 0x37#7 _ .vunpk4 parseVC f (fOp_packVC _ f) rfl (parseVC_packVC _ f)) rfl

theorem RoundTrip.vclz (f : FmtVR) : RoundTrip.Statement (.vclz f) :=
  roundTrip_of _ .V (decodeFieldsV 0x38#7 _ .vclz parseVR f (fOp_packVR _ f) rfl (parseVR_packVR _ f)) rfl

theorem RoundTrip.vrnd (f : FmtVR) : RoundTrip.Statement (.vrnd f) :=
  roundTrip_of _ .V (decodeFieldsV 0x39#7 _ .vrnd parseVR f (fOp_packVR _ f) rfl (parseVR_packVR _ f)) rfl

theorem RoundTrip.vclass (f : FmtVR) : RoundTrip.Statement (.vclass f) :=
  roundTrip_of _ .V (decodeFieldsV 0x3A#7 _ .vclass parseVR f (fOp_packVR _ f) rfl (parseVR_packVR _ f)) rfl

theorem RoundTrip.vmadd (f : FmtVR) : RoundTrip.Statement (.vmadd f) :=
  roundTrip_of _ .V (decodeFieldsV 0x3B#7 _ .vmadd parseVR f (fOp_packVR _ f) rfl (parseVR_packVR _ f)) rfl

theorem RoundTrip.vext (f : FmtVR) : RoundTrip.Statement (.vext f) :=
  roundTrip_of _ .V (decodeFieldsV 0x3C#7 _ .vext parseVR f (fOp_packVR _ f) rfl (parseVR_packVR _ f)) rfl

theorem RoundTrip.vclamp (f : FmtVR) : RoundTrip.Statement (.vclamp f) :=
  roundTrip_of _ .V (decodeFieldsV 0x3D#7 _ .vclamp parseVR f (fOp_packVR _ f) rfl (parseVR_packVR _ f)) rfl

theorem RoundTrip.vinsl (f : FmtVP) : RoundTrip.Statement (.vinsl f) :=
  roundTrip_of _ .V (decodeFieldsV 0x3E#7 _ .vinsl parseVP f (fOp_packVP _ f) rfl (parseVP_packVP _ f)) rfl

theorem RoundTrip.kpop (f : FmtVK) : RoundTrip.Statement (.kpop f) :=
  roundTrip_of _ .V (decodeFieldsV 0x3F#7 _ .kpop parseVK f (fOp_packVK _ f) rfl (parseVK_packVK _ f)) rfl

theorem RoundTrip.vsort2 (f : FmtVR) : RoundTrip.Statement (.vsort2 f) :=
  roundTrip_of _ .V (decodeFieldsV 0x40#7 _ .vsort2 parseVR f (fOp_packVR _ f) rfl (parseVR_packVR _ f)) rfl

theorem RoundTrip.vmaxi (f : FmtVR) : RoundTrip.Statement (.vmaxi f) :=
  roundTrip_of _ .V (decodeFieldsV 0x41#7 _ .vmaxi parseVR f (fOp_packVR _ f) rfl (parseVR_packVR _ f)) rfl

theorem RoundTrip.vmini (f : FmtVR) : RoundTrip.Statement (.vmini f) :=
  roundTrip_of _ .V (decodeFieldsV 0x42#7 _ .vmini parseVR f (fOp_packVR _ f) rfl (parseVR_packVR _ f)) rfl

theorem RoundTrip.vbcst (f : FmtVP) : RoundTrip.Statement (.vbcst f) :=
  roundTrip_of _ .V (decodeFieldsV 0x43#7 _ .vbcst parseVP f (fOp_packVP _ f) rfl (parseVP_packVP _ f)) rfl

theorem RoundTrip.vsgn (f : FmtVR) : RoundTrip.Statement (.vsgn f) :=
  roundTrip_of _ .V (decodeFieldsV 0x44#7 _ .vsgn parseVR f (fOp_packVR _ f) rfl (parseVR_packVR _ f)) rfl

theorem RoundTrip.vmerge (f : FmtVR) : RoundTrip.Statement (.vmerge f) :=
  roundTrip_of _ .V (decodeFieldsV 0x45#7 _ .vmerge parseVR f (fOp_packVR _ f) rfl (parseVR_packVR _ f)) rfl

theorem RoundTrip.vtrn (f : FmtVP) : RoundTrip.Statement (.vtrn f) :=
  roundTrip_of _ .V (decodeFieldsV 0x46#7 _ .vtrn parseVP f (fOp_packVP _ f) rfl (parseVP_packVP _ f)) rfl

theorem RoundTrip.vrev (f : FmtVP) : RoundTrip.Statement (.vrev f) :=
  roundTrip_of _ .V (decodeFieldsV 0x47#7 _ .vrev parseVP f (fOp_packVP _ f) rfl (parseVP_packVP _ f)) rfl

theorem RoundTrip.ld (f : FmtML) : RoundTrip.Statement (.ld f) :=
  roundTrip_of _ .M (decodeFieldsM 0x02#7 _ .ld parseML f (fOp_packML _ f) rfl (parseML_packML _ f)) rfl

theorem RoundTrip.st (f : FmtML) : RoundTrip.Statement (.st f) :=
  roundTrip_of _ .M (decodeFieldsM 0x03#7 _ .st parseML f (fOp_packML _ f) rfl (parseML_packML _ f)) rfl

theorem RoundTrip.ldv (f : FmtML) : RoundTrip.Statement (.ldv f) :=
  roundTrip_of _ .M (decodeFieldsM 0x04#7 _ .ldv parseML f (fOp_packML _ f) rfl (parseML_packML _ f)) rfl

theorem RoundTrip.stv (f : FmtML) : RoundTrip.Statement (.stv f) :=
  roundTrip_of _ .M (decodeFieldsM 0x05#7 _ .stv parseML f (fOp_packML _ f) rfl (parseML_packML _ f)) rfl

theorem RoundTrip.ldpi (f : FmtML) : RoundTrip.Statement (.ldpi f) :=
  roundTrip_of _ .M (decodeFieldsM 0x06#7 _ .ldpi parseML f (fOp_packML _ f) rfl (parseML_packML _ f)) rfl

theorem RoundTrip.stpi (f : FmtML) : RoundTrip.Statement (.stpi f) :=
  roundTrip_of _ .M (decodeFieldsM 0x07#7 _ .stpi parseML f (fOp_packML _ f) rfl (parseML_packML _ f)) rfl

theorem RoundTrip.ldf (f : FmtML) : RoundTrip.Statement (.ldf f) :=
  roundTrip_of _ .M (decodeFieldsM 0x08#7 _ .ldf parseML f (fOp_packML _ f) rfl (parseML_packML _ f)) rfl

theorem RoundTrip.lde (f : FmtML) : RoundTrip.Statement (.lde f) :=
  roundTrip_of _ .M (decodeFieldsM 0x09#7 _ .lde parseML f (fOp_packML _ f) rfl (parseML_packML _ f)) rfl

theorem RoundTrip.ste (f : FmtML) : RoundTrip.Statement (.ste f) :=
  roundTrip_of _ .M (decodeFieldsM 0x0A#7 _ .ste parseML f (fOp_packML _ f) rfl (parseML_packML _ f)) rfl

theorem RoundTrip.stf (f : FmtML) : RoundTrip.Statement (.stf f) :=
  roundTrip_of _ .M (decodeFieldsM 0x0B#7 _ .stf parseML f (fOp_packML _ f) rfl (parseML_packML _ f)) rfl

theorem RoundTrip.clre (f : FmtML) : RoundTrip.Statement (.clre f) :=
  roundTrip_of _ .M (decodeFieldsM 0x0C#7 _ .clre parseML f (fOp_packML _ f) rfl (parseML_packML _ f)) rfl

theorem RoundTrip.gth (f : FmtMG) : RoundTrip.Statement (.gth f) :=
  roundTrip_of _ .M (decodeFieldsM 0x0D#7 _ .gth parseMG f (fOp_packMG _ f) rfl (parseMG_packMG _ f)) rfl

theorem RoundTrip.sct (f : FmtMG) : RoundTrip.Statement (.sct f) :=
  roundTrip_of _ .M (decodeFieldsM 0x0E#7 _ .sct parseMG f (fOp_packMG _ f) rfl (parseMG_packMG _ f)) rfl

theorem RoundTrip.ldb (f : FmtML) : RoundTrip.Statement (.ldb f) :=
  roundTrip_of _ .M (decodeFieldsM 0x0F#7 _ .ldb parseML f (fOp_packML _ f) rfl (parseML_packML _ f)) rfl

theorem RoundTrip.probe (f : FmtML) : RoundTrip.Statement (.probe f) :=
  roundTrip_of _ .M (decodeFieldsM 0x10#7 _ .probe parseML f (fOp_packML _ f) rfl (parseML_packML _ f)) rfl

theorem RoundTrip.pref (f : FmtML) : RoundTrip.Statement (.pref f) :=
  roundTrip_of _ .M (decodeFieldsM 0x11#7 _ .pref parseML f (fOp_packML _ f) rfl (parseML_packML _ f)) rfl

theorem RoundTrip.disc (f : FmtML) : RoundTrip.Statement (.disc f) :=
  roundTrip_of _ .M (decodeFieldsM 0x12#7 _ .disc parseML f (fOp_packML _ f) rfl (parseML_packML _ f)) rfl

theorem RoundTrip.cbdef (f : FmtML) : RoundTrip.Statement (.cbdef f) :=
  roundTrip_of _ .M (decodeFieldsM 0x13#7 _ .cbdef parseML f (fOp_packML _ f) rfl (parseML_packML _ f)) rfl

theorem RoundTrip.cbget (f : FmtML) : RoundTrip.Statement (.cbget f) :=
  roundTrip_of _ .M (decodeFieldsM 0x14#7 _ .cbget parseML f (fOp_packML _ f) rfl (parseML_packML _ f)) rfl

theorem RoundTrip.cbput (f : FmtML) : RoundTrip.Statement (.cbput f) :=
  roundTrip_of _ .M (decodeFieldsM 0x15#7 _ .cbput parseML f (fOp_packML _ f) rfl (parseML_packML _ f)) rfl

theorem RoundTrip.fence (f : FmtML) : RoundTrip.Statement (.fence f) :=
  roundTrip_of _ .M (decodeFieldsM 0x16#7 _ .fence parseML f (fOp_packML _ f) rfl (parseML_packML _ f)) rfl

theorem RoundTrip.cbqry (f : FmtML) : RoundTrip.Statement (.cbqry f) :=
  roundTrip_of _ .M (decodeFieldsM 0x17#7 _ .cbqry parseML f (fOp_packML _ f) rfl (parseML_packML _ f)) rfl

theorem RoundTrip.ldvs (f : FmtMG) : RoundTrip.Statement (.ldvs f) :=
  roundTrip_of _ .M (decodeFieldsM 0x18#7 _ .ldvs parseMG f (fOp_packMG _ f) rfl (parseMG_packMG _ f)) rfl

theorem RoundTrip.stvs (f : FmtMG) : RoundTrip.Statement (.stvs f) :=
  roundTrip_of _ .M (decodeFieldsM 0x19#7 _ .stvs parseMG f (fOp_packMG _ f) rfl (parseMG_packMG _ f)) rfl

theorem RoundTrip.ldvm (f : FmtMG) : RoundTrip.Statement (.ldvm f) :=
  roundTrip_of _ .M (decodeFieldsM 0x1A#7 _ .ldvm parseMG f (fOp_packMG _ f) rfl (parseMG_packMG _ f)) rfl

theorem RoundTrip.stvm (f : FmtMG) : RoundTrip.Statement (.stvm f) :=
  roundTrip_of _ .M (decodeFieldsM 0x1B#7 _ .stvm parseMG f (fOp_packMG _ f) rfl (parseMG_packMG _ f)) rfl

theorem RoundTrip.mmov (f : FmtMI) : RoundTrip.Statement (.mmov f) :=
  roundTrip_of _ .M (decodeFieldsM 0x1C#7 _ .mmov parseMI f (fOp_packMI _ f) rfl (parseMI_packMI _ f)) rfl

theorem RoundTrip.xadd (f : FmtMI) : RoundTrip.Statement (.xadd f) :=
  roundTrip_of _ .M (decodeFieldsM 0x1D#7 _ .xadd parseMI f (fOp_packMI _ f) rfl (parseMI_packMI _ f)) rfl

theorem RoundTrip.xli (f : FmtMI) : RoundTrip.Statement (.xli f) :=
  roundTrip_of _ .M (decodeFieldsM 0x1E#7 _ .xli parseMI f (fOp_packMI _ f) rfl (parseMI_packMI _ f)) rfl

theorem RoundTrip.xmov (f : FmtMI) : RoundTrip.Statement (.xmov f) :=
  roundTrip_of _ .M (decodeFieldsM 0x1F#7 _ .xmov parseMI f (fOp_packMI _ f) rfl (parseMI_packMI _ f)) rfl

theorem RoundTrip.cpy (f : FmtEC) : RoundTrip.Statement (.cpy f) :=
  roundTrip_of _ .E (decodeFieldsE 0x02#7 _ .cpy parseEC f (fOp_packEC _ f) rfl (parseEC_packEC _ f)) rfl

theorem RoundTrip.cpymx (f : FmtEC) : RoundTrip.Statement (.cpymx f) :=
  roundTrip_of _ .E (decodeFieldsE 0x03#7 _ .cpymx parseEC f (fOp_packEC _ f) rfl (parseEC_packEC _ f)) rfl

theorem RoundTrip.cpyMig (f : FmtEC) : RoundTrip.Statement (.cpyMig f) :=
  roundTrip_of _ .E (decodeFieldsE 0x04#7 _ .cpyMig parseEC f (fOp_packEC _ f) rfl (parseEC_packEC _ f)) rfl

theorem RoundTrip.cpyq (f : FmtEC) : RoundTrip.Statement (.cpyq f) :=
  roundTrip_of _ .E (decodeFieldsE 0x05#7 _ .cpyq parseEC f (fOp_packEC _ f) rfl (parseEC_packEC _ f)) rfl

theorem RoundTrip.cpyx (f : FmtEC) : RoundTrip.Statement (.cpyx f) :=
  roundTrip_of _ .E (decodeFieldsE 0x06#7 _ .cpyx parseEC f (fOp_packEC _ f) rfl (parseEC_packEC _ f)) rfl

theorem RoundTrip.mxfmt (f : FmtEI) : RoundTrip.Statement (.mxfmt f) :=
  roundTrip_of _ .E (decodeFieldsE 0x08#7 _ .mxfmt parseEI f (fOp_packEI _ f) rfl (parseEI_packEI _ f)) rfl

theorem RoundTrip.mxlen (f : FmtEI) : RoundTrip.Statement (.mxlen f) :=
  roundTrip_of _ .E (decodeFieldsE 0x09#7 _ .mxlen parseEI f (fOp_packEI _ f) rfl (parseEI_packEI _ f)) rfl

theorem RoundTrip.mxseed (f : FmtEM) : RoundTrip.Statement (.mxseed f) :=
  roundTrip_of _ .E (decodeFieldsE 0x0A#7 _ .mxseed parseEM f (fOp_packEM _ f) rfl (parseEM_packEM _ f)) rfl

theorem RoundTrip.mxthr (f : FmtEM) : RoundTrip.Statement (.mxthr f) :=
  roundTrip_of _ .E (decodeFieldsE 0x0B#7 _ .mxthr parseEM f (fOp_packEM _ f) rfl (parseEM_packEM _ f)) rfl

theorem RoundTrip.mxset (f : FmtEM) : RoundTrip.Statement (.mxset f) :=
  roundTrip_of _ .E (decodeFieldsE 0x0C#7 _ .mxset parseEM f (fOp_packEM _ f) rfl (parseEM_packEM _ f)) rfl

theorem RoundTrip.mxgo (f : FmtEM) : RoundTrip.Statement (.mxgo f) :=
  roundTrip_of _ .E (decodeFieldsE 0x0D#7 _ .mxgo parseEM f (fOp_packEM _ f) rfl (parseEM_packEM _ f)) rfl

theorem RoundTrip.mxgos (f : FmtEM) : RoundTrip.Statement (.mxgos f) :=
  roundTrip_of _ .E (decodeFieldsE 0x0E#7 _ .mxgos parseEM f (fOp_packEM _ f) rfl (parseEM_packEM _ f)) rfl

theorem RoundTrip.mxgoa (f : FmtEM) : RoundTrip.Statement (.mxgoa f) :=
  roundTrip_of _ .E (decodeFieldsE 0x0F#7 _ .mxgoa parseEM f (fOp_packEM _ f) rfl (parseEM_packEM _ f)) rfl

theorem RoundTrip.mxdrain (f : FmtEI) : RoundTrip.Statement (.mxdrain f) :=
  roundTrip_of _ .E (decodeFieldsE 0x10#7 _ .mxdrain parseEI f (fOp_packEI _ f) rfl (parseEI_packEI _ f)) rfl

theorem RoundTrip.mxrd (f : FmtEM) : RoundTrip.Statement (.mxrd f) :=
  roundTrip_of _ .E (decodeFieldsE 0x11#7 _ .mxrd parseEM f (fOp_packEM _ f) rfl (parseEM_packEM _ f)) rfl

theorem RoundTrip.mxclr (f : FmtEI) : RoundTrip.Statement (.mxclr f) :=
  roundTrip_of _ .E (decodeFieldsE 0x12#7 _ .mxclr parseEI f (fOp_packEI _ f) rfl (parseEI_packEI _ f)) rfl

theorem RoundTrip.mxsel (f : FmtEI) : RoundTrip.Statement (.mxsel f) :=
  roundTrip_of _ .E (decodeFieldsE 0x13#7 _ .mxsel parseEI f (fOp_packEI _ f) rfl (parseEI_packEI _ f)) rfl

theorem RoundTrip.mxst (f : FmtEM) : RoundTrip.Statement (.mxst f) :=
  roundTrip_of _ .E (decodeFieldsE 0x14#7 _ .mxst parseEM f (fOp_packEM _ f) rfl (parseEM_packEM _ f)) rfl

theorem RoundTrip.mxmute (f : FmtEM) : RoundTrip.Statement (.mxmute f) :=
  roundTrip_of _ .E (decodeFieldsE 0x15#7 _ .mxmute parseEM f (fOp_packEM _ f) rfl (parseEM_packEM _ f)) rfl

theorem RoundTrip.phase (f : FmtEP) : RoundTrip.Statement (.phase f) :=
  roundTrip_of _ .E (decodeFieldsE 0x16#7 _ .phase parseEP f (fOp_packEP _ f) rfl (parseEP_packEP _ f)) rfl

theorem RoundTrip.phq (f : FmtEI) : RoundTrip.Statement (.phq f) :=
  roundTrip_of _ .E (decodeFieldsE 0x17#7 _ .phq parseEI f (fOp_packEI _ f) rfl (parseEI_packEI _ f)) rfl

theorem RoundTrip.mxstop (f : FmtEI) : RoundTrip.Statement (.mxstop f) :=
  roundTrip_of _ .E (decodeFieldsE 0x18#7 _ .mxstop parseEI f (fOp_packEI _ f) rfl (parseEI_packEI _ f)) rfl

theorem RoundTrip.tklend (f : FmtYT) : RoundTrip.Statement (.tklend f) :=
  roundTrip_of _ .Y (decodeFieldsY 0x02#7 _ .tklend parseYT f (fOp_packYT _ f) rfl (parseYT_packYT _ f)) rfl

theorem RoundTrip.tkret (f : FmtYT) : RoundTrip.Statement (.tkret f) :=
  roundTrip_of _ .Y (decodeFieldsY 0x03#7 _ .tkret parseYT f (fOp_packYT _ f) rfl (parseYT_packYT _ f)) rfl

theorem RoundTrip.tksplit (f : FmtYT) : RoundTrip.Statement (.tksplit f) :=
  roundTrip_of _ .Y (decodeFieldsY 0x04#7 _ .tksplit parseYT f (fOp_packYT _ f) rfl (parseYT_packYT _ f)) rfl

theorem RoundTrip.tkjoin (f : FmtYT) : RoundTrip.Statement (.tkjoin f) :=
  roundTrip_of _ .Y (decodeFieldsY 0x05#7 _ .tkjoin parseYT f (fOp_packYT _ f) rfl (parseYT_packYT _ f)) rfl

theorem RoundTrip.tkshr (f : FmtYT) : RoundTrip.Statement (.tkshr f) :=
  roundTrip_of _ .Y (decodeFieldsY 0x06#7 _ .tkshr parseYT f (fOp_packYT _ f) rfl (parseYT_packYT _ f)) rfl

theorem RoundTrip.tkunsh (f : FmtYT) : RoundTrip.Statement (.tkunsh f) :=
  roundTrip_of _ .Y (decodeFieldsY 0x07#7 _ .tkunsh parseYT f (fOp_packYT _ f) rfl (parseYT_packYT _ f)) rfl

theorem RoundTrip.tkrcl (f : FmtYT) : RoundTrip.Statement (.tkrcl f) :=
  roundTrip_of _ .Y (decodeFieldsY 0x08#7 _ .tkrcl parseYT f (fOp_packYT _ f) rfl (parseYT_packYT _ f)) rfl

theorem RoundTrip.tkwait (f : FmtYT) : RoundTrip.Statement (.tkwait f) := by
  intro hw
  have hk : f.shk = 0#2 := by
    have h : tkwaitOk 0#2 f = true := hw
    simp [tkwaitOk] at h
    exact h.2
  refine roundTrip_of _ .Y ?_ rfl hw
  have hb : isOne (0#1) = false := rfl
  simp [decodeFields, encode, decodeY, under, parseYT_packYT, hk, hb]

theorem RoundTrip.tkwaitSh (f : FmtYT) : RoundTrip.Statement (.tkwaitSh f) := by
  intro hw
  have hk : f.shk = 1#2 := by
    have h : tkwaitOk 1#2 f = true := hw
    simp [tkwaitOk] at h
    exact h.2
  refine roundTrip_of _ .Y ?_ rfl hw
  have hb : isOne (1#1) = true := rfl
  simp [decodeFields, encode, decodeY, under, parseYT_packYT, hk, hb]

theorem RoundTrip.tkqry (f : FmtYT) : RoundTrip.Statement (.tkqry f) :=
  roundTrip_of _ .Y (decodeFieldsY 0x0A#7 _ .tkqry parseYT f (fOp_packYT _ f) rfl (parseYT_packYT _ f)) rfl

theorem RoundTrip.arrive (f : FmtYS) : RoundTrip.Statement (.arrive f) :=
  roundTrip_of _ .Y (decodeFieldsY 0x0B#7 _ .arrive parseYS f (fOp_packYS _ f) rfl (parseYS_packYS _ f)) rfl

theorem RoundTrip.arriveRel (f : FmtYS) : RoundTrip.Statement (.arriveRel f) :=
  roundTrip_of _ .Y (decodeFieldsY 0x0C#7 _ .arriveRel parseYS f (fOp_packYS _ f) rfl (parseYS_packYS _ f)) rfl

theorem RoundTrip.waitph (f : FmtYS) : RoundTrip.Statement (.waitph f) :=
  roundTrip_of _ .Y (decodeFieldsY 0x0D#7 _ .waitph parseYS f (fOp_packYS _ f) rfl (parseYS_packYS _ f)) rfl

theorem RoundTrip.trig (f : FmtYS) : RoundTrip.Statement (.trig f) :=
  roundTrip_of _ .Y (decodeFieldsY 0x0E#7 _ .trig parseYS f (fOp_packYS _ f) rfl (parseYS_packYS _ f)) rfl

theorem RoundTrip.grow (f : FmtYS) : RoundTrip.Statement (.grow f) :=
  roundTrip_of _ .Y (decodeFieldsY 0x0F#7 _ .grow parseYS f (fOp_packYS _ f) rfl (parseYS_packYS _ f)) rfl

theorem RoundTrip.rmin (f : FmtYS) : RoundTrip.Statement (.rmin f) :=
  roundTrip_of _ .Y (decodeFieldsY 0x10#7 _ .rmin parseYS f (fOp_packYS _ f) rfl (parseYS_packYS _ f)) rfl

theorem RoundTrip.rmax (f : FmtYS) : RoundTrip.Statement (.rmax f) :=
  roundTrip_of _ .Y (decodeFieldsY 0x11#7 _ .rmax parseYS f (fOp_packYS _ f) rfl (parseYS_packYS _ f)) rfl

theorem RoundTrip.rsum (f : FmtYS) : RoundTrip.Statement (.rsum f) :=
  roundTrip_of _ .Y (decodeFieldsY 0x12#7 _ .rsum parseYS f (fOp_packYS _ f) rfl (parseYS_packYS _ f)) rfl

theorem RoundTrip.redf (f : FmtYS) : RoundTrip.Statement (.redf f) :=
  roundTrip_of _ .Y (decodeFieldsY 0x13#7 _ .redf parseYS f (fOp_packYS _ f) rfl (parseYS_packYS _ f)) rfl

theorem RoundTrip.amor (f : FmtYS) : RoundTrip.Statement (.amor f) :=
  roundTrip_of _ .Y (decodeFieldsY 0x14#7 _ .amor parseYS f (fOp_packYS _ f) rfl (parseYS_packYS _ f)) rfl

theorem RoundTrip.cas (f : FmtYS) : RoundTrip.Statement (.cas f) :=
  roundTrip_of _ .Y (decodeFieldsY 0x15#7 _ .cas parseYS f (fOp_packYS _ f) rfl (parseYS_packYS _ f)) rfl

theorem RoundTrip.yli (f : FmtYI) : RoundTrip.Statement (.yli f) :=
  roundTrip_of _ .Y (decodeFieldsY 0x16#7 _ .yli parseYI f (fOp_packYI _ f) rfl (parseYI_packYI _ f)) rfl

theorem RoundTrip.ymov (f : FmtYS) : RoundTrip.Statement (.ymov f) :=
  roundTrip_of _ .Y (decodeFieldsY 0x17#7 _ .ymov parseYS f (fOp_packYS _ f) rfl (parseYS_packYS _ f)) rfl

theorem RoundTrip.amoAdd (f : FmtYS) : RoundTrip.Statement (.amoAdd f) :=
  roundTrip_of _ .Y (decodeFieldsY 0x18#7 _ .amoAdd parseYS f (fOp_packYS _ f) rfl (parseYS_packYS _ f)) rfl

theorem RoundTrip.amoMin (f : FmtYS) : RoundTrip.Statement (.amoMin f) :=
  roundTrip_of _ .Y (decodeFieldsY 0x19#7 _ .amoMin parseYS f (fOp_packYS _ f) rfl (parseYS_packYS _ f)) rfl

theorem RoundTrip.amoMax (f : FmtYS) : RoundTrip.Statement (.amoMax f) :=
  roundTrip_of _ .Y (decodeFieldsY 0x1A#7 _ .amoMax parseYS f (fOp_packYS _ f) rfl (parseYS_packYS _ f)) rfl

theorem RoundTrip.amoAnd (f : FmtYS) : RoundTrip.Statement (.amoAnd f) :=
  roundTrip_of _ .Y (decodeFieldsY 0x1B#7 _ .amoAnd parseYS f (fOp_packYS _ f) rfl (parseYS_packYS _ f)) rfl

theorem RoundTrip.amoOr (f : FmtYS) : RoundTrip.Statement (.amoOr f) :=
  roundTrip_of _ .Y (decodeFieldsY 0x1C#7 _ .amoOr parseYS f (fOp_packYS _ f) rfl (parseYS_packYS _ f)) rfl

theorem RoundTrip.amoXor (f : FmtYS) : RoundTrip.Statement (.amoXor f) :=
  roundTrip_of _ .Y (decodeFieldsY 0x1D#7 _ .amoXor parseYS f (fOp_packYS _ f) rfl (parseYS_packYS _ f)) rfl

theorem RoundTrip.phdef (f : FmtYS) : RoundTrip.Statement (.phdef f) :=
  roundTrip_of _ .Y (decodeFieldsY 0x1E#7 _ .phdef parseYS f (fOp_packYS _ f) rfl (parseYS_packYS _ f)) rfl

theorem RoundTrip.yadd (f : FmtYS) : RoundTrip.Statement (.yadd f) :=
  roundTrip_of _ .Y (decodeFieldsY 0x1F#7 _ .yadd parseYS f (fOp_packYS _ f) rfl (parseYS_packYS _ f)) rfl

theorem RoundTrip.fetch (core : CoreId) : RoundTrip.Statement (.fetch core) := fun _ _ h => nomatch h

theorem RoundTrip.taskRelease (core : CoreId) : RoundTrip.Statement (.taskRelease core) := fun _ _ h => nomatch h

theorem RoundTrip.feAccessArrival (n : Nat) : RoundTrip.Statement (.feAccessArrival n) := fun _ _ h => nomatch h

theorem RoundTrip.fenceComplete (core : CoreId) : RoundTrip.Statement (.fenceComplete core) := fun _ _ h => nomatch h

theorem RoundTrip.copyAccept (n : Nat) : RoundTrip.Statement (.copyAccept n) := fun _ _ h => nomatch h

theorem RoundTrip.copyStart (st : StackId) (eng : Fin 2) (n : Nat) : RoundTrip.Statement (.copyStart st eng n) := fun _ _ h => nomatch h

theorem RoundTrip.copyComplete (st : StackId) (n : Nat) : RoundTrip.Statement (.copyComplete st n) := fun _ _ h => nomatch h

theorem RoundTrip.followOnCommit (st : StackId) (n : Nat) : RoundTrip.Statement (.followOnCommit st n) := fun _ _ h => nomatch h

theorem RoundTrip.arrayStart (arr : ArrayId) : RoundTrip.Statement (.arrayStart arr) := fun _ _ h => nomatch h

theorem RoundTrip.arrayStep (arr : ArrayId) : RoundTrip.Statement (.arrayStep arr) := fun _ _ h => nomatch h

theorem RoundTrip.arrayCommandEnd (arr : ArrayId) : RoundTrip.Statement (.arrayCommandEnd arr) := fun _ _ h => nomatch h

theorem RoundTrip.phaseWindowOpen (core : CoreId) : RoundTrip.Statement (.phaseWindowOpen core) := fun _ _ h => nomatch h

theorem RoundTrip.phaseWindowEnd (core : CoreId) : RoundTrip.Statement (.phaseWindowEnd core) := fun _ _ h => nomatch h

theorem RoundTrip.tokenMessageArrival (n : Nat) : RoundTrip.Statement (.tokenMessageArrival n) := fun _ _ h => nomatch h

theorem RoundTrip.tokenRecordClear (st : StackId) (e : Fin 16384) : RoundTrip.Statement (.tokenRecordClear st e) := fun _ _ h => nomatch h

theorem RoundTrip.phaseArrival (n : Nat) : RoundTrip.Statement (.phaseArrival n) := fun _ _ h => nomatch h

theorem RoundTrip.roundReceive (n : Nat) : RoundTrip.Statement (.roundReceive n) := fun _ _ h => nomatch h

theorem RoundTrip.amoApply (n : Nat) (merge : Bool) : RoundTrip.Statement (.amoApply n merge) := fun _ _ h => nomatch h

theorem RoundTrip.triggerCount (n : Nat) : RoundTrip.Statement (.triggerCount n) := fun _ _ h => nomatch h

theorem RoundTrip.growApply (n : Nat) : RoundTrip.Statement (.growApply n) := fun _ _ h => nomatch h

theorem RoundTrip.resultLand (core : CoreId) : RoundTrip.Statement (.resultLand core) := fun _ _ h => nomatch h

theorem RoundTrip.lateLoadArrival (core : CoreId) (n : Nat) : RoundTrip.Statement (.lateLoadArrival core n) := fun _ _ h => nomatch h

theorem RoundTrip.interlockedArrival (core : CoreId) (n : Nat) : RoundTrip.Statement (.interlockedArrival core n) := fun _ _ h => nomatch h

theorem RoundTrip.writeAtHome (n : Nat) : RoundTrip.Statement (.writeAtHome n) := fun _ _ h => nomatch h

theorem RoundTrip.spillProceed (st : StackId) (n : Nat) : RoundTrip.Statement (.spillProceed st n) := fun _ _ h => nomatch h

theorem RoundTrip.poolPush (die : DieId) (z : Fin 5) (v : Word) : RoundTrip.Statement (.poolPush die z v) := fun _ _ h => nomatch h

theorem RoundTrip.resvWrite (st : StackId) (e : Fin 256) (v : Word) : RoundTrip.Statement (.resvWrite st e v) := fun _ _ h => nomatch h

theorem RoundTrip.tlbinv (v : Word) : RoundTrip.Statement (.tlbinv v) := fun _ _ h => nomatch h

theorem RoundTrip.carveoutPeriod (st : StackId) (gain loss : BitVec 16) : RoundTrip.Statement (.carveoutPeriod st gain loss) := fun _ _ h => nomatch h

theorem RoundTrip.carveoutMoveDone (st : StackId) : RoundTrip.Statement (.carveoutMoveDone st) := fun _ _ h => nomatch h

theorem RoundTrip.semAcquire (m : Master) (n : SemId) (lease : BitVec 32) : RoundTrip.Statement (.semAcquire m n lease) := fun _ _ h => nomatch h

theorem RoundTrip.semRelease (m : Master) (n : SemId) (lease : BitVec 32) : RoundTrip.Statement (.semRelease m n lease) := fun _ _ h => nomatch h

theorem RoundTrip.semLeaseExpire (n : SemId) : RoundTrip.Statement (.semLeaseExpire n) := fun _ _ h => nomatch h

theorem RoundTrip.dispatcherTakeover : RoundTrip.Statement (.dispatcherTakeover) := fun _ _ h => nomatch h

theorem RoundTrip.queueEnable (m : Master) (q : QueueId) (v : Word) : RoundTrip.Statement (.queueEnable m q v) := fun _ _ h => nomatch h

theorem RoundTrip.queueDisable (m : Master) (q : QueueId) (v : Word) : RoundTrip.Statement (.queueDisable m q v) := fun _ _ h => nomatch h

theorem RoundTrip.queueConfigure (m : Master) (q : QueueId) (v : Word) : RoundTrip.Statement (.queueConfigure m q v) := fun _ _ h => nomatch h

theorem RoundTrip.queuePush (m : Master) (q : QueueId) (v : Word) : RoundTrip.Statement (.queuePush m q v) := fun _ _ h => nomatch h

theorem RoundTrip.launchRecordRead (q : QueueId) : RoundTrip.Statement (.launchRecordRead q) := fun _ _ h => nomatch h

theorem RoundTrip.imageValidate (q : QueueId) : RoundTrip.Statement (.imageValidate q) := fun _ _ h => nomatch h

theorem RoundTrip.dependenceMet (q : QueueId) : RoundTrip.Statement (.dependenceMet q) := fun _ _ h => nomatch h

theorem RoundTrip.launchAdmit (q : QueueId) : RoundTrip.Statement (.launchAdmit q) := fun _ _ h => nomatch h

theorem RoundTrip.issueDecision : RoundTrip.Statement (.issueDecision) := fun _ _ h => nomatch h

theorem RoundTrip.taskStart (core : CoreId) : RoundTrip.Statement (.taskStart core) := fun _ _ h => nomatch h

theorem RoundTrip.planeLoadDone (core : CoreId) : RoundTrip.Statement (.planeLoadDone core) := fun _ _ h => nomatch h

theorem RoundTrip.contextEnd (ctx : CtxId) : RoundTrip.Statement (.contextEnd ctx) := fun _ _ h => nomatch h

theorem RoundTrip.fatalContextError (n : Nat) : RoundTrip.Statement (.fatalContextError n) := fun _ _ h => nomatch h

theorem RoundTrip.eltailWrite (st : StackId) (v : Word) : RoundTrip.Statement (.eltailWrite st v) := fun _ _ h => nomatch h

theorem RoundTrip.faultPop (st : StackId) : RoundTrip.Statement (.faultPop st) := fun _ _ h => nomatch h

theorem RoundTrip.freplyServiced (st : StackId) (ctx : CtxId) (ent : Fin 4096) (seq : BitVec 32) : RoundTrip.Statement (.freplyServiced st ctx ent seq) := fun _ _ h => nomatch h

theorem RoundTrip.freplyRefused (st : StackId) (ctx : CtxId) (ent : Fin 4096) (seq : BitVec 32) : RoundTrip.Statement (.freplyRefused st ctx ent seq) := fun _ _ h => nomatch h

theorem RoundTrip.freplyEndContext (st : StackId) (ctx : CtxId) (ent : Fin 4096) (seq : BitVec 32) : RoundTrip.Statement (.freplyEndContext st ctx ent seq) := fun _ _ h => nomatch h

theorem RoundTrip.preemptSuspend (st : StackId) (v : Word) : RoundTrip.Statement (.preemptSuspend st v) := fun _ _ h => nomatch h

theorem RoundTrip.preemptSwapOutRelease (st : StackId) (ctx : CtxId) : RoundTrip.Statement (.preemptSwapOutRelease st ctx) := fun _ _ h => nomatch h

theorem RoundTrip.preemptResume (st : StackId) (v : Word) : RoundTrip.Statement (.preemptResume st v) := fun _ _ h => nomatch h

theorem RoundTrip.taskSuspend (core : CoreId) : RoundTrip.Statement (.taskSuspend core) := fun _ _ h => nomatch h

theorem RoundTrip.teamResume (st : StackId) (team : Nat) : RoundTrip.Statement (.teamResume st team) := fun _ _ h => nomatch h

theorem RoundTrip.saveAreaCheck (ctx : CtxId) (v : Word) (linesOk : Bool) : RoundTrip.Statement (.saveAreaCheck ctx v linesOk) := fun _ _ h => nomatch h

theorem RoundTrip.softError (u : ErrUnit) (corrected : Bool) : RoundTrip.Statement (.softError u corrected) := fun _ _ h => nomatch h

theorem RoundTrip.selfTestDone (u : ErrUnit) (passed : Bool) : RoundTrip.Statement (.selfTestDone u passed) := fun _ _ h => nomatch h

theorem RoundTrip.poisonConsumed (p : PoisonUse) : RoundTrip.Statement (.poisonConsumed p) := fun _ _ h => nomatch h

theorem RoundTrip.teamReplay (st : StackId) (team : Nat) : RoundTrip.Statement (.teamReplay st team) := fun _ _ h => nomatch h

theorem RoundTrip.stackResetQuiesce (st : StackId) (fen : Bool) : RoundTrip.Statement (.stackResetQuiesce st fen) := fun _ _ h => nomatch h

theorem RoundTrip.stackResetNoQuiesce (st : StackId) (fen : Bool) : RoundTrip.Statement (.stackResetNoQuiesce st fen) := fun _ _ h => nomatch h

theorem RoundTrip.stackResetDone (st : StackId) : RoundTrip.Statement (.stackResetDone st) := fun _ _ h => nomatch h

theorem RoundTrip.debugHaltRequest (core : CoreId) : RoundTrip.Statement (.debugHaltRequest core) := fun _ _ h => nomatch h

theorem RoundTrip.debugHalt (core : CoreId) : RoundTrip.Statement (.debugHalt core) := fun _ _ h => nomatch h

theorem RoundTrip.debugResume (core : CoreId) : RoundTrip.Statement (.debugResume core) := fun _ _ h => nomatch h

theorem RoundTrip.debugDataWrite (core : CoreId) (v : Word) : RoundTrip.Statement (.debugDataWrite core v) := fun _ _ h => nomatch h

theorem RoundTrip.deadlockWalk : RoundTrip.Statement (.deadlockWalk) := fun _ _ h => nomatch h

theorem RoundTrip.nakRetry (n : Nat) : RoundTrip.Statement (.nakRetry n) := fun _ _ h => nomatch h

theorem RoundTrip.droopAlarm (cl : ClusterId) : RoundTrip.Statement (.droopAlarm cl) := fun _ _ h => nomatch h

theorem RoundTrip.stretchEnd (cl : ClusterId) : RoundTrip.Statement (.stretchEnd cl) := fun _ _ h => nomatch h

theorem RoundTrip.halfIssueWindowEnd (cl : ClusterId) : RoundTrip.Statement (.halfIssueWindowEnd cl) := fun _ _ h => nomatch h

theorem RoundTrip.thermalTrip (cl : ClusterId) : RoundTrip.Statement (.thermalTrip cl) := fun _ _ h => nomatch h

theorem RoundTrip.currentTrip (cl : ClusterId) : RoundTrip.Statement (.currentTrip cl) := fun _ _ h => nomatch h

theorem RoundTrip.tripClear (cl : ClusterId) : RoundTrip.Statement (.tripClear cl) := fun _ _ h => nomatch h

theorem RoundTrip.clockSet (cl : ClusterId) (v : Word) : RoundTrip.Statement (.clockSet cl v) := fun _ _ h => nomatch h

theorem RoundTrip.vsetWrite (cl : ClusterId) (v : Word) : RoundTrip.Statement (.vsetWrite cl v) := fun _ _ h => nomatch h

theorem RoundTrip.relockDone (cl : ClusterId) (stopped : Nat) : RoundTrip.Statement (.relockDone cl stopped) := fun _ _ h => nomatch h

theorem RoundTrip.watchdogKick (m : Master) (v : Word) : RoundTrip.Statement (.watchdogKick m v) := fun _ _ h => nomatch h

theorem RoundTrip.watchdogExpire : RoundTrip.Statement (.watchdogExpire) := fun _ _ h => nomatch h

theorem RoundTrip.registerWrite (m : Master) (r : RegSpace) (off : Nat) (v : Word) : RoundTrip.Statement (.registerWrite m r off v) := fun _ _ h => nomatch h

theorem RoundTrip.contextConfigure (ctx : CtxId) (v : Word) : RoundTrip.Statement (.contextConfigure ctx v) := fun _ _ h => nomatch h

theorem RoundTrip.clusterQuiesceRequest (cl : ClusterId) (req : Bool) : RoundTrip.Statement (.clusterQuiesceRequest cl req) := fun _ _ h => nomatch h

theorem RoundTrip.clusterPowerCommand (cl : ClusterId) (tgt : BitVec 3) : RoundTrip.Statement (.clusterPowerCommand cl tgt) := fun _ _ h => nomatch h

theorem RoundTrip.clusterWake (cl : ClusterId) : RoundTrip.Statement (.clusterWake cl) := fun _ _ h => nomatch h

theorem RoundTrip.clusterTransitionDone (cl : ClusterId) : RoundTrip.Statement (.clusterTransitionDone cl) := fun _ _ h => nomatch h

theorem RoundTrip.pfSelect (sel : Bool) : RoundTrip.Statement (.pfSelect sel) := fun _ _ h => nomatch h

theorem RoundTrip.attestRequest (v : Word) : RoundTrip.Statement (.attestRequest v) := fun _ _ h => nomatch h

theorem RoundTrip.attestDone (err : Bool) : RoundTrip.Statement (.attestDone err) := fun _ _ h => nomatch h

theorem RoundTrip.linkEnable (port : PortId) (en : Bool) : RoundTrip.Statement (.linkEnable port en) := fun _ _ h => nomatch h

theorem RoundTrip.linkUp (port : PortId) (peer : ModuleId) : RoundTrip.Statement (.linkUp port peer) := fun _ _ h => nomatch h

theorem RoundTrip.routeWrite (m : ModuleId) (v : Word) : RoundTrip.Statement (.routeWrite m v) := fun _ _ h => nomatch h

theorem RoundTrip.moduleUnreachable (m : ModuleId) : RoundTrip.Statement (.moduleUnreachable m) := fun _ _ h => nomatch h

theorem RoundTrip.remoteGrantReceive (g : GrantMsg) : RoundTrip.Statement (.remoteGrantReceive g) := fun _ _ h => nomatch h

theorem RoundTrip.remoteArrival (r : RemoteArr) : RoundTrip.Statement (.remoteArrival r) := fun _ _ h => nomatch h

theorem RoundTrip.flitReceive (hop : Hop) (flit : BitVec 2048) : RoundTrip.Statement (.flitReceive hop flit) := fun _ _ h => nomatch h

theorem RoundTrip.flitReplay (hop : Hop) : RoundTrip.Statement (.flitReplay hop) := fun _ _ h => nomatch h

theorem RoundTrip.campionReset (m : Master) : RoundTrip.Statement (.campionReset m) := fun _ _ h => nomatch h

theorem RoundTrip.moduleReset : RoundTrip.Statement (.moduleReset) := fun _ _ h => nomatch h

theorem RoundTrip.bringUpStage (ok : Bool) : RoundTrip.Statement (.bringUpStage ok) := fun _ _ h => nomatch h

theorem RoundTrip.tlbDropComplete (n : Nat) : RoundTrip.Statement (.tlbDropComplete n) := fun _ _ h => nomatch h

theorem RoundTrip.arrivalAcknowledgement (n : Nat) (outside : Bool) : RoundTrip.Statement (.arrivalAcknowledgement n outside) := fun _ _ h => nomatch h

end Sys2Proof.Laws
end

