-- ==== Sys2Proof/Tests/Slice0.lean ====
section
/-! SUPPORT. Tests: ill-formed terms that the check refuses, words written out from the spec's encodings, a state that meets the
hypotheses of each statement, and single steps on small states. Expected values come from the spec's rules and examples. -/

set_option Elab.async false

namespace Sys2Proof.Tests

open Sys2Proof.Machine

/-! ## Small terms and states -/

/-- No guard; the guard p3 passing on 1; the guard p3 passing on 0 (R114). -/
def ng : Guard := ⟨false, false, 0⟩
def g3 : Guard := ⟨true, false, 3⟩
def n3 : Guard := ⟨true, true, 3⟩

def hd (d a b : Opd) : Hdr := ⟨ng, d, a, b⟩
def mn (i : BitVec 6) : Opd := .main i

/-- A task of context 0, launch 0 and team 0 at coordinate 0 with guard-file entry p3 set. -/
def tk : Task := { Task.fresh 0 0 0#48 0 0 0#64 with regs := { Regs.zero with p := 8#64 } }

/-- The reset state with a task current on core 0. -/
def on0 (t : Task) : State := State.reset.setTask 0 t

/-- That task with one of its files replaced. -/
def withA (l : Tab Word) : Task := { tk with regs := { tk.regs with a := l } }
def withX (l : Tab Word) : Task := { tk with regs := { tk.regs with x := l } }
def withE (l : Tab Word) : Task := { tk with regs := { tk.regs with e := l } }
def withY (l : Tab Word) : Task := { tk with regs := { tk.regs with y := l } }
def withC (l : Tab Word) : Task := { tk with regs := { tk.regs with c := l } }

/-- Whether an instruction answers a next state of which `p` holds. -/
def nextHas (r : Host.Outcome State Fault Refusal) (p : State → Bool) : Bool :=
  match r with
  | .next u => p u
  | _ => false

/-- What the task of core 0 has in flight: latency, destination and value. -/
def flew (s : State) : List (Nat × Dest × Vec) := ((s.task? 0).map (fun t => t.flight.map (fun f => (f.rem, f.dest, f.val)))).getD []

/-- Whether an instruction puts exactly one result in flight, of that latency and value. -/
def puts (i : Instr) (t : Task) (lat : Nat) (v : Vec) : Bool :=
  nextHas (exec i (on0 t)) (fun u => match flew u with | [f] => f.1 == lat && f.2.2 == v | _ => false)

/-! ## Well-formed instructions (R123 step 3): each check refuses an ill-formed term -/

def cbB : FmtCB := ⟨ng, mn 0, 5, 0, 0⟩
def crB : FmtCR := ⟨hd (mn 1) (mn 2) (mn 3), 0, 0, .dflt, .eq, 0⟩
def ciB : FmtCI := ⟨hd (mn 1) (mn 0) (mn 0), 0, 7⟩
def cpB : FmtCP := ⟨hd (mn 1) (mn 2) (mn 3), 0, false, false, false⟩
def csB : FmtCS := ⟨hd (mn 1) (mn 0) (mn 0), 0, 0x21⟩
def arB : FmtAR := ⟨hd (mn 1) (mn 2) (mn 3), 0, .dflt, .eq⟩
def aiB : FmtAI := ⟨hd (mn 1) (mn 0) (mn 0), 0⟩
def afB : FmtAF := ⟨hd (mn 1) (mn 2) (mn 0), 8, 11⟩
def vrB : FmtVR := ⟨hd (mn 1) (mn 2) (mn 3), 0, .dflt, .rne, false, false, 0, 0⟩
def viB : FmtVI := ⟨hd (mn 1) (mn 0) (mn 0), 9, .dflt, false, 0⟩
def vkB : FmtVK := ⟨hd (mn 1) (mn 2) (mn 3)⟩
def vcB : FmtVC := ⟨hd (mn 1) (mn 2) (mn 3), 0, .f16, .f32, 0, .rne, false⟩
def vpB : FmtVP := ⟨hd (mn 1) (mn 2) (mn 0), 0, 1, .dflt⟩
def mlB : FmtML := ⟨hd (mn 1) (mn 2) (mn 0), 8, 8, .dflt⟩
def msB : FmtML := ⟨hd (mn 0) (mn 2) (mn 1), 8, 8, .dflt⟩
def mgB : FmtMG := ⟨hd (mn 32) (mn 2) (mn 33), 0xC0, .dflt, 2⟩
def miB : FmtMI := ⟨hd (mn 1) (mn 2) (mn 0), 0⟩
def ecB : FmtEC := ⟨hd (mn 1) (mn 2) (mn 0), 0, false⟩
def emB : FmtEM := ⟨hd (mn 0) (mn 2) (mn 0), false, 0, 0, 0⟩
def eiB : FmtEI := ⟨hd (mn 0) (mn 0) (mn 0), false, 0⟩
def epB : FmtEP := ⟨hd (mn 0) (mn 2) (mn 0), 16, 1, 2⟩
def ytB : FmtYT := ⟨hd (mn 0) (mn 2) (mn 3), 0, .dflt, 0⟩
def y1B : FmtYT := ⟨hd (mn 0) (mn 2) (mn 0), 0, .dflt, 0⟩
def ysB : FmtYS := ⟨hd (mn 0) (mn 2) (mn 0), 0, .dflt, .dflt⟩
def y2B : FmtYS := ⟨hd (mn 1) (mn 2) (mn 3), 1, .dflt, .dflt⟩
def yiB : FmtYI := ⟨hd (mn 1) (mn 0) (mn 0), 7⟩

def allWf (l : List Instr) : Bool := l.all Instr.wf
def noneWf (l : List Instr) : Bool := l.all (fun i => !i.wf)

theorem test_wf_accepts : allWf [.nop .C ⟨ng, 3⟩, .xcp .A ⟨ng, mn 1, mn 2, 0, .V, 0⟩, .br cbB, .loop { crB with d := mn 0, s2 := mn 0 },
    .tstamp { crB with s1 := mn 0, s2 := mn 0 }, .cadd crB, .ccmp crB, .setld { crB with d := mn 0 }, .cli ciB, .pand cpB,
    .pmov { cpB with s2 := mn 0 }, .pset { cpB with s1 := mn 0, s2 := mn 0 }, .sysr csB, .add arB, .abs { arB with s2 := mn 0 },
    .madd arB, .cmp arB, .li aiB, .crd aiB, .locq { aiB with s1 := mn 2 }, .bfx afB, .bfi afB] = true ∧
    allWf [.vadd vrB, .vfma vrB, .vcmp vrB, .vli viB, .kand vkB, .vcvt vcB, .vshuf vpB, .ld mlB, .st msB,
    .ldf { mlB with aux := 1 }, .probe { mlB with s2 := mn 3, aux := 1 }, .gth mgB, .xadd miB, .cpy ecB, .mxset emB, .mxlen { eiB with imm := 1 },
    .mxgo { emB with s1 := mn 0, s3 := 0xC0 }, .phase epB, .tklend ytB, .tkret y1B, .arrive ysB, .rmin y2B, .yli yiB] = true := by
  decide +kernel

theorem test_wf_guard_and_stall : noneWf [.add { arB with gd := ⟨false, true, 0⟩ }, .add { arB with gd := ⟨false, false, 1⟩ },
    .nop .A ⟨ng, 1⟩, .nop .C ⟨g3, 0⟩, .xcp .A ⟨ng, mn 1, mn 2, 1, .V, 0⟩, .xcp .A ⟨ng, mn 1, mn 2, 0, .A, 0⟩,
    .xcp .C ⟨ng, mn 1, mn 2, 0, .V, 0⟩, .xcp .A ⟨ng, mn 1, mn 2, 0, .V, 1⟩, .xcp .A ⟨ng, mn 40, mn 2, 0, .M, 0⟩,
    .xcp .V ⟨ng, mn 4, mn 2, 0, .M, 0⟩, .xcp .M ⟨ng, mn 4, mn 2, 0, .V, 0⟩, .xcp .A ⟨ng, mn 1, .imm, 0, .V, 0⟩] = true := by
  decide +kernel

theorem test_wf_c_slot : noneWf [.br { cbB with d := mn 1 }, .br { cbB with lvl := 1 }, .lpend { cbB with d := mn 1 },
    .call { cbB with d := mn 16 }, .call { cbB with lvl := 1 }, .brx { crB with d := mn 0, s2 := mn 0, s1 := .imm },
    .ret { crB with s2 := mn 0 }, .brx { crB with d := mn 0, s2 := mn 0, s3 := 1 }, .callx { crB with d := .imm, s2 := mn 0 },
    .loop { crB with d := mn 0, s2 := mn 0, s1 := .imm, s3 := 128 }, .loop { crB with d := mn 0, s2 := mn 0, s3 := 1 },
    .rdcyc { crB with s2 := mn 0 }, .cmov crB, .cmov { crB with s2 := mn 0, s3 := 1 }, .cadd { crB with ty := .i64 },
    .cadd { crB with cnd := .ne }, .cadd { crB with lvl := 1 }, .cadd { crB with s1 := mn 16 }, .ccmp { crB with d := .opf 0 },
    .ccmp { crB with ty := .i32 }, .ccmp { crB with cnd := .uo }, .setld crB, .cli { ciB with s1 := mn 1 },
    .pand { cpB with val := true }, .pand { cpB with d := .zero }, .pmov cpB, .pmov { cpB with s2 := mn 0, ns2 := true },
    .pset { cpB with s1 := mn 0, s2 := mn 0, ns1 := true }, .sysr { csB with sreg := 0x22 }, .sysw csB,
    .sysw { csB with d := mn 0, s1 := .imm }] = true := by
  decide +kernel

theorem test_wf_a_slot : noneWf [.add { arB with d := .latch }, .add { arB with ty := .f32 }, .add { arB with cnd := .ne },
    .add { arB with s3 := 1 }, .abs arB, .madd { arB with s1 := .imm }, .madd { arB with s3 := 0xC1 }, .madd { arB with s3 := 0x81 },
    .sel { arB with s3 := 64 }, .sel { arB with ty := .i8 }, .lea { arB with s3 := 8 }, .align { arB with s3 := 8 },
    .cmp { arB with d := .opf 1 }, .cmp { arB with cnd := .ord }, .tst { arB with cnd := .lt }, .mov { arB with s2 := mn 0, ty := .i8 },
    .bswap { arB with s2 := mn 0, ty := .n8 }, .crc { arB with ty := .i32 }, .pack { arB with ty := .n64 }, .hmix { arB with ty := .n8 },
    .li { aiB with s1 := mn 1 }, .lih { aiB with s2 := mn 1 }, .crd { aiB with imm := 7 }, .crd { aiB with imm := 16 },
    .rank { aiB with imm := 1 }, .argb { aiB with imm := 4 }, .argb { aiB with imm := 4096 }, .locq { aiB with d := .zero, s1 := mn 2 },
    .locq { aiB with s1 := .zero }, .locq { aiB with s1 := mn 2, imm := 1 }, .locqSelf { aiB with d := .zero }, .bfx { afB with pos := 53 },
    .bfx { afB with s2 := mn 1 }, .bfi { afB with s2 := .imm }] = true := by
  decide +kernel

theorem test_wf_v_slot : noneWf [.vadd { vrB with ty := .n4x }, .vadd { vrB with sub := 1 }, .vadd { vrB with k := 1 },
    .vadd { vrB with s3 := 1 }, .vadd { vrB with ty := .i32, rm := .rtz }, .vfma { vrB with ty := .i32 }, .vfma { vrB with s2 := .imm },
    .vmin { vrB with rm := .rup }, .vmin { vrB with sat := true }, .vand { vrB with ty := .f32 }, .vshl { vrB with ty := .f16 },
    .vcmp { vrB with d := mn 16 }, .vcmp { vrB with ty := .f16 }, .vcmp { vrB with s3 := 1 }, .vcmp { vrB with ty := .i32, sub := 6 },
    .vcmp { vrB with sub := 8 }, .vcmul { vrB with sub := 2 }, .vbfly { vrB with msk := true }, .vbfly { vrB with sub := 4 },
    .vbfly { vrB with sub := 16 }, .vred { vrB with s2 := mn 0 }, .vred { vrB with s2 := mn 0, ty := .f32, sub := 3 },
    .vmaxi { vrB with s2 := mn 0, ty := .f64 }, .vdot vrB, .vext { vrB with s3 := 32 }, .vsort2 { vrB with s2 := mn 0, sub := 5 },
    .vmerge { vrB with msk := true }, .vsel { vrB with ty := .n4x }] = true ∧
    noneWf [.vli { viB with s1 := mn 1 }, .vlane { viB with ty := .f32 }, .vli { viB with k := 1 }, .vany vkB, .kand { vkB with d := mn 16 },
    .kmov vkB, .kpop { vkB with s2 := mn 0, d := .imm }, .vcvt { vcB with ty := .f32 }, .vcvt { vcB with gr := 1 }, .vcvt { vcB with s3 := 1 },
    .vcvt { vcB with ty := .f32, ts := .f16, s2 := mn 0, s3 := 2 }, .vcvt { vcB with ty := .f32, ts := .i32, s2 := mn 0, s3 := 1 },
    .vqnt vcB, .vqnt { vcB with ty := .e4m3, s3 := 128 }, .vqnt { vcB with ty := .e4m3, s3 := 1 }, .vqnt { vcB with ty := .n4x, sat := true },
    .vdqnt vcB, .vdqnt { vcB with ty := .f16, ts := .e4m3, s3 := 64 }, .vamax vcB, .vamax { vcB with ty := .dflt, rm := .rtz },
    .vcnt vcB, .vcnt { vcB with ty := .f32, ts := .n32, gr := 1 }, .vpack4 vcB, .vpack4 { vcB with ty := .n4x, ts := .i8, s3 := 1 },
    .vunpk4 { vcB with ty := .i8, ts := .n4x, s2 := mn 0, s3 := 64 }, .vshuf { vpB with ctl := 32 }, .vshuf { vpB with s2 := mn 1 },
    .vbrev { vpB with ctl := 0 }, .vbrev { vpB with ctl := 6 }, .vzip { vpB with ctl := 2 }, .vperm { vpB with s2 := mn 3 },
    .vshuf { vpB with s3 := 1 }, .vshuf { vpB with ty := .n4x }] = true := by
  decide +kernel

theorem test_wf_m_slot : noneWf [.ld { mlB with d := mn 32 }, .ld { mlB with s1 := mn 32 }, .ld { mlB with aux := 9 }, .ld { mlB with sc := .st },
    .ld { mlB with s2 := mn 1 }, .ldv { mlB with d := mn 1, aux := 0 }, .ldv { mlB with d := mn 32 }, .st mlB, .stv { msB with aux := 0 },
    .ldpi { mlB with s1 := mn 1 }, .ldpi { mlB with s1 := .opf 0 }, .stpi { msB with s1 := .opf 0 }, .ldf { mlB with aux := 3 },
    .ldf { mlB with aux := 4 }, .ldf { mlB with aux := 1, sc := .sy }, .lde { mlB with d := .zero, aux := 0 }, .stf { msB with aux := 3 },
    .clre { msB with aux := 0 }, .probe mlB, .probe { mlB with s2 := mn 3, aux := 2 }, .pref { mlB with d := mn 0 },
    .cbdef { mlB with s2 := mn 3 }, .cbget { mlB with s1 := mn 0 }, .cbput { mlB with s1 := mn 0, off := 0 }, .fence { mlB with off := 0 },
    .gth { mgB with d := mn 1 }, .gth { mgB with s2 := mn 3 }, .gth { mgB with s3 := 0x01 }, .gth { mgB with ty := .i8 }, .sct { mgB with d := .zero },
    .ldvs { mgB with s2 := mn 3 }, .ldvs { mgB with s2 := mn 33, lg := 0 }, .ldvm { mgB with lg := 0 }, .xli miB, .xadd { miB with d := mn 33 },
    .xmov { miB with imm := 1 }, .mmov miB, .disc { msB with aux := 1 }] = true := by
  decide +kernel

theorem test_wf_e_slot : noneWf [.cpy { ecB with arr := true }, .cpy { ecB with s3 := 1 }, .cpy { ecB with s2 := mn 1 }, .cpy { ecB with d := .latch },
    .cpy { ecB with s1 := .zero }, .cpymx { ecB with s3 := 4 }, .cpymx { ecB with s2 := .imm }, .cpyq { ecB with d := .zero },
    .mxfmt { eiB with imm := 0x20000 }, .mxlen eiB, .mxlen { eiB with imm := 8193 }, .mxclr eiB, .mxclr { eiB with imm := 256 },
    .mxsel { eiB with imm := 0x100 }, .mxsel { eiB with imm := 1 }, .mxsel { eiB with imm := 0x20000 }, .mxsel { eiB with imm := 0x2FF },
    .mxdrain { eiB with imm := 1 }, .mxstop { eiB with d := mn 1 }, .mxseed { emB with set := 4 }, .mxset { emB with set := 2 },
    .mxthr { emB with gr := 1 }, .mxgo emB, .mxgo { emB with s1 := mn 0, set := 1 }, .mxgo { emB with s1 := mn 0, s3 := 0x81 },
    .mxrd { emB with s1 := mn 0, s3 := 1 }, .mxst { emB with s1 := mn 0, set := 1 }, .phase { epB with d := mn 1 }, .phase { epB with s1 := .imm },
    .phq { eiB with imm := 1 }] = true := by
  decide +kernel

theorem test_wf_y_slot : noneWf [.tklend { ytB with sc := .sy }, .tklend { ytB with shk := 2 }, .tklend { ytB with d := mn 1 }, .tklend { ytB with s3 := 1 },
    .tkshr { ytB with sc := .sy }, .tkshr { ytB with shk := 2 }, .tkret ytB, .tkret { y1B with shk := 1 }, .tksplit { y1B with sc := .st },
    .tkwait { y1B with sc := .st }, .tkwait { y1B with shk := 1 }, .tkwaitSh y1B, .tkwait { y1B with s3 := 1 }, .tkqry { y1B with d := .imm },
    .arrive { ysB with sc := .st }, .arrive { ysB with ty := .i32 }, .waitph { ysB with s2 := mn 1 }, .trig ysB, .grow { ysB with s1 := .imm, s3 := 128 },
    .grow { ysB with s1 := .zero }, .rmin { y2B with ty := .f16 }, .rmin { y2B with s3 := 16 }, .rmin { y2B with s2 := .imm }, .redf y2B,
    .amor { y2B with ty := .f32 }, .cas { y2B with d := .zero }, .amoAdd { ysB with d := mn 1 }, .amoAdd { ysB with ty := .i8 },
    .amoAdd { ysB with s3 := 1 }, .yli { yiB with s1 := mn 1 }, .ymov { y2B with s3 := 0 }, .phdef { ysB with sc := .dv }] = true := by
  decide +kernel

/-! ## Words written out from the spec's encodings -/

/-- Examples of R149, R187, R222, R261, R268, R492. -/
theorem test_decode_c_a_v_m :
    decodeSyl .C 0x040001FFFE1FCC00#64 = .ok (.br ⟨ng, mn 0, 0xFFFFFE6, 0, 0⟩) ∧
    decodeSyl .C 0x32000E060A001040#64 = .ok (.ccmp ⟨hd (mn 7) (mn 3) (mn 5), 0, 0, .n64, .lt, 0⟩) ∧
    decodeSyl .C 0x18000000000000E0#64 = .ok (.svc ⟨ng, 0, 7⟩) ∧ decodeSyl .C 0x1A00000000000000#64 = .ok (.brk ⟨ng, 0, 0⟩) ∧
    decodeSyl .C 0x1E00000200000400#64 = .ok (.sysw ⟨hd (mn 0) (mn 1) (mn 0), 0, 0x20⟩) ∧
    decodeSyl .A 0x0200041200000000#64 = .ok (.xcp .A ⟨ng, mn 2, mn 9, 0, .C, 0⟩) ∧
    decodeSyl .V 0x02000A060004E000#64 = .ok (.xcp .V ⟨ng, mn 5, mn 3, 0, .A, 7⟩) ∧
    decodeSyl .A 0x2800060204006400#64 = .ok (.cmp ⟨hd (mn 3) (mn 1) (mn 2), 0, .i32, .lt⟩) ∧
    decodeSyl .A 0x4C00020808000200#64 = .ok (.tst ⟨hd (mn 1) (mn 4) (mn 4), 0, .dflt, .ne⟩) ∧
    decodeSyl .A 0x98000A0C00000000#64 = .ok (.locq ⟨hd (mn 5) (mn 6) (mn 0), 0⟩) ∧
    decodeSyl .A 0x98000A0000000001#64 = .ok (.locqSelf ⟨hd (mn 5) (mn 0) (mn 0), 0⟩) ∧
    decodeSyl .V 0x6A000A0204076600#64 = .ok (.vcnt ⟨hd (mn 5) (mn 1) (mn 2), 3, .f32, .i32, 0, .rne, false⟩) ∧
    decodeSyl .M 0x160000080E001010#64 = .ok (.stf ⟨hd (mn 0) (mn 4) (mn 7), 8, 0, .dv⟩) ∧
    decodeSyl .M 0x2000120608000060#64 = .ok (.probe ⟨hd (mn 9) (mn 3) (mn 4), 0, 3, .dflt⟩) ∧
    decodeSyl .M 0x0600000804001100#64 = .ok (.st ⟨hd (mn 0) (mn 4) (mn 2), 8, 8, .dflt⟩) ∧
    decodeSyl .M 0x2C00000000000010#64 = .ok (.fence ⟨hd (mn 0) (mn 0) (mn 0), 0, 0, .dv⟩) := by
  decide +kernel

/-- Examples of R279, R312, R314, R339, R344, R387, R396, R400. -/
theorem test_decode_e_y :
    decodeSyl .E 0x060008040E050000#64 = .ok (.cpymx ⟨hd (mn 4) (mn 2) (mn 7), 2, true⟩) ∧
    decodeSyl .E 0x1800000401000400#64 = .ok (.mxset ⟨hd (mn 0) (mn 2) (mn 0), true, 0, 0, 1⟩) ∧
    decodeSyl .E 0x2200080001000C00#64 = .ok (.mxrd ⟨hd (mn 4) (mn 0) (mn 0), true, 0, 0, 3⟩) ∧
    decodeSyl .E 0x1200000000000008#64 = .ok (.mxlen ⟨hd (mn 0) (mn 0) (mn 0), false, 8⟩) ∧
    decodeSyl .E 0x1000000000017711#64 = .ok (.mxfmt ⟨hd (mn 0) (mn 0) (mn 0), false, 0x17711⟩) ∧
    decodeSyl .E 0x2C00000400190C50#64 = .ok (.phase ⟨hd (mn 0) (mn 2) (mn 0), 200, 3, 5⟩) ∧
    decodeSyl .E 0x2E00080001000000#64 = .ok (.phq ⟨hd (mn 4) (mn 0) (mn 0), true, 0⟩) ∧
    decodeSyl .Y 0x1200000582180000#64 = .ok (.tkwait ⟨hd (mn 0) (mn 2) .imm, 12, .dflt, 0⟩) ∧
    decodeSyl .Y 0x180001820006C000#64 = .ok (.arriveRel ⟨hd (mn 0) .imm (mn 0), 3, .st, .dflt⟩) ∧
    decodeSyl .Y 0x20000A040C001C00#64 = .ok (.rmin ⟨hd (mn 5) (mn 2) (mn 6), 0, .dflt, .n32⟩) := by
  decide +kernel

/-- Reserved opcodes and the opcodes of other slots are refused by name, and so is a bit that no field holds. -/
theorem test_decode_refuses :
    decodeSyl .C 0xFE00000000000000#64 = .error .reservedOpcode ∧ decodeSyl .E 0xFE00000000000000#64 = .error .reservedOpcode ∧
    decodeSyl .A 0x04020205820A0000#64 = .error .reservedModifier ∧ decodeSyl .C 0x0200041200000000#64 = .error .reservedModifier ∧
    decodeSyl .A 0x04000205820A0001#64 = .error .reservedModifier := by
  decide +kernel

/-! ## A state and operands that meet the hypotheses of each statement -/

/-- Statements about an issued instruction (ChangesTask, ActsBy): issued with no guard, with a guard that passes on 1 and with one
that passes on 0; `n3` does not pass here. -/
theorem witness_issued : Issues (on0 tk) tk ng ∧ Issues (on0 tk) tk g3 ∧ Issues (on0 tk) tk ⟨true, true, 0⟩ ∧ tk.passes n3 = false := by
  refine ⟨⟨?_, ?_⟩, ⟨?_, ?_⟩, ⟨?_, ?_⟩, ?_⟩ <;> decide +kernel

theorem witness_EncodeThenDecode : (Instr.add arB).WellFormed ∧ slotOf (.add arB) = some .A ∧ (Instr.yli yiB).WellFormed ∧
    slotOf (.yli yiB) = some .Y := by decide +kernel

theorem witness_DecodeThenEncode : decodeSyl .A (encode (.add arB)) = .ok (.add arB) := by decide +kernel

theorem witness_AgendaEventIsExecuted : (on0 tk).regw = [] ∧ inCycle (.resultLand 0) = false ∧ inCycle (.arrayStep 0) = true ∧
    { on0 tk with agenda := [.event (.resultLand 0)] }.agenda = .event (.resultLand 0) :: [] ∧ slotOf (.resultLand 0) = none ∧
    { on0 tk with agenda := [.cycle 255] }.agenda = .cycle 255 :: [] := by decide +kernel

/-- A bundle of six `nop` syllables with STALL 0. -/
def nops : Bundle := 0#384

/-- The reset state with it placed at the fetch position, and with it latched. -/
def placed : State := State.reset.withFetchWord 384 nops.toNat
def placedTask : Task := (placed.task? 0).getD tk
def latchedTask : Task := { placedTask with latched := some nops, npos := 25#64 }
def latchedOn : State := placed.setTask 0 latchedTask
def sixNops : List Instr := [.nop .C ⟨ng, 0⟩, .nop .A ⟨ng, 0⟩, .nop .V ⟨ng, 0⟩, .nop .M ⟨ng, 0⟩, .nop .E ⟨ng, 0⟩, .nop .Y ⟨ng, 0⟩]

theorem witness_LiteralBundleIsFetched : placed.task? 0 = some placedTask ∧ placed.imageOf placedTask = some slotImage ∧
    placed.mayFetch 0 placedTask = true ∧ placedTask.npos.toNat + 24 < slotImage.codeWords ∧
    placed.codeBytes 0 placedTask.ctx 2 (slotImage.wordVa placedTask.npos.toNat) 2 = some ([0xFF#8, 0xFF#8], none) ∧
    leNat [0xFF#8, 0xFF#8] = 0xFFFF ∧
    placed.codeBytes 0 placedTask.ctx 2 (slotImage.wordVa (placedTask.npos.toNat + 1)) 48 = some (List.replicate 48 0#8, none) := by
  decide +kernel

theorem witness_StepRunsDecodedBundle : latchedOn.task? 0 = some latchedTask ∧ latchedTask.latched = some nops ∧
    decodeBundle nops = .ok sixNops ∧ latchedOn.heldStill 0 latchedTask = false ∧ latchedTask.mustWait sixNops = false ∧
    latchedOn.bundleBad latchedTask nops = none ∧ latchedTask.readsBad sixNops = false ∧ latchedOn.dueNow 0 = true ∧
    windowAdmits (latchedOn.core 0).weights (latchedTask.bundleWeight sixNops) (latchedOn.cluster (clusterOf 0)).lim.toNat = true ∧
    latchedTask.probeEarly sixNops = false ∧ latchedOn.lentTouch 0 latchedTask (.add arB) = none ∧ latchedTask.idle = 0 ∧
    latchedTask.ended = false ∧ latchedOn.stopped 0 latchedTask = false ∧ latchedOn.regw = [] ∧ latchedOn.agenda = [.cycle 0] ∧
    (latchedOn.cluster 0).clocked = true ∧ (latchedOn.cluster 0).frozen = false := by
  decide +kernel

theorem witness_GuardThatFailsMakesNop : (0x04000205820A0000#64).getLsbD 56 = false ∧ slotOf (.add { arB with gd := n3 }) = some .A ∧
    (on0 tk).task? (on0 tk).cur = some tk ∧ tk.passes (usesOf (.add { arB with gd := n3 })).gd = false := by
  decide +kernel

theorem witness_ResultLandsAfterItsLatency : tk.flight = [] ∧ tk.regs.isDead .A 47 = false ∧
    { tk.regs with ald := 1 }.isDead .A 48 = false ∧ { tk.regs with ald := 1 }.isDead .A 49 = true := by
  decide +kernel

def aFlight : Flight := ⟨0, 0, .main .A 47, 5#1024, 0#7, false, false, false, false⟩

theorem witness_LandingChangesNothingElse : aFlight.dest = .main .A 47 := by decide +kernel

theorem witness_DeadRegistersReadZeroAndTakeNothing :
    tk.regs.isDead .A (tk.regs.phys .A (48#6).toNat) = true ∧ tk.regs.isDead .A (tk.regs.phys .A (47#6).toNat) = false ∧
    { aFlight with dest := .main .A 48 }.dest = .main .A 48 ∧ { aFlight with dead := true }.dead = true ∧
    tk.regs.isDead .V 32 = true := by
  decide +kernel

theorem witness_LoopRotationMovesNames : { Regs.zero with ald := 16, vld := 32 }.ald = 16#5 ∧ { Regs.zero with ald := 16, vld := 32 }.vld = 32#6 := by
  decide +kernel

/-! States with a team, an event, a unit under test, and other things outside a core. -/

/-- A team of one task on stack 0, without and with a protected checkpoint, and with its task suspended. -/
def tm0 : Team := ⟨0, 0, 0#48, 0, 1, 1, 0, 1, [], [], none, [], false⟩
def cp0 : Checkpoint := ⟨[(0, tk)], [], [], [(1, ⟨2, 1, 0, [], []⟩)], [], [], [], [], [], 1, [], true, 1, 0⟩
def tmCp : Team := { tm0 with cp := some cp0 }
def tmSusp : Team := { tm0 with susp := [(0, { tk with pre := true })] }

def withStack (s : State) (f : StackS → StackS) : State := s.setStack 0 (f (s.stack 0))
def withTeam (s : State) (tm : Team) : State := withStack s (fun x => { x with teams := [(0, tm)] })
def withCluster (f : ClusterS → ClusterS) : State := (on0 tk).setCluster 0 (f ClusterS.reset)
def withCore (f : CoreS → CoreS) : State := (on0 tk).setCore 0 (f ((on0 tk).core 0))

/-- Task, state and fault record once the task has taken the event of `svc` with code 7. -/
def evOn : State := (on0 tk).raiseEvent 0 tk 1 7#64
def evTask : Task := (evOn.task? 0).getD tk
def evRec : FbEntry := ((evOn.stack 0).fb.find 0).getD ⟨0, 0, 0, 0, false⟩

/-- A fatal error of the task. -/
def err0 : Fatal := (on0 tk).fatalOf 0 tk 2 1 0 0 0
def fatalOn : State := (on0 tk).raiseFatal 0 tk 2 1 0 0 0
def fullLog : State := withStack fatalOn (fun x => { x with elwait := List.replicate 64 [] })
/-- The same with a ring of 16 records that takes records. -/
def ringLog : State := withStack fatalOn (fun x => { x with elcfg := 0x8000000000000010 })
def latchTk : Task := { tk with latched := some 0#384 }

theorem witness_ContextEndsAndFatalErrors : fatalOn.fatals[0]? = some err0 ∧ fatalOn.elTakes (stackOf err0.core) = true ∧
    fullLog.fatals[0]? = some err0 ∧ fullLog.elTakes (stackOf err0.core) = false ∧ err0.held = false ∧
    { fullLog with fatals := [{ err0 with held := true }] }.fatals[0]? = some { err0 with held := true } ∧
    { fullLog with fatals := [{ err0 with held := true }] }.elTakes 0 = false ∧ { err0 with held := true }.held = true ∧ (fatalOn.stack 0).elwait = [] ∧ (fatalOn.stack 0).elRoom = false ∧
    ringLog.fatals[0]? = some err0 ∧ ringLog.elTakes 0 = true ∧ (ringLog.stack 0).elwait = [] ∧ (ringLog.stack 0).elRoom = true ∧
    Memory.wf ringLog.mem = true ∧ latchTk.latched = some 0#384 ∧ { fullLog with fatals := [{ err0 with held := true }] }.logHolds 0 = true := by
  decide +kernel

theorem witness_FaultRepliesPreemptionAndDebug_replies :
    (evOn.stack 0).oldestFault = some (0, evRec) ∧ (evOn.stack 0).fb.find (4095 : Fin 4096).val = none ∧
    (evOn.stack 0).fb.find (0 : Fin 4096).val = some evRec ∧ evRec.answers 0 1 = true ∧ evRec.answers 0 2 = false ∧
    evOn.task? 0 = some evTask ∧ evTask.waitsFor 0 (0 : Fin 4096).val 1 = true ∧
    (evTask.answer true 9).event = some ⟨1, 0, 7, 1, true, true, 9⟩ ∧ { tk with reply := some (9#64, true) }.reply = some (9#64, true) := by
  decide +kernel

/-- Slots for one task, and a suspend command for core 0 of context 0. -/
def slots1 : State := (withTeam (on0 tk) tm0).setCtx 0 { CtxS.reset with slots := 1 }
def resumeOn : State := withTeam State.reset tmSusp
def suspOn : State := withTeam (on0 { tk with suspend := true }) tm0

theorem witness_FaultRepliesPreemptionAndDebug_preemption :
    slots1.task? 0 = some tk ∧ tk.ended = false ∧ (slots1.stack (stackOf 0)).preBusy = false ∧
    (0x800000000000#64).getLsbD 60 = false ∧ (0x800000000000#64).extractLsb' 46 2 = 0x2#2 ∧ 0 ∈ ((slots1.stack (stackOf 0)).teams.filter
      (fun e => e.2.ctx == tk.ctx)).map Prod.fst ∧
    (0x0#64).extractLsb' 46 2 = 0#2 ∧ (0x0#64).extractLsb' 16 4 = BitVec.ofNat 4 (coreInStack 0) ∧
    (0x0#64).extractLsb' 48 12 = BitVec.ofNat 12 tk.ctx.val ∧
    slots1.newlySaved (stackOf 0) [tk.team] + (slots1.slotsHeld tk.ctx + slots1.slotsKept tk.ctx (stackOf 0) [tk.team]) ≤
      (slots1.ctx tk.ctx).slots.toNat ∧
    (resumeOn.stack 0).preBusy = false ∧ (0x400000000000#64).getLsbD 60 = false ∧ (0x400000000000#64).extractLsb' 46 2 = 1#2 ∧
    (0x400000000000#64).extractLsb' 0 16 = BitVec.ofNat 16 0 ∧ (resumeOn.stack 0).teams.find 0 = some tmSusp ∧
    (0x400000000000#64).extractLsb' 48 12 = BitVec.ofNat 12 tmSusp.ctx.val ∧
    suspOn.task? 0 = some { tk with suspend := true } ∧ suspOn.maySuspend 0 { tk with suspend := true } = true ∧
    (suspOn.core 0).saveErrs = 0 ∧ suspOn.team? 0 { tk with suspend := true } = some tm0 ∧ suspOn.fes = [] ∧
    suspOn.stateBad 0 { tk with suspend := true } = false := by
  decide +kernel

def readyTm : Team := { tm0 with susp := [(coreInStack 0, tk)] }
def readyOn : State := withTeam State.reset readyTm

theorem witness_FaultRepliesPreemptionAndDebug_resume_and_debug :
    (readyOn.stack (stackOf 0)).teams.find 0 = some readyTm ∧ readyTm.susp = [(coreInStack 0, tk)] ∧ tk.mayResume = true ∧
    readyOn.stackClosed (stackOf 0) = false ∧ (∀ i, i < readyTm.size → (readyOn.core (coreOf 0 (readyTm.base + i))).next = none) ∧ readyOn.slotOpen (stackOf 0) 0 (coreInStack 0) = true ∧
    placed.launches.any (fun e => e.2.ctx == 0 && !e.2.done) = true ∧
    placed.launches.any (fun e => e.2.ctx == 1 && !e.2.done) = false ∧
    ((on0 tk).core 0).hlt = false ∧ ((withCore (fun x => { x with hlt := true, dbgsel := 0x903F0000 })).core 0).hlt = true ∧
    ((withCore (fun x => { x with haltReq := 1 })).core 0).haltReq ≠ 0 ∧ tk.flight = [] ∧
    selFile 0x903F0000#64 = 9 ∧ selIndex 0x903F0000#64 < 64 ∧ selWord 0x903F0000#64 = 0 := by
  decide +kernel

def testOn (u : ErrUnit) (b : Bool) : State := { on0 tk with tests := [(u, b)] }

theorem witness_ErrorsReplayAndStackReset : (on0 tk).tests = [] ∧
    (testOn (.memWord 8) false).tests.find? (fun e => e.1 == .memWord 8) = some (.memWord 8, false) ∧
    (testOn (.memWord 8) false).bankOf (.memWord 8) = some (.memWord 0) ∧ (testOn (.memWord 8) false).sparesUsed (.memWord 0) < 8 ∧
    (on0 tk).savingInto 8 = [] ∧
    (testOn (.coreLogic 1023) true).tests.find? (fun e => e.1 == .coreLogic 1023) = some (.coreLogic 1023, true) ∧
    (on0 tk).task? 0 = some tk ∧ (on0 tk).canReplay (stackOf 0) tk.team = false ∧
    ((withTeam (on0 tk) tmCp).stack 0).teams.find 0 = some tmCp ∧ tmCp.cp = some cp0 ∧ (withTeam (on0 tk) tmCp).canReplay 0 0 = true ∧
    ((withTeam (on0 tk) tmCp).stack 0).ops = [] ∧ ((withTeam (on0 tk) tmCp).stack 0).requests = [] ∧
    (withTeam (on0 tk) tmCp).copyRequests = [] ∧ (∀ e ∈ cp0.phases, e.2.p = 0 ∨ e.2.arv < e.2.p) ∧
    ((on0 tk).stack 0).rstBusy = false ∧ ((withStack (on0 tk) (fun x => { x with rstBusy := true, rstQui := false })).stack 0).rstBusy = true ∧
    ((withStack (on0 tk) (fun x => { x with rstBusy := true, rstQui := false })).stack 0).rstQui = false ∧
    ((withStack (on0 tk) (fun x => { x with rstBusy := true, rstQui := true, qdone := true })).stack 0).qdone = true := by
  decide +kernel

def offOn : State := withCluster (fun x => { x with pst := 3 })

theorem witness_ExecutionPowerEvents_droop_trip_clock :
    ((on0 tk).cluster 255).clocked = true ∧ ((withCluster (fun x => { x with alarm := true })).cluster 0).alarm = true ∧
    ((withCluster (fun x => { x with strOn := true })).cluster 0).strOn = true ∧ ((withCluster (fun x => { x with strOn := true })).cluster 0).stretch = 0 ∧
    ((withCluster (fun x => { x with hiwOn := true })).cluster 0).hiwOn = true ∧ ((withCluster (fun x => { x with hiwOn := true })).cluster 0).hiw = 0 ∧
    ((withCluster (fun x => { x with pst := 1 })).cluster 0).pst.toNat < 2 ∧
    ((on0 tk).catchUp 0).cluster 0 = (on0 tk).cluster 0 ∧ (offOn.catchUp 0).cluster 0 = offOn.cluster 0 ∧
    ((on0 tk).cluster 0).pointHeld = false ∧ ((on0 tk).cluster 0).safe = false ∧ ((on0 tk).cluster 0).safePend = false ∧
    ((on0 tk).cluster 0).isOn = true ∧ ((on0 tk).cluster 0).nextF = none ∧ ((on0 tk).cluster 0).nextV = none ∧
    (offOn.cluster 0).pointHeld = false ∧ (offOn.cluster 0).safe = false ∧ (offOn.cluster 0).safePend = false ∧
    (offOn.cluster 0).isOn = false ∧ (offOn.cluster 0).effF + 1050 ≤ 3 * 850 ∧ 600 + 1050 ≤ 3 * (offOn.cluster 0).effV ∧ (575#64).getLsbD 62 = false ∧
    ¬ 600 ≤ ((575#64).extractLsb' 0 12).toNat ∧
    (let f := ((600#64).extractLsb' 0 12).toNat
     600 ≤ f ∧ f ≤ 1800 ∧ f % 25 = 0 ∧ f + 1050 ≤ 3 * ((on0 tk).cluster 0).vset.toNat ∧ f ≠ ((on0 tk).cluster 0).fmhz.toNat) ∧
    (let mv := ((850#64).extractLsb' 0 10).toNat
     550 ≤ mv ∧ mv ≤ 950 ∧ ((on0 tk).cluster 0).fmhz.toNat + 1050 ≤ 3 * mv) ∧ ¬ ((849#64).extractLsb' 0 10).toNat * 3 ≥ 1500 + 1050 ∧
    ((withCluster (fun x => { x with busy := true })).cluster 0).busy = true ∧
    0 = (on0 tk).ns - ((withCluster (fun x => { x with busy := true })).cluster 0).stopAt ∧
    2000 = { on0 tk with ns := 2000 }.ns - ((withCluster (fun x => { x with busy := true })).cluster 0).stopAt ∧
    1 ≠ (on0 tk).ns - ((withCluster (fun x => { x with busy := true })).cluster 0).stopAt ∧
    ((withCluster (fun x => { x with busy := true })).cluster 0).safePend = false ∧
    ((withCluster (fun x => { x with busy := true })).cluster 0).pendW = [] := by
  decide +kernel

def pbusyOn (goal : BitVec 3) (wkp : Bool) : State := withCluster (fun x => { x with pbusy := true, goal := goal, wkp := wkp })
/-- A wake from OFF that has come to a step. -/
def wakeOn (n : Nat) : State := withCluster (fun x => { x with pst := 3, pbusy := true, goal := 0, wkp := true, wkStep := n })
def quietOn : State := State.reset.setCluster 0 { ClusterS.reset with req := true }

theorem witness_ExecutionPowerEvents_watchdog_and_power :
    ((Master.B = .B) = (({ on0 tk with pfsel := true }).pfsel = true)) ∧ (0xA5C3000100000000#64).extractLsb' 48 16 = 0xA5C3#16 ∧
    2 ≤ { on0 tk with stage := 2 }.stage ∧ { on0 tk with stage := 1 }.stage < 2 ∧
    ¬ ((Master.B = .B) = ((on0 tk).pfsel = true)) ∧ (on0 tk).wdogRun = false ∧
    { on0 tk with wdogRun := true, wdogLeft := 0 }.wdogLeft = 0 ∧ ((on0 tk).cluster 7).clocked = true ∧ 1000 < ((on0 tk).cluster 7).fmhz.toNat ∧ (offOn.cluster 0).clocked = false ∧
    ((wakeOn 0).cluster 0).pbusy = true ∧ ((wakeOn 0).cluster 0).goal = 0#3 ∧ ((wakeOn 0).cluster 0).wkStep = 0 ∧
    ((wakeOn 1).cluster 0).wkStep = 1 ∧ (wakeOn 1).clusterTests 0 = false ∧ ((wakeOn 2).cluster 0).wkStep = 2 ∧
    ((wakeOn 2).cluster 0).busy = false ∧ ((wakeOn 2).cluster 0).wkp = true ∧
    ((pbusyOn 1 false).cluster 0).pbusy = true ∧ 4 ≤ (7#3).toNat ∧ ((on0 tk).cluster 0).pbusy = false ∧
    (quietOn.cluster 0).pst = 0#3 ∧ quietOn.quiesced 0 = true ∧ (quietOn.cluster 0).pbusy = false ∧
    ((pbusyOn 1 false).cluster 0).goal ≠ 0#3 ∧ (offOn.cluster 0).pst ≠ 0#3 ∧ (offOn.cluster 0).pbusy = false ∧
    ((pbusyOn 1 true).cluster 0).wkp = true ∧ ((pbusyOn 1 false).cluster 0).wkp = false := by
  decide +kernel

theorem witness_ModuleRegistersLinksAndBringUp :
    (on0 tk).ports = [] ∧ ((Master.A = .B) ≠ ({ on0 tk with pfsel := true }.pfsel = true)) ∧
    ((Master.A = .B) = ((on0 tk).pfsel = true)) ∧ placed.ctxLaunched 0 = true ∧ (on0 tk).ctxLaunched 4095 = false ∧
    (on0 tk).ctxCores 4095 = [] ∧ ((on0 tk).ctx 4095).valid = false ∧ (0x8000000000000000#64).getLsbD 63 = true ∧
    { on0 tk with attBusy := true }.attBusy = true ∧ (on0 tk).attBusy = false ∧
    (({ on0 tk with ports := [(15, ⟨true, false, 0⟩)] }).port 15).en = true ∧
    (1 : ModuleId).val ≠ (on0 tk).modid.toNat ∧ (on0 tk).grantsOf none < 1024 ∧ (on0 tk).launchOf 0 0 = none ∧
    (∀ s l : Fin 4, hopKey (.ring 77 l true) ≠ hopBack (.ring 77 l true) ∧ hopKey (.ring 0 s false) ≠ hopBack (.ring 0 s false)) ∧
    (∀ p : PortId, hopKey (.port p true) ≠ hopBack (.port p true)) ∧ (on0 tk).hopRuns (.port 0 true) = false ∧
    (on0 tk).hopRuns (.ring 77 3 true) = true ∧ { on0 tk with ports := [(15, ⟨true, true, 1⟩)] }.hopRuns (.port 15 false) = true ∧
    (on0 tk).bfail = false ∧ (on0 tk).stage = 0 ∧ { on0 tk with stage := 3 }.stage = 3 ∧ 4 ≤ { on0 tk with stage := 4 }.stage := by
  decide +kernel

/-- The first flit sent on a hop, which carries one request slot. -/
def sentOn : State := State.reset.flitSend (.ring 3 1 true) .sync (.slots [5#480])
def sentLink : LinkS := sentOn.links.get LinkS.reset (hopKey (.ring 3 1 true))

/-- A flit whose CRC agrees exists. -/
theorem witness_ModuleRegistersLinksAndBringUp_flit : sentLink.unacked.map flitGood = [true] ∧ flitGood 1#2048 = false := by
  decide +kernel

theorem witness_StepKeepsMemoryCanonical : Memory.wf placed.mem = true ∧ placed.mem.length = 8 ∧ nextHas (step placed) (fun _ => true) = true := by
  decide +kernel

theorem witness_IntegerFitAndSaturation : tyIsInt .i8 = true ∧ tyIsInt .n64 = true ∧ tyMin .i8 = -128 ∧ tyMax .i8 = 127 ∧
    tyMin .n64 = 0 ∧ tyMax .n64 = 2 ^ 64 - 1 ∧ (0xFF : Nat) < 2 ^ 8 := by
  decide +kernel

theorem witness_CoordinateSelectors : Issues placed placedTask ng ∧ placed.launch? placedTask.launch = some slotLaunch ∧
    (0x7#24).toNat = 7 ∧ 16 ≤ (0xFFFFFF#24).toNat ∧ 8 ≤ (15#24).toNat := by
  refine ⟨⟨?_, ?_⟩, ?_, ?_, ?_, ?_⟩ <;> decide +kernel

theorem witness_TaskConstantsAndLocate : Issues placed placedTask ng ∧ placed.launch? placedTask.launch = some slotLaunch :=
  ⟨witness_CoordinateSelectors.1, witness_CoordinateSelectors.2.1⟩

theorem witness_LanesRunElementwise : (0 : Nat) < 1024 / 64 ∧ (255 : Nat) < 1024 / 4 ∧ (6 : Nat) < 7 := by decide +kernel

theorem witness_EncodingsRoundToThemselves : fmtE4M3 ∈ [fmtF64, fmtF32, fmtF16, fmtBF16, fmtE4M3, fmtE5M2] ∧ 0x7E < 2 ^ fmtE4M3.width ∧
    isNan (fdec fmtE4M3 0x7E) = false ∧ isNan (fdec fmtE4M3 0x7F) = true ∧ isNan (fdec fmtF32 0x7F800000) = false ∧
    isNan (fdec fmtF32 0x7F800001) = true := by
  decide +kernel

/-- Two terms of which the sum is an exact zero, factors that are not zero, and a tie: 3 halves between 1 and 2. -/
theorem witness_RoundingIsToTheModesNeighbour : (∀ x ∈ [(false, 1, (0 : Int)), (true, 1, (0 : Int))], (-3 : Int) ≤ x.2.2) ∧
    (∃ x ∈ [(false, 1, (0 : Int)), (true, 1, (0 : Int))], x.2.1 ≠ 0) ∧ (0 : Nat) < 1 ∧ (1 : Nat) ≤ 1 ∧
    2 * 3 + 2 ^ 1 = 2 * ((roundMag .rne false 3 0 false 1).1 * 2 ^ 1) := by
  decide +kernel

theorem witness_LaneMasksAndCompares : Issues (on0 tk) tk ng ∧ tyWidth (tyOr .f32 .dflt) = 32 ∧ tyWidth (tyOr .f32 .f64) = 64 ∧
    tyWidth (tyOr .f32 .n64) = 64 ∧ (31 : Nat) < 32 := ⟨witness_issued.1, by decide +kernel⟩

theorem witness_PermutesMoveElements : Issues (on0 tk) tk ng ∧ (31 : Nat) < 1024 / tyWidth (tyOr .n32 .dflt) :=
  ⟨witness_issued.1, by decide +kernel⟩

/-! A context with a read-only page at 0, a writable page at 1 GiB and the windows of core 0 at 2 GiB. -/

def mapMem : List Host.Cell := Memory.putNum (Memory.putNum placed.mem 0x3008 8 (0x40000000 + 0x921)) 0x3010 8 (2 ^ 51 + 0x921)

/-- A region of 8 KiB at 1 GiB, held outright by the task of core 0. -/
def own0 : TokRec := { TokRec.fresh 0x40000000 5 0 .dv (tk.agent 0) with claimed := true, arr := true }

/-- That context with a task current on core 0, records in slice 0, and a team there. -/
def worldT (t : Task) (l : Tab TokRec) (tm : Team) : State :=
  withStack ({ placed with mem := mapMem, agenda := [] }.setTask 0 t) (fun x => { x with toks := l, teams := [(0, tm)] })
def world (t : Task) : State := worldT t [(0, own0)] tm0

/-- The leaf by which a byte of the scratchpad, or of the writable page, is reached. -/
def scrLeaf (off : Nat) : Leaf :=
  ⟨2 ^ 51 + off, 2 ^ 51, 0x80000000, 30, 0, 0, false, false, false, false, false, true, false, 0x3010⟩
def rwLeaf (off : Nat) : Leaf :=
  ⟨0x40000000 + off, 0x40000000, 0x40000000, 30, 0, 0, false, false, false, false, false, true, false, 0x3008⟩

/-- x2 at the last word of the scratchpad, x3 at its last 128 bytes. -/
def scrTask : Task := withX [(2, 0x8007FFF8), (3, 0x8007FF80)]

/-- Whether an access is admitted through a leaf. -/
def admitted (r : Except AccErr Leaf) (l : Leaf) : Bool :=
  match r with
  | .ok k => k == l
  | .error _ => false

theorem witness_ScratchpadLoads : (world scrTask).windowTask (scrLeaf 0x7FFF8).pa = some scrTask ∧ (world scrTask).poison = [] ∧ (world scrTask).fes = [] ∧ scrTask.failed = false ∧
    paWindow (scrLeaf 0x7FFF8).pa = true ∧ winKind (scrLeaf 0x7FFF8).pa = 0 ∧ winIsCore (scrLeaf 0x7FFF8).pa = true ∧
    winCoreId (scrLeaf 0x7FFF8).pa = (world scrTask).cur ∧
    (world scrTask).task? (world scrTask).cur = some scrTask ∧ scrTask.passes ng = true ∧
    admitted ((world scrTask).access 0 scrTask (scrTask.srcM (mn 2) + (0#16).signExtend 64) (tyWidth (tyOr .n64 (tyOfBits 8)) / 8) .load)
      (scrLeaf 0x7FFF8) = true ∧
    admitted ((world scrTask).access 0 scrTask (scrTask.srcM (mn 3) + (0#16).signExtend 64) 128 .load) (scrLeaf 0x7FF80) = true ∧
    admitted ((world scrTask).access 0 scrTask (scrTask.srcM (mn 2) + (7#16).signExtend 64) (tyWidth (tyOr .n32 (tyOfBits 5)) / 8) .load)
      (scrLeaf 0x7FFFF) = true := by
  decide +kernel

theorem witness_ScratchpadStoresWriteTheirBytes : (scrLeaf 0x7FFFF).pa < 2 ^ 52 ∧ (world scrTask).fes = [] ∧ scrTask.failed = false ∧
    admitted ((world scrTask).access 0 scrTask (scrTask.srcM (mn 2) + (7#16).signExtend 64) (tyWidth (tyOr .n64 (tyOfBits 5)) / 8) .store)
      (scrLeaf 0x7FFFF) = true ∧
    admitted ((world scrTask).access 0 scrTask (scrTask.srcM (mn 2)) (tyWidth (tyOr .n64 (tyOfBits 8)) / 8) .store) (scrLeaf 0x7FFF8) = true ∧
    admitted ((world scrTask).access 0 scrTask (scrTask.srcM (mn 3) + (0#16).signExtend 64) 128 .store) (scrLeaf 0x7FF80) = true := by
  decide +kernel

/-- A state whose core 0 and cluster 0 hold the line at 1 GiB. -/
def cleanLine : Line := ⟨7#1024, 0#128, 1#4, none, 0#16⟩
def heldLine : State :=
  let s := (world tk).setCore 0 { (world tk).core 0 with l1 := [(lineOf 0x40000000, cleanLine)] }
  s.setCluster 0 { s.cluster 0 with cc := [(lineOf 0x40000000, cleanLine)] }

theorem witness_CachedStoreIsReadBack : (world tk).pwrites = [] ∧ 0x4000007F % 128 + [some 5#8].length ≤ 128 ∧ 0x40000000 % 128 + 128 ≤ 128 ∧
    (heldLine.core 0).l1.find (lineOf 0x40000000) = some cleanLine ∧ cleanLine.spoilt = false ∧
    (heldLine.cluster (clusterOf 0)).cc.find (lineOf 0x40000000) = some cleanLine := by
  decide +kernel

/-- x2 at the writable page; every element of m1 zero. -/
def rwTask : Task := withX [(2, 0x40000000), (3, 4), (4, 0x40001FF8)]

/-- The same state with the line at 1 GiB held. -/
def heldWorld : State :=
  let s := (world rwTask).setCore 0 { (world rwTask).core 0 with l1 := [(lineOf 0x40000000, cleanLine)] }
  s.setCluster 0 { s.cluster 0 with cc := [(lineOf 0x40000000, cleanLine)] }

theorem witness_CachedAccessesComplete : heldWorld.task? heldWorld.cur = some rwTask ∧ rwTask.passes ng = true ∧ rwTask.failed = false ∧
    paWindow (rwLeaf 0).pa = false ∧ (rwLeaf 0).atom = false ∧ (heldWorld.core heldWorld.cur).l1.find (lineOf (rwLeaf 0).pa) = some cleanLine ∧
    cleanLine.bad = 0#16 ∧ (heldWorld.cluster (clusterOf heldWorld.cur)).cc.find (lineOf (rwLeaf 0).pa) = some cleanLine ∧
    heldWorld.keepsPre (stackOf heldWorld.cur) rwTask.team = false ∧
    admitted (heldWorld.access 0 rwTask (rwTask.srcM (mn 2) + (0#16).signExtend 64) 128 .load) (rwLeaf 0) = true ∧
    admitted (heldWorld.access 0 rwTask (rwTask.srcM (mn 2)) 8 .load) (rwLeaf 0) = true ∧
    admitted (heldWorld.access 0 rwTask (rwTask.srcM (mn 2)) 8 .store) (rwLeaf 0) = true ∧
    admitted (heldWorld.access 0 rwTask (rwTask.srcM (mn 2) + (0#16).signExtend 64) 128 .store) (rwLeaf 0) = true := by
  decide +kernel

theorem witness_GatherAndScatterForms : (world rwTask).task? (world rwTask).cur = some rwTask ∧ rwTask.passes ng = true ∧
    ((world rwTask).mgError 0 rwTask 4 .load ((List.range 32).map (fun i => (i, 0x40000000#64 + BitVec.ofNat 64 (4 * i))))).isNone = true ∧
    ((world rwTask).mgError 0 rwTask 4 .store ((List.range 32).map (fun i => (i, 0x40000000#64 + BitVec.ofNat 64 (4 * i))))).isNone = true ∧
    ((world rwTask).mgError 0 rwTask 4 .load ((List.range 32).map (fun i => (i, 0x40000000#64)))).isNone = true ∧
    (rwTask.srcM (mn 2)).toNat % 128 = 0 := by
  decide +kernel

def feLd (op : FeOp) (core : CoreId) (pa : Nat) : FeAcc := ⟨op, core, 0, 0, 0#48, 0, pa, 1, false, 9#1024, .st, false, none, 0⟩
def feOn (t : Task) (a : FeAcc) : State := { on0 t with fes := [a] }

theorem witness_FullEmptyForms :
    admitted ((world scrTask).access 0 scrTask (scrTask.srcM (mn 2) + (4#16).signExtend 64) (4 * 1) .feLoad) (scrLeaf 0x7FFFC) = true ∧
    admitted ((world scrTask).access 0 scrTask (scrTask.srcM (mn 3) + (0#16).signExtend 64) (4 * 32) .feStore) (scrLeaf 0x7FF80) = true ∧
    (feOn tk (feLd .lde 0 (2 ^ 51))).fes[0]? = some (feLd .lde 0 (2 ^ 51)) ∧ (feOn tk (feLd .lde 0 (2 ^ 51))).feMayArrive 0 = true ∧
    (feOn tk (feLd .lde 0 (2 ^ 51))).feReady (feLd .lde 0 (2 ^ 51)) = false ∧
    (feOn tk (feLd .clre 0 (2 ^ 51))).keyTask (2 ^ 51) ((feOn tk (feLd .clre 0 (2 ^ 51))).feKey (feLd .clre 0 (2 ^ 51))) = some tk ∧
    State.reset.keyTask (2 ^ 51) (State.reset.feKey (feLd .clre 0 (2 ^ 51))) = none ∧
    (feOn tk (feLd .clre 0 (2 ^ 51))).feEdge (feLd .clre 0 (2 ^ 51)) = feOn tk (feLd .clre 0 (2 ^ 51)) := by
  decide +kernel

def fullTk : Task := { tk with full := [0x1FFFF] }
def lastFe (op : FeOp) : FeAcc := feLd op 0 (2 ^ 51 + 0x7FFFC)

theorem witness_ArrivedFullEmptyAccessIsPerformed : (feOn fullTk (lastFe .lde)).fes = [lastFe .lde] ∧ (lastFe .lde).waiting = false ∧
    (lastFe .lde).handle = none ∧ (lastFe .lde).nwords = 1 ∧ (lastFe .lde).pa % 4 = 0 ∧ winCoreId (lastFe .lde).pa = (lastFe .lde).core ∧
    winKind (lastFe .lde).pa = 0 ∧ (feOn fullTk (lastFe .lde)).task? 0 = some fullTk ∧ isTask fullTk 0 0#48 = true ∧
    (feOn fullTk (lastFe .lde)).taskOf 0 0#48 = some fullTk ∧ (feOn fullTk (lastFe .lde)).rounds = [] ∧
    (feOn fullTk (lastFe .lde)).pwrites = [] ∧ (feOn fullTk (lastFe .lde)).amos = [] ∧
    (lastFe .lde).pa < 2 ^ 52 ∧ winOff (lastFe .lde).pa < 0x80000 ∧ (lastFe .lde).signed = false ∧
    fullTk.isFull (winOff (lastFe .lde).pa / 4) = true ∧ (feOn fullTk (lastFe .stf)).earlierFe 0 0#48 0 = false := by
  decide +kernel

def fenceTask : Task := { rwTask with waits := [.fence .dv 0] }

theorem witness_FencesHintsAndDiscard : (world fenceTask).task? 0 = some fenceTask ∧
    fenceTask.waits.find? (fun w => match w with | .fence _ _ => true | _ => false) = some (.fence .dv 0) ∧
    (world fenceTask).fenceReady 0 fenceTask = true ∧ ((world fenceTask).fenceAct 0 fenceTask .dv).heldWrites 0 0#48 = false ∧
    ((world fenceTask).fenceAct 0 fenceTask .dv).roundsWait 0 0#48 ((world fenceTask).fenceAct 0 fenceTask .dv).feSeq = false ∧
    (match (world rwTask).translateOn 0 0 (rwTask.srcM (mn 2)) with
      | .ok l => l == rwLeaf 0 && !l.atom && l.lclass != 0
      | .error _ => false) = false ∧
    (rwTask.srcM (mn 2)).toNat % 128 = 0 ∧ ((world rwTask).discError 0 rwTask false 128 (128 / 128) 0x40000000).isNone = true ∧
    rwTask.pend = [] ∧ rwTask.waits = [] ∧ rwTask.probeRefused = none ∧ rwTask.event = none ∧
    (match (world rwTask).probeFrom 0 0 3 0x40000004 (4 / 4096 + 2) 0x40000000 with
      | .result v => v == probeWord 63 0
      | _ => false) = true ∧
    (match (world rwTask).probeFrom 0 0 3 0x8000000004 (4 / 4096 + 2) 0x8000000000 with
      | .missing v => v == 0x8000000000#64
      | _ => false) = true := by
  decide +kernel

def bufX : CircBuf := ⟨0x80000000, 0, 128, 256, 254, 1, 255, 0, 1, [], 0⟩
def bufTask : Task := { withX [(2, 0x80000000), (3, 0x010100), (4, 0)] with cbs := [(15, bufX)] }

def fillOp : TaskOp := ⟨true, false, 128, 0, false, some 15, some 255, [], [], [], none⟩
/-- The same with the copy that filled slot 255 among the task's operations. -/
def fillTask : Task := { bufTask with ops := [(3, fillOp)] }
def withCbs : State := on0 fillTask

theorem witness_CircularBuffersAndMemorySlotMoves : bufTask.cbs.find (0#4).toNat = none ∧ cbCfgOk (bufTask.srcM (mn 3)) = true ∧
    cbCfgOk (bufTask.srcM (mn 4)) = true ∧ (bufTask.srcM (mn 4)).toNat % 512 = 0 ∧ 0 < (bufTask.srcM (mn 3)).toNat % 512 ∧
    (match (world scrTask).translateOn 0 0 0x80000000 with | .ok l => l == scrLeaf 0 | .error _ => false) = true ∧
    winPlaceOk (scrLeaf 0).pa = true ∧ winOff (scrLeaf 0).pa % 128 = 0 ∧ winOff (scrLeaf 0x78000).pa + 256 * 128 ≤ 0x80000 ∧
    (∀ e ∈ bufTask.cbs, rangesMeet e.2.off (e.2.count * e.2.size) (winOff (scrLeaf 0x8000).pa) (256 * 128) = false) ∧
    bufTask.cbs.find (15#4).toNat = some bufX ∧ 0 < bufX.held ∧ 0 < bufX.filled ∧ bufX.rd = 255 ∧ bufTask.cbWaiter 15 = none ∧ (∀ p ∈ bufTask.pend, p.id < bufTask.nextPend) ∧
    (bufTask.ops.find? (fun e => e.2.cb == some 15 && e.2.slot == some 255 && e.2.done && !e.2.joined)).isNone = true ∧
    (fillTask.ops.find? (fun e => e.2.cb == some 15 && e.2.slot == some 255 && e.2.done && !e.2.joined)) = some (3, fillOp) ∧
    (withCbs.task? 0 = some fillTask) ∧ fillTask.ops.find 3 = some fillOp := by
  decide +kernel

/-- A descriptor at scratchpad offset 0 (R280): 256 bytes, one row, from the owned page to its second 4 KiB, or a remote module. -/
def descWords (src dst rl : Nat) : Tab (BitVec 32) :=
  [(0, BitVec.ofNat 32 src), (2, BitVec.ofNat 32 dst), (4, BitVec.ofNat 32 rl), (5, 1#32)]
def copyTask : Task := { withE [(1, 0x80000000), (2, 3)] with scratch := descWords 0x40000000 0x40001000 256 }
def two0 : TokRec := { own0 with size := 4 }
def two1 : TokRec := { own0 with base := 0x40001000, size := 4 }
def copyOn : State := worldT copyTask [(0, two0), (1, two1)] tm0

def okOf {α β : Type} (r : Except α β) : Bool :=
  match r with
  | .ok _ => true
  | .error _ => false

/-- Whether the plan that a descriptor asks for is made. -/
def planned (s : State) (t : Task) (k : CopyKind) : Bool :=
  match s.copyDesc 0 t (t.srcE (mn 1)) with
  | .ok b =>
    let u := s.consumeDesc 0 t (t.srcE (mn 1))
    okOf (u.copyPlan 0 t k b) && okOf ((u.forkRelease 0 t).copyPlan 0 t k b)
  | .error _ => false

/-- A page of 1 GiB held whole, and a descriptor that asks for its move to tile 0. -/
def migTask : Task := { copyTask with scratch := [(0, 0x40000000)] }
def migOn : State := worldT migTask [(0, { own0 with size := 22 })] tm0

/-- A grant of 4 KiB from module 1, and a descriptor that writes there. -/
def farTask : Task := { copyTask with scratch := [(0, 0x40000000), (2, 0x5000), (4, 256), (5, 1), (13, 0x10000)] }
def farOn : State :=
  { worldT farTask [(0, two0), (1, two1)] tm0 with
    grants := [⟨1, 0, 0x5000, 12, 0, some (farTask.agent 0), none, none⟩], rtab := [(1, 16)], ports := [(0, ⟨true, true, 1⟩)] }

/-- An array whose shadow set names a vector at scratchpad offset 0. -/
def mxTask : Task := { copyTask with arr0 := { ArrayS.reset with abase := 0x80000000 } }
def mxOn : State := worldT mxTask [(0, two0), (1, two1)] tm0

theorem witness_CopiesAreRequested : copyOn.task? copyOn.cur = some copyTask ∧ copyTask.passes ng = true ∧
    okOf (copyOn.copyDesc 0 copyTask (copyTask.srcE (mn 1))) = true ∧ planned copyOn copyTask .cpy = true ∧
    planned mxOn mxTask .mx = true ∧ planned farOn farTask .remote = true ∧
    (match migOn.copyDesc 0 migTask (migTask.srcE (mn 1)) with
      | .ok b =>
        let u := migOn.consumeDesc 0 migTask (migTask.srcE (mn 1))
        okOf (u.migPlan 0 migTask b) && okOf ((u.forkRelease 0 migTask).migPlan 0 migTask b)
      | .error _ => false) = true ∧
    ((mxOn.consumeDesc 0 mxTask (mxTask.srcE (mn 1))).mxError 0 mxTask 0).isNone = true ∧
    okOf ((mxOn.consumeDesc 0 mxTask (mxTask.srcE (mn 1))).mxCapture 0 mxTask 0 .go none 3) = true := by
  decide +kernel

def cmd0 : Cmd := ⟨7, .go, 0x7700, 1, [], [], [], 0, 0, 0, [[0]], 0x701, none, 0, 1, 0, 0, true, none, true, false, false, [], []⟩
def busyArr : ArrayS := { ArrayS.reset with abase := 0x80000000, cur := some cmd0, holds := [(cmd0, [7])], nextCmd := 8 }
def busyTask : Task := { tk with arr0 := busyArr }
def heldSet (t : Task) (arr : Bool) (n : Nat) : Bool := (t.arr arr.toNat).holds.any (fun h => h.2.contains n)

theorem witness_ArrayConfiguration : (world busyTask).task? (world busyTask).cur = some busyTask ∧ busyTask.passes ng = true ∧
    (world busyTask).mxError 0 busyTask false.toNat = none ∧ (world busyTask).mxError 0 busyTask true.toNat = none ∧ (3#3).toNat < 4 ∧
    (∀ h ∈ busyArr.holds, ∀ n ∈ h.2, n < 8 → (0x7F#24).getLsbD n = false) ∧ heldSet busyTask false 7 = true ∧
    ((world busyTask).lentWithin 0 busyTask 3 (0x2000 * false.toNat + 0x400 * 6) 0x400).isNone = true ∧
    ((world busyTask).lentWithin 0 busyTask 3 (0x2000 * false.toNat + 0x400 * 7) 0x400).isNone = true := by
  decide +kernel

def commitOn (w : Wait) : State := mxOn.setTask 0 { mxTask with waits := mxTask.waits ++ [w] }
def goCmd : Cmd :=
  match mxOn.mxCapture 0 mxTask 0 .go none 0 with
  | .ok k => k
  | .error _ => cmd0
def commitW : Wait := .commit 0 .go 0xFFFFFFFFFFFFFFFF 0 goCmd.scr goCmd.cols
def sameOk {α β : Type} [DecidableEq β] (a b : Except α β) : Bool :=
  match a, b with
  | .ok x, .ok y => x == y
  | _, _ => false

theorem witness_ArrayCommitsAndJoins : mxOn.task? mxOn.cur = some mxTask ∧ mxOn.mxError 0 mxTask 0 = none ∧ (mxTask.arr 0).pnd = none ∧
    (mxTask.arr 0).cur = none ∧ mxTask.waits = [] ∧ (none : Option Word) ≠ some 0xFFFFFFFFFFFFFFFF#64 ∧
    sameOk (mxOn.mxCapture 0 mxTask 0 .go none 0)
      ((commitOn commitW).mxCapture 0 { mxTask with waits := mxTask.waits ++ [commitW] } 0 .go none 0) = true ∧
    (busyTask.arr 0).cur ≠ none ∧ (busyTask.arr 0).pnd = none ∧ okOf ((world busyTask).mxCapture 0 busyTask 0 .gos none 0) = true ∧
    (∀ h ∈ (busyTask.arr 0).holds, 6 ∈ h.1.sets → (busyTask.arr 0).hasEnded h.1.id = true) ∧ mxTask.pend = [] := by
  decide +kernel

def fbFull (n : Nat) : State := withStack (on0 tk) (fun x => { x with fb := (List.range n).map (fun k => (k, evRec)) })
def privOn : State := (on0 tk).setCtx 0 { CtxS.reset with priv := true }

theorem witness_SystemInstructions : ((fbFull 1).stack 0).fb.find 1 = none ∧ ((fbFull 1).stack 0).fb.find 0 ≠ none ∧ 1 < 4096 ∧
    ((on0 tk).stack 0).fb.find 0 = none ∧ ((on0 tk).core 0).brkh = false ∧ ((withCore (fun x => { x with brkh := true })).core 0).brkh = true ∧
    (0x21#16).toNat ≠ 0x50 ∧ privOn.privileged tk.ctx = true ∧ (on0 tk).privileged tk.ctx = false := by
  decide +kernel

def declOn (d : Decl) : State := (on0 busyTask).setCore 0 { (on0 busyTask).core 0 with decl := some d }
def freshCmd : Cmd := { cmd0 with started := false }
def startTaskA : Task := { tk with arr0 := { busyArr with cur := some freshCmd } }
def endedTask : Task := { tk with arr0 := { busyArr with cur := some { cmd0 with ended := true } } }
def burstImage : Image := { slotImage with bursts := [⟨2, 3, 100⟩] }

theorem witness_DeclarationsAndArraySteps : placed.imageOf placedTask = some slotImage ∧ slotImage.bursts.find? (fun r => r.bid == 2) = none ∧
    burstImage.bursts.find? (fun r => r.bid == 2) = some ⟨2, 3, 100⟩ ∧ ((0x100000000#64).extractLsb' 0 32).toNat = 0 ∧
    ((0x1#64).extractLsb' 0 32).toNat ≠ 0 ∧ ((on0 busyTask).core 0).decl = none ∧
    ((declOn ⟨false, 0, 8, 1, 2, false, true⟩).core 0).decl = some ⟨false, 0, 8, 1, 2, false, true⟩ ∧
    0 ≤ ((declOn ⟨false, 0, 8, 1, 2, false, true⟩).cluster 0).cyc ∧
    arrCore 0 = 0 ∧ arrIn 0 = 0 ∧ arrIn 2047 = 1 ∧ (busyTask.arr (arrIn 0)).cur = some cmd0 ∧ cmd0.started = true ∧ cmd0.ended = false ∧
    cmd0.load = 0 ∧ cmd0.sl ≤ cmd0.t + 1 ∧ freshCmd.started = false ∧ ((on0 startTaskA).cluster 0).clocked = true ∧
    (on0 startTaskA).startAns 0 startTaskA 0 = .due none ∧ (endedTask.arr 0).cur = some { cmd0 with ended := true } := by
  decide +kernel


/-! A grid of two tasks in one team, the task of coordinate 0 on core 0. -/

def launch2 : Launch := { slotLaunch with ext := (2, 1, 1), total := 2, img := { slotImage with loops := [⟨0, 1, 0, 2⟩] } }
def grid2 (t : Task) (l : Tab TokRec) (tm : Team) : State := (worldT t l tm).setLaunch 0 launch2

/-- y2 at the region of 8 KiB, y3 the other coordinate, y4 an exponent. -/
def tokTask : Task := withY [(2, 0x40000000), (3, 1), (4, 13), (5, 8)]
def tokOn (r : TokRec) : State := grid2 tokTask [(0, r)] tm0
def reg0 : Named := ⟨rwLeaf 0, 0, 0x40000000, 5⟩
def deep6 : TokRec := { own0 with depth := 6 }
def manySh : TokRec := { own0 with st := .shared, nsh := 65534, nat := 65534 }
def backAll : TokRec := { own0 with st := .shared, nsh := 3, backSh := 2, eng := 1 }
def src0 : Src := ⟨0, 0, 0#48⟩
def share0 : TokRec := { own0 with sh := true }

theorem witness_TokenTransfers : isAlias (tokTask.srcY 0 (mn 2)) = false ∧
    sameOk ((tokOn deep6).named 0 tokTask (tokTask.srcY 0 (mn 2)) (fun r => r.claimed)) (.ok reg0) = true ∧
    (tokOn deep6).lostRegion reg0 = false ∧ ((tokOn deep6).stackTab.all (fun e => !e.2.linkFen)) = true ∧ (tokOn deep6).toks = [] ∧ (tokOn deep6).fes = [] ∧ (tokOn deep6).pwrites = [] ∧
    (tokOn deep6).amos = [] ∧ (tokOn deep6).rounds = [] ∧ tokTask.ops = [] ∧ tokTask.waits = [] ∧ (tokOn deep6).sliceOf reg0.base = reg0.st ∧
    ((tokOn deep6).core 0).l1 = [] ∧ ((tokOn deep6).cluster (clusterOf 0)).cc = [] ∧
    (tokOn deep6).coordAgent tokTask (tokTask.srcY 0 (mn 3)) = some 1 ∧
    freeTok ((tokOn deep6).stack 0).toks 15344 0 = some 1 ∧
    ((tokOn deep6).stack 0).ownRec (tokTask.agent 0) 0x40000000 5 = some (0, deep6) ∧ deep6.claimed = true ∧ (1#2).getLsbD 1 = false ∧
    ((tokOn manySh).stack 0).ownRec (tokTask.agent 0) 0x40000000 5 = some (0, manySh) ∧ manySh.nsh < 65535 ∧
    ((tokOn backAll).stack 0).ownRec (tokTask.agent 0) 0x40000000 5 = some (0, backAll) ∧ backAll.nsh = backAll.backSh + backAll.eng ∧
    sameOk ((tokOn share0).named 0 tokTask (tokTask.srcY 0 (mn 2)) (fun r => r.claimed)) (.ok reg0) = true ∧
    ((tokOn share0).stack 0).shareRec (tokTask.agent 0) 0x40000000 5 true = some (0, share0) ∧
    ((tokOn share0).stack 0).toks.find 0 = some share0 := by
  decide +kernel

/-- Whether a claim completes. -/
def claimed (r : ClaimEnd) : Bool :=
  match r with
  | .done _ => true
  | _ => false

def restOn (l : Tab TokRec) : State := grid2 tokTask l tm0
def sent0 : TokRec := { own0 with claimed := false }
def waitW (base z : Nat) : Wait := .token false 0x40000000 base z
def half0 : Named := ⟨rwLeaf 0, 0, 0x40000000, 4⟩
def bufOn : State := restOn [(0, { own0 with depth := 7, nsh := 65535, nat := 65535, size := 22, st := .shared })]

theorem witness_TokenClaimsSplitsAndQueries :
    sameOk ((restOn []).regionLeaf 0 tokTask (tokTask.srcY 0 (mn 2))) (.ok (rwLeaf 0)) = true ∧
    (tokTask.srcY 0 (mn 4)).toNat = 13 ∧ waitSizeOk (rwLeaf 0) 13 = true ∧ waitSizeOk (rwLeaf 0) 30 = true ∧
    waitSizeOk (scrLeaf 0) 8 = true ∧ tokTask.waits = [] ∧
    claimed (((restOn []).setTask 0 { tokTask with waits := [waitW 0x40000000 5] }).claim 0
      { tokTask with waits := [waitW 0x40000000 5] } false 0 0x40000000 5) = true ∧
    claimed (((restOn []).setTask 0 { tokTask with waits := [.token true 0x40000000 0x40000000 5] }).claim 0
      { tokTask with waits := [.token true 0x40000000 0x40000000 5] } true 0 0x40000000 5) = true ∧
    ((tokOn sent0).stack 0).ownRec (tokTask.agent 0) 0x40000000 5 = some (0, sent0) ∧ sent0.claimed = false ∧ sent0.arr = true ∧
    sameOk ((tokOn own0).named 0 tokTask (tokTask.srcY 0 (mn 2)) (fun r => r.claimed)) (.ok reg0) = true ∧
    paWindow reg0.leaf.pa = false ∧ reg0.leaf.heap = false ∧ 4 < reg0.size ∧ own0.exclusive = true ∧
    ((tokOn own0).stack 0).newTok 0 tokTask.naks = some 1 ∧
    ((tokOn own0).stack 0).toks.filter (fun p => p.2.isFor reg0.base reg0.size) = [(0, own0)] ∧ (tokOn own0).sliceOf reg0.base = reg0.st ∧
    sameOk ((restOn [(0, two0), (1, two1)]).named 0 tokTask (tokTask.srcY 0 (mn 2)) (fun r => r.claimed)) (.ok half0) = true ∧
    (restOn [(0, two0), (1, two1)]).lostRegion { half0 with size := 5 } = false ∧ 2 * regionBytes 4 ≤ 2 ^ half0.leaf.bits ∧
    ((restOn [(0, two0), (1, two1)]).stack 0).ownRec (tokTask.agent 0) 0x40000000 4 = some (0, two0) ∧
    ((restOn [(0, two0), (1, two1)]).stack 0).ownRec (tokTask.agent 0) 0x40001000 4 = some (1, two1) ∧
    sameOk (bufOn.named 0 tokTask (tokTask.srcY 0 (mn 2)) (fun r => r.claimed)) (.ok { reg0 with size := 22 }) = true ∧
    bufOn.lostRegion { reg0 with size := 22 } = false := by
  decide +kernel

/-! Sync units: phase 15 with two parties, a page with ATOM, a port to module 1. -/

def atomMem : List Host.Cell := Memory.putNum mapMem 0x3008 8 (0x40000000 + 0x921 + 2 ^ 53)
def syncTask : Task := withY [(2, 0x1800F), (3, 0xF), (4, 0xFFFF000F), (5, 0x40001FF8)]
def syncTm (p : PhaseObj) : Team := { tm0 with size := 2, left := 2, phases := [(15, p)] }
def syncOn (p : PhaseObj) : State := { grid2 syncTask [(0, own0)] (syncTm p) with mem := atomMem, toks := [] }
def syOn : State :=
  let s := { syncOn ⟨2, 0, 1, [], []⟩ with rtab := [(1, 16)], ports := [(0, ⟨true, true, 1⟩)] }
  s.setCtx 0 { s.ctx 0 with syph := 0x8000000000000001 }
def atomLeaf : Leaf := { rwLeaf 0x1FF8 with atom := true }

theorem witness_SynchronisationInstructions :
    (syncOn ⟨2, 1, 1, [], []⟩).imageOf syncTask = some launch2.img ∧
    (syncTask.srcY 0 (mn 2)).extractLsb' 4 11 = 0#11 ∧ (syncTask.srcY 0 (mn 2)).getLsbD 15 = true ∧
    inGrid ((syncOn ⟨2, 1, 1, [], []⟩).taskExt syncTask) ((syncTask.srcY 0 (mn 2)).extractLsb' 16 48) = true ∧
    ((syncOn ⟨2, 1, 1, [], []⟩).ctx 0).syphOn = false ∧ (syncOn ⟨2, 1, 1, [], []⟩).rounds = [] ∧
    (syncTask.srcY 0 (mn 3)).getLsbD 15 = false ∧
    (syOn.ctx 0).syph.getLsbD 63 = true ∧ syOn.reaches (Fin.ofNat 4096 (syOn.ctx 0).syph.toNat) = true ∧
    (syncOn ⟨2, 1, 1, [], []⟩).team? 0 syncTask = some (syncTm ⟨2, 1, 1, [], []⟩) ∧
    (syncTask.srcY 0 (mn 3)).extractLsb' 4 12 = 0#12 ∧ max (syncTask.arrived.get 0 15) 1 ≤ 1 ∧
    ((syncTask.srcY 0 (mn 4)).extractLsb' 16 16).toNat = 65535 ∧ (syncTask.srcY 0 (mn 4)).extractLsb' 4 12 = 0#12 ∧
    (syncTask.srcY 0 (mn 4)).extractLsb' 32 32 = 0#32 ∧ ((syncTm ⟨0, 0, 0, [], []⟩).phases.get .none 15).p = 0 ∧
    admitted ((syncOn ⟨2, 1, 1, [], []⟩).atomAccess 0 syncTask (syncTask.srcY 0 (mn 5)) (tyWidth (tyOr .n32 .n64) / 8)) atomLeaf = true ∧
    syOn.heldWrites 0 0#48 = false ∧ syOn.earlierFe 0 0#48 0 = false ∧ syOn.roundsWait 0 0#48 0 = false ∧ syOn.remq = [] ∧
    { syOn with fes := [feLd .ste 0 (2 ^ 51)] }.earlierFe 0 0#48 1 = true ∧
    syncTask.trig = false ∧ { syncTask with trig := true }.trig = true := by
  decide +kernel

def arr0m : ArrMsg := ⟨0, 0, 0, 0#48, 1#48, 15, true, .st, false, 0, 0⟩
def msgOn (m : TokMsg) (r : TokRec) : State := { tokOn r with toks := [m] }
def lent1 : TokRec := { own0 with st := .lent, depth := 0 }
def needRec : TokRec := { own0 with base := 0x40002000, claimed := false, arr := false }
def arrOn (p : PhaseObj) : State := { syncOn p with arrs := [arr0m] }
def rnd0 : RoundMsg := ⟨0, 0, 0, 0#48, 0, 0, 15, 1, .rsum, .n32, 0x40001FF8, 0x40001FF8, 0, 0x3008, false, 1#64, 0#64, 0, false, false, 0#64, 0#7, 1, 0, 0, 0#32⟩
def amo0 : AmoMsg := ⟨0, 0, 0, 0#48, .add, .n64, 0x40001FF8, 0x40001FF8, 0, 0x3008, false, 5#64, false, 1, 0#32⟩
def growL : Launch := { slotLaunch with ext := (1, 1, 1), img := { slotImage with loops := [⟨0, 2, 0, 4⟩] } }
def putDone (r : State × WriteEnd) : Bool := r.2 == .done

theorem witness_MessagesOfTokensAndSynchronisation :
    (msgOn (.deliver 0 0 src0 0) sent0).msgMayArrive 0 = true ∧ ((msgOn (.deliver 0 0 src0 0) sent0).stack 0).toks.find 0 = some sent0 ∧
    (msgOn (.deliver 0 0 src0 0) sent0).agentGone sent0.holder = false ∧
    (msgOn (.ret 0 0x40000000 5 1 .dv src0 0) lent1).msgMayArrive 0 = true ∧
    ((msgOn (.ret 0 0x40000000 5 1 .dv src0 0) lent1).stack 0).toks.find? (fun e => e.2.isFor 0x40000000 5 && !e.2.sh && e.2.depth + 1 == 0 + 1) =
      some (0, lent1) ∧
    ((tokOn { own0 with st := .lost }).stack 0).toks.find (0 : Fin 16384).val = some { own0 with st := .lost } ∧
    (msgOn (.need 0 needRec src0 1 0) own0).msgMayArrive 0 = true ∧ (msgOn (.need 0 needRec src0 1 0) own0).agentGone needRec.holder = false ∧ (∀ g, lent1.holder ≠ .stack g) ∧
    freeTok ((msgOn (.need 0 needRec src0 1 0) own0).stack 0).toks 15344 0 = some 1 ∧
    (arrOn ⟨2, 1, 3, [], []⟩).arrs = [arr0m] ∧ (arrOn ⟨2, 1, 3, [], []⟩).rounds = [] ∧ (arrOn ⟨2, 1, 3, [], []⟩).toks = [] ∧
    (arrOn ⟨2, 1, 3, [], []⟩).arrMay 0 arr0m = true ∧
    (arrOn ⟨2, 1, 3, [], []⟩).findTeam 0 1#48 = some (0, 0, syncTm ⟨2, 1, 3, [], []⟩) ∧
    ((syncTm ⟨2, 1, 3, [], []⟩).phases.get .none 15).arv + 1 = 2 ∧ ((syncTm ⟨3, 1, 3, [], []⟩).phases.get .none 15).arv + 1 < 3 ∧
    { syncOn .none with rounds := [rnd0] }.rounds[0]? = some rnd0 ∧ rnd0.received = false ∧
    (((syncOn .none).stack 0).takeObj 0 0 (.round 0 0 0#48 0)).isSome = true ∧
    { syncOn .none with amos := [amo0] }.amoMay 0 = true ∧ (placed.setLaunch 0 growL).ending 0 = false ∧ growL.done = false ∧
    putDone ((syncOn .none).putHome (atomTag 0 0 0 0#48 0 0x3008 false 0x40001FF8 0x40001FF8 1 0#32) 0x40001FF8 64
      (atomNew .add .n64 ((syncOn .none).homeNum 0 0x40001FF8 8) 5 0).1) = true ∧
    { placed with trigs := [⟨0, 0, 0#48, 0⟩] }.heldWrites 0 0#48 = false ∧ { placed with trigs := [⟨0, 0, 0#48, 0⟩] }.earlierFe 0 0#48 0 = false ∧
    { placed with trigs := [⟨0, 0, 0#48, 0⟩] }.roundsWait 0 0#48 0 = false ∧ { placed with trigs := [⟨0, 0, 0#48, 0⟩] }.launch? 0 = some slotLaunch ∧
    (placed.setLaunch 0 growL).launch? 0 = some growL ∧ growL.img.loops.find? (fun x => x.lkind == 2) = some ⟨0, 2, 0, 4⟩ := by
  decide +kernel

theorem witness_ModuleRegistersLinksAndBringUp_arrival :
    (syncOn ⟨2, 0, 1, [], []⟩).launchOf 0 launch2.rcd.lid = some (0, launch2) ∧ inGrid launch2.ext 1#48 = true ∧ launch2.finishedCoords = [] ∧
    (syncOn ⟨2, 0, 1, [], []⟩).findTeam 0 1#48 = some (0, 0, syncTm ⟨2, 0, 1, [], []⟩) ∧
    (((syncOn ⟨2, 0, 1, [], []⟩).unprotectTeam 0 0).countArrival 0 0 15 .sy none 0).isSome = true := by
  decide +kernel

/-- A task that waits for what it itself has lent back from itself: a share it must give back to its own operation (R282, WK 7). -/
def selfWait : Task := { tk with waits := [.unshare 0x40000000 5 .dv] }
def selfEnt : WaitEnt := .on (selfWait.agent 0) (some (selfWait.agent 0)) 7 0x40000000

def dlOn : State := { (on0 selfWait).enterWaits with dlAt := (on0 selfWait).ns }

theorem witness_MessagesOfTokensAndSynchronisation_deadlock : (on0 selfWait).dlEn = true ∧
    dlOn.waitEdges.map (fun e => (e.1.2, e.2)) = [(selfEnt, [selfWait.agent 0])] ∧
    pickVictim dlOn.dlVict (oneCycle dlOn.waitEdges) = some selfEnt ∧ (∀ e ∈ dlOn.waitEdges, e.1.2.ctx = selfEnt.ctx) ∧ { on0 tk with dlEn := false }.dlEn = false := by
  decide +kernel

/-! Landings, writes at home, and what backs pages. -/

def flyTask : Task := { tk with flight := [aFlight] }
def lateTask : Task := { tk with flight := [{ aFlight with late := true, mem := true }] }
def pend0 : Pend := ⟨7, .main .A 47, .value, some 5#1024, 0#7, false⟩
def pw0 : PWrite := ⟨0x4000007F, [some 5#8], ⟨0, 0, 0, 0#48, 0, 0x3008, false, 0x40000000, 1, 0#32, none⟩, false, false, [], true, 0#16⟩
def spill0 : Spill := ⟨0, 0x3008, 3, 4096, 0, 0⟩
def spillOn : State := withStack (world tk) (fun x => { x with spills := [spill0] })
/-- The page at 1 GiB unbacked, one line of it LIVE, its backing waiting, and a frame in the pool. -/
def unbOn : State := { spillOn with
  mem := Memory.putNum placed.mem 0x3008 8 (0x40000000 + 0x921 + 2 ^ 55)
  live := [(lineOf 0x40000000, ⟨0, 0, 0x3008, 0x40000, none⟩)]
  pools := [(poolKey 0 3, [0x80000000#52])] }
def resvOn : State := withStack (on0 tk) (fun x => { x with resv := [(255, ⟨9#32, true, 4095, 3#32, 0#32⟩)] })
def carve (m : Option Nat) : State := withStack (on0 tk) (fun x => { x with moving := m })

theorem witness_LandingsAndWritesAtHome : (on0 flyTask).task? 0 = some flyTask ∧ aFlight.rem = 0 ∧ (on0 lateTask).task? 0 = some lateTask ∧
    { tk with pend := [pend0] }.pend.find? (fun q => q.id == pend0.id) = some pend0 ∧
    { world tk with pwrites := [pw0] }.writeMay 0 = true ∧ pw0.pa % 128 + pw0.bytes.length ≤ 128 ∧ pw0.disc = false ∧
    (world tk).homeBad pw0.tag.home (lineOf pw0.pa) = 0#16 ∧
    ((world tk).stack pw0.tag.home).l2.length < ((world tk).stack pw0.tag.home).cacheRoom ∧ paUnbacked pw0.pa = false ∧ Memory.wf (world tk).mem = true ∧
    (spillOn.stack 0).spills[0]? = some spill0 ∧ spillOn.mapsUnbacked spill0.ctx spill0.leafPa = false ∧
    (unbOn.stack 0).spills[0]? = some spill0 ∧ spill0.ent = 4096 ∧ unbOn.mapsUnbacked spill0.ctx spill0.leafPa = true ∧
    unbOn.pools.get [] (poolKey spill0.poolDie spill0.size) = [0x80000000#52] ∧ (0x40000000#64).toNat % 4096 = 0 ∧
    (let u := unbOn.setStack 0 { unbOn.stack 0 with spills := [] }
     u.usedLines 0 0 = 1 ∧ u.heldLines 0 0 = 0 ∧ u.livePages 0 0 = [0x3008] ∧ ((0x1000#64).extractLsb' 32 32).toNat = 0 ∧
     (0x1000#64).getLsbD 12 = true) ∧
    64 < State.reset.storWith 0 (0 - 0 + 0xFFFFFFFF) ∧
    (0x40000000#64).toNat % 2 ^ pageBits (4 : Fin 5).val = 0 ∧ inDie 0 (0x40000000#64).toNat = true ∧
    inDie 7 (0xE000000000#64).toNat = true ∧ (0xE000000000#64).toNat < 2 ^ 52 ∧ ¬ inDie 0 (0xE000000000#64).toNat = true ∧
    ((0x900000FFF#64).extractLsb' 32 32).toNat ≤ ((resvOn.stack 0).resv.get ⟨0#32, false, 0, 0#32, 0#32⟩ (255 : Fin 256).val).resv.toNat ∧
    (0x900000FFF#64).getLsbD 12 = false ∧ (0x900001FFF#64).getLsbD 12 = true ∧
    (∃ p ∈ (resvOn.stack 0).resv, p.1 ≠ (0 : Fin 256).val ∧ p.2.valid = true ∧ p.2.ctx = Fin.ofNat 4096 (0x900001FFF#64).toNat) ∧
    (on0 tk).task? 0 = some tk ∧ ((carve none).stack 0).moving = none ∧ ((carve (some 63)).stack 0).moving = some 63 ∧
    (0#16).toNat = min ((carve none).stack 0).gainNow 65535 ∧ (0#16).toNat = min ((carve none).stack 0).lossNow 65535 ∧
    ((carve none).stack 0).cuAt + 100000 ≤ { carve none with ns := 100000 }.ns ∧ (carve none).ns < ((carve none).stack 0).cuAt + 100000 := by
  decide +kernel

/-- An operation of the task with handle 3, as a request, accepted, and run. -/
def op0 : CopyOp :=
  ⟨0, 0, 0, 0#48, 0, 3, .cpy, ⟨0x40000000, 0x40001000, 256, 1, 0, 0, 0#64, 0#32, none, 0⟩, 0,
   [⟨0x40000000, 0x40000000, 2 ^ 30, 0, 0x3008, false, false, 1⟩], [⟨0x40000000, 0x40000000, 2 ^ 30, 0, 0x3008, false, false, 1⟩],
   0x40001000, 0, 0, 0, none, none, none, false, false, false, false, 0, 0#32, none⟩
def opTask : Task := { copyTask with ops := [(3, ⟨false, false, 0, 0, false, none, none, [], [], [], none⟩)] }
def opOn (rs os : List CopyOp) : State :=
  withStack (worldT opTask [(0, two0), (1, two1)] tm0) (fun x => { x with requests := rs, ops := os })
def ranOp : CopyOp := { op0 with eng := some 1, ran := true }
/-- The same filling slot 255 of a buffer whose oldest claim it is, with a completion word. -/
def bufOp : CopyOp := { ranOp with desc := { ranOp.desc with cb := some 15 }, slot := some 255, cwPa := 0x40001FF8 }
def claimBuf : CircBuf := { bufX with filled := 0, free := 253, claim := [(255, false), (0, true)] }
def cbTask : Task := { opTask with
  cbs := [(15, claimBuf)], ops := [(3, ⟨false, false, 128, 0x40001FF8, false, some 15, some 255, [], [], [], none⟩)] }
def cbWait : Task := { bufTask with pend := [⟨0, .main .M 4, .cbget 15, none, 0#7, false⟩] }
def followOp : CopyOp := { ranOp with follow := some cmd0 }

theorem witness_CopyOperationsProceed : (opOn [op0] []).copyRequests[0]? = some (0, 0, op0) ∧ (opOn [op0] []).earlierFe 0 0#48 0 = false ∧ (opOn [op0] []).roundsWait 0 0#48 0 = false ∧
    ((opOn [op0] []).stack 0).acceptOp op0 = some false ∧
    ((opOn [op0] (List.replicate 63 ranOp)).stack 0).acceptOp op0 = some false ∧
    ((opOn [op0] (List.replicate 64 ranOp)).stack 0).acceptOp op0 = none ∧
    (⟨0, .main .E 4, .handle 3, none, 0#7, false⟩ : Pend).kind = .handle 3 ∧
    ((opOn [] [op0]).stack 0).ops[0]? = some op0 ∧ op0.eng = none ∧ op0.desc.cb = none ∧ ((opOn [] [op0]).stack 0).engFenced.getLsbD 1 = false ∧
    (opOn [] [op0]).tests = [] ∧ (∀ p ∈ ((opOn [] [op0]).stack 0).ops, p.eng ≠ some 1) ∧ (opOn [] [op0]).opReady op0 = true ∧
    ((opOn [] [followOp]).stack 0).ops[0]? = some followOp ∧ (opOn [] [followOp]).opHeld followOp = false ∧ (opOn [] [followOp]).opStopped 0 followOp = false ∧ (opOn [] [ranOp]).opStopped 0 ranOp = false ∧
    (opOn [] [followOp]).task? 0 = some opTask ∧ isTask opTask 0 0#48 = true ∧ (opTask.arr 0).pnd = none ∧
    (((opOn [] [bufOp]).setTask 0 cbTask).stack 0).ops[0]? = some bufOp ∧ bufOp.ran = true ∧ bufOp.follow = none ∧
    ((opOn [] [bufOp]).setTask 0 cbTask).opStopped 0 bufOp = false ∧ ((opOn [] [bufOp]).setTask 0 cbTask).opHeld bufOp = false ∧
    cbTask.ops.find 3 = some ⟨false, false, 128, 0x40001FF8, false, some 15, some 255, [], [], [], none⟩ ∧
    claimBuf.claim = (255, false) :: [(0, true)] ∧ (∀ e ∈ [((0 : Nat), true)], e.1 ≠ 255) ∧
    cbWait.cbs.find 15 = some bufX ∧ cbWait.cbWaiter 15 = some ⟨0, .main .M 4, .cbget 15, none, 0#7, false⟩ ∧ cbWait.ops = [] ∧
    ((opOn [] [ranOp]).stack 0).ops[0]? = some ranOp ∧ opTask.ops.find 3 = some ⟨false, false, 0, 0, false, none, none, [], [], [], none⟩ := by
  decide +kernel

/-! The queue block. -/

def semOn (n : SemId) (x : SemS) (q : QueueS) : State := { (placed.setSem n x).setQueue 63 q with stage := 4 }
def queueOn : QueueS := { QueueS.reset with en := true }

theorem witness_SemaphoresAndQueues : ((semOn 0 ⟨some .B, 5#32, some 0⟩ queueOn).sem 0).own = some .B ∧ (State.reset.sem 31).own = none ∧
    ((semOn 0 ⟨some .B, 5#32, some 0⟩ queueOn).sem 0).ends = some 0 ∧ 0 ≤ State.reset.ns ∧ (State.reset.sem 0).own = none ∧
    { State.reset with rom := some .A, disp := some .B }.rom = some .A ∧ ({ State.reset with rom := some .A, disp := some .B }.sem 0).own = none ∧
    { State.reset with rom := none, disp := some .B }.rom = none ∧
    ((semOn 1 ⟨some .A, 0#32, none⟩ queueOn).sem 1).own = some .A ∧ ((semOn 1 ⟨some .A, 0#32, none⟩ queueOn).queue 63).recs = [] ∧
    (semOn 1 ⟨some .A, 0#32, none⟩ queueOn).queueActive 63 = false ∧ (semOn 1 ⟨some .A, 0#32, none⟩ queueOn).stage = 4 ∧
    (State.reset.sem 1).own ≠ some .A ∧ (0x80#64).extractLsb' 0 7 = 0#7 ∧ (0x40#64).extractLsb' 0 7 ≠ 0#7 ∧
    (0xFFFFFFFFFFFF80#64).extractLsb' 56 8 = 0#8 ∧ (0x100000000000000#64).extractLsb' 56 8 ≠ 0#8 ∧ queueOn.en = true ∧ QueueS.reset.en = false ∧
    { queueOn with recs := List.replicate 255 0x80#64 }.recs.length < 256 ∧ 256 ≤ { queueOn with recs := List.replicate 256 0x80#64 }.recs.length := by
  decide +kernel

/-- An image at 0x20000: its header (R36) with the digest that Python's hashlib gives, one loop record, one literal of `nop`. -/
def imageMem : List Host.Cell :=
  Memory.putNum (Memory.putNum (Memory.putNum (Memory.putNum mapMem
    0x20000 64 0x1000000000000000019000000c0000000c00000000100000010000000800000010000000001374b4e47)
    0x20040 32 0x5c0a534038250f2b30b2afded82af3e4fdf93db9231c2074958bacc49a9b2d52)
    0x20080 16 0x10000000000100002) 0x200C0 2 0xFFFF

/-- A launch record at 0x30000 (R69): image 0x20000, extents 1, completion word 0x40000000; and one whose extents are 0. -/
def launchMem : List Host.Cell :=
  Memory.putNum (Memory.putNum (Memory.putNum imageMem 0x30000 8 0x20000) 0x30018 12 (1 + 2 ^ 32 + 2 ^ 64)) 0x30028 8 0x40000000
def rec0 : LaunchRec := ⟨false, 0x30000, 0x20000, 0, 0, 0#32, (1, 1, 1), 0x40000000, 0, false, []⟩
def headOn (h : HeadSt) (va : Word) : State :=
  let s := (({ placed with mem := launchMem, agenda := [], launches := [] }.setSem 0 ⟨some .A, 500#32, none⟩).setQueue 3
    { queueOn with head := h, recs := [va] })
  s.setCtx 0 { s.ctx 0 with ok := true }
def imageOk : Image := { slotImage with
  va := 0x20000
  isize := 256
  dictOff := 192
  codeOff := 192
  constOff := 256
  carve := (0, 64)
  loops := [⟨0, 0, 0, 1⟩]
  digest := 0x5c0a534038250f2b30b2afded82af3e4fdf93db9231c2074958bacc49a9b2d52 }

theorem witness_LaunchStages_records : (headOn .raw 0x30000).headMay 3 = true ∧ ((headOn .raw 0x30000).ctx 0).valid = true ∧
    (headOn .raw 0x30000).recordAt 0 0x30000 = some rec0 ∧ (headOn .raw 0x30000).recordAt 0 0x8000000000 = none ∧
    ((headOn .raw 0x30000).setCtx 0 CtxS.reset).ctx 0 = CtxS.reset ∧
    (headOn .raw 0x30000).recCodes 0 rec0 = [] ∧ (headOn .raw 0x30000).ctxCodes 0 = [] ∧
    (headOn .raw 0x30000).recCodes 0 { rec0 with bad := true, ccnt := 0x8000000000 } = [0x10, 0x12] ∧
    (headOn (.read rec0) 0x30000).launchCodes 0 { rec0 with image := 0x30000 } = ([1], none) ∧
    (headOn .raw 0x30000).depCodes 0 { rec0 with deps := [(0x8000000000, 0)] } = [0x12] ∧
    (headOn .raw 0x30000).depCodes 0 { rec0 with deps := [(0x40000000, 0)] } = [] ∧
    (headOn .raw 0x30000).depsMet 0 { rec0 with deps := [(0x40000000, 0)] } = false ∧
    (headOn (.valid rec0 imageOk) 0x30000).depCodes 0 rec0 = [] ∧ (headOn (.valid rec0 imageOk) 0x30000).depsMet 0 rec0 = true ∧
    (headOn (.ready rec0 imageOk) 0x30000).mayAdmit 3 = true ∧
    (headOn (.ready rec0 imageOk) 0x30000).ageQueues.decisionOrder = [(3, 3)] ∧
    ((headOn (.ready rec0 imageOk) 0x30000).pendingLaunch 3).isNone = true := by
  decide +kernel

/-- The checks of R57 pass on the image, its digest included (R36). -/
theorem witness_LaunchStages_image : (headOn (.read rec0) 0x30000).launchCodes 0 rec0 = ([], some imageOk) := by
  decide +kernel

/-- A launch whose team is still to be issued, and a core whose plane holds its image. -/
def pendL : Launch := { slotLaunch with pendTeams := [0#48], q := 3, img := imageOk }
def issueOn : State := { (headOn .raw 0x30000) with launches := [(0, pendL)], cores := [] }
def tag0 : PlaneTag := imageOk.tag 0
def startOn : State := { issueOn with
  cores := [(0, { CoreS.reset with next := some (.new 0 0 0#48 0 0 0), shd := ⟨.loaded, some tag0, [], false, false⟩ })] }
def loadOn : State := { issueOn with cores := [(0, { CoreS.reset with shd := ⟨.loading, some tag0, [], false, false⟩ })] }
def doneTask : Task := { tk with ended := true, waits := [.endTask] }
/-- The same with a full/empty store of the task still at its word. -/
def waitDone : State := { on0 doneTask with fes := [{ feLd .ste 0 (2 ^ 51) with waiting := true }], feSeq := 1 }

theorem witness_LaunchStages_issue : issueOn.active.isSome = true ∧ issueOn.ageQueues.decisionOrder = [(3, 3)] ∧
    issueOn.ageQueues.pendingLaunch 3 = some (0, pendL) ∧ (issueOn.ageQueues.offer 0 pendL).isSome = true ∧ State.reset.active = none ∧
    (startOn.core 0).next = some (.new 0 0 0#48 0 0 0) ∧ startOn.launch? 0 = some pendL ∧ startOn.coreMayStart 0 = true ∧
    (startOn.core 0).planeReady tag0 = true ∧ (loadOn.core 0).shd.st = .loading ∧ loadOn.taggedImage tag0 = some imageOk ∧
    loadOn.virtPoisoned 0 (48 * imageOk.dictCnt / 4096 + 2) (imageOk.va + BitVec.ofNat 64 imageOk.dictOff) (48 * imageOk.dictCnt) = false ∧ (loadOn.readBytes 0 (imageOk.va + BitVec.ofNat 64 imageOk.dictOff) (48 * imageOk.dictCnt)) = some [] ∧
    (on0 tk).endReady 0 tk = false ∧ (on0 doneTask).endReady 0 doneTask = true ∧
    (((on0 doneTask).unprotect 0 doneTask).releaseFor 0 doneTask .dv).heldWrites 0 0#48 = false ∧
    (((on0 doneTask).unprotect 0 doneTask).releaseFor 0 doneTask .dv).earlierFe 0 0#48
      (((on0 doneTask).unprotect 0 doneTask).releaseFor 0 doneTask .dv).feSeq = false ∧
    { doneTask with settled := true }.settled = true ∧ (on0 { doneTask with settled := true }).returnsComing doneTask = false ∧
    { on0 doneTask with toks := [.ret 0 0 4 1 .dv src0 0] }.returnsComing doneTask = true ∧
    ((world tk).setTask 0 doneTask).endReady 0 doneTask = true ∧
    waitDone.endReady 0 doneTask = true ∧ waitDone.task? 0 = some doneTask ∧ doneTask.settled = false ∧
    (let r := (waitDone.unprotect 0 doneTask).releaseFor 0 doneTask .dv
     r.earlierFe 0 0#48 r.feSeq = true ∧ (r.task? 0).map (fun x => x.settled) = some false) := by
  decide +kernel

/-! ## Single steps on small states: the spec's worked examples and hand calculations from its rules -/

/-- As `puts`, with the FSTAT flags the result will set when it lands. -/
def putsFl (i : Instr) (t : Task) (lat : Nat) (v : Vec) (fl : BitVec 7) : Bool :=
  nextHas (exec i (on0 t)) (fun u => match ((u.task? 0).map Task.flight).getD [] with
    | [f] => f.rem == lat && f.val == v && f.fl == fl
    | _ => false)

def withV (l : Tab Vec) : Task := { tk with regs := { tk.regs with v := l } }
def aa (x y : Nat) : Task := withA [(2, BitVec.ofNat 64 x), (3, BitVec.ofNat 64 y)]

/-- Example after R188: `div.i32` of −2^31 by −1, `div.n16` of 5 by 0, their remainders, `sar.n8` of 0x90 by 4. -/
theorem test_div_rem_sar : puts (.div { arB with ty := .i32 }) (aa 0x80000000 0xFFFFFFFF) 20 0xFFFFFFFF80000000 = true ∧
    puts (.rem { arB with ty := .i32 }) (aa 0x80000000 0xFFFFFFFF) 20 0 = true ∧
    puts (.div { arB with ty := .n16 }) (aa 5 0) 20 0xFFFF = true ∧ puts (.rem { arB with ty := .n16 }) (aa 5 0) 20 5 = true ∧
    puts (.sar { arB with ty := .n8 }) (aa 0x90 4) 1 0xF9 = true := by
  decide +kernel

/-- Example after R188: `clamp` of 9 between 10 and 4 gives 4. R187: wrapping sums, the high half of a product, an immediate. -/
theorem test_clamp_add_mulh : puts (.clamp { arB with s3 := 4 }) (withA [(2, 9), (3, 10), (4, 4)]) 1 4 = true ∧
    puts (.add { arB with ty := .n64 }) (aa (2 ^ 64 - 1) 2) 1 1 = true ∧
    puts (.add { arB with s2 := .imm, s3 := 0xFB }) (aa 3 0) 1 0xFFFFFFFFFFFFFFFE = true ∧
    puts (.mulh { arB with ty := .i64 }) (aa (2 ^ 64 - 1) 2) 3 0xFFFFFFFFFFFFFFFF = true ∧
    puts (.mulh { arB with ty := .n64 }) (aa (2 ^ 64 - 1) 2) 3 1 = true := by
  decide +kernel

/-- R190's three steps build 0x123456789ABCDEF0. -/
theorem test_li_lih : puts (.li { aiB with imm := 0xBCDEF0 }) tk 1 0xFFFFFFFFFFBCDEF0 = true ∧
    puts (.lih { aiB with s1 := mn 1, imm := 0x56789A }) (withA [(1, 0xFFFFFFFFFFBCDEF0)]) 1 0x000056789ABCDEF0 = true ∧
    puts (.lihHi { aiB with s1 := mn 1, imm := 0x123456 }) (withA [(1, 0x000056789ABCDEF0)]) 1 0x123456789ABCDEF0 = true := by
  decide +kernel

/-- Example of R156: `vadd.i8` of 100 and 60, and its saturating form. -/
theorem test_vadd_i8 : putsFl (.vadd { vrB with ty := .i8 }) (withV [(2, 100), (3, 60)]) 1 0xA0 0#7 = true ∧
    putsFl (.vadd { vrB with ty := .i8, sat := true }) (withV [(2, 100), (3, 60)]) 1 0x7F flSO = true := by
  decide +kernel

/-- The table of E4M3 conversions under R160, and the example of R171. -/
theorem test_roundings : cvtE .e4m3 .f32 .rne false 0x43960000 = (0x79, flNX) ∧ cvtE .e4m3 .f32 .rne false 0x43E80000 = (0x7E, flNX) ∧
    cvtE .e4m3 .f32 .rne false 0x43EB0000 = (0x7F, flOF ||| flNX) ∧ cvtE .e4m3 .f32 .rne true 0x43EB0000 = (0x7E, flOF ||| flNX ||| flSO) ∧
    cvtE .e4m3 .f32 .rtz false 0x43EB0000 = (0x7E, flNX) ∧ cvtE .e4m3 .f32 .rne false 0x7F800000 = (0x7F, 0#7) ∧
    cvtE .e4m3 .f32 .rne true 0x7F800000 = (0x7E, flSO) ∧ cvtE .f16 .i32 .rne false 70000 = (0x7C00, flOF ||| flNX) ∧
    (cvtE .f16 .i32 .rtz false 70000).1 = 0x7BFF := by
  decide +kernel

/-- Example of R170: conversions to i8 in RTZ of −128.7, −129.2, +inf and a NaN. -/
theorem test_float_to_int : cvtE .i8 .f32 .rtz false 0xC300B333 = (0x80, flNX) ∧ cvtE .i8 .f32 .rtz false 0xC3013333 = (0x80, flNV ||| flNX) ∧
    cvtE .i8 .f32 .rtz false 0x7F800000 = (0x7F, flNV) ∧ cvtE .i8 .f32 .rtz false 0x7FC00000 = (0, flNV) := by
  decide +kernel

/-- Example of R175: the tree of `vred.f32` over 2^24, 1, 1 and −2^24 gives 1.0 and sets NX. -/
theorem test_vred_tree : putsFl (.vred { vrB with s2 := mn 0, ty := .f32 })
    (withV [(2, 0x4B800000 + 0x3F800000 * 2 ^ 32 + 0x3F800000 * 2 ^ 64 + 0xCB800000 * 2 ^ 96)]) 10 0x3F800000 flNX = true := by
  decide +kernel

/-- Example of R213: the butterfly of (1, 2) and (3, 4) with twiddle (0, −1). -/
theorem test_vbfly : ((bflyE .f32 .rne false false 0
      (0x3F800000 + 0x40000000 * 2 ^ 32 + 0x40400000 * 2 ^ 64 + 0x40800000 * 2 ^ 96) (0x0 + 0xBF800000 * 2 ^ 32) 0).1,
    (bflyE .f32 .rne false false 0
      (0x3F800000 + 0x40000000 * 2 ^ 32 + 0x40400000 * 2 ^ 64 + 0x40800000 * 2 ^ 96) (0x0 + 0xBF800000 * 2 ^ 32) 3).1) =
    (0x40A00000, 0x40A00000) := by
  decide +kernel

/-- Example of R210: `vli.bf16 v3, #257` gives 256 in every element and sets NX. -/
theorem test_vli_bf16 : putsFl (.vli { viB with imm := 257, ty := .bf16 }) tk 1 (ofElems 16 (List.replicate 64 0x4380)) flNX = true := by
  decide +kernel

/-- Example of R146: with ALD = 3 the rotation sets ARB to 15, the register that was a50 clears, and a48 reads zero. -/
theorem test_rotation : let r := { Regs.zero with ald := 3, a := [(48, 7), (49, 8), (50, 9)] }.write .rot 0#1024
    r.arb = 15#4 ∧ r.phys .A 49 = 48 ∧ r.readW .A 0#64 (mn 49) = 7#64 ∧ r.readW .A 0#64 (mn 50) = 8#64 ∧
    r.readW .A 0#64 (mn 48) = 0#64 ∧ r.a.find 50 = none := by
  decide +kernel

/-- Example of R226: the heap, and its lines' home. -/
theorem test_heap : (match ((on0 tk).setCtx 0 { CtxS.reset with hb := 0x0000010000000000, hl := 0x0000001000000005, ho := 0x000FFF2000000000 }).translate
      0 0x0000010003456780 with
    | .ok l => l.pa == 0x0000002003456780 && l.home == 22 && l.lclass == 1
    | .error _ => false) = true := by
  decide +kernel

/-- Example of R102: the rank-2 task of team 0 on core-in-stack 10 of stack 5, and a component equal to its extent. -/
theorem test_locq : let l : Launch := { slotLaunch with ext := (2, 6, 1), img := { slotImage with loops := [⟨0, 2, 0, 2⟩, ⟨1, 1, 1, 6⟩] } }
    let s := (placed.setLaunch 0 l).setTask 90 { tk with coord := 0x20000, rank := 2 }
    s.locate 0 0x20000 = 0x0000000000251680 ∧ s.locate 0 0x60000 = 0x6000000000000000 := by
  decide +kernel

/-- R255, R232: a word stored to the scratchpad is what it then holds. -/
theorem test_store_scratchpad : nextHas (exec (.st { msB with s1 := mn 2, off := 0 }) (world (withX [(1, 0x1122334455667788), (2, 0x80000008)])))
    (fun u => ((u.task? 0).map (fun t => leNat (t.scrBytes 8 8))).getD 0 == 0x1122334455667788) = true := by
  decide +kernel

/-- R430: `svc` with code 7 suspends the task with a record of kind 1 whose INFO is 7. -/
theorem test_svc : evTask.event.map (fun e => (e.kind, e.info)) = some (1, 7#64) ∧ evTask.suspend = true := by decide +kernel

/-- One step fetches, issues and lands `li a1, #-2` (R108, R137). -/
theorem test_step_li : nextHas (step (State.reset.withFetchWord 384 (0x2E00020001FFFFFC * 2 ^ 64)))
    (fun u => ((u.task? 0).map (fun t => t.regs.readW .A 0#64 (mn 1))).getD 0 == 0xFFFFFFFFFFFFFFFE) = true := by
  decide +kernel

/-- One step of a bundle whose A syllable is reserved ends the task in a fatal error (R123, R427). -/
theorem test_step_reserved : nextHas (step (State.reset.withFetchWord 384 (0xFE * 2 ^ 120))) (fun u => u.fatals.length == 1) = true := by
  decide +kernel

/-! ## The worked example of R483, and a flit sent -/

/-- The readings of CPSSTAT in R493 step 9 and the example of R483: GO with TGT 2 in CLOCK-GATED, the logic saved, CWAKE, the end of
the entry, the logic restored, the end of the wake once its relock is over. -/
def wakeStates : List State :=
  let s0 := withCluster (fun x => { x with pst := 1 })
  let s1 := s0.powerCommand 0 2#3
  let s2 := s1.logicRestored 0
  let s3 := s2.clusterWake 0
  let s4 := s3.transitionDone 0
  let s5 := s4.logicRestored 0
  let s6 := s5.wakeRelock 0
  [s1, s2, s3, s4, s5, (s6.after (execRelockDone 0 0 s6)).transitionDone 0]

theorem test_wake_readings : wakeStates.map (fun s => s.handRead 0 0x10) =
    [0x8000000000000001, 0xA000000000000001, 0xB000000000000001, 0xA000000000000002, 0x8000000000000002, 0] := by decide +kernel

/-- R25 to R28: the first flit sent on a hop has SEQ 0, its VC, VALID and CRC, is kept for replay, and takes one buffer of its channel;
the other end delivers it once, and a bit error makes it drop the flit. -/
theorem test_flit_send : sentLink.next = 1 ∧ sentLink.unacked.map (fun f => (flitSeq f, flitVc f, flitPay f)) = [(0, 2, .slots [5#480])] ∧
    sentLink.used.get 0 2 = 1 ∧ (let x := sentLink.unacked.foldl (fun (s : State) f => (s.flitReceive (.ring 3 1 true) f).flitReceive (.ring 3 1 true) f) sentOn
      (x.links.get LinkS.reset (hopKey (.ring 3 1 true))).delivered.length = 1) ∧
    sentLink.unacked.map (fun f => flitGood (f ^^^ 1#2048)) = [false] := by
  decide +kernel

end Sys2Proof.Tests
end

section
/-! PROOF. No instruction, no event and no step ends the machine (R11, R114, R135, R427, R430). -/

namespace Sys2Proof.Machine

/-! ## Events that go by conditions -/

theorem execFenceComplete_next (core : CoreId) (s : State) : ∃ u, execFenceComplete core s = .next u := by
  unfold execFenceComplete
  split
  · exact ⟨_, rfl⟩
  · split
    · split <;> exact ⟨_, rfl⟩
    · exact ⟨_, rfl⟩

theorem execCopyAccept_next (n : Nat) (s : State) : ∃ u, execCopyAccept n s = .next u := by
  unfold execCopyAccept
  split
  · exact ⟨_, rfl⟩
  · dsimp only
    split
    · exact ⟨_, rfl⟩
    · split <;> exact ⟨_, rfl⟩

theorem execCopyStart_next (st : StackId) (eng : Fin 2) (n : Nat) (s : State) : ∃ u, execCopyStart st eng n s = .next u := by
  unfold execCopyStart
  dsimp only
  split
  · exact ⟨_, rfl⟩
  · split
    · split
      · exact ⟨_, rfl⟩
      · split
        · exact ⟨_, rfl⟩
        · split <;> exact ⟨_, rfl⟩
    · split
      · split <;> exact ⟨_, rfl⟩
      · exact ⟨_, rfl⟩

theorem execFollowOnCommit_next (st : StackId) (n : Nat) (s : State) : ∃ u, execFollowOnCommit st n s = .next u := by
  unfold execFollowOnCommit
  dsimp only
  split
  · exact ⟨_, rfl⟩
  · split
    · exact ⟨_, rfl⟩
    · split
      · exact ⟨_, rfl⟩
      · split
        · split
          · split <;> exact ⟨_, rfl⟩
          · exact ⟨_, rfl⟩
        · exact ⟨_, rfl⟩

theorem execCopyComplete_next (st : StackId) (n : Nat) (s : State) : ∃ u, execCopyComplete st n s = .next u := by
  unfold execCopyComplete
  dsimp only
  split
  · exact ⟨_, rfl⟩
  · split <;> exact ⟨_, rfl⟩

theorem execArrayStep_next (arr : ArrayId) (s : State) : ∃ u, execArrayStep arr s = .next u := by
  unfold execArrayStep
  dsimp only
  split
  · exact ⟨_, rfl⟩
  · split
    · exact ⟨_, rfl⟩
    · split <;> exact ⟨_, rfl⟩

theorem execArrayCommandEnd_next (arr : ArrayId) (s : State) : ∃ u, execArrayCommandEnd arr s = .next u := by
  unfold execArrayCommandEnd
  dsimp only
  split
  · exact ⟨_, rfl⟩
  · split <;> exact ⟨_, rfl⟩

theorem execTokenRecordClear_next (st : StackId) (e : Fin 16384) (s : State) : ∃ u, execTokenRecordClear st e s = .next u := by
  unfold execTokenRecordClear
  split <;> exact ⟨_, rfl⟩

theorem execNakRetry_next (n : Nat) (s : State) : ∃ u, execNakRetry n s = .next u := by
  unfold execNakRetry
  split
  · split
    · exact ⟨_, rfl⟩
    · split <;> exact ⟨_, rfl⟩
  · exact ⟨_, rfl⟩

theorem execDroopAlarm_next (cl : ClusterId) (s : State) : ∃ u, execDroopAlarm cl s = .next u := by
  unfold execDroopAlarm
  dsimp only
  split <;> exact ⟨_, rfl⟩

theorem execStretchEnd_next (cl : ClusterId) (s : State) : ∃ u, execStretchEnd cl s = .next u := by
  unfold execStretchEnd
  dsimp only
  split <;> exact ⟨_, rfl⟩

theorem execHalfIssueWindowEnd_next (cl : ClusterId) (s : State) : ∃ u, execHalfIssueWindowEnd cl s = .next u := by
  unfold execHalfIssueWindowEnd
  dsimp only
  split <;> exact ⟨_, rfl⟩

theorem execCurrentTrip_next (cl : ClusterId) (s : State) : ∃ u, execCurrentTrip cl s = .next u := by
  unfold execCurrentTrip
  split <;> exact ⟨_, rfl⟩

theorem execRelockDone_next (cl : ClusterId) (stopped : Nat) (s : State) : ∃ u, execRelockDone cl stopped s = .next u := by
  unfold execRelockDone
  dsimp only
  split <;> exact ⟨_, rfl⟩

theorem execWatchdogExpire_next (s : State) : ∃ u, execWatchdogExpire s = .next u := by
  unfold execWatchdogExpire
  split <;> exact ⟨_, rfl⟩

theorem execArrivalAcknowledgement_next (n : Nat) (outside : Bool) (s : State) :
    ∃ u, execArrivalAcknowledgement n outside s = .next u := by
  unfold execArrivalAcknowledgement
  split <;> exact ⟨_, rfl⟩

/-! ## Every meaning -/

/-- The meanings have four shapes: a syllable issues on its own task, or on the state (one of an array by the check of R313
first); an event changes the state at once, or goes by its conditions, each way of which the lemmas above follow. -/
theorem exec_next (i : Instr) (s : State) : ∃ u, exec i s = .next u :=
  match i with
  | .xcp .. | .br .. | .brx .. | .call .. | .callx .. | .ret .. | .loop .. | .loopRot .. | .lpend .. | .lpbrk .. | .endTask .. |
    .tstamp .. | .rdcyc .. | .cli .. | .cmov .. | .cadd .. | .csub .. | .cand .. | .cor .. | .cxor .. | .ccmp .. | .pand .. |
    .por .. | .pxor .. | .pmov .. | .pset .. | .setld .. | .add .. | .sub .. | .mul .. | .mulh .. | .div .. | .rem .. | .and .. |
    .or .. | .xor .. | .andn .. | .shl .. | .shr .. | .sar .. | .rot .. | .min .. | .max .. | .abs .. | .neg .. | .cmp .. |
    .sel .. | .mov .. | .li .. | .lih .. | .lihHi .. | .bfx .. | .bfi .. | .clz .. | .ctz .. | .pcnt .. | .brev .. | .bswap .. |
    .lea .. | .sadd .. | .ssub .. | .madd .. | .ext .. | .clamp .. | .tst .. | .addc .. | .subb .. | .hmix .. | .align .. |
    .crc .. | .bset .. | .bclr .. | .bflip .. | .pack .. | .crd .. | .rank .. | .rankSz .. | .cbase .. | .argb .. | .locq .. |
    .locqSelf .. | .ctxid .. | .ctxidLid .. | .rdld .. | .rdrb .. | .vadd .. | .vsub .. | .vmul .. | .vfma .. | .vfms .. |
    .vfnma .. | .vmin .. | .vmax .. | .vabs .. | .vneg .. | .vfrcp .. | .vfsqrt .. | .vdiv .. | .vscl .. | .vcmp .. | .vsel .. |
    .vany .. | .vall .. | .kand .. | .kor .. | .kxor .. | .kmov .. | .vand .. | .vor .. | .vxor .. | .vandn .. | .vshl .. |
    .vshr .. | .vsar .. | .vmov .. | .vperm .. | .vshuf .. | .vrotl .. | .vbrev .. | .vzip .. | .vuzp .. | .vlane .. | .vli .. |
    .vcmul .. | .vbfly .. | .vconj .. | .vmulh .. | .vsadd .. | .vssub .. | .vdot .. | .vpcnt .. | .vcvt .. | .vqnt .. |
    .vdqnt .. | .vamax .. | .vred .. | .vcnt .. | .vpack4 .. | .vunpk4 .. | .vclz .. | .vrnd .. | .vclass .. | .vmadd .. |
    .vext .. | .vclamp .. | .vinsl .. | .kpop .. | .vsort2 .. | .vmaxi .. | .vmini .. | .vbcst .. | .vsgn .. | .vmerge .. |
    .vtrn .. | .vrev .. | .fence .. | .cbqry .. | .mmov .. | .xadd .. | .xli .. | .xmov .. | .cpyq .. | .phq .. | .yli .. |
    .ymov .. | .yadd .. =>
    State.issue_next ..
  | .svc .. | .brk .. | .sysr .. | .sysw .. | .ld .. | .st .. | .ldv .. | .stv .. | .ldpi .. | .stpi .. | .ldf .. | .lde .. |
    .ste .. | .stf .. | .clre .. | .gth .. | .sct .. | .ldb .. | .probe .. | .pref .. | .disc .. | .cbdef .. | .cbget .. |
    .cbput .. | .ldvs .. | .stvs .. | .ldvm .. | .stvm .. | .cpy .. | .cpymx .. | .cpyMig .. | .cpyx .. | .phase .. | .tklend .. |
    .tkret .. | .tksplit .. | .tkjoin .. | .tkshr .. | .tkunsh .. | .tkrcl .. | .tkwait .. | .tkwaitSh .. | .tkqry .. |
    .arrive .. | .arriveRel .. | .waitph .. | .trig .. | .grow .. | .rmin .. | .rmax .. | .rsum .. | .redf .. | .amor .. |
    .cas .. | .amoAdd .. | .amoMin .. | .amoMax .. | .amoAnd .. | .amoOr .. | .amoXor .. | .phdef .. | .mxfmt .. | .mxlen .. |
    .mxseed .. | .mxthr .. | .mxset .. | .mxgo .. | .mxgos .. | .mxgoa .. | .mxdrain .. | .mxrd .. | .mxclr .. | .mxsel .. |
    .mxst .. | .mxmute .. | .mxstop .. =>
    State.issueS_next ..
  | .nop .. | .fetch .. | .taskRelease .. | .feAccessArrival .. | .arrayStart .. | .phaseWindowOpen .. | .phaseWindowEnd .. |
    .tokenMessageArrival .. | .phaseArrival .. | .roundReceive .. | .amoApply .. | .triggerCount .. | .growApply .. |
    .resultLand .. | .lateLoadArrival .. | .interlockedArrival .. | .writeAtHome .. | .spillProceed .. | .poolPush .. |
    .resvWrite .. | .tlbinv .. | .semAcquire .. | .semRelease .. | .dispatcherTakeover | .queueEnable .. | .queueDisable .. |
    .queueConfigure .. | .issueDecision | .taskStart .. | .contextEnd .. | .fatalContextError .. | .eltailWrite .. |
    .faultPop .. | .freplyServiced .. | .freplyRefused .. | .freplyEndContext .. | .preemptSuspend .. |
    .preemptSwapOutRelease .. | .preemptResume .. | .taskSuspend .. | .teamResume .. | .saveAreaCheck .. | .softError .. |
    .selfTestDone .. | .poisonConsumed .. | .teamReplay .. | .stackResetQuiesce .. | .stackResetNoQuiesce .. |
    .stackResetDone .. | .debugHaltRequest .. | .debugHalt .. | .debugResume .. | .debugDataWrite .. | .thermalTrip .. |
    .tripClear .. | .clockSet .. | .vsetWrite .. | .watchdogKick .. | .registerWrite .. | .contextConfigure .. |
    .clusterQuiesceRequest .. | .clusterPowerCommand .. | .clusterWake .. | .clusterTransitionDone .. | .pfSelect .. |
    .attestRequest .. | .attestDone .. | .linkEnable .. | .linkUp .. | .routeWrite .. | .moduleUnreachable .. |
    .remoteGrantReceive .. | .remoteArrival .. | .flitReceive .. | .campionReset .. | .moduleReset | .bringUpStage .. |
    .carveoutPeriod .. | .carveoutMoveDone .. | .semLeaseExpire .. | .queuePush .. | .launchRecordRead .. | .imageValidate .. |
    .dependenceMet .. | .launchAdmit .. | .planeLoadDone .. | .deadlockWalk | .flitReplay .. | .tlbDropComplete .. =>
    ⟨_, rfl⟩
  | .fenceComplete core => execFenceComplete_next core s
  | .copyAccept n => execCopyAccept_next n s
  | .copyStart st eng n => execCopyStart_next st eng n s
  | .copyComplete st n => execCopyComplete_next st n s
  | .followOnCommit st n => execFollowOnCommit_next st n s
  | .arrayStep arr => execArrayStep_next arr s
  | .arrayCommandEnd arr => execArrayCommandEnd_next arr s
  | .tokenRecordClear st e => execTokenRecordClear_next st e s
  | .nakRetry n => execNakRetry_next n s
  | .droopAlarm cl => execDroopAlarm_next cl s
  | .stretchEnd cl => execStretchEnd_next cl s
  | .halfIssueWindowEnd cl => execHalfIssueWindowEnd_next cl s
  | .currentTrip cl => execCurrentTrip_next cl s
  | .relockDone cl stopped => execRelockDone_next cl stopped s
  | .watchdogExpire => execWatchdogExpire_next s
  | .arrivalAcknowledgement n outside => execArrivalAcknowledgement_next n outside s

/-! ## The agenda and the step -/

/-- A move is a change of the state, an instruction executed or a poison consumed: none stops the machine. -/
theorem State.move_next (s : State) (m : Move) : ∃ u, s.move m = .next u := by
  cases m with
  | event i =>
    simp only [State.move]
    split
    · exact ⟨_, rfl⟩
    · exact exec_next i s
  | _ => exact ⟨_, rfl⟩

theorem State.turn_next (s : State) : ∃ u, s.turn = .next u := by
  unfold State.turn
  split
  · exact ⟨_, rfl⟩
  · split
    · exact State.move_next ..
    · exact ⟨_, rfl⟩

/-- What follows a move keeps a next state a next state. -/
theorem step_goesOn (s : State) : GoesOn s := by
  obtain ⟨u, hu⟩ := s.turn_next
  exact ⟨u.upkeep, by rw [step, State.advance, hu, entered]⟩

/-- Settles O4: no meaning of an instruction, no move of the agenda and no turn answers a fault or a refusal. -/
theorem theMachineGoesOn : Obligations.TheMachineGoesOn :=
  ⟨exec_next, step_goesOn⟩

end Sys2Proof.Machine
end

section
/-! PROOF. Registers of the module, contexts, attestation, links, other modules and bring-up (R4, R26, R60, R471 to R489). -/

namespace Sys2Proof.Machine

open Host.Outcome (next)

/-! ## Register writes by a master (R4, R60, R471, R484) -/

theorem State.registerWrite_age (s : State) (m : Master) (v : Word) :
    s.registerWrite m .queueBlock 0x100 v = { s with age := v.extractLsb' 0 32 } := rfl

/-- MODID is taken while every port is disabled. -/
theorem State.registerWrite_modid (s : State) (m : Master) (v : Word) (h : ∀ p ∈ s.ports, p.2.en = false) :
    s.registerWrite m .moduleBlock 0 v = { s with modid := v.extractLsb' 0 12 } := by
  have hn : s.ports.any (fun p => p.2.en) = false := by simpa using h
  change (if s.ports.any (fun p => p.2.en) then s else { s with modid := v.setWidth 12 }) = _
  rw [hn]
  rfl

theorem State.named?_iff (s : State) (m : Master) : s.named? m = true ↔ (m = .B) = (s.pfsel = true) := by
  cases m <;> cases h : s.pfsel <;> simp [State.named?, h]

theorem State.registerWrite_stack_of_not_named (s : State) (m : Master) (st : StackId) (o : Nat) (v : Word)
    (h : (m = .B) ≠ (s.pfsel = true)) : s.registerWrite m (.stackWindow st) o v = s := by
  have hn : s.named? m = false := by rw [← Bool.not_eq_true, State.named?_iff]; exact h
  simp [State.registerWrite, hn]

theorem State.registerWrite_frval (s : State) (m : Master) (st : StackId) (v : Word) (h : (m = .B) = (s.pfsel = true)) :
    s.registerWrite m (.stackWindow st) 0x4050 v = s.setStack st { s.stack st with frval := v } := by
  simp [State.registerWrite, s.named?_iff m |>.mpr h, State.window8]

/-! ## Contexts (R473, R474) -/

theorem State.contextConfigure_of_launched (s : State) (ctx : CtxId) (v : Word) (h : s.ctxLaunched ctx = true) :
    s.contextConfigure ctx v = s := by
  simp [State.contextConfigure, h]

/-- The configuration of a context as it takes it: VALID and PRIV, and its counters and SBCHK at their reset values where it is
created. -/
def CtxS.configured (x : CtxS) (v : Word) : CtxS :=
  { (if v.getLsbD 63 && !x.valid then { x with ctr := [], sbchk := false } else x) with
    valid := v.getLsbD 63, priv := v.getLsbD 62 }

theorem State.contextConfigure_of_free (s : State) (ctx : CtxId) (v : Word) (h : s.ctxLaunched ctx = false)
    (hc : s.ctxCores ctx = []) : s.contextConfigure ctx v = s.setCtx ctx ((s.ctx ctx).configured v) := by
  simp [State.contextConfigure, h, hc, CtxS.configured]

theorem CtxS.configured_frame (x : CtxS) (v : Word) :
    x.configured v = { x with valid := v.getLsbD 63, priv := v.getLsbD 62, ctr := (x.configured v).ctr,
                              sbchk := (x.configured v).sbchk } := by
  unfold CtxS.configured
  split <;> rfl

theorem CtxS.configured_of_valid (x : CtxS) (v : Word) (h : x.valid = true) :
    (x.configured v).ctr = x.ctr ∧ (x.configured v).sbchk = x.sbchk := by
  simp [CtxS.configured, h]

theorem CtxS.configured_of_created (x : CtxS) (v : Word) (h : x.valid = false) (hv : v.getLsbD 63 = true) :
    (x.configured v).ctr = [] ∧ (x.configured v).sbchk = false := by
  simp [CtxS.configured, h, hv]

/-! ## Attestation (R487) -/

theorem State.attestRequest_of_busy (s : State) (v : Word) (h : s.attBusy = true) : s.attestRequest v = s := by
  simp [State.attestRequest, h]

theorem setWidth_shiftRight_eq_extract (v : Word) (n k : Nat) : (v >>> n).setWidth k = v.extractLsb' n k := by
  ext i hi
  simp [BitVec.getElem_setWidth]

theorem State.attestRequest_of_idle (s : State) (v : Word) (h : s.attBusy = false) :
    s.attestRequest v = { s with attBusy := true, attDone := false, attErr := false, attFrame := v.extractLsb' 12 40 } := by
  simp [State.attestRequest, h, setWidth_shiftRight_eq_extract]

theorem State.attestDone_of_idle (s : State) (e : Bool) (h : s.attBusy = false) : s.attestDone e = s := by
  simp [State.attestDone, h]

theorem State.attestDone_of_error (s : State) (h : s.attBusy = true) :
    s.attestDone true = { s with attBusy := false, attDone := true, attErr := true } := by
  simp [State.attestDone, h]

/-- A report under way ends, whether it stands in its frame or has failed. -/
theorem State.attestDone_ends (s : State) (e : Bool) (h : s.attBusy = true) :
    (s.attestDone e).attBusy = false ∧ (s.attestDone e).attDone = true := by
  simp only [State.attestDone, h, Bool.not_true, Bool.false_eq_true, if_false]
  split <;> exact ⟨rfl, rfl⟩

/-! ## What reaching other modules rests on (R476, R477) -/

/-- Memory, the ports and the routes of a state. -/
def State.routing (s : State) : List Host.Cell × Tab PortS × Tab (BitVec 5) := (s.mem, s.ports, s.rtab)

theorem State.foldl_keeps {α β : Type} (p : State → β) (l : List α) (f : State → α → State)
    (hf : ∀ s x, p (f s x) = p s) (s : State) : p (l.foldl f s) = p s := by
  induction l generalizing s with
  | nil => rfl
  | cons x l ih => rw [List.foldl_cons, ih, hf]

theorem State.loseWhere_routing (s : State) (p : TokRec → Bool) : (s.loseWhere p).routing = s.routing := by
  unfold State.loseWhere
  refine State.foldl_keeps State.routing _ _ ?_ s
  exact fun _ _ => rfl

/-- What a lost module ends of tokens, arrivals, loads and copies leaves memory, ports and routes alone. -/
theorem State.unreachable_routing (s : State) (m : ModuleId) : (s.unreachable m).routing = s.routing := by
  unfold State.unreachable
  refine (State.foldl_keeps State.routing _ _ ?copies _).trans ((State.foldl_keeps State.routing _ _ ?loads _).trans
    ((State.foldl_keeps State.routing _ _ ?arrivals _).trans (State.loseWhere_routing s _)))
  case arrivals => exact fun _ _ => rfl
  case loads => exact fun _ _ => rfl
  case copies =>
    intro s e
    refine State.foldl_keeps State.routing _ _ (fun s n => ?_) s
    dsimp only
    split
    · split <;> rfl
    · rfl

theorem State.lostModules_routing (s b : State) : (s.lostModules b).routing = s.routing :=
  State.foldl_keeps State.routing _ _ State.unreachable_routing s

theorem State.rewriteCap_ports_rtab (s : State) (id : Nat) :
    (s.rewriteCap id).ports = s.ports ∧ (s.rewriteCap id).rtab = s.rtab := by
  unfold State.rewriteCap
  split
  · exact ⟨rfl, rfl⟩
  · split <;> exact ⟨rfl, rfl⟩

/-- Before bring-up has made the capability list there is none to rewrite. -/
theorem State.rewriteCap_of_stage (s : State) (id : Nat) (h : s.stage < 4) : s.rewriteCap id = s := by
  simp [State.rewriteCap, h]

theorem State.setPort_routing (s : State) (p : Nat) (x : PortS) :
    (s.setPort p x).routing = ({ s with ports := s.ports.set p x }.rewriteCap 5).routing :=
  State.lostModules_routing _ s

@[simp] theorem State.setPort_ports (s : State) (p : Nat) (x : PortS) : (s.setPort p x).ports = s.ports.set p x :=
  (congrArg (·.2.1) (s.setPort_routing p x)).trans (State.rewriteCap_ports_rtab _ 5).1

@[simp] theorem State.setPort_rtab (s : State) (p : Nat) (x : PortS) : (s.setPort p x).rtab = s.rtab :=
  (congrArg (·.2.2) (s.setPort_routing p x)).trans (State.rewriteCap_ports_rtab _ 5).2

theorem State.setPort_mem (s : State) (p : Nat) (x : PortS) (h : s.stage < 4) : (s.setPort p x).mem = s.mem :=
  (congrArg (·.1) (s.setPort_routing p x)).trans
    (congrArg State.mem (State.rewriteCap_of_stage { s with ports := s.ports.set p x } 5 h))

@[simp] theorem State.setPort_port (s : State) (p : Nat) (x : PortS) : (s.setPort p x).port p = x := by
  simp [State.port]

theorem State.linkEnable_port (s : State) (p : PortId) (en : Bool) :
    (s.linkEnable p en).port p.val = { s.port p.val with en := en, up := (s.port p.val).up && en } :=
  State.setPort_port ..

theorem State.linkEnable_mem (s : State) (p : PortId) (en : Bool) (h : s.stage < 4) : (s.linkEnable p en).mem = s.mem :=
  State.setPort_mem _ _ _ h

theorem execLinkUp_of_enabled (s : State) (p : PortId) (m : ModuleId) (h : (s.port p.val).en = true) :
    execLinkUp p m s = .next (s.setPort p.val { s.port p.val with up := true, peer := BitVec.ofNat 12 m.val }) :=
  congrArg _ (if_pos h)

theorem State.routeWrite_mem (s : State) (m : ModuleId) (v : Word) : (s.routeWrite m v).mem = s.mem :=
  congrArg (·.1) (State.lostModules_routing _ s)

theorem State.routeWrite_rtab (s : State) (m : ModuleId) (v : Word) :
    (s.routeWrite m v).rtab = s.rtab.set m.val (v.extractLsb' 0 5) :=
  congrArg (·.2.2) (State.lostModules_routing _ s)

theorem State.moduleUnreachable_mem (s : State) (m : ModuleId) (h : s.stage < 4) : (s.moduleUnreachable m).mem = s.mem := by
  unfold State.moduleUnreachable
  split
  · exact State.setPort_mem _ _ _ h
  · exact congrArg (·.1) (s.unreachable_routing m)

/-- A module is reached over the port of its route, so it is lost with that port; one that was not reached stays so. -/
theorem State.moduleUnreachable_reaches (s : State) (m : ModuleId) : (s.moduleUnreachable m).reaches m = false := by
  unfold State.moduleUnreachable
  split
  · simp [State.reaches]
  · rename_i h
    have hp : (s.unreachable m).ports = s.ports := congrArg (·.2.1) (s.unreachable_routing m)
    have hr : (s.unreachable m).rtab = s.rtab := congrArg (·.2.2) (s.unreachable_routing m)
    simpa [State.reaches, hp, hr] using h

/-! ## Grants and arrivals of other modules (R478, R479) -/

theorem State.grantReceive_of_room (s : State) (g : GrantMsg) (hg : g.lender.val ≠ s.modid.toNat) (h : s.grantsOf none < 1024) :
    s.grantReceive g = s.addGrant g none := by
  simp [State.grantReceive, hg, State.grantRoom, h]

/-- A grant that meets its first NAK has no reserved record yet. -/
theorem State.grantReceive_of_full (s : State) (g : GrantMsg) (hg : g.lender.val ≠ s.modid.toNat)
    (h : 1024 ≤ s.grantsOf none) : s.grantReceive g = { s with grantQ := s.grantQ ++ [(g, 1)] } := by
  simp [State.grantReceive, hg, State.grantRoom, Nat.not_lt.mpr h]

theorem State.remoteArrival_of_no_launch (s : State) (r : RemoteArr) (h : s.launchOf r.ctx r.lid = none) :
    s.remoteArrival r = { s with inbox := s.inbox ++ [r] } := by
  simp [State.remoteArrival, h]

theorem State.remoteArrival_of_outside (s : State) (r : RemoteArr) (n : Nat) (l : Launch)
    (h : s.launchOf r.ctx r.lid = some (n, l)) (hg : inGrid l.ext r.coord = false) :
    s.remoteArrival r = s.acknowledge r true := by
  simp [State.remoteArrival, h, hg]

theorem State.remoteArrival_of_counted (s u : State) (r : RemoteArr) (n : Nat) (l : Launch) (st : StackId) (m : Nat) (tm : Team)
    (h : s.launchOf r.ctx r.lid = some (n, l)) (hg : inGrid l.ext r.coord = true)
    (ht : s.findTeam n r.coord = some (st, m, tm))
    (hc : (s.unprotectTeam st m).countArrival st m r.phase.val .sy none 0 = some u) :
    s.remoteArrival r = u.acknowledge r false := by
  simp [State.remoteArrival, h, hg, ht, hc]

theorem State.acknowledge_outbox (s : State) (r : RemoteArr) (b : Bool) :
    (s.acknowledge r b).outbox = s.outbox ++ (if s.reaches r.sender
      then [⟨Fin.ofNat 16 ((s.rtab.get 0#5 r.sender.val).toNat % 16), .ack r.sender r.ctx r.lid r.coord b⟩] else []) := by
  unfold State.acknowledge
  split
  · rfl
  · exact (List.append_nil _).symm

/-! ## Flits (R26 to R28) -/

theorem State.flitReceive_of_bad (s : State) (h : Hop) (f : BitVec 2048) (hf : flitGood f = false ∨ s.hopRuns h = false) :
    s.flitReceive h f = s := by
  unfold State.flitReceive
  rcases hf with hf | hf <;> simp [hf]

/-- A receiver after a good flit: one in order is delivered, any other is not. -/
def LinkS.received (x : LinkS) (f : BitVec 2048) : LinkS :=
  if flitSeq f = x.expect then { x with delivered := x.delivered ++ [f], expect := (x.expect + 1) % 4096 } else x

theorem State.flitReceive_of_good (s : State) (h : Hop) (f : BitVec 2048) (hf : flitGood f = true) (hr : s.hopRuns h = true)
    (hb : hopKey h ≠ hopBack h) :
    s.flitReceive h f = { s with links := (s.flitReceive h f).links } ∧
    (s.flitReceive h f).links.get LinkS.reset (hopKey h) = (s.links.get LinkS.reset (hopKey h)).received f := by
  simp only [State.flitReceive, LinkS.received, hf, hr, Bool.not_true, Bool.or_self, Bool.false_eq_true, if_false]
  split
  · exact ⟨rfl, Tab.get_set_same ..⟩
  · exact ⟨rfl, by rw [Tab.get_set, if_neg hb]⟩

/-! ## Bring-up and the capability list (R488, R489) -/

theorem Memory.bytes_take (m : List Host.Cell) (a : Nat) {k n : Nat} (h : k ≤ n) :
    (Memory.bytes m a n).take k = Memory.bytes m a k := by
  induction n generalizing a k with
  | zero => simp [Nat.le_zero.mp h, Memory.bytes]
  | succ n ih =>
    cases k with
    | zero => rfl
    | succ k => simp [Memory.bytes, ih (a + 1) (Nat.le_of_succ_le_succ h)]

/-- The first of several numbers written upward is read back where they begin. -/
theorem Memory.num_putAll_head (m : List Host.Cell) (a n v : Nat) (l : List Byte) (hm : Memory.wf m = true) :
    Memory.num (Memory.putAll m a ((natBytes n v ++ l).map some)) a n = v % 256 ^ n := by
  have hb := Memory.bytes_putAll_same (natBytes n v ++ l) m a hm
  have ht := congrArg (List.take n) hb
  rw [Memory.bytes_take _ _ (by simp [natBytes_length]), List.take_left' (natBytes_length n v)] at ht
  rw [Memory.num, ht, leNat_natBytes]

/-- The list begins with the header of entry 0x01: version 1, one word, and the next header at byte 16. -/
theorem State.capWords_head (s : State) : ∃ l, capWords 0 s.capPayloads = 0x0101000100000010 :: l :=
  ⟨_, rfl⟩

theorem State.putCapWords_word (s : State) (a w : Nat) (l : List Nat) (h : MemOk s) :
    Memory.word (s.putCapWords a (w :: l)).mem a = BitVec.ofNat 64 w := by
  have hn : Memory.num (s.putCapWords a (w :: l)).mem a 8 = w % 256 ^ 8 := Memory.num_putAll_head s.mem a 8 w _ h
  rw [Memory.word, hn]
  exact BitVec.eq_of_toNat_eq (by simp)

/-- CAPBASE names the place of the list, which lies in the 2^40 bytes of LPDDR. -/
theorem State.buildCaps_first (s : State) (h : MemOk s) :
    Memory.word s.buildCaps.mem s.buildCaps.capbase.toNat = 0x0101000100000010#64 := by
  obtain ⟨l, hl⟩ := State.capWords_head s
  have hb : s.buildCaps.capbase.toNat = Config.capPlace s.free % (2 ^ 37 - 64) * 8 := by
    refine Nat.mod_eq_of_lt ?_
    have := Nat.mod_lt (Config.capPlace s.free) (show 0 < 2 ^ 37 - 64 by decide)
    omega
  rw [hb]
  unfold State.buildCaps
  rw [hl]
  exact State.putCapWords_word _ _ _ _ h

/-- What a stage of bring-up that ends leaves, stage by stage. -/
theorem State.bringUp_stages (s : State) (b : Bool) (hs : s.bfail = false) :
    (s.stage = 0 → (s.bringUp b).stage = 1 ∧ (s.bringUp b).rom.isNone = b) ∧
    (s.stage = 1 → (s.bringUp b).stage = (if b then 2 else 1) ∧ (s.bringUp b).bfail = !b) ∧
    (s.stage = 2 → (s.bringUp b).stage = (if b then 3 else 2)) ∧
    (s.stage = 3 → s.bringUp b = ({ s with stage := 4 } : State).buildCaps) ∧
    (4 ≤ s.stage → s.bringUp b = s) := by
  refine ⟨fun h => ?_, fun h => ?_, fun h => ?_, fun h => ?_, fun h => ?_⟩
  · cases b <;> simp [State.bringUp, hs, h]
  · cases b <;> simp [State.bringUp, hs, h]
  · cases b <;> simp [State.bringUp, hs, h]
  · simp [State.bringUp, hs, h]
  · obtain ⟨n, hn⟩ := Nat.exists_eq_add_of_le' h
    simp [State.bringUp, hs, hn]

/-! ## The statement -/

/-- Settles O21, clause by clause from the lemmas above. -/
theorem moduleRegistersLinksAndBringUp : Obligations.ModuleRegistersLinksAndBringUp := by
  refine ⟨?registers, fun _ _ => rfl, ?contexts, ?attestation, ?links, ?grants, ?waiting, ?counted, ?acknowledged, ?flits,
    fun _ => rfl, ?bringUp⟩
  case registers =>
    exact fun s m v => ⟨congrArg next (s.registerWrite_age m v), fun h => congrArg next (s.registerWrite_modid m v h),
      fun st o h => congrArg next (s.registerWrite_stack_of_not_named m st o v h),
      fun st h => congrArg next (s.registerWrite_frval m st v h)⟩
  case contexts =>
    exact fun s ctx v => ⟨fun h => congrArg next (s.contextConfigure_of_launched ctx v h), fun h hc =>
      ⟨(s.ctx ctx).configured v, congrArg next (s.contextConfigure_of_free ctx v h hc), CtxS.configured_frame _ v,
        CtxS.configured_of_valid _ v, CtxS.configured_of_created _ v⟩⟩
  case attestation =>
    refine fun s v e => ⟨fun h => congrArg next (s.attestRequest_of_busy v h), fun h =>
      ⟨congrArg next (s.attestRequest_of_idle v h), congrArg next (s.attestDone_of_idle e h)⟩, fun h => ?_⟩
    obtain ⟨hbusy, hdone⟩ := s.attestDone_ends e h
    exact ⟨_, rfl, hbusy, hdone, fun he => by rw [he, s.attestDone_of_error h]⟩
  case links =>
    refine fun s p m v => ⟨⟨_, rfl, s.linkEnable_mem p true, ?_⟩, ⟨_, rfl, s.linkEnable_mem p false, ?_⟩, fun h => ?_,
      ⟨_, rfl, s.routeWrite_mem m v, s.routeWrite_rtab m v⟩,
      ⟨_, rfl, s.moduleUnreachable_mem m, s.moduleUnreachable_reaches m⟩⟩
    · simp [State.linkEnable_port]
    · simp [State.linkEnable_port]
    · exact ⟨_, execLinkUp_of_enabled s p m h, State.setPort_ports .., State.setPort_mem s _ _⟩
  case grants =>
    exact fun s g hg => ⟨fun h => congrArg next (s.grantReceive_of_room g hg h),
      fun h => congrArg next (s.grantReceive_of_full g hg h)⟩
  case waiting => exact fun s r h => congrArg next (s.remoteArrival_of_no_launch r h)
  case counted =>
    exact fun s u r n l st m tm h hg ht hc => congrArg next (s.remoteArrival_of_counted u r n l st m tm h hg ht hc)
  case acknowledged =>
    exact fun s r n l b => ⟨fun h hg => congrArg next (s.remoteArrival_of_outside r n l h hg), s.acknowledge_outbox r b⟩
  case flits =>
    exact fun s h f => ⟨fun hf => congrArg next (s.flitReceive_of_bad h f hf),
      fun hf hr hb => ⟨_, rfl, s.flitReceive_of_good h f hf hr hb⟩, rfl⟩
  case bringUp =>
    intro s b hs
    obtain ⟨h0, h1, h2, h3, h4⟩ := s.bringUp_stages b hs
    exact ⟨_, rfl, h0, h1, h2, fun h => ⟨by rw [h3 h]; rfl, fun hm => by rw [h3 h]; exact State.buildCaps_first _ hm⟩, h4⟩

end Sys2Proof.Machine
end

section
/-! PROOF. The end of a context, fatal context errors, and the error log (R83, R425, R427 to R429, R469). -/

namespace Sys2Proof

/-- Reading a table whose every entry has been changed, where the default is changed to the new default. -/
theorem Tab.get_map {α β : Type} (f : α → β) (d : α) (t : Tab α) (k : Nat) :
    Tab.get (f d) (t.map (fun e => (e.1, f e.2))) k = f (Tab.get d t k) := by
  induction t with
  | nil => rfl
  | cons e t ih =>
    simp only [List.map_cons, Tab.get, ih]
    split <;> rfl

/-- What every entry and its change are to each other, and the default to itself, the entry read is to the entry read after. -/
theorem Tab.get_map_rel {α : Type} (P : α → α → Prop) (d : α) (t : Tab α) (k : Nat) (g : Nat × α → Nat × α)
    (h : ∀ e, (g e).1 = e.1 ∧ P e.2 (g e).2) (hd : P d d) : P (Tab.get d t k) (Tab.get d (t.map g) k) := by
  induction t with
  | nil => exact hd
  | cons e t ih =>
    obtain ⟨h1, h2⟩ := h e
    simp only [List.map_cons, Tab.get, h1]
    split
    · exact h2
    · exact ih

theorem listSet_length {α : Type} (l : List α) (n : Nat) (a : α) : (listSet l n a).length = l.length := by
  induction l generalizing n with
  | nil => rfl
  | cons b l ih => cases n <;> simp [listSet, ih]

theorem getElem?_listSet_same {α : Type} (l : List α) (n : Nat) (a b : α) (h : l[n]? = some b) :
    (listSet l n a)[n]? = some a := by
  induction l generalizing n with
  | nil => simp at h
  | cons c l ih =>
    cases n with
    | zero => simp [listSet]
    | succ n => simpa [listSet] using ih n (by simpa using h)

end Sys2Proof

namespace Sys2Proof.Machine

open Host.Outcome (next)

/-! ## Nothing left of a context -/

/-- No core has a current or next task of a context, no stack a team of it, and no full/empty access, arrival or round of it is on
its way. -/
structure State.Without (s : State) (ctx : CtxId) : Prop where
  live : ∀ (c : CoreId) (t : Task), s.task? c = some t → t.ctx ≠ ctx
  next : ∀ (c : CoreId) (a : Asg), (s.core c).next = some a → a.who.1 ≠ ctx
  teams : ∀ (st : StackId), ∀ m ∈ (s.stack st).teams, m.2.ctx ≠ ctx
  fes : ∀ a ∈ s.fes, a.ctx ≠ ctx
  arrs : ∀ a ∈ s.arrs, a.ctx ≠ ctx
  rounds : ∀ a ∈ s.rounds, a.ctx ≠ ctx

section
variable {s : State} {ctx : CtxId}

/-- What every step of a fold keeps out stays out. -/
theorem State.Without.foldl {α : Type} (h : s.Without ctx) (l : List α) (f : State → α → State)
    (hf : ∀ (u : State) x, u.Without ctx → (f u x).Without ctx) : (l.foldl f s).Without ctx := by
  induction l generalizing s with
  | nil => exact h
  | cons x l ih => exact ih (hf s x h)

/-- A stack replaced by one with the same teams. -/
theorem State.Without.setStack (h : s.Without ctx) (st : StackId) (x : StackS) (hx : x.teams = (s.stack st).teams := by rfl) :
    (s.setStack st x).Without ctx where
  live := h.live
  next := h.next
  teams st' := by
    rw [State.setStack_stack_of]
    split
    · rename_i e
      rw [hx, ← e]
      exact h.teams st'
    · exact h.teams st'
  fes := h.fes
  arrs := h.arrs
  rounds := h.rounds

theorem Asg.mapTask_ctx (f : Task → Task) (hf : ∀ t, (f t).ctx = t.ctx) (a : Asg) : (a.mapTask f).who.1 = a.who.1 := by
  cases a with
  | new => rfl
  | resume t q => exact hf t

/-- A core and a stack with every task of theirs changed. -/
def CoreS.mapTasks (x : CoreS) (f : Task → Task) : CoreS := { x with live := x.live.map f, next := x.next.map (Asg.mapTask f) }
def StackS.mapTasks (x : StackS) (f : Task → Task) : StackS :=
  { x with teams := x.teams.map (fun m => (m.1, { m.2 with susp := m.2.susp.map (fun t => (t.1, f t.2)) })) }

theorem State.mapTasks_core (s : State) (f : Task → Task) (c : CoreId) : (s.mapTasks f).core c = (s.core c).mapTasks f :=
  Tab.get_map (fun x : CoreS => x.mapTasks f) CoreS.reset s.cores c.val

theorem State.mapTasks_stack (s : State) (f : Task → Task) (st : StackId) : (s.mapTasks f).stack st = (s.stack st).mapTasks f :=
  Tab.get_map (fun x : StackS => x.mapTasks f) StackS.reset s.stackTab st.val

/-- Every task changed, none in its context. -/
theorem State.Without.mapTasks (h : s.Without ctx) (f : Task → Task) (hf : ∀ t, (f t).ctx = t.ctx) :
    (s.mapTasks f).Without ctx := by
  refine ⟨fun c t ht => ?_, fun c a ha => ?_, fun st m hm => ?_, h.fes, h.arrs, h.rounds⟩
  · rw [State.task?, State.mapTasks_core] at ht
    obtain ⟨u, hu, rfl⟩ := Option.map_eq_some_iff.mp ht
    exact hf u ▸ h.live c u hu
  · rw [State.mapTasks_core] at ha
    obtain ⟨b, hb, rfl⟩ := Option.map_eq_some_iff.mp ha
    exact Asg.mapTask_ctx f hf b ▸ h.next c b hb
  · rw [State.mapTasks_stack] at hm
    obtain ⟨n, hn, rfl⟩ := List.mem_map.mp hm
    exact h.teams st n hn

theorem State.Without.mapTaskOf (h : s.Without ctx) (n : Nat) (co : BitVec 48) (f : Task → Task) (hf : ∀ t, (f t).ctx = t.ctx) :
    (s.mapTaskOf n co f).Without ctx := by
  refine h.mapTasks _ fun t => ?_
  split
  · exact hf t
  · rfl

/-! ## What clears the tokens and grants of a context brings nothing of it back -/

theorem State.Without.putRest (h : s.Without ctx) (base size : Nat) (sc : Scope) : (s.putRest base size sc).Without ctx :=
  ⟨h.live, h.next, h.teams, h.fes, h.arrs, h.rounds⟩

theorem State.Without.keepLent (h : s.Without ctx) (r : TokRec) : (s.keepLent r).Without ctx := by
  unfold State.keepLent
  split
  · split
    · exact h.mapTaskOf _ _ _ fun _ => rfl
    · exact h
  · exact h

theorem State.Without.toRest (h : s.Without ctx) (st : StackId) (base size : Nat) (sc : Scope) :
    (s.toRest st base size sc).Without ctx := by
  unfold State.toRest
  dsimp only
  split
  · exact h
  · exact ((h.foldl _ _ fun _ e hu => hu.keepLent e.2).setStack st _).putRest ..

theorem State.Without.stackEmpty (h : s.Without ctx) (st : StackId) (r : TokRec) : (s.stackEmpty st r).Without ctx := by
  unfold State.stackEmpty
  split
  · exact h.toRest ..
  · dsimp only
    split
    · split
      · exact (h.setStack st _).toRest ..
      · exact h.setStack st _
    · exact h.setStack st _

theorem State.Without.shareBack (h : s.Without ctx) (st : StackId) (base size : Nat) (at_ : Bool) (sc : Scope) :
    (s.shareBack st base size at_ sc).Without ctx := by
  unfold State.shareBack
  dsimp only
  split
  · exact h
  · split
    · split
      · exact (h.setStack st _).stackEmpty ..
      · exact h.setStack st _
    · exact h.setStack st _

theorem State.Without.clearCtxToks (h : s.Without ctx) (x : CtxId) (live : List Agent) (st : StackId) :
    (s.clearCtxToks x live st).Without ctx := by
  unfold State.clearCtxToks
  refine State.Without.foldl (h.setStack st _) _ _ fun u e hu => ?_
  dsimp only
  split
  · exact hu.shareBack ..
  · exact hu.putRest ..

theorem State.Without.send (h : s.Without ctx) (m : OutMsg) : (s.send m).Without ctx :=
  ⟨h.live, h.next, h.teams, h.fes, h.arrs, h.rounds⟩

theorem State.Without.sendAfter (h : s.Without ctx) (src : Src) (n : Nat) (m : OutMsg) : (s.sendAfter src n m).Without ctx := by
  unfold State.sendAfter
  split
  · exact ⟨h.live, h.next, h.teams, h.fes, h.arrs, h.rounds⟩
  · exact h.send m

theorem State.Without.dropGrant (h : s.Without ctx) (g : GrantS) : (s.dropGrant g).Without ctx := by
  have he : ({ s with grants := s.grants.erase g } : State).Without ctx := ⟨h.live, h.next, h.teams, h.fes, h.arrs, h.rounds⟩
  unfold State.dropGrant
  dsimp only
  split
  · exact he
  · split
    · exact he.sendAfter ..
    · exact he.send _

theorem State.Without.clearGrants (h : s.Without ctx) (x : CtxId) (live : List Agent) : (s.clearGrants x live).Without ctx :=
  h.foldl _ _ fun _ g hu => hu.dropGrant g

theorem State.Without.reposition (h : s.Without ctx) (cl : ClusterId) : (s.reposition cl).Without ctx :=
  ⟨h.live, h.next, h.teams, h.fes, h.arrs, h.rounds⟩

theorem State.Without.preCheck (h : s.Without ctx) (st : StackId) : (s.preCheck st).Without ctx := by
  unfold State.preCheck
  dsimp only
  split
  · exact h.setStack st _
  · exact h

end

/-! ## Tasks and teams dropped -/

/-- The two halves of what a core loses when a context ends: its current task, and its next one. -/
def CoreS.dropLive (x : CoreS) (ctx : CtxId) : CoreS :=
  match x.live with
  | some t => if t.ctx = ctx then x.drained else x
  | none => x
def CoreS.dropNext (x : CoreS) (ctx : CtxId) : CoreS :=
  match x.next with
  | some a => if a.who.1 = ctx then { x with next := none } else x
  | none => x

theorem CoreS.discard_eq (x : CoreS) (ctx : CtxId) : x.discard ctx = (x.dropLive ctx).dropNext ctx := rfl

theorem CoreS.dropLive_live (x : CoreS) (ctx : CtxId) (t : Task) (h : (x.dropLive ctx).live = some t) : t.ctx ≠ ctx := by
  unfold CoreS.dropLive at h
  split at h
  · rename_i v hv
    split at h
    · cases h
    · rename_i hc
      cases hv.symm.trans h
      exact hc
  · rename_i hn
    cases hn.symm.trans h

theorem CoreS.dropNext_live (x : CoreS) (ctx : CtxId) : (x.dropNext ctx).live = x.live := by
  unfold CoreS.dropNext
  split
  · split <;> rfl
  · rfl

theorem CoreS.dropNext_next (x : CoreS) (ctx : CtxId) (a : Asg) (h : (x.dropNext ctx).next = some a) : a.who.1 ≠ ctx := by
  unfold CoreS.dropNext at h
  split at h
  · rename_i b hb
    split at h
    · cases h
    · rename_i hc
      cases hb.symm.trans h
      exact hc
  · rename_i hn
    cases hn.symm.trans h

theorem StackS.mem_dropTeams (l : List (Nat × Team)) (x : StackS) (m : Nat × Team) :
    m ∈ (l.foldl (fun (x : StackS) m => x.dropTeam m.1) x).teams ↔ m ∈ x.teams ∧ ∀ n ∈ l, m.1 ≠ n.1 := by
  induction l generalizing x with
  | nil => simp
  | cons n l ih =>
    have hd : m ∈ (x.dropTeam n.1).teams ↔ m ∈ x.teams ∧ m.1 ≠ n.1 := by simp [StackS.dropTeam, StackS.dropObjs, Tab.drop]
    rw [List.foldl_cons, ih, hd, List.forall_mem_cons, and_assoc]

/-- A stack keeps no team of a context that ends. -/
theorem StackS.dropCtx_teams (x : StackS) (ctx : CtxId) (ls : List Nat) (m : Nat × Team) (h : m ∈ (x.dropCtx ctx ls).teams) :
    m.2.ctx ≠ ctx := by
  obtain ⟨hm, hn⟩ := (StackS.mem_dropTeams _ x m).mp h
  intro hc
  exact hn m (List.mem_filter.mpr ⟨hm, by simpa using hc⟩) rfl

/-- What is cut of a state at the end of a context: its tasks, planes and teams. -/
theorem State.without_of_cut (s : State) (ctx : CtxId) (p : List Nat) (ls : List Nat) (hf : ∀ a ∈ s.fes, a.ctx ≠ ctx)
    (ha : ∀ a ∈ s.arrs, a.ctx ≠ ctx) (hr : ∀ a ∈ s.rounds, a.ctx ≠ ctx) :
    ({ s with
      poison := p
      cores := s.cores.map (fun (e : Nat × CoreS) => (e.1, (e.2.discard ctx).dropPlanes ctx))
      stackTab := s.stackTab.map (fun (e : Nat × StackS) => (e.1, e.2.dropCtx ctx ls)) } : State).Without ctx := by
  have hcore (c : CoreId) := Tab.get_map (fun x : CoreS => (x.discard ctx).dropPlanes ctx) CoreS.reset s.cores c.val
  have hstack (st : StackId) := Tab.get_map (fun x : StackS => x.dropCtx ctx ls) StackS.reset s.stackTab st.val
  refine ⟨fun c t ht => ?_, fun c a h => ?_, fun st m hm => ?_, hf, ha, hr⟩
  · have h := (congrArg CoreS.live (hcore c)).symm.trans ht
    exact CoreS.dropLive_live _ ctx t ((CoreS.dropNext_live _ ctx).symm.trans h)
  · exact CoreS.dropNext_next _ ctx a ((congrArg CoreS.next (hcore c)).symm.trans h)
  · exact StackS.dropCtx_teams _ ctx ls m ((congrArg StackS.teams (hstack st)) ▸ hm)

/-- The end of a context leaves nothing of it. -/
theorem State.endContext_without (s : State) (ctx : CtxId) (cause : Option Nat) : (s.endContext ctx cause).Without ctx := by
  unfold State.endContext
  have hkept {α : Type} (l : List α) (f : α → CtxId) : ∀ a ∈ l.filter (fun a => f a != ctx), f a ≠ ctx :=
    fun a ha => bne_iff_ne.mp (List.mem_filter.mp ha).2
  refine .foldl (.foldl (.clearGrants (.foldl (State.without_of_cut _ ctx _ _ (hkept _ FeAcc.ctx) (hkept _ ArrMsg.ctx)
    (hkept _ RoundMsg.ctx)) _ _ ?tokens) _ _) _ _ ?rails) _ _ ?commands
  case tokens => exact fun _ _ h => h.clearCtxToks ..
  case rails => exact fun _ _ h => h.reposition _
  case commands => exact fun _ _ h => h.preCheck _

/-! ## Records of the error log (R425, R427) -/

theorem Fatal.record_length (f : Fatal) (time seq : Nat) :
    (recBytes (f.fields ++ [(8, time), (4, seq), (4, 0)])).length = 64 := by
  simp [recBytes, Fatal.fields, natBytes_length]

theorem StackS.elTakes_iff (x : StackS) :
    x.elTakes = true ↔ x.elheld = [] ∧ ((x.elwait = [] ∧ x.elRoom = true) ∨ x.elwait.length < 64) := by
  simp [StackS.elTakes]

/-- A record that waits on chip, where the ring does not take it at once and there is a place. -/
theorem State.logRecord_of_waiting (s : State) (st : StackId) (l : List (Nat × Nat)) (time : Nat) (o : Option CtxId)
    (k : Option CoreId) (ht : s.elTakes st = true) (hw : (s.stack st).elwait ≠ [] ∨ (s.stack st).elRoom = false) :
    let x := s.stack st
    let u := (s.setStack st { x with
      elwait := x.elwait ++ [recBytes (l ++ [(8, time), (4, x.elseq.toNat), (4, 0)])],
      elseq := x.elseq + 1#32 }).interrupt (.errorLog st)
    s.logRecord st l time o k = o.elim u (fun c => u.count c ctrFBOVF 1) := by
  intro x u
  have hp : ¬ (x.elPending = 0 ∧ x.elRoom = true) := by
    rintro ⟨h0, h1⟩
    rcases hw with hw | hw
    · simp [StackS.elPending] at h0
      exact hw h0.1
    · exact absurd h1 (by simp [x, hw])
  unfold State.logRecord
  dsimp only
  split
  · rename_i h
    exact absurd h hp
  · cases o with
    | none => exact congrArg (fun y => (s.setStack st y).interrupt (.errorLog st)) (if_pos ht)
    | some c => exact congrArg (fun y => ((s.setStack st y).interrupt (.errorLog st)).count c ctrFBOVF 1) (if_pos ht)

/-- A record that the ring takes at once, nothing waiting before it. -/
theorem State.logRecord_of_room (s : State) (st : StackId) (l : List (Nat × Nat)) (time : Nat) (o : Option CtxId)
    (k : Option CoreId) (ht : s.elTakes st = true) (hw : (s.stack st).elwait = []) (hr : (s.stack st).elRoom = true) :
    let x := s.stack st
    s.logRecord st l time o k = (s.setStack st { x with elseq := x.elseq + 1#32 }).writeEl st
      (recBytes (l ++ [(8, time), (4, x.elseq.toNat), (4, 0)])) := by
  obtain ⟨hh, -⟩ := (StackS.elTakes_iff _).mp ht
  exact if_pos ⟨by simp [StackS.elPending, hw, hh], hr⟩

theorem State.putPhys_stack (s : State) (pa : Nat) (b : List (Option Byte)) (st : StackId) :
    ∃ l, (s.putPhys pa b).stack st = { s.stack st with l2 := l } :=
  Tab.get_map_rel (fun x y : StackS => ∃ l, y = { x with l2 := l }) StackS.reset s.stackTab st.val _
    (fun _ => ⟨rfl, _, rfl⟩) ⟨_, rfl⟩

theorem State.writeEl_stack (s : State) (st : StackId) (b : List Byte) :
    ∃ l, (s.writeEl st b).stack st = { s.stack st with l2 := l, elhead := (s.stack st).elhead + 1#32 } := by
  obtain ⟨l, hl⟩ := s.putPhys_stack (s.stack st).elPlace (b.map some) st
  refine ⟨l, ?_⟩
  rw [State.writeEl, State.setStack_stack_same, hl]

theorem State.writeEl_bytes (s : State) (st : StackId) (b : List Byte) (h : MemOk s) :
    Memory.bytes (s.writeEl st b).mem (s.stack st).elPlace b.length = b :=
  Memory.bytes_putAll_same b s.mem _ h

/-- What a record leaves that the ring takes at once. -/
theorem State.logRecord_room (s : State) (st : StackId) (l : List (Nat × Nat)) (time : Nat) (o : Option CtxId)
    (k : Option CoreId) (ht : s.elTakes st = true) (hw : (s.stack st).elwait = []) (hr : (s.stack st).elRoom = true) :
    let x := s.stack st
    let r := recBytes (l ++ [(8, time), (4, x.elseq.toNat), (4, 0)])
    let u := s.logRecord st l time o k
    (u.stack st).elhead = x.elhead + 1#32 ∧ (u.stack st).elseq = x.elseq + 1#32 ∧ (u.stack st).elwait = [] ∧
      u.cores = s.cores ∧ u.fatals = s.fatals ∧ (MemOk s → Memory.bytes u.mem x.elPlace r.length = r) := by
  intro x r u
  have hu : u = (s.setStack st { x with elseq := x.elseq + 1#32 }).writeEl st r := s.logRecord_of_room st l time o k ht hw hr
  obtain ⟨m, hm⟩ := (s.setStack st { x with elseq := x.elseq + 1#32 }).writeEl_stack st r
  have hb := (s.setStack st { x with elseq := x.elseq + 1#32 }).writeEl_bytes st r
  rw [State.setStack_stack_same] at hm hb
  rw [hu, hm]
  exact ⟨rfl, rfl, hw, rfl, rfl, hb⟩

/-! ## Fatal context errors (R427 to R429) -/

/-- An error is off the list of those found. -/
def State.dropFatal (s : State) (n : Nat) : State := { s with fatals := listDrop s.fatals n }

theorem State.fatalError_of_taken (s : State) (n : Nat) (f : Fatal) (h : s.fatals[n]? = some f)
    (ht : s.elTakes (stackOf f.core) = true) :
    s.fatalError n = ((s.dropFatal n).logRecord (stackOf f.core) f.fields f.time
      (if f.held then none else some f.ctx) none).endContext f.ctx (some f.launch) := by
  simp [State.fatalError, h, ht, State.dropFatal]

theorem State.fatalError_of_held (s : State) (n : Nat) (f : Fatal) (h : s.fatals[n]? = some f)
    (ht : s.elTakes (stackOf f.core) = false) (hf : f.held = true) : s.fatalError n = s := by
  simp [State.fatalError, h, ht, hf]

theorem State.fatalError_of_full (s : State) (n : Nat) (f : Fatal) (h : s.fatals[n]? = some f)
    (ht : s.elTakes (stackOf f.core) = false) (hf : f.held = false) :
    s.fatalError n = (({ s with fatals := listSet s.fatals n { f with held := true } } : State).count f.ctx ctrFBOVF 1).interrupt
      (.errorLog (stackOf f.core)) := by
  simp [State.fatalError, h, ht, hf]

/-- A held error freezes its core. -/
theorem State.logHolds_of_fatal (s : State) (n : Nat) (f : Fatal) (h : s.fatals[n]? = some f) (hf : f.held = true) :
    s.logHolds f.core = true := by
  rw [State.logHolds, Bool.or_eq_true]
  exact .inl (List.any_eq_true.mpr ⟨f, List.mem_of_getElem? h, by simp [hf]⟩)

theorem State.dueCycle_of_logHolds (s : State) (c : CoreId) (t : Task) (b : Bundle) (hb : t.latched = some b)
    (h : s.logHolds c = true) : ∃ k m, s.dueCycle c t = (s.freeze c t k m false, 0) := by
  have hh : s.heldStill c t = true := by simp [State.heldStill, h]
  unfold State.dueCycle
  rw [hb]
  dsimp only
  rw [hh]
  exact ⟨_, _, rfl⟩

/-! ## ELTAIL (R425) -/

theorem State.drainEl_of_none (s : State) (st : StackId) (k : Nat) (h : (s.stack st).elwait = []) : s.drainEl st k = s := by
  cases k with
  | zero => rfl
  | succ k => simp [State.drainEl, h]

/-! ## The statement -/

/-- Settles O17, clause by clause from the lemmas above. -/
theorem contextEndsAndFatalErrors : Obligations.ContextEndsAndFatalErrors := by
  refine ⟨?ends, ?errors, State.dueCycle_of_logHolds, ?tail⟩
  case ends =>
    intro s ctx
    have h := s.endContext_without ctx none
    exact ⟨_, rfl, h.live, h.next, h.teams, h.fes, h.arrs, h.rounds⟩
  case errors =>
    refine fun s n f h => ⟨?held, ?full, f.record_length _ _, ?room, ?waiting⟩
    case held => exact fun ht hf => congrArg next (s.fatalError_of_held n f h ht hf)
    case full =>
      intro ht hf
      have hn := getElem?_listSet_same s.fatals n { f with held := true } f h
      refine ⟨_, congrArg next (s.fatalError_of_full n f h ht hf), hn, listSet_length .., ?_, rfl, rfl, rfl,
        State.setCtx_ctx_same .., State.logHolds_of_fatal _ n { f with held := true } hn rfl⟩
      exact List.mem_append_right _ List.mem_cons_self
    case room =>
      intro ht hw hr
      obtain ⟨hhead, hseq, hwait, hcores, hfatals, hmem⟩ := (s.dropFatal n).logRecord_room (stackOf f.core) f.fields f.time
        (if f.held then none else some f.ctx) none ht hw hr
      exact ⟨_, congrArg next (s.fatalError_of_taken n f h ht), hfatals, hhead, hseq, hwait, hcores,
        fun hm => f.record_length _ _ ▸ hmem hm⟩
    case waiting =>
      intro ht hw
      refine ⟨_, congrArg next (s.fatalError_of_taken n f h ht), ?_⟩
      rw [State.logRecord_of_waiting (s.dropFatal n) _ _ _ _ _ ht hw]
      cases f.held with
      | true => exact ⟨rfl, State.setStack_stack_same .., List.mem_append_right _ List.mem_cons_self, rfl, rfl, rfl⟩
      | false =>
        exact ⟨rfl, State.setStack_stack_same .., List.mem_append_right _ List.mem_cons_self, rfl, rfl,
          State.setCtx_ctx_same ..⟩
  case tail =>
    intro s st v h
    refine congrArg next ((State.drainEl_of_none _ st _ ?_).trans ?_)
    · simpa using h
    · simp [BitVec.setWidth_eq_extractLsb']

end Sys2Proof.Machine
end

section
/-! PROOF. Semaphores, the takeover, and the registers and pushes of the queues (R62 to R68, R82, R489). -/

namespace Sys2Proof.Machine

open Host.Outcome (next)

/-! ## Semaphores (R63) -/

theorem State.semWrite_acquire (s : State) (m : Master) (n : SemId) (lease : BitVec 32)
    (h : (s.sem n).own = none ∨ (s.sem n).own = some m) :
    s.semWrite m n true false lease =
      { s.setSem n ⟨some m, lease, s.leaseEnd lease⟩ with disp := if n = 0 then some m else s.disp } := by
  rcases h with h | h <;> simp [State.semWrite, h]

theorem State.semWrite_acquire_of_other (s : State) (m : Master) (n : SemId) (lease : BitVec 32) (h0 : (s.sem n).own ≠ none)
    (h : (s.sem n).own ≠ some m) : s.semWrite m n true false lease = s := by
  simp [State.semWrite, h0, h]

theorem State.semWrite_release (s : State) (m : Master) (n : SemId) (lease : BitVec 32) (h : (s.sem n).own = some m) :
    s.semWrite m n false true lease = s.setSem n ⟨none, lease, none⟩ := by
  simp [State.semWrite, h]

theorem State.semWrite_release_of_other (s : State) (m : Master) (n : SemId) (lease : BitVec 32) (h : (s.sem n).own ≠ some m) :
    s.semWrite m n false true lease = s := by
  simp [State.semWrite, h]

theorem execSemLeaseExpire_of_over (s : State) (n : SemId) (e : Nat) (h : (s.sem n).ends = some e) (he : e ≤ s.ns) :
    execSemLeaseExpire n s = next (s.setSem n { s.sem n with own := none, ends := none }) := by
  simp [execSemLeaseExpire, h, he]

/-- A semaphore after the reset of a die. -/
def SemS.afterReset (m : Master) (x : SemS) : SemS := if x.own = some m then { x with own := none, ends := none } else x

theorem State.campionReset_sem (s : State) (m : Master) (k : SemId) :
    ({ s with sems := s.sems.map (fun e => (e.1, e.2.afterReset m)) } : State).sem k = (s.sem k).afterReset m :=
  Tab.get_map (SemS.afterReset m) SemS.reset s.sems k.val

/-! ## The takeover (R82, R489) -/

/-- The die that takes semaphore 0. -/
def State.successor (s : State) : Master :=
  match s.rom, s.disp with
  | some .A, _ => .B
  | some .B, _ => .A
  | none, some .A => .B
  | none, _ => .A

theorem State.successor_ne (s : State) : s.rom ≠ some s.successor ∧ (s.rom = none → s.disp ≠ some s.successor) := by
  unfold State.successor
  cases hr : s.rom with
  | some r => cases r <;> simp
  | none =>
    cases hd : s.disp with
    | none => simp
    | some d => cases d <;> simp

theorem execDispatcherTakeover_of_free (s : State) (h : (s.sem 0).own = none) :
    execDispatcherTakeover s = next { s with
      sems := s.sems.set 0 ⟨some s.successor, 500#32, some (s.ns + 500000)⟩, disp := some s.successor } := by
  have ha : s.active = none := h
  unfold execDispatcherTakeover
  rw [ha]
  exact congrArg next (s.semWrite_acquire s.successor 0 500#32 (.inl h))

theorem execDispatcherTakeover_of_held (s : State) (m : Master) (h : (s.sem 0).own = some m) :
    execDispatcherTakeover s = next s := by
  have ha : s.active = some m := h
  simp [execDispatcherTakeover, ha]

/-! ## QCFG (R65, R68) -/

/-- A queue with the fields of a written QCFG. -/
def QueueS.configured (q : QueueS) (v : Word) : QueueS :=
  { q with
    en := v.getLsbD 63
    prio := v.extractLsb' 61 2
    irqb := v.getLsbD 60
    ctx := Fin.ofNat 4096 (v.toNat / 2 ^ 36) }

theorem State.qcfgWrite_of_other (s : State) (m : Master) (n : QueueId) (v : Word) (h : (s.sem 1).own ≠ some m) :
    s.qcfgWrite m n v = s := by
  simp [State.qcfgWrite, h]

/-- The holder of semaphore 1 configures a queue that has no record and no launch. -/
theorem State.qcfgWrite_of_idle (s : State) (m : Master) (n : QueueId) (v : Word) (h : (s.sem 1).own = some m)
    (hq : (s.queue n).recs = []) (ha : s.queueActive n = false) (hs : v.getLsbD 63 = false ∨ s.stage = 4) :
    s.qcfgWrite m n v = s.setQueue n ((s.queue n).configured v) := by
  have hd : (if v.getLsbD 63 then s else s.dropRecords n 0x13 (s.queue n).recs.length) = s := by
    rw [hq]
    split <;> rfl
  have hp : BitVec.ofNat 2 (v.toNat / 2 ^ 61) = v.extractLsb' 61 2 := by
    apply BitVec.eq_of_toNat_eq
    simp [BitVec.extractLsb'_toNat, Nat.shiftRight_eq_div_pow]
  have hc : ((s.sem 1).own != some m || (Fin.ofNat 4096 (v.toNat / 2 ^ 36) != (s.queue n).ctx &&
      (!(s.queue n).recs.isEmpty || s.queueActive n)) || (v.getLsbD 63 && s.stage != 4)) = false := by
    rcases hs with hs | hs
    · rw [hs]
      simp [h, hq, ha]
    · simp [h, hq, ha, hs]
  unfold State.qcfgWrite
  dsimp only
  rw [hc, hd, hp]
  rfl

/-- CTX is bits 47:36. -/
theorem ctxOf_eq_extract (v : Word) :
    (Fin.ofNat 4096 (v.toNat / 2 ^ 36) : CtxId) = Fin.ofNat 4096 (v.extractLsb' 36 12).toNat := by
  apply Fin.ext
  simp [BitVec.extractLsb'_toNat, Nat.shiftRight_eq_div_pow]

/-- A configuration that differs in EN alone. -/
theorem QueueS.configured_congr (q : QueueS) (v w : Word) (hp : w.extractLsb' 61 2 = v.extractLsb' 61 2)
    (hi : w.getLsbD 60 = v.getLsbD 60) (hc : w.extractLsb' 36 12 = v.extractLsb' 36 12) :
    q.configured w = { q.configured v with en := w.getLsbD 63 } := by
  simp only [QueueS.configured, hp, hi, ctxOf_eq_extract, hc]

theorem QueueS.configured_enable (q : QueueS) (v : Word) :
    q.configured (v ||| BitVec.twoPow 64 63) = { q.configured v with en := true } := by
  have hz (a n : Nat) (h : (BitVec.twoPow 64 63).extractLsb' a n = 0#n) :
      (v ||| BitVec.twoPow 64 63).extractLsb' a n = v.extractLsb' a n := by
    rw [BitVec.extractLsb'_or, h, BitVec.or_zero]
  rw [q.configured_congr v _ (hz 61 2 (by decide)) (by simp) (hz 36 12 (by decide))]
  simp

theorem QueueS.configured_disable (q : QueueS) (v : Word) :
    q.configured (v &&& ~~~BitVec.twoPow 64 63) = { q.configured v with en := false } := by
  have hz (a n : Nat) (h : (~~~BitVec.twoPow 64 63).extractLsb' a n = BitVec.allOnes n) :
      (v &&& ~~~BitVec.twoPow 64 63).extractLsb' a n = v.extractLsb' a n := by
    rw [BitVec.extractLsb'_and, h, BitVec.and_allOnes]
  rw [q.configured_congr v _ (hz 61 2 (by decide)) (by simp) (hz 36 12 (by decide))]
  simp

/-! ## Pushes (R66) -/

theorem toNat_append_eq_add {m n : Nat} (x : BitVec m) (y : BitVec n) : (x ++ y).toNat = x.toNat * 2 ^ n + y.toNat := by
  rw [BitVec.toNat_append, ← Nat.shiftLeft_add_eq_or_of_lt y.isLt, Nat.shiftLeft_eq]

/-- V, RES, PN and SEQ side by side. -/
theorem ofNat_eq_qres (res : Nat) (hr : res < 8) (p q : BitVec 16) :
    BitVec.ofNat 64 (2 ^ 63 + res * 2 ^ 60 + p.toNat * 2 ^ 16 + q.toNat) = 1#1 ++ BitVec.ofNat 3 res ++ 0#28 ++ p ++ q := by
  apply BitVec.eq_of_toNat_eq
  rw [toNat_append_eq_add, toNat_append_eq_add, toNat_append_eq_add, toNat_append_eq_add]
  simp only [BitVec.toNat_ofNat]
  omega

theorem qresAfter_eq (old : Word) (res : Nat) (hr : res < 8) (seq : BitVec 16) :
    qresAfter old res seq = 1#1 ++ BitVec.ofNat 3 res ++ 0#28 ++ (old.extractLsb' 16 16 + 1#16) ++
      (if res = 0 then seq else old.extractLsb' 0 16) := by
  have hp : (old.extractLsb' 16 16 + 1#16).toNat = (old.toNat / 65536 + 1) % 65536 := by
    simp [BitVec.extractLsb'_toNat, Nat.shiftRight_eq_div_pow]
  have hq : (if res = 0 then seq else old.extractLsb' 0 16).toNat = if res = 0 then seq.toNat else old.toNat % 65536 := by
    split <;> simp [BitVec.extractLsb'_toNat]
  rw [← ofNat_eq_qres res hr, hp, hq]
  simp [qresAfter, pack64]

/-- RES of a push. -/
def QueueS.pushRes (q : QueueS) (v : Word) : Nat :=
  if v.toNat / 2 ^ 56 ≠ 0 ∨ v.toNat % 128 ≠ 0 then 3 else if !q.en then 2 else if 256 ≤ q.recs.length then 1 else 0

/-- The bank of QRES of a master, and a queue with another value in it. -/
def QueueS.bank (q : QueueS) : Master → Word
  | .A => q.resA
  | .B => q.resB
def QueueS.setBank (q : QueueS) (m : Master) (r : Word) : QueueS :=
  match m with
  | .A => { q with resA := r }
  | .B => { q with resB := r }

/-- The queue after a push, but for its answer. -/
def QueueS.pushed (q : QueueS) (v : Word) : QueueS :=
  if q.pushRes v = 0 then { q with recs := q.recs ++ [v], seq := q.seq + 1#16 } else q

theorem execQueuePush_eq (s : State) (m : Master) (n : QueueId) (v : Word) :
    let q := s.queue n
    execQueuePush m n v s =
      next (s.setQueue n ((q.pushed v).setBank m (qresAfter (q.bank m) (q.pushRes v) (q.pushed v).seq))) := by
  intro q
  have hb : (q.pushed v).bank m = q.bank m := by
    unfold QueueS.pushed
    split <;> rfl
  rw [← hb]
  cases m <;> rfl

/-- A push's word is reserved where bits 63:56 or 6:0 are not zero. -/
theorem pushReserved_iff (v : Word) :
    (v.toNat / 2 ^ 56 ≠ 0 ∨ v.toNat % 128 ≠ 0) ↔ (v.extractLsb' 56 8 ≠ 0#8 ∨ v.extractLsb' 0 7 ≠ 0#7) := by
  simp only [ne_eq, ← BitVec.toNat_inj, BitVec.extractLsb'_toNat, Nat.shiftRight_eq_div_pow, BitVec.toNat_ofNat]
  omega

theorem QueueS.pushRes_lt (q : QueueS) (v : Word) : q.pushRes v < 8 := by
  unfold QueueS.pushRes
  split_ifs <;> omega

theorem QueueS.pushRes_of_reserved (q : QueueS) (v : Word) (h : v.extractLsb' 56 8 ≠ 0#8 ∨ v.extractLsb' 0 7 ≠ 0#7) :
    q.pushRes v = 3 :=
  if_pos ((pushReserved_iff v).mpr h)

/-- A word with nothing reserved is judged by its queue. -/
theorem QueueS.pushRes_of_word (q : QueueS) (v : Word) (h1 : v.extractLsb' 56 8 = 0#8) (h2 : v.extractLsb' 0 7 = 0#7) :
    q.pushRes v = if !q.en then 2 else if 256 ≤ q.recs.length then 1 else 0 :=
  if_neg (mt (pushReserved_iff v).mp (by simp [h1, h2]))

theorem QueueS.pushed_of_refused (q : QueueS) (v : Word) (h : q.pushRes v ≠ 0) : q.pushed v = q := if_neg h

theorem QueueS.pushed_of_accepted (q : QueueS) (v : Word) (h : q.pushRes v = 0) :
    q.pushed v = { q with recs := q.recs ++ [v], seq := q.seq + 1#16 } := if_pos h

/-- The answer of a push: RES, the push number one higher, and SEQ where the record is accepted. -/
theorem execQueuePush_answer (s : State) (m : Master) (n : QueueId) (v : Word) (res : Nat) (p : QueueS)
    (hr : (s.queue n).pushRes v = res) (hp : (s.queue n).pushed v = p) :
    let old := (s.queue n).bank m
    ∃ u r, execQueuePush m n v s = next u ∧ u.queue n = p.setBank m r ∧
      r = 1#1 ++ BitVec.ofNat 3 res ++ 0#28 ++ (old.extractLsb' 16 16 + 1#16) ++
        (if res = 0 then p.seq else old.extractLsb' 0 16) := by
  subst hr hp
  exact ⟨_, _, execQueuePush_eq s m n v, State.setQueue_queue_same .., qresAfter_eq _ _ (QueueS.pushRes_lt _ v) _⟩

/-! ## The statement -/

/-- Settles O59, clause by clause from the lemmas above. -/
theorem semaphoresAndQueues : Obligations.SemaphoresAndQueues := by
  refine ⟨?semaphores, ?takeover, execDispatcherTakeover_of_held, ?configuration, ?pushes⟩
  case semaphores =>
    refine fun s m n lease => ⟨fun h => congrArg next (s.semWrite_acquire m n lease h),
      fun h0 h => congrArg next (s.semWrite_acquire_of_other m n lease h0 h),
      fun h => congrArg next (s.semWrite_release m n lease h), fun h => congrArg next (s.semWrite_release_of_other m n lease h),
      fun e h he => execSemLeaseExpire_of_over s n e h he, _, rfl, rfl, fun k => s.campionReset_sem m k⟩
  case takeover =>
    exact fun s h => ⟨s.successor, execDispatcherTakeover_of_free s h, s.successor_ne⟩
  case configuration =>
    refine fun s m n v => ⟨fun h hq ha => ⟨fun hs => ?_, ?_, fun hs => congrArg next (s.qcfgWrite_of_idle m n v h hq ha hs)⟩,
      fun h => ⟨congrArg next (s.qcfgWrite_of_other m n _ h), congrArg next (s.qcfgWrite_of_other m n _ h),
        congrArg next (s.qcfgWrite_of_other m n v h)⟩⟩
    · refine congrArg next ((s.qcfgWrite_of_idle m n _ h hq ha (.inr hs)).trans ?_)
      rw [QueueS.configured_enable]
      rfl
    · refine congrArg next ((s.qcfgWrite_of_idle m n _ h hq ha (.inl (by simp))).trans ?_)
      rw [QueueS.configured_disable]
      rfl
  case pushes =>
    intro s m n v
    have refused (res : Nat) (h0 : res ≠ 0) (hr : (s.queue n).pushRes v = res) :=
      execQueuePush_answer s m n v res _ hr ((s.queue n).pushed_of_refused v (hr ▸ h0))
    refine ⟨fun h => ?reserved, fun h1 h2 => ?_⟩
    case reserved =>
      have ha := refused 3 (by decide) ((s.queue n).pushRes_of_reserved v h)
      cases m <;> exact ha
    have hw := (s.queue n).pushRes_of_word v h1 h2
    refine ⟨fun he => ?disabled, fun he hl => ?full, fun he hl => ?accepted⟩
    case disabled =>
      have ha := refused 2 (by decide) (by simp [hw, he])
      cases m <;> exact ha
    case full =>
      have ha := refused 1 (by decide) (by simp [hw, he, hl])
      cases m <;> exact ha
    case accepted =>
      have hr : (s.queue n).pushRes v = 0 := by simp [hw, he, hl]
      have ha := execQueuePush_answer s m n v 0 _ hr ((s.queue n).pushed_of_accepted v hr)
      cases m <;> exact ha

end Sys2Proof.Machine
end

section
/-! PROOF. The stages of a launch record, the start of its tasks and their release (R69 to R98, R182, R470). -/

namespace Sys2Proof

/-- What is removed of a table does not depend on what was written there. -/
theorem Tab.drop_set {α : Type} (t : Tab α) (k : Nat) (v : α) : (t.set k v).drop k = t.drop k := by
  induction t with
  | nil => simp [Tab.set, Tab.drop]
  | cons e t ih =>
    obtain ⟨j, w⟩ := e
    simp only [Tab.drop] at ih
    unfold Tab.set
    split
    · simp [Tab.drop]
    · split
      · subst_vars
        simp [Tab.drop]
      · simp only [Tab.drop, List.filter_cons, ih]

end Sys2Proof

namespace Sys2Proof.Machine

open Host.Outcome (next)

/-! ## The lowest code (R73) -/

theorem lowest_eq_none {l : List Nat} (h : lowest l = none) : l = [] := by
  cases l with
  | nil => rfl
  | cons a t =>
    simp only [lowest] at h
    split at h <;> cases h

/-- The lowest of some codes is one of them, and none is lower. -/
theorem lowest_mem_le {l : List Nat} {b : Nat} (h : lowest l = some b) : b ∈ l ∧ ∀ d ∈ l, b ≤ d := by
  induction l generalizing b with
  | nil => cases h
  | cons a t ih =>
    simp only [lowest] at h
    split at h
    · rename_i k hk
      obtain ⟨hm, hle⟩ := ih hk
      cases h
      refine ⟨?_, List.forall_mem_cons.mpr ⟨Nat.min_le_left a k, fun d hd => (Nat.min_le_right a k).trans (hle d hd)⟩⟩
      rcases Nat.le_total a k with hak | hka
      · simp [Nat.min_eq_left hak]
      · simp [Nat.min_eq_right hka, hm]
    · rename_i hn
      cases h
      simp [lowest_eq_none hn]

theorem lowest_of_least {l : List Nat} {c : Nat} (hc : c ∈ l) (h : ∀ d ∈ l, c ≤ d) : lowest l = some c := by
  cases hl : lowest l with
  | none =>
    rw [lowest_eq_none hl] at hc
    cases hc
  | some b =>
    obtain ⟨hm, hle⟩ := lowest_mem_le hl
    rw [Nat.le_antisymm (hle c hc) (h b hm)]

/-! ## The stages of the head record (R73, R76) -/

section
variable (s : State) (n : QueueId)

theorem execLaunchRecordRead_of_invalid (va : Word) (l : List Word) (hr : (s.queue n).recs = va :: l) (hm : s.headMay n = true)
    (hh : (s.queue n).head = .raw) (hv : (s.ctx (s.queue n).ctx).valid = false) :
    execLaunchRecordRead n s = next (s.refuseHead n 0x15) := by
  simp [execLaunchRecordRead, hr, hm, hh, hv]

theorem execLaunchRecordRead_of_unreadable (va : Word) (l : List Word) (hr : (s.queue n).recs = va :: l) (hm : s.headMay n = true)
    (hh : (s.queue n).head = .raw) (hv : (s.ctx (s.queue n).ctx).valid = true) (ha : s.recordAt (s.queue n).ctx va = none) :
    execLaunchRecordRead n s = next (s.refuseHead n errUnreadable) := by
  simp [execLaunchRecordRead, hr, hm, hh, hv, ha]

/-- How a stage ends that finds some codes: the head record is refused with the lowest, or goes on. -/
def State.judge (codes : List Nat) (u : State) : State :=
  match lowest codes with
  | some c => s.refuseHead n c
  | none => u

theorem State.judge_of_none (codes : List Nat) (u : State) (h : codes = []) : s.judge n codes u = u := by
  subst h
  rfl

theorem State.judge_of_least (codes : List Nat) (u : State) (c : Nat) (hc : c ∈ codes) (h : ∀ d ∈ codes, c ≤ d) :
    s.judge n codes u = s.refuseHead n c := by
  simp [State.judge, lowest_of_least hc h]

theorem execLaunchRecordRead_of_record (va : Word) (l : List Word) (r : LaunchRec) (hr : (s.queue n).recs = va :: l)
    (hm : s.headMay n = true) (hh : (s.queue n).head = .raw) (hv : (s.ctx (s.queue n).ctx).valid = true)
    (ha : s.recordAt (s.queue n).ctx va = some r) :
    execLaunchRecordRead n s = next (s.judge n (s.recCodes (s.queue n).ctx r ++ s.ctxCodes (s.queue n).ctx)
      (s.setQueue n { s.queue n with head := .read r })) := by
  unfold State.judge
  cases hl : lowest (s.recCodes (s.queue n).ctx r ++ s.ctxCodes (s.queue n).ctx) <;>
    simp [execLaunchRecordRead, hr, hm, hh, hv, ha, hl]

theorem execImageValidate_of_valid (r : LaunchRec) (i : Image) (hm : s.headMay n = true) (hh : (s.queue n).head = .read r)
    (hc : s.launchCodes (s.queue n).ctx r = ([], some i)) :
    execImageValidate n s = next (s.setQueue n { s.queue n with head := .valid r i }) := by
  simp [execImageValidate, hm, hh, hc, lowest]

theorem execImageValidate_of_least (r : LaunchRec) (c : Nat) (hm : s.headMay n = true) (hh : (s.queue n).head = .read r)
    (hc : c ∈ (s.launchCodes (s.queue n).ctx r).1) (h : ∀ d ∈ (s.launchCodes (s.queue n).ctx r).1, c ≤ d) :
    execImageValidate n s = next (s.refuseHead n c) := by
  simp [execImageValidate, hm, hh, lowest_of_least hc h]

theorem execDependenceMet_eq (r : LaunchRec) (i : Image) (hm : s.headMay n = true) (hh : (s.queue n).head = .valid r i) :
    execDependenceMet n s = next (s.judge n (s.depCodes (s.queue n).ctx r ++ s.ctxCodes (s.queue n).ctx)
      (if s.depsMet (s.queue n).ctx r then s.setQueue n { s.queue n with head := .ready r i } else s)) := by
  unfold State.judge
  cases hl : lowest (s.depCodes (s.queue n).ctx r ++ s.ctxCodes (s.queue n).ctx) <;>
    simp [execDependenceMet, hm, hh, hl]

end

/-- The head record refused is off its queue. -/
theorem State.refuseHead_recs (s : State) (n : QueueId) (c : Nat) :
    ((s.refuseHead n c).queue n).recs = (s.queue n).recs.drop 1 := by
  unfold State.refuseHead
  dsimp only
  split
  · rename_i h
    rw [h]
    rfl
  · rename_i h
    rw [h]
    simp

/-! ## Lines that leave an L1 (R98, R236) -/

theorem State.core_of_cores {s u : State} (h : u.cores = s.cores) (c : CoreId) : u.core c = s.core c :=
  congrArg (fun t => Tab.get CoreS.reset t c.val) h

theorem State.cleanCC_cores (s : State) (cl : ClusterId) (line : Nat) : (s.cleanCC cl line).cores = s.cores := by
  unfold State.cleanCC
  split
  · rfl
  · split <;> rfl

theorem State.roomCC_cores (s : State) (cl : ClusterId) : (s.roomCC cl).cores = s.cores := by
  unfold State.roomCC
  dsimp only
  split
  · rfl
  · split
    · exact State.cleanCC_cores ..
    · rfl

/-- A line written back stays in its L1, clean. -/
theorem State.cleanL1_core (s : State) (c : CoreId) (line : Nat) :
    ∃ l, (s.cleanL1 c line).core c = { s.core c with l1 := l } ∧ l.drop line = (s.core c).l1.drop line := by
  unfold State.cleanL1
  split
  · exact ⟨_, rfl, rfl⟩
  · rename_i l0 _
    split
    · exact ⟨_, rfl, rfl⟩
    · dsimp only
      have hc : (if ((s.cluster (clusterOf c)).cc.find line).isSome then s else s.roomCC (clusterOf c)).core c = s.core c := by
        split
        · rfl
        · exact State.core_of_cores (State.roomCC_cores ..) c
      generalize (if ((s.cluster (clusterOf c)).cc.find line).isSome then s else s.roomCC (clusterOf c)) = v at hc
      refine ⟨_, ?_, Tab.drop_set (s.core c).l1 line { l0 with dirty := 0#128, wr := none }⟩
      rw [State.setCore_core_same]
      change { v.core c with l1 := (v.core c).l1.set line { l0 with dirty := 0#128, wr := none } } = _
      rw [hc]

/-- An eviction takes its line out of the L1 and changes nothing else of the core. -/
theorem State.evictL1_core (s : State) (c : CoreId) (line : Nat) :
    (s.evictL1 c line).core c = { s.core c with l1 := (s.core c).l1.drop line } := by
  obtain ⟨l, hl, hd⟩ := s.cleanL1_core c line
  rw [State.evictL1, State.setCore_core_same, hl, hd]

theorem State.foldl_evictL1_core (s : State) (c : CoreId) (ks : List Nat) :
    (ks.foldl (fun (s : State) l => s.evictL1 c l) s).core c =
      { s.core c with l1 := (s.core c).l1.filter (fun e => !ks.contains e.1) } := by
  induction ks generalizing s with
  | nil => simp
  | cons k ks ih =>
    have hf : ((s.core c).l1.drop k).filter (fun e => !ks.contains e.1) =
        (s.core c).l1.filter (fun e => !(k :: ks).contains e.1) := by
      simp only [Tab.drop, List.filter_filter, List.contains_cons, Bool.not_or, bne, Bool.and_comm]
    rw [List.foldl_cons, ih, State.evictL1_core]
    exact congrArg (fun l => { s.core c with l1 := l }) hf

theorem State.evictAllL1_core (s : State) (c : CoreId) : (s.evictAllL1 c).core c = { s.core c with l1 := [] } := by
  have hn : (s.core c).l1.filter (fun e => !((s.core c).l1.map Prod.fst).contains e.1) = [] := by
    rw [List.filter_eq_nil_iff]
    intro e he
    simp only [Bool.not_eq_true', Bool.not_eq_false, List.contains_iff_mem]
    exact List.mem_map_of_mem he
  rw [State.evictAllL1, State.foldl_evictL1_core, hn]

/-! ## Admission and issue (R74, R76, R77, R81) -/

theorem State.takeRegion_nextLaunch (s : State) (p : StackId × Nat) : (s.takeRegion p).nextLaunch = s.nextLaunch := by
  unfold State.takeRegion
  split
  · rfl
  · split <;> rfl

/-- The dispatcher has taken the regions of the words of a record of queue `n`. -/
def State.takeWords (s : State) (n : QueueId) (r : LaunchRec) : State :=
  (s.wordRegions (s.queue n).ctx r).foldl State.takeRegion s

theorem State.takeWords_nextLaunch (s : State) (n : QueueId) (r : LaunchRec) : (s.takeWords n r).nextLaunch = s.nextLaunch :=
  State.foldl_keeps State.nextLaunch _ _ State.takeRegion_nextLaunch s

/-- The launch made of a record and its image. -/
def State.newLaunch (s : State) (n : QueueId) (r : LaunchRec) (i : Image) : Launch where
  ctx := (s.queue n).ctx
  q := n
  rcd := r
  img := i
  argb := ((s.takeWords n r).readBytes (s.queue n).ctx r.args r.argsize).getD []
  ext := r.ext
  total := gridSize r.ext
  pendTeams := teamCoords r.ext i.stackComps (0, 0, 0)
  finished := 0
  triggered := 0
  finishedCoords := []
  gref := false
  done := false
  heldArr := []
  acct := []

theorem State.admitHead_of_ready (s : State) (n : QueueId) (r : LaunchRec) (i : Image) (hh : (s.queue n).head = .ready r i)
    (hm : s.mayAdmit n = true) (hc : s.ctxCodes (s.queue n).ctx = []) :
    s.admitHead n =
      { (s.takeWords n r).setQueue n
          { s.queue n with recs := (s.queue n).recs.drop 1, head := .raw } with
        launches := (s.takeWords n r).launches.set s.nextLaunch (s.newLaunch n r i)
        nextLaunch := s.nextLaunch + 1 } := by
  have hn : ((s.wordRegions (s.queue n).ctx r).foldl State.takeRegion s).nextLaunch = s.nextLaunch := s.takeWords_nextLaunch n r
  unfold State.admitHead
  dsimp only
  rw [hh]
  dsimp only
  rw [hm, hc, hn]
  rfl

theorem execLaunchAdmit_of_first (s : State) (q : QueueId) (e : Nat) (l : List (Nat × QueueId)) (ha : s.active.isSome = true)
    (hp : (s.pendingLaunch q).isNone = true) (ho : s.ageQueues.decisionOrder = (e, q) :: l) :
    execLaunchAdmit q s = next ((s.ageQueues.admitHead q).issuedAt e q) := by
  simp only [execLaunchAdmit, ho, ha, hp, beq_self_eq_true, Bool.and_self, if_true]

theorem execIssueDecision_of_inactive (s : State) (h : s.active = none) : execIssueDecision s = next s := by
  simp [execIssueDecision, h]

theorem execIssueDecision_of_offer (s s' : State) (e k : Nat) (n : QueueId) (l : List (Nat × QueueId)) (x : Launch)
    (ha : s.active.isSome = true) (ho : s.ageQueues.decisionOrder = (e, n) :: l)
    (hp : s.ageQueues.pendingLaunch n = some (k, x)) (hs : s.ageQueues.offer k x = some s') :
    execIssueDecision s = next (s'.issuedAt e n) := by
  simp only [execIssueDecision, ha, if_true, ho, State.decide_, hp, hs]

/-! ## The start of a task (R91, R96, R98) -/

theorem CoreS.swap_act (x : CoreS) (tag : PlaneTag) (h : x.planeReady tag = true) :
    (x.swap tag).act.st = .active ∧ (x.swap tag).act.tag = some tag := by
  unfold CoreS.swap
  split
  · assumption
  · rename_i hn
    simp only [CoreS.planeReady, Bool.or_eq_true, Bool.and_eq_true, beq_iff_eq] at h
    rcases h with h | h
    · exact absurd h hn
    · exact ⟨rfl, h.2⟩

/-- An acquire at `.dv` drops the clean lines of the core's L1 and changes nothing else of it. -/
theorem State.acquire_dv_core (s : State) (c : CoreId) :
    (s.acquire c .dv).core c = { s.core c with l1 := (s.core c).l1.filter (fun e => e.2.dirty != 0#128) } :=
  State.setCore_core_same ..

theorem State.charge_cores (s : State) (n : Nat) (st : StackId) (f : Acct → Acct) : (s.charge n st f).cores = s.cores := by
  unfold State.charge
  split <;> rfl

theorem State.charge_core (s : State) (n : Nat) (st : StackId) (f : Acct → Acct) (c : CoreId) :
    (s.charge n st f).core c = s.core c :=
  State.core_of_cores (s.charge_cores n st f) c

/-- A new task that enters a core finds its L1 empty, no declaration and no next task. -/
theorem State.taskStart_core (s : State) (c : CoreId) (ctx : CtxId) (n rank team seq : Nat) (coord : BitVec 48) (l : Launch)
    (hn : (s.core c).next = some (.new ctx n coord rank team seq)) (hl : s.launch? n = some l) (hm : s.coreMayStart c = true)
    (hp : (s.core c).planeReady (l.img.tag ctx) = true) :
    (s.taskStart c).core c = { (s.core c).swap (l.img.tag ctx) with
      next := none, decl := none, l1 := [], live := some (startTask ctx n l coord rank team) } := by
  unfold State.taskStart
  dsimp only
  rw [hn]
  dsimp only [Asg.who]
  rw [hl]
  dsimp only
  refine (congrArg (State.core · c) (if_neg (by simp [hm, hp]))).trans ?_
  change ((((((s.clearWindows c).setCore c { (s.core c).swap (l.img.tag ctx) with next := none, decl := none }).evictAllL1 c).charge
    n (stackOf c) id).setTask c (startTask ctx n l coord rank team)).acquire c .dv).core c = _
  rw [State.acquire_dv_core, State.setTask_core_of, if_pos rfl, State.charge_core, State.evictAllL1_core, State.setCore_core_same]
  rfl

/-- The state of R98. -/
theorem startTask_state (ctx : CtxId) (n rank team : Nat) (coord : BitVec 48) (l : Launch) :
    let t := startTask ctx n l coord rank team
    t.npos = BitVec.ofNat 64 l.img.entry ∧ t.regs = Regs.zero ∧ t.flight = [] ∧ t.pend = [] ∧ t.ops = [] ∧ t.cbs = [] ∧
      t.fstat = 0#7 ∧ t.cyc = 0 ∧ (∀ o, t.scrByte o = 0#8) ∧ (∀ k, t.isFull k = false) :=
  ⟨rfl, rfl, rfl, rfl, rfl, rfl, rfl, rfl, fun _ => BitVec.extractLsb'_zero, fun _ => rfl⟩

/-! ## The loader (R94) -/

theorem execPlaneLoadDone_of_read (s : State) (c : CoreId) (tag : PlaneTag) (i : Image) (b : List Byte)
    (hs : (s.core c).shd.st = .loading) (ht : (s.core c).shd.tag = some tag) (hi : s.taggedImage tag = some i)
    (hb : (s.core c).shd.bad = false)
    (hp : s.virtPoisoned tag.ctx (48 * i.dictCnt / 4096 + 2) (i.va + BitVec.ofNat 64 i.dictOff) (48 * i.dictCnt) = false)
    (hr : s.readBytes tag.ctx (i.va + BitVec.ofNat 64 i.dictOff) (48 * i.dictCnt) = some b) :
    execPlaneLoadDone c s =
      next (s.setCore c { s.core c with shd := ⟨.loaded, some tag, dictOf i.dictCnt b, false, false⟩ }) := by
  simp [execPlaneLoadDone, hs, ht, hi, hb, hp, hr]

/-! ## The release of a task (R182, R470) -/

theorem State.taskRelease_of_unready (s : State) (c : CoreId) (t : Task) (h : s.task? c = some t) (hs : t.settled = false)
    (he : s.endReady c t = false) : s.taskRelease c = s := by
  simp [State.taskRelease, h, hs, he]

theorem State.settleTask_of_waiting (s : State) (c : CoreId) (t : Task)
    (h : ((s.unprotect c t).releaseFor c t .dv).relWaits t.launch t.coord ((s.unprotect c t).releaseFor c t .dv).feSeq = true) :
    s.settleTask c t = (s.unprotect c t).releaseFor c t .dv := by
  unfold State.settleTask
  exact if_pos h

/-- A settlement that has to wait leaves what its release has done. -/
theorem State.taskRelease_of_waiting (s : State) (c : CoreId) (t : Task) (h : s.task? c = some t) (hs : t.settled = false)
    (he : s.endReady c t = true) :
    let r := (s.unprotect c t).releaseFor c t .dv
    r.relWaits t.launch t.coord r.feSeq = true → (∀ x, r.task? c = some x → x.settled = false) → s.taskRelease c = r := by
  intro r hw hx
  have hr : s.settleTask c t = r := s.settleTask_of_waiting c t hw
  clear_value r
  simp only [State.taskRelease, h, hs, he, hr, Bool.not_true, Bool.false_eq_true, if_false]
  split
  · rename_i x hc
    rw [hx x hc]
    rfl
  · rfl

theorem State.taskRelease_of_coming (s : State) (c : CoreId) (t : Task) (h : s.task? c = some t) (hs : t.settled = true)
    (hr : s.returnsComing t = true) : s.taskRelease c = s := by
  simp [State.taskRelease, h, hs, State.finishTask, hr]

theorem State.preCheck_cores (s : State) (st : StackId) : (s.preCheck st).cores = s.cores := by
  unfold State.preCheck
  dsimp only
  split <;> rfl

/-- A task whose returns have arrived leaves its core, which is then at its drain point. -/
theorem State.taskRelease_of_arrived (s : State) (c : CoreId) (t : Task) (h : s.task? c = some t) (hs : t.settled = true)
    (hr : s.returnsComing t = false) : (s.taskRelease c).task? c = none ∧ ((s.taskRelease c).core c).decl = none := by
  have hc : ∃ x : CoreS, (s.taskRelease c).core c = x.drained := by
    simp only [State.taskRelease, h, hs, State.finishTask, hr, Bool.false_eq_true, if_false, if_true]
    generalize State.leaveTeam _ _ _ = v
    refine ⟨((v.evictAllL1 c).clearWindows c).core c, ?_⟩
    rw [State.core, State.preCheck_cores]
    exact State.setCore_core_same ..
  obtain ⟨x, hx⟩ := hc
  rw [State.task?, hx]
  exact ⟨rfl, rfl⟩

/-! ## The statement -/

/-- Settles O60, clause by clause from the lemmas above. -/
theorem launchStages : Obligations.LaunchStages := by
  refine ⟨?stages, State.refuseHead_recs, execLaunchAdmit_of_first, ?admission,
    execIssueDecision_of_inactive, execIssueDecision_of_offer, ?start, startTask_state,
    execPlaneLoadDone_of_read, ?release⟩
  case stages =>
    intro s n va l q hr hm
    refine ⟨fun hh hv => ⟨fun r ha => ?record, execLaunchRecordRead_of_unreadable s n va l hr hm hh hv⟩,
      execLaunchRecordRead_of_invalid s n va l hr hm, fun r hh => ⟨fun i => execImageValidate_of_valid s n r i hm hh,
        fun c => execImageValidate_of_least s n r c hm hh⟩, fun r i hh => ?dependence⟩
    case record =>
      have h := execLaunchRecordRead_of_record s n va l r hr hm hh hv ha
      exact ⟨fun h1 h2 => h.trans (congrArg next (s.judge_of_none n _ _ (by simp [q, h1, h2]))),
        fun c hc hle => h.trans (congrArg next (s.judge_of_least n _ _ c hc hle))⟩
    case dependence =>
      have h := execDependenceMet_eq s n r i hm hh
      have hn (h1 : s.depCodes q.ctx r = []) (h2 : s.ctxCodes q.ctx = []) :=
        h.trans (congrArg next (s.judge_of_none n _ _ (by simp [q, h1, h2])))
      exact ⟨fun h1 h2 hd => (hn h1 h2).trans (congrArg next (if_pos hd)),
        fun h1 h2 hd => (hn h1 h2).trans (congrArg next (if_neg (by simp [q, hd]))),
        fun c hc hle => h.trans (congrArg next (s.judge_of_least n _ _ c hc hle))⟩
  case admission =>
    intro s n r i hh hm hc u
    have hu : u = _ := s.admitHead_of_ready n r i hh hm hc
    have hq : u.queue n = { s.queue n with recs := (s.queue n).recs.drop 1, head := .raw } := by
      rw [hu]
      exact State.setQueue_queue_same ..
    refine ⟨by rw [hu], by rw [hq], by rw [hq], s.newLaunch n r i, ?_, rfl, rfl, rfl, rfl, rfl, rfl, rfl, rfl, rfl⟩
    rw [hu]
    exact Tab.find_set_same ..
  case start =>
    intro s c ctx n rank team seq coord l hn hl hm hp
    have h := s.taskStart_core c ctx n rank team seq coord l hn hl hm hp
    refine ⟨_, rfl, ?_⟩
    rw [State.task?, h]
    exact ⟨rfl, rfl, rfl, rfl, (s.core c).swap_act _ hp⟩
  case release =>
    refine fun s c t h => ⟨fun hs he => congrArg next (s.taskRelease_of_unready c t h hs he), fun hs he hw hx => ?waits,
      fun hs hr => congrArg next (s.taskRelease_of_coming c t h hs hr),
      fun hs hr => ⟨_, rfl, s.taskRelease_of_arrived c t h hs hr⟩⟩
    case waits =>
      refine congrArg next (s.taskRelease_of_waiting c t h hs he ?_ hx)
      rw [State.relWaits, Bool.or_eq_true, Bool.or_eq_true, or_assoc]
      exact hw

end Sys2Proof.Machine
end

section
/-! PROOF. What reset leaves (R63, R65, R240, R310, R336, R411, R449, R489). -/

namespace Sys2Proof.Machine

/-- After reset no table of the state lists anything, so every part reads as the part's own reset value. -/
theorem State.reset_queue (q : QueueId) : State.reset.queue q = QueueS.reset := rfl
theorem State.reset_sem (n : SemId) : State.reset.sem n = SemS.reset := rfl
theorem State.reset_cluster (k : ClusterId) : State.reset.cluster k = ClusterS.reset := rfl
theorem State.reset_stack (k : StackId) : State.reset.stack k = StackS.reset := rfl
theorem State.reset_ctx (k : CtxId) : State.reset.ctx k = CtxS.reset := rfl
theorem State.reset_core (k : CoreId) : State.reset.core k = CoreS.reset := rfl

/-- Settles O22: every clause reads a field of a reset value. -/
theorem resetState : Obligations.ResetState := by
  refine ⟨rfl, fun _ => rfl, rfl, rfl, rfl, rfl, rfl, rfl, ?queues, ?sems, ?clusters, ?slices, ?outside, ?ctxs, ?service, ?power,
    ?debug, ?cores, rfl, rfl, rfl, rfl, rfl, rfl, rfl⟩
  case queues => intro q; simp only [State.reset_queue, QueueS.reset, and_self]
  case sems => intro n; simp only [State.reset_sem, SemS.reset, and_self]
  case clusters => intro k; simp only [State.reset_cluster, ClusterS.reset, and_self]
  case slices => intro k; simp only [State.reset_stack, StackS.reset, and_self]
  case outside => simp only [State.reset, and_self]
  case ctxs => intro k; simp only [State.reset_ctx, CtxS.reset, and_self]
  case service => intro k; simp only [State.reset_stack, StackS.reset, and_self]
  case power => intro k; simp only [State.reset_cluster, ClusterS.reset, and_self]
  case debug => intro k; simp only [State.reset_core, CoreS.reset, and_self]
  case cores => intro k; simp only [State.reset_core, CoreS.reset, Plane.reset, and_self]

end Sys2Proof.Machine
end

section
/-! PROOF. What the launch fixes for a task, and where a task is (R99 to R101, R141, R143, R192, R194). -/

namespace Sys2Proof.Machine

/-- A syllable that acts on its task alone changes it so wherever it is issued. -/
theorem changesTask_of_issue {i : Instr} {g : Guard} {f : State → Task → Task} (h : ∀ s, exec i s = s.issue g (f s)) :
    ChangesTask i g f :=
  fun s t ht => (h s).trans (s.issue_of_issues t g _ ht)

theorem State.fromLaunch_of_some (s : State) (t : Task) (l : Launch) (f : Launch → Word) (h : s.launch? t.launch = some l) :
    s.fromLaunch t f = f l := by
  simp only [State.fromLaunch, h]

/-- A syllable that puts a value of its task's launch in flight, issued by a task whose launch is found. -/
theorem State.issue_fromLaunch (s : State) (t : Task) (g : Guard) (lat : Nat) (d : Opd) (f : Launch → Word) (l : Launch)
    (h : Issues s t g) (hl : s.launch? t.launch = some l) :
    s.issue g (fun t => t.putW lat .A d (s.fromLaunch t f)) = .next (s.setTask s.cur (t.putW lat .A d (f l))) := by
  rw [s.issue_of_issues t g _ h, s.fromLaunch_of_some t l f hl]

/-- Settles O30: each syllable acts on its task where it issues, and what it puts in flight of a launch is read from that launch. -/
theorem taskConstantsAndLocate : Obligations.TaskConstantsAndLocate := by
  refine ⟨fun _ => changesTask_of_issue fun _ => rfl, fun _ => changesTask_of_issue fun _ => rfl,
    fun _ => changesTask_of_issue fun _ => rfl, fun _ => changesTask_of_issue fun _ => rfl, ?launch,
    fun _ => changesTask_of_issue fun _ => rfl, ?self⟩
  case launch =>
    intro f s t l h hl
    refine ⟨s.issue_fromLaunch t f.gd 1 f.d _ l h hl, s.issue_fromLaunch t f.gd 1 f.d _ l h hl,
      s.issue_fromLaunch t f.gd 4 f.d _ l h hl, ?_⟩
    rw [BitVec.ofNat_toNat]
    exact s.issue_fromLaunch t f.gd 1 f.d (fun l => l.rcd.lid.setWidth 64) l h hl
  case self =>
    intro f
    simp only [BitVec.ofNat_toNat]
    exact changesTask_of_issue fun _ => rfl

end Sys2Proof.Machine
end

section
/-! PROOF. A context swapped out with release (R246, R360, R434, R438). -/

namespace Sys2Proof.Machine

/-- A task of context 0 that waits with `tkwait` for the token of a region of 4 KiB, by its line name, on an unbacked page. -/
def tokenWaiter : Task := { Task.fresh 0 0 0#48 0 0 0#64 with waits := [.token false 0x40000000#64 (2 ^ 50) 4] }

/-- Its team, of one task, on stack 0. -/
def waiterTeam : Team := ⟨0, 0, 0#48, 0, 1, 1, 0, 1, [], [], none, [], false⟩

/-- That task on core 0, in a context with one save slot and an unbacked page of 1 GiB at 1 GiB homed at stack 0, which has a frame
for it in its pool. The leaf entry has UNB, W and P set and names the lines from 2^50 on (R230). -/
def unbackedWait : State :=
  let s := State.reset.withFetchWord 384 0
  (({ s with
      mem := Memory.putNum s.mem 0x3008 8 (2 ^ 55 + 2 ^ 50 + 0x921)
      pools := [(poolKey 0 4, [0x80000000#52])] }.setTask 0 tokenWaiter).setStack 0
    { s.stack 0 with teams := [(0, waiterTeam)] }).setCtx 0 { s.ctx 0 with slots := 1 }

/-- The context has a slot for its one task, which the command names. -/
theorem unbackedWait_hasSlot :
    unbackedWait.task? 0 = some tokenWaiter ∧ (unbackedWait.stack 0).preBusy = false ∧
    ((unbackedWait.stack 0).teams.filter (fun e => e.2.ctx == 0)).map Prod.fst = [0] ∧
    unbackedWait.newlySaved 0 [0] + (unbackedWait.slotsHeld 0 + unbackedWait.slotsKept 0 0 [0]) ≤ (unbackedWait.ctx 0).slots.toNat := by
  decide +kernel

/-- With the release the page is backed, and the region that the held task waits for goes by its frame address from then on (R360). -/
theorem unbackedWait_released :
    ∃ u, exec (.preemptSwapOutRelease 0 0) unbackedWait = .next u ∧
      u.task? 0 = some { tokenWaiter.hold with waits := [.token false 0x40000000#64 0x80000000 4] } :=
  ⟨_, rfl, by decide +kernel⟩

/-- Refutes O18: a suspend with release backs the unbacked pages of the context, and the region identities of a backed page change to
its frame addresses (R246, R360), so a task that it holds while it waits for a token on such a page is not left as it was. -/
theorem not_faultRepliesPreemptionAndDebug : ¬ Obligations.FaultRepliesPreemptionAndDebug := by
  intro h
  obtain ⟨_, _, _, _, suspends, _⟩ := h
  obtain ⟨current, idle, named, room⟩ := unbackedWait_hasSlot
  obtain ⟨-, release⟩ := suspends unbackedWait 0 tokenWaiter 0 current rfl idle
  have hmem : tokenWaiter.team ∈ ((unbackedWait.stack 0).teams.filter (fun e => e.2.ctx == tokenWaiter.ctx)).map Prod.fst :=
    named ▸ List.mem_singleton_self 0
  obtain ⟨u, hu, held, -⟩ := release hmem (named ▸ room)
  obtain ⟨v, hv, moved⟩ := unbackedWait_released
  have huv : u = v := Host.Outcome.next.inj (hu.symm.trans hv)
  have waits := congrArg (Option.map Task.waits) (moved.symm.trans (huv ▸ held))
  exact absurd waits (by decide)

end Sys2Proof.Machine
end

section
/-! PROOF. Decoding and encoding are inverse to each other (R113 to R123). -/

namespace Sys2Proof.Laws.RoundTrip

/-- The lemmas of every constructor, in the order of the opcode table. -/
theorem all (i : Instr) : Statement i :=
  i.casesOn (motive := Statement)
    nop xcp br brx call callx ret loop loopRot lpend lpbrk endTask svc brk sysr sysw tstamp rdcyc cli cmov cadd csub cand
    cor cxor ccmp pand por pxor pmov pset setld add sub mul mulh div rem and or xor andn shl shr sar rot min max abs neg cmp
    sel mov li lih lihHi bfx bfi clz ctz pcnt brev bswap lea sadd ssub madd ext clamp tst addc subb hmix align crc bset bclr
    bflip pack crd rank rankSz cbase argb locq locqSelf ctxid ctxidLid rdld rdrb vadd vsub vmul vfma vfms vfnma vmin vmax
    vabs vneg vfrcp vfsqrt vdiv vscl vcmp vsel vany vall kand kor kxor kmov vand vor vxor vandn vshl vshr vsar vmov vperm
    vshuf vrotl vbrev vzip vuzp vlane vli vcmul vbfly vconj vmulh vsadd vssub vdot vpcnt vcvt vqnt vdqnt vamax vred vcnt
    vpack4 vunpk4 vclz vrnd vclass vmadd vext vclamp vinsl kpop vsort2 vmaxi vmini vbcst vsgn vmerge vtrn vrev ld st ldv stv
    ldpi stpi ldf lde ste stf clre gth sct ldb probe pref disc cbdef cbget cbput fence cbqry ldvs stvs ldvm stvm mmov xadd
    xli xmov cpy cpymx cpyMig cpyq cpyx mxfmt mxlen mxseed mxthr mxset mxgo mxgos mxgoa mxdrain mxrd mxclr mxsel mxst mxmute
    phase phq mxstop tklend tkret tksplit tkjoin tkshr tkunsh tkrcl tkwait tkwaitSh tkqry arrive arriveRel waitph trig grow
    rmin rmax rsum redf amor cas yli ymov amoAdd amoMin amoMax amoAnd amoOr amoXor phdef yadd fetch taskRelease
    feAccessArrival fenceComplete copyAccept copyStart copyComplete followOnCommit arrayStart arrayStep arrayCommandEnd
    phaseWindowOpen phaseWindowEnd tokenMessageArrival tokenRecordClear phaseArrival roundReceive amoApply triggerCount
    growApply resultLand lateLoadArrival interlockedArrival writeAtHome spillProceed poolPush resvWrite tlbinv
    carveoutPeriod carveoutMoveDone semAcquire semRelease semLeaseExpire dispatcherTakeover queueEnable queueDisable
    queueConfigure queuePush launchRecordRead imageValidate dependenceMet launchAdmit issueDecision taskStart planeLoadDone
    contextEnd fatalContextError eltailWrite faultPop freplyServiced freplyRefused freplyEndContext preemptSuspend
    preemptSwapOutRelease preemptResume taskSuspend teamResume saveAreaCheck softError selfTestDone poisonConsumed
    teamReplay stackResetQuiesce stackResetNoQuiesce stackResetDone debugHaltRequest debugHalt debugResume debugDataWrite
    deadlockWalk nakRetry droopAlarm stretchEnd halfIssueWindowEnd thermalTrip currentTrip tripClear clockSet vsetWrite
    relockDone watchdogKick watchdogExpire registerWrite contextConfigure clusterQuiesceRequest clusterPowerCommand
    clusterWake clusterTransitionDone pfSelect attestRequest attestDone linkEnable linkUp routeWrite moduleUnreachable
    remoteGrantReceive remoteArrival flitReceive flitReplay campionReset moduleReset bringUpStage tlbDropComplete
    arrivalAcknowledgement

end Sys2Proof.Laws.RoundTrip

namespace Sys2Proof.Laws

open Sys2Proof.Machine

/-- Settles O2: the decoder reads back each constructor's syllable. -/
theorem encodeThenDecode : Obligations.EncodeThenDecode :=
  fun i sl hw hs => RoundTrip.all i hw sl hs

/-! ## Field codes: what a parsed field is written back as (R115, R119) -/

theorem opdToBits_of_opdOfBits {b : BitVec 8} {o : Opd} (h : opdOfBits b = some o) : opdToBits o = b := by
  have inverse : ∀ b, ∀ o ∈ opdOfBits b, opdToBits o = b := by decide
  exact inverse b o h

@[simp] theorem bit1_isOne (b : BitVec 1) : bit1 (isOne b) = b := by revert b; decide
@[simp] theorem tyToBits_tyOfBits (b : BitVec 4) : tyToBits (tyOfBits b) = b := by revert b; decide
@[simp] theorem rmToBits_rmOfBits (b : BitVec 2) : rmToBits (rmOfBits b) = b := by revert b; decide

theorem cndToBits_of_cndOfBits {b : BitVec 4} {c : Cnd} (h : cndOfBits b = some c) : cndToBits c = b := by
  revert b; cases c <;> decide

theorem scopeToBits_of_scopeOfBits {b : BitVec 3} {c : Scope} (h : scopeOfBits b = some c) : scopeToBits c = b := by
  revert b; cases c <;> decide

theorem slotToBits_of_slotOfBits {b : BitVec 3} {c : Slot} (h : slotOfBits b = some c) : slotToBits c = b := by
  revert b; cases c <;> decide

theorem check_eq_some {α : Type} {b : Bool} {a f : α} : check b a = some f ↔ b = true ∧ a = f := by
  cases b <;> simp [check]

/-! ## The fields of a syllable put together again (R113) -/

theorem syl_fields (w : Word) : syl (fOp w) (fGuard w) (fD w) (fS1 w) (fS2 w) (fMod w) = w := by
  simp only [syl, fOp, fGuard, fD, fS1, fS2, fMod, bit1_isOne]
  simp (disch := omega) only [BitVec.extractLsb'_append_extractLsb'_eq_extractLsb']
  exact extract_all w

theorem syl_of_fields {w : Word} {d s1 s2 : BitVec 8} {m : BitVec 25} (hd : d = fD w) (h1 : s1 = fS1 w) (h2 : s2 = fS2 w)
    (hm : m = fMod w) : syl (fOp w) (fGuard w) d s1 s2 m = w := by
  rw [hd, h1, h2, hm, syl_fields]

theorem syl_of_opds {w : Word} {d s1 s2 : Opd} {m : BitVec 25} (hd : opdOfBits (fD w) = some d) (h1 : opdOfBits (fS1 w) = some s1)
    (h2 : opdOfBits (fS2 w) = some s2) (hm : m = fMod w) :
    syl (fOp w) (fGuard w) (opdToBits d) (opdToBits s1) (opdToBits s2) m = w :=
  syl_of_fields (opdToBits_of_opdOfBits hd) (opdToBits_of_opdOfBits h1) (opdToBits_of_opdOfBits h2) hm

/-! ## The parsers of the formats read exactly what the packers write (R118) -/

/-- How the formats with three operands are parsed: `k` of the operands, where each is one. -/
def withOpds {α : Type} (w : Word) (k : Opd → Opd → Opd → Option α) : Option α :=
  match opdOfBits (fD w), opdOfBits (fS1 w), opdOfBits (fS2 w) with
  | some d, some s1, some s2 => k d s1 s2
  | _, _, _ => none

/-- The operands of a parsed format pack to the fields they were read from. -/
theorem of_withOpds {α : Type} {w : Word} {b : Bool} {mk : Opd → Opd → Opd → α} {f : α}
    (h : withOpds w (fun d s1 s2 => check b (mk d s1 s2)) = some f) :
    b = true ∧ ∃ d s1 s2, mk d s1 s2 = f ∧ opdToBits d = fD w ∧ opdToBits s1 = fS1 w ∧ opdToBits s2 = fS2 w := by
  unfold withOpds at h
  split at h
  next d s1 s2 hd h1 h2 =>
    obtain ⟨hb, hf⟩ := check_eq_some.mp h
    exact ⟨hb, d, s1, s2, hf, opdToBits_of_opdOfBits hd, opdToBits_of_opdOfBits h1, opdToBits_of_opdOfBits h2⟩
  next => cases h

section

variable {w : Word}

theorem parseCR_eq_some {f : FmtCR} : parseCR w = some f ↔ packCR (fOp w) f = w := by
  refine ⟨fun h => ?_, fun h => h ▸ parseCR_packCR _ f⟩
  unfold parseCR at h
  split at h
  next _ _ _ _ hd h1 h2 hc =>
    obtain ⟨hz, rfl⟩ := check_eq_some.mp h
    refine syl_of_opds hd h1 h2 ?_
    simp (disch := omega) only [tyToBits_tyOfBits, cndToBits_of_cndOfBits hc, ← eq_of_beq hz,
      BitVec.extractLsb'_append_extractLsb'_eq_extractLsb']
    exact extract_all (fMod w)
  next => cases h

theorem parseCI_eq_some {f : FmtCI} : parseCI w = some f ↔ packCI (fOp w) f = w := by
  refine ⟨fun h => ?_, fun h => h ▸ parseCI_packCI _ f⟩
  obtain ⟨hz, _, _, _, rfl, hd, h1, h2⟩ := of_withOpds h
  refine syl_of_fields hd h1 h2 ?_
  simp (disch := omega) only [← eq_of_beq hz, BitVec.extractLsb'_append_extractLsb'_eq_extractLsb']
  exact extract_all (fMod w)

theorem parseCP_eq_some {f : FmtCP} : parseCP w = some f ↔ packCP (fOp w) f = w := by
  refine ⟨fun h => ?_, fun h => h ▸ parseCP_packCP _ f⟩
  obtain ⟨hz, _, _, _, rfl, hd, h1, h2⟩ := of_withOpds h
  refine syl_of_fields hd h1 h2 ?_
  simp (disch := omega) only [bit1_isOne, ← eq_of_beq hz, BitVec.extractLsb'_append_extractLsb'_eq_extractLsb']
  exact extract_all (fMod w)

theorem parseCS_eq_some {f : FmtCS} : parseCS w = some f ↔ packCS (fOp w) f = w := by
  refine ⟨fun h => ?_, fun h => h ▸ parseCS_packCS _ f⟩
  obtain ⟨hz, _, _, _, rfl, hd, h1, h2⟩ := of_withOpds h
  refine syl_of_fields hd h1 h2 ?_
  simp (disch := omega) only [← eq_of_beq hz, BitVec.extractLsb'_append_extractLsb'_eq_extractLsb']
  exact extract_all (fMod w)

theorem parseAR_eq_some {f : FmtAR} : parseAR w = some f ↔ packAR (fOp w) f = w := by
  refine ⟨fun h => ?_, fun h => h ▸ parseAR_packAR _ f⟩
  unfold parseAR at h
  split at h
  next _ _ _ _ hd h1 h2 hc =>
    obtain ⟨hz, rfl⟩ := check_eq_some.mp h
    refine syl_of_opds hd h1 h2 ?_
    simp (disch := omega) only [tyToBits_tyOfBits, cndToBits_of_cndOfBits hc, ← eq_of_beq hz,
      BitVec.extractLsb'_append_extractLsb'_eq_extractLsb']
    exact extract_all (fMod w)
  next => cases h

theorem parseAF_eq_some {f : FmtAF} : parseAF w = some f ↔ packAF (fOp w) f = w := by
  refine ⟨fun h => ?_, fun h => h ▸ parseAF_packAF _ f⟩
  obtain ⟨hz, _, _, _, rfl, hd, h1, h2⟩ := of_withOpds h
  refine syl_of_fields hd h1 h2 ?_
  simp (disch := omega) only [← eq_of_beq hz, BitVec.extractLsb'_append_extractLsb'_eq_extractLsb']
  exact extract_all (fMod w)

theorem parseVR_eq_some {f : FmtVR} : parseVR w = some f ↔ packVR (fOp w) f = w := by
  refine ⟨fun h => ?_, fun h => h ▸ parseVR_packVR _ f⟩
  obtain ⟨-, _, _, _, rfl, hd, h1, h2⟩ := of_withOpds h
  refine syl_of_fields hd h1 h2 ?_
  simp (disch := omega) only [tyToBits_tyOfBits, rmToBits_rmOfBits, bit1_isOne, BitVec.extractLsb'_append_extractLsb'_eq_extractLsb']
  exact extract_all (fMod w)

theorem parseVI_eq_some {f : FmtVI} : parseVI w = some f ↔ packVI (fOp w) f = w := by
  refine ⟨fun h => ?_, fun h => h ▸ parseVI_packVI _ f⟩
  obtain ⟨-, _, _, _, rfl, hd, h1, h2⟩ := of_withOpds h
  refine syl_of_fields hd h1 h2 ?_
  simp (disch := omega) only [tyToBits_tyOfBits, bit1_isOne, BitVec.extractLsb'_append_extractLsb'_eq_extractLsb']
  exact extract_all (fMod w)

theorem parseVK_eq_some {f : FmtVK} : parseVK w = some f ↔ packVK (fOp w) f = w := by
  refine ⟨fun h => ?_, fun h => h ▸ parseVK_packVK _ f⟩
  obtain ⟨hz, _, _, _, rfl, hd, h1, h2⟩ := of_withOpds h
  refine syl_of_fields hd h1 h2 ?_
  exact (eq_of_beq hz).symm.trans (extract_all (fMod w))

theorem parseVC_eq_some {f : FmtVC} : parseVC w = some f ↔ packVC (fOp w) f = w := by
  refine ⟨fun h => ?_, fun h => h ▸ parseVC_packVC _ f⟩
  obtain ⟨hz, _, _, _, rfl, hd, h1, h2⟩ := of_withOpds h
  refine syl_of_fields hd h1 h2 ?_
  simp (disch := omega) only [tyToBits_tyOfBits, rmToBits_rmOfBits, bit1_isOne, ← eq_of_beq hz,
    BitVec.extractLsb'_append_extractLsb'_eq_extractLsb']
  exact extract_all (fMod w)

theorem parseVP_eq_some {f : FmtVP} : parseVP w = some f ↔ packVP (fOp w) f = w := by
  refine ⟨fun h => ?_, fun h => h ▸ parseVP_packVP _ f⟩
  obtain ⟨hz, _, _, _, rfl, hd, h1, h2⟩ := of_withOpds h
  refine syl_of_fields hd h1 h2 ?_
  simp (disch := omega) only [tyToBits_tyOfBits, ← eq_of_beq hz, BitVec.extractLsb'_append_extractLsb'_eq_extractLsb']
  exact extract_all (fMod w)

theorem parseML_eq_some {f : FmtML} : parseML w = some f ↔ packML (fOp w) f = w := by
  refine ⟨fun h => ?_, fun h => h ▸ parseML_packML _ f⟩
  unfold parseML at h
  split at h
  next _ _ _ _ hd h1 h2 hc =>
    obtain ⟨hz, rfl⟩ := check_eq_some.mp h
    refine syl_of_opds hd h1 h2 ?_
    simp (disch := omega) only [scopeToBits_of_scopeOfBits hc, ← eq_of_beq hz,
      BitVec.extractLsb'_append_extractLsb'_eq_extractLsb']
    exact extract_all (fMod w)
  next => cases h

theorem parseMG_eq_some {f : FmtMG} : parseMG w = some f ↔ packMG (fOp w) f = w := by
  refine ⟨fun h => ?_, fun h => h ▸ parseMG_packMG _ f⟩
  obtain ⟨hz, _, _, _, rfl, hd, h1, h2⟩ := of_withOpds h
  refine syl_of_fields hd h1 h2 ?_
  simp (disch := omega) only [tyToBits_tyOfBits, ← eq_of_beq hz, BitVec.extractLsb'_append_extractLsb'_eq_extractLsb']
  exact extract_all (fMod w)

theorem parseMI_eq_some {f : FmtMI} : parseMI w = some f ↔ packMI (fOp w) f = w := by
  refine ⟨fun h => ?_, fun h => h ▸ parseMI_packMI _ f⟩
  obtain ⟨hz, _, _, _, rfl, hd, h1, h2⟩ := of_withOpds h
  refine syl_of_fields hd h1 h2 ?_
  simp (disch := omega) only [← eq_of_beq hz, BitVec.extractLsb'_append_extractLsb'_eq_extractLsb']
  exact extract_all (fMod w)

theorem parseEC_eq_some {f : FmtEC} : parseEC w = some f ↔ packEC (fOp w) f = w := by
  refine ⟨fun h => ?_, fun h => h ▸ parseEC_packEC _ f⟩
  obtain ⟨hz, _, _, _, rfl, hd, h1, h2⟩ := of_withOpds h
  refine syl_of_fields hd h1 h2 ?_
  simp (disch := omega) only [bit1_isOne, ← eq_of_beq hz, BitVec.extractLsb'_append_extractLsb'_eq_extractLsb']
  exact extract_all (fMod w)

theorem parseEM_eq_some {f : FmtEM} : parseEM w = some f ↔ packEM (fOp w) f = w := by
  refine ⟨fun h => ?_, fun h => h ▸ parseEM_packEM _ f⟩
  obtain ⟨hz, _, _, _, rfl, hd, h1, h2⟩ := of_withOpds h
  rw [Bool.and_eq_true] at hz
  refine syl_of_fields hd h1 h2 ?_
  simp (disch := omega) only [bit1_isOne, ← eq_of_beq hz.1, ← eq_of_beq hz.2, BitVec.extractLsb'_append_extractLsb'_eq_extractLsb']
  exact extract_all (fMod w)

theorem parseEI_eq_some {f : FmtEI} : parseEI w = some f ↔ packEI (fOp w) f = w := by
  refine ⟨fun h => ?_, fun h => h ▸ parseEI_packEI _ f⟩
  obtain ⟨-, _, _, _, rfl, hd, h1, h2⟩ := of_withOpds h
  refine syl_of_fields hd h1 h2 ?_
  simp (disch := omega) only [bit1_isOne, BitVec.extractLsb'_append_extractLsb'_eq_extractLsb']
  exact extract_all (fMod w)

theorem parseEP_eq_some {f : FmtEP} : parseEP w = some f ↔ packEP (fOp w) f = w := by
  refine ⟨fun h => ?_, fun h => h ▸ parseEP_packEP _ f⟩
  obtain ⟨hz, _, _, _, rfl, hd, h1, h2⟩ := of_withOpds h
  refine syl_of_fields hd h1 h2 ?_
  simp (disch := omega) only [← eq_of_beq hz, BitVec.extractLsb'_append_extractLsb'_eq_extractLsb']
  exact extract_all (fMod w)

theorem parseYT_eq_some {f : FmtYT} : parseYT w = some f ↔ packYT (fOp w) f = w := by
  refine ⟨fun h => ?_, fun h => h ▸ parseYT_packYT _ f⟩
  unfold parseYT at h
  split at h
  next _ _ _ _ hd h1 h2 hc =>
    obtain ⟨hz, rfl⟩ := check_eq_some.mp h
    refine syl_of_opds hd h1 h2 ?_
    simp (disch := omega) only [scopeToBits_of_scopeOfBits hc, ← eq_of_beq hz,
      BitVec.extractLsb'_append_extractLsb'_eq_extractLsb']
    exact extract_all (fMod w)
  next => cases h

theorem parseYS_eq_some {f : FmtYS} : parseYS w = some f ↔ packYS (fOp w) f = w := by
  refine ⟨fun h => ?_, fun h => h ▸ parseYS_packYS _ f⟩
  unfold parseYS at h
  split at h
  next _ _ _ _ hd h1 h2 hc =>
    obtain ⟨hz, rfl⟩ := check_eq_some.mp h
    refine syl_of_opds hd h1 h2 ?_
    simp (disch := omega) only [tyToBits_tyOfBits, scopeToBits_of_scopeOfBits hc, ← eq_of_beq hz,
      BitVec.extractLsb'_append_extractLsb'_eq_extractLsb']
    exact extract_all (fMod w)
  next => cases h

theorem parseYI_eq_some {f : FmtYI} : parseYI w = some f ↔ packYI (fOp w) f = w := by
  refine ⟨fun h => ?_, fun h => h ▸ parseYI_packYI _ f⟩
  obtain ⟨hz, _, _, _, rfl, hd, h1, h2⟩ := of_withOpds h
  refine syl_of_fields hd h1 h2 ?_
  simp (disch := omega) only [← eq_of_beq hz, BitVec.extractLsb'_append_extractLsb'_eq_extractLsb']
  exact extract_all (fMod w)

end

theorem parseN_eq_some {w : Word} {f : FmtN} : parseN w = some f ↔ packN (fOp w) f = w := by
  refine ⟨fun h => ?_, fun h => h ▸ parseN_packN _ f⟩
  obtain ⟨hz, rfl⟩ := check_eq_some.mp h
  simp only [Bool.and_eq_true, beq_iff_eq] at hz
  obtain ⟨⟨⟨hd, h1⟩, h2⟩, hz⟩ := hz
  refine syl_of_fields hd.symm h1.symm h2.symm ?_
  simp (disch := omega) only [← hz, BitVec.extractLsb'_append_extractLsb'_eq_extractLsb']
  exact extract_all (fMod w)

theorem parseCK_eq_some {w : Word} {f : FmtCK} : parseCK w = some f ↔ packCK (fOp w) f = w := by
  refine ⟨fun h => ?_, fun h => h ▸ parseCK_packCK _ f⟩
  obtain ⟨hz, rfl⟩ := check_eq_some.mp h
  simp only [Bool.and_eq_true, beq_iff_eq] at hz
  obtain ⟨⟨⟨hd, h1⟩, h2⟩, hz⟩ := hz
  refine syl_of_fields hd.symm h1.symm h2.symm ?_
  simp (disch := omega) only [← hz, BitVec.extractLsb'_append_extractLsb'_eq_extractLsb']
  exact extract_all (fMod w)

theorem parseX_eq_some {w : Word} {f : FmtX} : parseX w = some f ↔ packX (fOp w) f = w := by
  refine ⟨fun h => ?_, fun h => h ▸ parseX_packX _ f⟩
  unfold parseX at h
  split at h
  next _ _ _ hd h1 hs =>
    obtain ⟨hz, rfl⟩ := check_eq_some.mp h
    simp only [Bool.and_eq_true, beq_iff_eq] at hz
    obtain ⟨h2, hz⟩ := hz
    refine syl_of_fields (opdToBits_of_opdOfBits hd) (opdToBits_of_opdOfBits h1) h2.symm ?_
    simp (disch := omega) only [slotToBits_of_slotOfBits hs, ← hz, BitVec.extractLsb'_append_extractLsb'_eq_extractLsb']
    exact extract_all (fMod w)
  next => cases h

/-- OFF is read from S1, S2 and the modifiers, and stands there again. -/
theorem parseCB_eq_some {w : Word} {f : FmtCB} : parseCB w = some f ↔ packCB (fOp w) f = w := by
  refine ⟨fun h => ?_, fun h => h ▸ parseCB_packCB _ f⟩
  unfold parseCB at h
  split at h
  next _ hd =>
    obtain ⟨hz, rfl⟩ := check_eq_some.mp h
    refine syl_of_fields (opdToBits_of_opdOfBits hd) ?s1 ?s2 ?mod
    case s1 => exact (extract_append_hi _ _ 20 8 (by omega)).trans (extract_all _)
    case s2 =>
      refine (extract_append_lo _ _ 12 8 (by omega)).trans ?_
      exact (extract_append_hi _ _ 12 8 (by omega)).trans (extract_all _)
    case mod =>
      simp (disch := omega) only [extract_append_lo, extract_all, ← eq_of_beq hz,
        BitVec.extractLsb'_append_extractLsb'_eq_extractLsb']
  next => cases h

theorem xBit_eq_fMod (w : Word) : xBit w = isOne ((fMod w).extractLsb' 0 1) := by
  simp [xBit, fMod]

theorem parseAI_eq_some {w : Word} {f : FmtAI} : parseAI w = some f ↔ packAI (fOp w) (xBit w) f = w := by
  refine ⟨fun h => ?_, fun h => h ▸ parseAI_packAI _ _ f⟩
  obtain ⟨-, _, _, _, rfl, hd, h1, h2⟩ := of_withOpds h
  refine syl_of_fields hd h1 h2 ?_
  simp (disch := omega) only [xBit_eq_fMod, bit1_isOne, BitVec.extractLsb'_append_extractLsb'_eq_extractLsb']
  exact extract_all (fMod w)

theorem parseAI0_eq_some {w : Word} {f : FmtAI} : parseAI0 w = some f ↔ packAI (fOp w) false f = w := by
  refine ⟨fun h => ?_, fun h => h ▸ parseAI0_packAI _ f⟩
  unfold parseAI0 at h
  split at h
  next => cases h
  next hx => rwa [← eq_false_of_ne_true hx, ← parseAI_eq_some]

/-! ## The opcode maps: an instruction read encodes to its syllable (R121) -/

theorem under_eq_ok {α : Type} {c : α → Instr} {o : Option α} {i : Instr} :
    under c o = .ok i ↔ ∃ f, o = some f ∧ c f = i := by
  cases o <;> simp [under]

theorem encode_of_decodeC {n : Nat} {w : Word} {i : Instr} (hop : fOp w = BitVec.ofNat 7 n) (h : decodeC n w = .ok i) :
    slotOf i = some .C ∧ encode i = w := by
  unfold decodeC at h
  split at h <;>
    simp only [under_eq_ok, parseN_eq_some, parseX_eq_some, parseCB_eq_some, parseCR_eq_some, parseCK_eq_some, parseCS_eq_some,
      parseCI_eq_some, parseCP_eq_some, hop, reduceCtorEq] at h <;>
    obtain ⟨f, hf, rfl⟩ := h <;>
    exact ⟨rfl, hf⟩

theorem encode_of_decodeV {n : Nat} {w : Word} {i : Instr} (hop : fOp w = BitVec.ofNat 7 n) (h : decodeV n w = .ok i) :
    slotOf i = some .V ∧ encode i = w := by
  unfold decodeV at h
  split at h <;>
    simp only [under_eq_ok, parseN_eq_some, parseX_eq_some, parseVR_eq_some, parseVI_eq_some, parseVK_eq_some, parseVC_eq_some,
      parseVP_eq_some, hop, reduceCtorEq] at h <;>
    obtain ⟨f, hf, rfl⟩ := h <;>
    exact ⟨rfl, hf⟩

theorem encode_of_decodeM {n : Nat} {w : Word} {i : Instr} (hop : fOp w = BitVec.ofNat 7 n) (h : decodeM n w = .ok i) :
    slotOf i = some .M ∧ encode i = w := by
  unfold decodeM at h
  split at h <;>
    simp only [under_eq_ok, parseN_eq_some, parseX_eq_some, parseML_eq_some, parseMG_eq_some, parseMI_eq_some, hop,
      reduceCtorEq] at h <;>
    obtain ⟨f, hf, rfl⟩ := h <;>
    exact ⟨rfl, hf⟩

theorem encode_of_decodeE {n : Nat} {w : Word} {i : Instr} (hop : fOp w = BitVec.ofNat 7 n) (h : decodeE n w = .ok i) :
    slotOf i = some .E ∧ encode i = w := by
  unfold decodeE at h
  split at h <;>
    simp only [under_eq_ok, parseN_eq_some, parseX_eq_some, parseEC_eq_some, parseEM_eq_some, parseEI_eq_some,
      parseEP_eq_some, hop, reduceCtorEq] at h <;>
    obtain ⟨f, hf, rfl⟩ := h <;>
    exact ⟨rfl, hf⟩

/-- The X bit of format A-I chooses between two instructions, and each packs it again (R190, R192). -/
theorem encode_of_decodeA {n : Nat} {w : Word} {i : Instr} (hop : fOp w = BitVec.ofNat 7 n) (h : decodeA n w = .ok i) :
    slotOf i = some .A ∧ encode i = w := by
  unfold decodeA at h
  cases hx : xBit w <;> split at h <;>
    simp only [under_eq_ok, parseN_eq_some, parseX_eq_some, parseAR_eq_some, parseAI_eq_some, parseAI0_eq_some, parseAF_eq_some,
      hop, hx, Bool.false_eq_true, if_true, if_false, reduceCtorEq] at h <;>
    obtain ⟨f, hf, rfl⟩ := h <;>
    exact ⟨rfl, hf⟩

/-- Bit 0 of SHK chooses the form of `tkwait`; both forms pack SHK as a whole (R387). -/
theorem encode_of_decodeY {n : Nat} {w : Word} {i : Instr} (hop : fOp w = BitVec.ofNat 7 n) (h : decodeY n w = .ok i) :
    slotOf i = some .Y ∧ encode i = w := by
  unfold decodeY at h
  cases hx : shkBit w <;> split at h <;>
    simp only [under_eq_ok, parseN_eq_some, parseX_eq_some, parseYT_eq_some, parseYS_eq_some, parseYI_eq_some,
      hop, hx, Bool.false_eq_true, if_true, if_false, reduceCtorEq] at h <;>
    obtain ⟨f, hf, rfl⟩ := h <;>
    exact ⟨rfl, hf⟩

theorem encode_of_decodeFields {sl : Slot} {w : Word} {i : Instr} (h : decodeFields sl w = .ok i) :
    slotOf i = some sl ∧ encode i = w := by
  have hop : fOp w = BitVec.ofNat 7 (fOp w).toNat := by simp
  cases sl with
  | C => exact encode_of_decodeC hop h
  | A => exact encode_of_decodeA hop h
  | V => exact encode_of_decodeV hop h
  | M => exact encode_of_decodeM hop h
  | E => exact encode_of_decodeE hop h
  | Y => exact encode_of_decodeY hop h

theorem of_decodeSyl {sl : Slot} {w : Word} {i : Instr} (h : decodeSyl sl w = .ok i) :
    decodeFields sl w = .ok i ∧ i.WellFormed := by
  unfold decodeSyl at h
  split at h
  next j hj =>
    split at h
    next hw =>
      cases h
      exact ⟨hj, hw⟩
    next => cases h
  next => cases h

/-- Settles O3: what an opcode map reads encodes to its syllable, and the entry check has passed. -/
theorem decodeThenEncode : Obligations.DecodeThenEncode := by
  intro sl w i h
  obtain ⟨hf, hw⟩ := of_decodeSyl h
  obtain ⟨hs, he⟩ := encode_of_decodeFields hf
  exact ⟨hs, hw, he⟩

/-- Settles O1: the decoder evaluated on the words of the spec's examples. -/
theorem encodedWordsDecode : Obligations.EncodedWordsDecode := by
  unfold Obligations.EncodedWordsDecode
  decide +kernel

end Sys2Proof.Laws
end

section
/-! PROOF. A syllable whose guard does not pass (R114, R117, R337). -/

namespace Sys2Proof.Machine

open Sys2Proof.Laws

/-! ## The guard of a syllable as its bits (R113, R114) -/

/-- Every format packs its guard where R113 puts it. -/
theorem fGuard_encode {i : Instr} {sl : Slot} (hs : slotOf i = some sl) : fGuard (encode i) = (usesOf i).gd := by
  cases i <;> cases hs <;> exact fGuard_syl ..

/-- Every entry check but that of `nop` checks the guard first. -/
theorem guardOk_of_wellFormed {i : Instr} {sl : Slot} (hs : slotOf i = some sl) (h : i.WellFormed) :
    guardOk (usesOf i).gd = true := by
  cases i <;> cases hs
  case nop => exact Bool.and_elim_right (Bool.and_elim_left h)
  all_goals
    repeat replace h := Bool.and_elim_left h
    exact h

theorem isOne_extract_one (w : Word) (n : Nat) : isOne (w.extractLsb' n 1) = w.getLsbD n := by
  have bit : ∀ b : BitVec 1, isOne b = b.getLsbD 0 := by decide
  simp [bit]

/-- With G = 0 the guard of an admitted syllable has N and GP zero. -/
theorem guard_bits_zero {w : Word} (h : guardOk (fGuard w) = true) (hg : w.getLsbD 56 = false) : w.extractLsb' 49 7 = 0#7 := by
  have join : w.extractLsb' 55 1 ++ w.extractLsb' 49 6 = w.extractLsb' 49 (1 + 6) :=
    BitVec.extractLsb'_append_extractLsb'_eq_extractLsb' rfl
  simp only [guardOk, fGuard, isOne_extract_one, hg, Bool.false_or, Bool.and_eq_true, Bool.not_eq_true', beq_iff_eq] at h
  obtain ⟨hneg, hgp⟩ := h
  have hn : w.extractLsb' 55 1 = 0#1 := by
    rw [← bit1_isOne (w.extractLsb' 55 1), isOne_extract_one, hneg]
    rfl
  exact join.symm.trans (by rw [hn, hgp]; rfl)

/-! ## What a guard that does not pass leaves out (R114, R337) -/

theorem Task.passes_eq (t : Task) (g : Guard) : t.passes g = (!g.on || (t.regs.p.getLsbD g.gp.toNat ^^ g.neg)) := rfl

theorem State.issueS_of_not_passes {s : State} {t : Task} {g : Guard} (f : Task → State) (ht : s.task? s.cur = some t)
    (hg : t.passes g = false) : s.issueS g f = .next s := by
  simp [State.issueS, ht, hg]

/-- Every syllable but `nop` issues under its guard; one that acts on its task alone acts on the state by replacing that task. -/
theorem exec_of_not_passes {i : Instr} {sl : Slot} {s : State} {t : Task} (hs : slotOf i = some sl)
    (ht : s.task? s.cur = some t) (hg : t.passes (usesOf i).gd = false) : exec i s = .next s := by
  cases i <;> cases hs
  case nop => rfl
  all_goals exact s.issueS_of_not_passes _ ht hg

theorem Task.bundleWeight_cons_of_not_passes {t : Task} {i : Instr} (l : List Instr) (hg : t.passes (usesOf i).gd = false) :
    t.bundleWeight (i :: l) = t.bundleWeight l := by
  simp [Task.bundleWeight, hg]

/-- Settles O8: the guard's bits by the entry check and the encoding, its effect by the one way in which syllables issue. -/
theorem guardThatFailsMakesNop : Obligations.GuardThatFailsMakesNop := by
  refine ⟨?bits, Task.passes_eq, fun _ _ _ _ => exec_of_not_passes, fun _ l _ => Task.bundleWeight_cons_of_not_passes l,
    fun _ _ _ => rfl⟩
  case bits =>
    intro sl w i h hg
    obtain ⟨hs, hw, rfl⟩ := decodeThenEncode sl w i h
    exact guard_bits_zero (fGuard_encode hs ▸ guardOk_of_wellFormed hs hw) hg

end Sys2Proof.Machine
end

section
/-! PROOF. Fetch and issue: a literal is latched, a bundle's instructions run in slot order (R107 to R112, R135, R338). -/

namespace Sys2Proof.Machine

/-! ## Fetch of a literal (R107, R108) -/

theorem State.fetchTask_of_literal {s : State} {c : CoreId} {img : Image} {t : Task} {esc lit : List Byte}
    (hroom : t.npos.toNat + 24 < img.codeWords)
    (hesc : s.codeBytes c t.ctx 2 (img.wordVa t.npos.toNat) 2 = some (esc, none)) (hffff : leNat esc = 0xFFFF)
    (hlit : s.codeBytes c t.ctx 2 (img.wordVa (t.npos.toNat + 1)) 48 = some (lit, none)) :
    s.fetchTask c img t =
      s.latch c { t with fpos := t.npos, noWords := false } (BitVec.ofNat 384 (leNat lit)) (t.npos.toNat + 25) := by
  have hword : ¬ img.codeWords ≤ t.npos.toNat := by omega
  have hliteral : ¬ img.codeWords ≤ t.npos.toNat + 24 := by omega
  simp only [State.fetchTask, hword, hliteral, hesc, hffff, hlit, if_true, if_false]

theorem State.fetch_of_mayFetch {s : State} {c : CoreId} {img : Image} {t : Task} (ht : s.task? c = some t)
    (himg : s.imageOf t = some img) (hmay : s.mayFetch c t = true) :
    s.fetch c = (s.fetchTask c img t).fillTlb c t.ctx (img.wordVa t.npos.toNat) := by
  simp only [State.fetch, ht, himg, hmay, if_true]

/-- Settles O6: the core takes the word, and the literal behind it is latched. -/
theorem literalBundleIsFetched : Obligations.LiteralBundleIsFetched := by
  intro s c t img esc lit ht himg hmay hroom hesc hffff hlit
  refine congrArg Host.Outcome.next ?_
  rw [State.fetch_of_mayFetch ht himg hmay, State.fetchTask_of_literal hroom hesc hffff hlit]
  rfl

/-! ## The cycle of a core (R109, R110, R135 to R142) -/

/-- With a bundle latched, a core takes no further word. -/
theorem State.fetch_of_latched {s : State} {c : CoreId} {t : Task} {b : Bundle} (ht : s.task? c = some t)
    (hb : t.latched = some b) : s.fetch c = s := by
  have hmay : s.mayFetch c t = false := by simp [State.mayFetch, hb]
  unfold State.fetch
  rw [ht]
  cases h : s.imageOf t <;> simp [h, hmay]

/-- A bundle that nothing holds back, that passes its checks and meets no fenced link issues. -/
theorem State.dueCycle_of_admitted {s : State} {c : CoreId} {t : Task} {b : Bundle} {l : List Instr}
    (hb : t.latched = some b) (hl : decodeBundle b = .ok l) (hheld : s.heldStill c t = false) (hwait : t.mustWait l = false)
    (hbad : s.bundleBad t b = none) (hread : t.readsBad l = false)
    (hwin : windowAdmits (s.core c).weights (t.bundleWeight l) (s.cluster (clusterOf c)).lim.toNat = true)
    (hprobe : t.probeEarly l = false) (hshut : (s.issueBundle c t l).shut = false) :
    s.dueCycle c t = (s.issueBundle c t l, t.bundleWeight l) := by
  have hnone : t.waits.isEmpty = true := by
    simp only [Task.mustWait, Bool.or_eq_false_iff, Bool.not_eq_false'] at hwait
    exact hwait.1.1
  simp only [State.dueCycle, hb, hl, Except.toOption, Option.getD_some, hheld, hnone, hbad, hwin, hwait, hread, hprobe,
    State.tryBundle, hshut, Option.isNone_none, Bool.not_true, Bool.and_false, Bool.or_false, Bool.false_eq_true, if_false]

theorem State.taskCycle_of_latched {s : State} {c : CoreId} {t : Task} {b : Bundle} (ht : s.task? c = some t)
    (hb : t.latched = some b) (hidle : t.idle = 0) (hend : t.ended = false) (hstop : s.stopped c t = false) :
    s.taskCycle c t = s.dueCycle c t := by
  simp only [State.taskCycle, hstop, hend, hidle, ne_eq, not_true, Bool.false_eq_true, if_false, State.fetch_of_latched ht hb,
    ite_self, ht]

/-- A syllable that touches no lent core region is executed, and the TLBs and the token cache take what it accessed. -/
theorem State.issueSyl_of_exec {s u : State} {c : CoreId} {t : Task} {i : Instr} (hlent : s.lentTouch c t i = none)
    (hu : exec i s = .next u) :
    s.issueSyl c t i =
      if t.passes (usesOf i).gd then (t.touched i).foldl (fun (r : State) va => r.touch c t va) u else u := by
  simp only [State.issueSyl, hlent, hu, State.after]

/-! ## The cycle of a cluster (R32, R338) -/

/-- A cycle of a cluster whose clock runs and that no trip or window freezes: device time comes to it, then its cores, its arrays,
its droop logic and its declarations have their cycles in turn. -/
theorem State.clusterCycle_of_running {s : State} {cl : ClusterId} (hclk : (s.cluster cl).clocked = true)
    (hfrz : ((s.catchUp cl).cluster cl).frozen = false) :
    s.clusterCycle cl =
      ((([0, 1, 2, 3].foldl (fun (r : State) k => (r.arrayCycle (clusterCore cl k) 0).arrayCycle (clusterCore cl k) 1)
        ([0, 1, 2, 3].foldl (fun (r : State) k => r.coreCycle (clusterCore cl k))
          (((s.catchUp cl).elapse (((s.catchUp cl).cluster cl).edge - (s.catchUp cl).ns)).setCluster cl
            ((s.catchUp cl).cluster cl).tick))).droopCycle cl).windowCycle cl) := by
  simp only [State.clusterCycle, hclk, hfrz, Bool.not_true, Bool.false_eq_true, if_false]

theorem State.turn_of_agenda {s : State} {m : Move} {l : List Move} (hr : s.regw = []) (ha : s.agenda = m :: l) :
    s.turn = ({ s with agenda := l } : State).move m := by
  unfold State.turn
  split
  next h => exact absurd (hr.symm.trans h) (List.cons_ne_nil _ _).symm
  next =>
    split
    next h =>
      obtain ⟨rfl, rfl⟩ := List.cons.inj (ha.symm.trans h)
      rfl
    next h => exact absurd (ha.symm.trans h) (List.cons_ne_nil _ _)

theorem step_of_cycle {s : State} {cl : ClusterId} {l : List Move} (hr : s.regw = []) (ha : s.agenda = .cycle cl :: l)
    (hdue : s.dueNow cl = true) : step s = .next (({ s with agenda := l } : State).clusterCycle cl).upkeep := by
  have hdue' : ({ s with agenda := l } : State).dueNow cl = true := hdue
  simp only [step, State.advance, State.turn_of_agenda hr ha, State.move, hdue', if_true, entered]

/-- Settles O7, clause by clause from the lemmas above. -/
theorem stepRunsDecodedBundle : Obligations.StepRunsDecodedBundle := by
  refine ⟨?due, fun _ _ _ _ => rfl, fun _ _ _ _ hlent _ hu => State.issueSyl_of_exec hlent hu,
    fun _ _ _ _ => State.taskCycle_of_latched, ?cycle⟩
  case due =>
    intro s c t b l _ hb hl hheld hwait hbad hread hwin hprobe hshut
    exact State.dueCycle_of_admitted hb hl hheld hwait hbad hread hwin hprobe hshut
  case cycle =>
    intro s cl hr ha hdue hclk hfrz
    refine ⟨_, _, _, rfl, rfl, rfl, ?_⟩
    rw [step_of_cycle hr ha hdue, State.clusterCycle_of_running (s := { s with agenda := [] }) hclk hfrz]

end Sys2Proof.Machine
end

section
/-! PROOF. Branches, calls and hardware loops (R109, R110, R180, R181). -/

namespace Sys2Proof.Machine

/-- Settles O13: each syllable acts on its task where it issues, and its target and link are read from that task. -/
theorem branchesCallsAndNop : Obligations.BranchesCallsAndNop :=
  ⟨fun _ _ _ => rfl, fun _ => changesTask_of_issue fun _ => rfl, fun _ => changesTask_of_issue fun _ => rfl,
    fun _ => changesTask_of_issue fun _ => rfl, fun _ => changesTask_of_issue fun _ => rfl,
    fun _ => changesTask_of_issue fun _ => rfl⟩

/-- Counting down puts the lower count in flight, and sets the fetch position where iterations remain. -/
theorem Task.countDown_eq (t : Task) (f : FmtCB) :
    t.countDown f =
      { t.put 1 (.lc f.lvl.toNat) (BitVec.ofNat 1024 ((t.regs.counter f.lvl.toNat).toNat - 1)) 0#7 with
        npos := if 0 < (t.regs.counter f.lvl.toNat).toNat - 1 then t.fpos + f.off.signExtend 64 else t.npos } := by
  unfold Task.countDown
  by_cases h : 0 < (t.regs.counter f.lvl.toNat).toNat - 1
  · simp only [h, if_true]
    rfl
  · simp only [h, if_false]
    rfl

/-- Settles O14: `lpend` and `loop.rot` count down, the latter after it has put the rotation in flight. -/
theorem hardwareLoopsCountAndBranch : Obligations.HardwareLoopsCountAndBranch := by
  refine ⟨fun _ => changesTask_of_issue fun _ => rfl, ?lpend, ?rot, fun _ => changesTask_of_issue fun _ => rfl⟩
  case lpend =>
    exact fun f => changesTask_of_issue fun s => congrArg (s.issue f.gd) (funext fun t => t.countDown_eq f)
  case rot =>
    exact fun f => changesTask_of_issue fun s =>
      congrArg (s.issue f.gd) (funext fun t => (t.put 1 .rot 0#1024 0#7).countDown_eq f)

end Sys2Proof.Machine
end

section
/-! PROOF. Where results land: latency, frame, dead registers and rotation (R131 to R146, R162). -/

namespace Sys2Proof.Machine

/-! ## The registers of a task -/

/-- Every register, latch, base and depth but physical register `p` and the latch of slot `sl`. -/
structure Regs.SameBut (sl : Slot) (p : Nat) (r u : Regs) : Prop where
  main : ∀ (sl' : Slot) (q : Nat), sl' ≠ sl ∨ q ≠ p → u.mainGet sl' q = r.mainGet sl' q
  opf : ∀ (sl' : Slot) (i : Nat), u.opfGet sl' i = r.opfGet sl' i
  latch : ∀ sl' : Slot, sl' ≠ sl → u.latchGet sl' = r.latchGet sl'
  rest : u.p = r.p ∧ u.k = r.k ∧ u.lc = r.lc ∧ u.arb = r.arb ∧ u.vrb = r.vrb ∧ u.ald = r.ald ∧ u.vld = r.vld

theorem Regs.SameBut.refl (sl : Slot) (p : Nat) (r : Regs) : r.SameBut sl p r :=
  ⟨fun _ _ _ => rfl, fun _ _ => rfl, fun _ _ => rfl, rfl, rfl, rfl, rfl, rfl, rfl, rfl⟩

theorem Regs.mainSet_frame (r : Regs) (sl : Slot) (p : Nat) (v : Vec) :
    r.mainSet sl p v = { r with
      c := (r.mainSet sl p v).c, a := (r.mainSet sl p v).a, v := (r.mainSet sl p v).v, x := (r.mainSet sl p v).x
      m := (r.mainSet sl p v).m, e := (r.mainSet sl p v).e, y := (r.mainSet sl p v).y } := by
  cases sl with
  | M => by_cases h : p < 32 <;> simp only [Regs.mainSet, h, if_true, if_false]
  | _ => rfl

theorem Regs.latchSet_frame (r : Regs) (sl : Slot) (v : Vec) :
    r.latchSet sl v = { r with
      cl := (r.latchSet sl v).cl, al := (r.latchSet sl v).al, vl := (r.latchSet sl v).vl, ml := (r.latchSet sl v).ml
      el := (r.latchSet sl v).el, yl := (r.latchSet sl v).yl } := by
  cases sl <;> rfl

@[simp] theorem Regs.latchSet_mainGet (r : Regs) (sl sl' : Slot) (v : Vec) (q : Nat) :
    (r.latchSet sl v).mainGet sl' q = r.mainGet sl' q := by
  rw [Regs.latchSet_frame]; cases sl' <;> rfl

@[simp] theorem Regs.latchSet_opfGet (r : Regs) (sl sl' : Slot) (v : Vec) (i : Nat) :
    (r.latchSet sl v).opfGet sl' i = r.opfGet sl' i := by
  rw [Regs.latchSet_frame]; cases sl' <;> rfl

@[simp] theorem Regs.mainSet_opfGet (r : Regs) (sl sl' : Slot) (p : Nat) (v : Vec) (i : Nat) :
    (r.mainSet sl p v).opfGet sl' i = r.opfGet sl' i := by
  rw [Regs.mainSet_frame]; cases sl' <;> rfl

@[simp] theorem Regs.mainSet_latchGet (r : Regs) (sl sl' : Slot) (p : Nat) (v : Vec) :
    (r.mainSet sl p v).latchGet sl' = r.latchGet sl' := by
  rw [Regs.mainSet_frame]; cases sl' <;> rfl

theorem Regs.latchSet_latchGet_other (r : Regs) (sl sl' : Slot) (v : Vec) (h : sl' ≠ sl) :
    (r.latchSet sl v).latchGet sl' = r.latchGet sl' := by
  cases sl <;> cases sl' <;> simp [Regs.latchSet, Regs.latchGet] at h ⊢

theorem Regs.mainSet_mainGet_other (r : Regs) (sl sl' : Slot) (p q : Nat) (v : Vec) (h : sl' ≠ sl ∨ q ≠ p) :
    (r.mainSet sl p v).mainGet sl' q = r.mainGet sl' q := by
  by_cases hs : sl' = sl
  · subst hs
    have hq : q ≠ p := h.resolve_left (fun hn => hn rfl)
    cases sl' with
    | M =>
      by_cases hp : p < 32 <;> by_cases hr : q < 32 <;> simp only [Regs.mainSet, Regs.mainGet, hp, hr, if_true, if_false]
      · rw [Tab.get_set, if_neg hq]
      · rw [Tab.get_set, if_neg (by omega)]
    | _ => simp only [Regs.mainSet, Regs.mainGet, Tab.get_set, hq, if_false]
  · cases sl with
    | M => by_cases hp : p < 32 <;> cases sl' <;> simp [Regs.mainSet, Regs.mainGet, hp] at hs ⊢
    | _ => cases sl' <;> simp [Regs.mainSet, Regs.mainGet] at hs ⊢

theorem Regs.sameBut_mainSet (r : Regs) (sl : Slot) (p : Nat) (v : Vec) : r.SameBut sl p (r.mainSet sl p v) := by
  refine ⟨fun sl' q h => r.mainSet_mainGet_other sl sl' p q v h, fun sl' i => r.mainSet_opfGet sl sl' p v i,
    fun sl' _ => r.mainSet_latchGet sl sl' p v, ?_⟩
  rw [Regs.mainSet_frame]
  exact ⟨rfl, rfl, rfl, rfl, rfl, rfl, rfl⟩

theorem Regs.SameBut.latchSet {r u : Regs} {sl : Slot} {p : Nat} (h : r.SameBut sl p u) (v : Vec) :
    r.SameBut sl p (u.latchSet sl v) := by
  refine ⟨fun sl' q hq => ?_, fun sl' i => ?_, fun sl' hs => ?_, ?_⟩
  · rw [Regs.latchSet_mainGet, h.main sl' q hq]
  · rw [Regs.latchSet_opfGet, h.opf]
  · rw [Regs.latchSet_latchGet_other _ _ _ _ hs, h.latch sl' hs]
  · rw [Regs.latchSet_frame]
    exact h.rest

/-- A write to a dead register leaves every register alone; a live one takes its value (R146). -/
theorem Regs.write_main (r : Regs) (sl : Slot) (p : Nat) (v : Vec) :
    r.write (.main sl p) v = if r.isDead sl p then r else r.mainSet sl p v := rfl

theorem Regs.sameBut_write (r : Regs) (sl : Slot) (p : Nat) (v : Vec) : r.SameBut sl p (r.write (.main sl p) v) := by
  rw [Regs.write_main]
  split
  · exact .refl sl p r
  · exact r.sameBut_mainSet sl p v

/-- No write reaches a latch: results do so when they land, and interlocked values never do (R132, R141). -/
theorem Regs.write_latchGet (r : Regs) (d : Dest) (v : Vec) (sl : Slot) : (r.write d v).latchGet sl = r.latchGet sl := by
  cases d with
  | main sl' p => rw [Regs.write_main]; split <;> simp
  | opf sl' i => cases sl' <;> cases sl <;> rfl
  | _ => cases sl <;> rfl

/-- Settles O10: a landing for a main-file register writes it, or nothing where it is dead, and then its latch. -/
theorem landingChangesNothingElse : Obligations.LandingChangesNothingElse := by
  refine ⟨?landing, fun t p v sl => ?arrival⟩
  case landing =>
    intro t f sl p hd u
    have hs : t.regs.SameBut sl p u.regs := by
      have hr : t.regs.SameBut sl p (if f.dead then t.regs else t.regs.write (.main sl p) f.val) := by
        split
        · exact .refl sl p t.regs
        · exact t.regs.sameBut_write sl p f.val
      rw [show u.regs = _ from congrArg Task.regs (t.land_eq f), hd]
      exact hr.latchSet _
    obtain ⟨hp, hk, hlc, harb, hvrb, hald, hvld⟩ := hs.rest
    exact ⟨hs.main, hs.opf, hs.latch, hp, hk, hlc, harb, hvrb, hald, hvld, t.land_eq f⟩
  case arrival =>
    simp only [Task.arrive]
    split
    · rfl
    · exact Regs.write_latchGet ..

/-! ## Dead registers (R145, R146) -/

theorem Regs.read_of_dead (r : Regs) (sl : Slot) (i : BitVec 6) (imm : Vec) (h : r.isDead sl (r.phys sl i.toNat) = true) :
    r.read sl imm (.main i) = 0#1024 :=
  if_pos h

theorem Task.land_regs_of_dead (t : Task) (f : Flight) (sl : Slot) (p : Nat) (hd : f.dest = .main sl p)
    (h : f.dead = true ∨ t.regs.isDead sl p = true) : (t.land f).regs = t.regs.latchLand (.main sl p) f.val := by
  have hr : (if f.dead then t.regs else t.regs.write (.main sl p) f.val) = t.regs := by
    rcases h with h | h <;> simp [Regs.write_main, h]
  rw [Task.land_eq, hd]
  exact congrArg (fun r : Regs => r.latchLand (.main sl p) f.val) hr

/-- Settles O11: the write of a dead register is discarded, and what reaches the latch does not look at the register. -/
theorem deadRegistersReadZeroAndTakeNothing : Obligations.DeadRegistersReadZeroAndTakeNothing := by
  refine ⟨Regs.read_of_dead, Task.land_regs_of_dead, fun r sl p v hm hv => ?_⟩
  cases sl with
  | M => exact absurd rfl hm
  | V => exact absurd rfl hv
  | _ => rfl

/-! ## Rotation (R143 to R145) -/

/-- With full live depths no rotating register is dead. -/
theorem Regs.isDead_of_full (r : Regs) (ha : r.ald = 16#5) (hv : r.vld = 32#6) (sl : Slot) (p : Nat) :
    r.isDead sl p = false := by
  cases sl with
  | A =>
    have hn : ¬ 16 ≤ (p - 48 + 16 - r.arb.toNat) % 16 := by omega
    simp [Regs.isDead, ha, hn]
  | V =>
    have hn : ¬ 32 ≤ (p - 32 + 32 - r.vrb.toNat) % 32 := by omega
    simp [Regs.isDead, hv, hn]
  | _ => rfl

/-- With full live depths a rotation only lowers the bases: it clears no register. -/
theorem Regs.write_rot_of_full (r : Regs) (ha : r.ald = 16#5) (hv : r.vld = 32#6) (x : Vec) :
    r.write .rot x = { r with arb := r.arb - 1#4, vrb := r.vrb - 1#5 } := by
  have hd := Regs.isDead_of_full { r with arb := r.arb - 1#4, vrb := r.vrb - 1#5 } ha hv
  simp only [Regs.write, Regs.clearDead, hd, Bool.not_false, List.filter_true]

/-- Under a base lower by one, the next name is mapped to the register that a name was mapped to. -/
theorem physA_next (b : BitVec 4) (j : Nat) (h : j < 16) : physA (b - 1#4) (48 + (j + 1) % 16) = physA b (48 + j) := by
  have hb : (b - 1#4).toNat = (b.toNat + 15) % 16 := by simp [BitVec.toNat_sub]; omega
  simp only [physA, hb]
  rw [if_neg (by omega), if_neg (by omega)]
  omega

theorem physV_next (b : BitVec 5) (j : Nat) (h : j < 32) : physV (b - 1#5) (32 + (j + 1) % 32) = physV b (32 + j) := by
  have hb : (b - 1#5).toNat = (b.toNat + 31) % 32 := by simp [BitVec.toNat_sub]; omega
  simp only [physV, hb]
  rw [if_neg (by omega), if_neg (by omega)]
  omega

/-- Settles O12: the files stay as they are, and the names move over them. -/
theorem loopRotationMovesNames : Obligations.LoopRotationMovesNames := by
  intro r ha hv u
  have hu : u = _ := r.write_rot_of_full ha hv _
  rw [hu]
  exact ⟨rfl, rfl, fun j hj => congrArg (r.mainGet .A) (physA_next r.arb j hj),
    fun j hj => congrArg (r.mainGet .V) (physV_next r.vrb j hj)⟩

/-! ## Latency (R137, R138) -/

/-- A result alone in flight with issue cycles to go comes one nearer. -/
theorem Task.put_landDue (t : Task) (n : Nat) (d : Dest) (v : Vec) (fl : BitVec 7) (h : t.flight = []) :
    (t.put (n + 2) d v fl).landDue = t.put (n + 1) d v fl := by
  have hf : ∀ f ∈ (t.put (n + 2) d v fl).flight, 2 ≤ f.rem := by simp [h]
  rw [Task.landDue_of_none _ hf]
  simp [Task.put, h]

/-- Where every result is due and none is late, all of them land, changes of bases and depths last. -/
theorem Task.landDue_of_due (t : Task) (h : ∀ f ∈ t.flight, f.rem = 1 ∧ f.late = false) :
    t.landDue = (t.age.flight.filter (fun f => !f.dest.isTurn) ++ t.age.flight.filter (fun f => f.dest.isTurn)).foldl
      Task.land { t with flight := [] } := by
  have ha : ∀ f ∈ t.age.flight, f.rem = 0 ∧ f.late = false := by
    intro f hf
    obtain ⟨g, hg, rfl⟩ := List.mem_map.mp hf
    obtain ⟨hr, hl⟩ := h g hg
    exact ⟨by simp [hr], hl⟩
  have hlate : t.age.lateNow = false := by
    simp only [Task.lateNow, List.any_eq_false]
    intro f hf
    simp [(ha f hf).2]
  have hdue : t.age.flight.filter (fun f => f.rem == 0) = t.age.flight :=
    List.filter_eq_self.mpr fun f hf => by simp [(ha f hf).1]
  have hkept : t.age.flight.filter (fun f => f.rem != 0) = [] :=
    List.filter_eq_nil_iff.mpr fun f hf => by simp [(ha f hf).1]
  simp only [Task.landDue, Task.landReady, hlate, hdue, hkept, Bool.false_eq_true, if_false]
  rfl

theorem Task.put_one_landDue (t : Task) (d : Dest) (v : Vec) (fl : BitVec 7) (h : t.flight = []) :
    (t.put 1 d v fl).landDue =
      { t with
        regs := (if t.regs.destDead d then t.regs else t.regs.write d v).latchLand d v
        fstat := t.fstat ||| fl
        bad := t.bad.filter (fun e => e.1 != d) } := by
  have hf : (t.put 1 d v fl).age.flight = [⟨0, t.ord, d, v, fl, t.regs.destDead d, false, false, false⟩] := by
    simp [Task.age, h]
  rw [Task.landDue_of_due _ (by simp [h]), hf]
  cases hd : d.isTurn <;> simp [hd, Task.land_eq, Task.put, h]

/-- Short of its latency a result is still alone in flight. -/
theorem Task.repeat_landDue_put (t : Task) (d : Dest) (v : Vec) (fl : BitVec 7) (h : t.flight = []) (k n : Nat) :
    Nat.repeat Task.landDue k (t.put (k + n + 1) d v fl) = t.put (n + 1) d v fl := by
  induction k generalizing n with
  | zero => rw [Nat.zero_add, Nat.repeat]
  | succ k ih => rw [Nat.repeat, show k + 1 + n + 1 = k + (n + 1) + 1 by omega, ih, Task.put_landDue t n d v fl h]

/-- A register reads what was last written to it, whatever it held. -/
theorem Regs.mainSet_mainGet_congr (r u : Regs) (sl : Slot) (p : Nat) (v : Vec) :
    (r.mainSet sl p v).mainGet sl p = (u.mainSet sl p v).mainGet sl p := by
  cases sl with
  | M => by_cases h : p < 32 <;> simp [Regs.mainSet, Regs.mainGet, h]
  | _ => simp [Regs.mainSet, Regs.mainGet]

theorem Regs.latchLand_latchGet_congr (r u : Regs) (sl : Slot) (p : Nat) (v : Vec) :
    (r.latchLand (.main sl p) v).latchGet sl = (u.latchLand (.main sl p) v).latchGet sl := by
  cases sl <;> rfl

/-- Being dead is a matter of the bases and depths alone. -/
theorem Regs.SameBut.isDead {r u : Regs} {sl : Slot} {p : Nat} (h : r.SameBut sl p u) (sl' : Slot) (q : Nat) :
    u.isDead sl' q = r.isDead sl' q := by
  obtain ⟨_, _, _, harb, hvrb, hald, hvld⟩ := h.rest
  cases sl' <;> simp only [Regs.isDead, harb, hvrb, hald, hvld]

theorem Task.land_regs_of_live (t : Task) (f : Flight) (sl : Slot) (p : Nat) (hd : f.dest = .main sl p) (hf : f.dead = false)
    (h : t.regs.isDead sl p = false) : (t.land f).regs = (t.regs.mainSet sl p f.val).latchLand (.main sl p) f.val := by
  simp [Task.land_eq, hd, hf, Regs.write_main, h]

/-- A live register's result on the point of landing, with no flags. -/
def Flight.due (ord : Nat) (d : Dest) (v : Vec) : Flight := ⟨0, ord, d, v, 0#7, false, false, false, false⟩

/-- Two results for one live register that are due together land in the order in which they were issued. -/
theorem Task.put_put_landDue (t : Task) (sl : Slot) (p : Nat) (v w : Vec) (h : t.flight = []) (hl : t.regs.isDead sl p = false) :
    ((t.put 1 (.main sl p) v 0#7).put 1 (.main sl p) w 0#7).landDue =
      (t.land (.due t.ord (.main sl p) v)).land (.due t.ord (.main sl p) w) := by
  have hf : ((t.put 1 (.main sl p) v 0#7).put 1 (.main sl p) w 0#7).age.flight =
      [.due t.ord (.main sl p) v, .due t.ord (.main sl p) w] := by
    simp [Task.age, Task.put, h, Regs.destDead, hl, Flight.due]
  have ht : ({ (t.put 1 (.main sl p) v 0#7).put 1 (.main sl p) w 0#7 with flight := [] } : Task) = t := by
    simp only [Task.put, ← h]
  rw [Task.landDue_of_due _ (by simp [h]), hf, ht]
  rfl

/-- Settles O9: until its latency has run a result stays alone in flight, and then it lands; the later of two results that land
together writes over the earlier. -/
theorem resultLandsAfterItsLatency : Obligations.ResultLandsAfterItsLatency := by
  refine ⟨fun t d v fl n h => ⟨fun k hk => ?before, ?lands⟩, fun t sl p v w h hl => ?later⟩
  case before =>
    obtain ⟨m, rfl⟩ := Nat.exists_eq_add_of_le hk
    rw [t.repeat_landDue_put d v fl h k m]
    exact ⟨rfl, rfl⟩
  case lands =>
    rw [Nat.repeat, t.repeat_landDue_put d v fl h n 0, t.put_one_landDue d v fl h]
  case later =>
    intro u
    have hu : u = _ := t.put_put_landDue sl p v w h hl
    have hfirst := t.land_regs_of_live (.due t.ord (.main sl p) v) sl p rfl rfl hl
    have hlive : (t.land (.due t.ord (.main sl p) v)).regs.isDead sl p = false := by
      rw [hfirst]
      exact (((t.regs.sameBut_mainSet sl p v).latchSet _).isDead sl p).trans hl
    have hregs := Task.land_regs_of_live _ (.due t.ord (.main sl p) w) sl p rfl rfl hlive
    rw [← hu] at hregs
    refine ⟨?_, ?_, by rw [hu]; exact h⟩
    · rw [hregs]
      exact (Regs.latchSet_mainGet ..).trans (Regs.mainSet_mainGet_congr ..)
    · rw [hregs]
      exact Regs.latchLand_latchGet_congr ..

end Sys2Proof.Machine
end

section
/-! PROOF. The C and A slots: their results, bit by bit where they are counts and reversals (R147 to R149, R183 to R188). -/

namespace Sys2Proof.Machine

/-- A syllable that acts on its task alone changes it by any function that agrees with its own. -/
theorem changesTask_of_eq {i : Instr} {g : Guard} {f h : State → Task → Task} (hi : ∀ s, exec i s = s.issue g (f s))
    (heq : ∀ s t, f s t = h s t) : ChangesTask i g h :=
  changesTask_of_issue fun s => (hi s).trans (congrArg (s.issue g) (funext (heq s)))

/-! ## The C slot -/

theorem ofInt_toNat_sub (x y : Word) : BitVec.ofInt 64 ((x.toNat : Int) - y.toNat) = x - y := by
  rw [Int.sub_eq_add_neg, BitVec.ofInt_add, BitVec.ofInt_neg]
  simp [BitVec.sub_eq_add_neg]

/-- Settles O15: each syllable acts on its task where it issues; the sum and difference of naturals are taken modulo 2^64. -/
theorem controlSlotResults : Obligations.ControlSlotResults := by
  refine ⟨⟨?_, ?_, ?_, ?_, ?add, ?sub, ?_, ?_, ?_, ?_, ?_⟩, ?_, ?_, ?_, ?_, ?_⟩
  case add =>
    exact fun f => changesTask_of_eq (fun _ => rfl) fun _ t =>
      congrArg (t.putW 1 .C f.d) (BitVec.add_def ..)
  case sub =>
    exact fun f => changesTask_of_eq (fun _ => rfl) fun _ t =>
      congrArg (t.putW 1 .C f.d) (ofInt_toNat_sub ..).symm
  all_goals exact fun f => changesTask_of_issue fun _ => rfl

/-! ## xcp -/

/-- The value and the latency of `xcp` by its pair of slots. -/
theorem xcp_cases (sl dsl : Slot) (lane : BitVec 5) (x : Vec) :
    (sl = .A ∧ dsl = .V ∧ xcpLat sl dsl = 2 ∧
      xcpValue sl dsl lane x = ofElems 32 (List.replicate 32 (x.toNat % 2 ^ 32))) ∨
    (sl = .V ∧ dsl = .A ∧ xcpLat sl dsl = 2 ∧
      xcpValue sl dsl lane x = BitVec.ofNat 1024 (x.toNat / 2 ^ (32 * lane.toNat) % 2 ^ 32)) ∨
    (sl = .M ∧ dsl = .A ∧ xcpLat sl dsl = 1 ∧ xcpValue sl dsl lane x = BitVec.ofNat 1024 (x.toNat % 2 ^ 64)) ∨
    (¬ (sl = .A ∧ dsl = .V) ∧ ¬ (sl = .V ∧ dsl = .A) ∧ ¬ (sl = .M ∧ dsl = .A) ∧
      xcpLat sl dsl = 1 ∧ xcpValue sl dsl lane x = x) := by
  by_cases h1 : sl = .A ∧ dsl = .V
  · obtain ⟨rfl, rfl⟩ := h1
    exact .inl ⟨rfl, rfl, rfl, rfl⟩
  by_cases h2 : sl = .V ∧ dsl = .A
  · obtain ⟨rfl, rfl⟩ := h2
    exact .inr (.inl ⟨rfl, rfl, rfl, by rw [xcpValue, elem, Nat.shiftRight_eq_div_pow]⟩)
  by_cases h3 : sl = .M ∧ dsl = .A
  · obtain ⟨rfl, rfl⟩ := h3
    exact .inr (.inr (.inl ⟨rfl, rfl, rfl, by rw [xcpValue, ← BitVec.ofNat_toNat, BitVec.toNat_setWidth]⟩))
  · refine .inr (.inr (.inr ⟨h1, h2, h3, ?_, ?_⟩))
    · rw [xcpLat]
      · exact fun ha hv => h1 ⟨ha, hv⟩
      · exact fun ha hv => h2 ⟨ha, hv⟩
    · rw [xcpValue]
      · exact fun ha hv => h1 ⟨ha, hv⟩
      · exact fun ha hv => h2 ⟨ha, hv⟩
      · exact fun ha hv => h3 ⟨ha, hv⟩

/-- Settles O16, by the pair of slots. -/
theorem crossCopyConverts : Obligations.CrossCopyConverts := by
  refine fun sl f => changesTask_of_eq (fun _ => rfl) fun s t => ?_
  dsimp only
  rcases xcp_cases sl f.dsl f.lane (t.regs.read sl 0#1024 f.s1) with ⟨hs, hd, hl, hv⟩ | ⟨hs, hd, hl, hv⟩ | ⟨hs, hd, hl, hv⟩ | ⟨h1, h2, h3, hl, hv⟩
  · rw [if_pos ⟨hs, hd⟩, hl, hv, hd]
  · rw [if_neg (by simp [hs]), if_pos ⟨hs, hd⟩, hl, hv, hd]
  · rw [if_neg (by simp [hs]), if_neg (by simp [hs]), if_pos ⟨hs, hd⟩, hl, hv, hd]
  · rw [if_neg h1, if_neg h2, if_neg h3, hl, hv]

/-! ## The A slot (R187, R188) -/

/-- A syllable of format A-R that puts the fit of an integer in flight puts the fit of any equal one. -/
theorem changesTask_putA {i : Instr} {f : FmtAR} {lat : Nat} {v w : Task → Int}
    (hi : ∀ s, exec i s = s.issue f.gd fun t => t.putA lat f (v t)) (heq : ∀ t, v t = w t) :
    ChangesTask i f.gd fun _ t => t.putW lat .A f.d (fit64 f.ty (w t)) :=
  changesTask_of_eq hi fun _ t => by rw [heq, Task.putA]

theorem natAbs_eq_ite (x : Int) : (x.natAbs : Int) = if x < 0 then -x else x := by
  split <;> omega

theorem sub_mul_divZ (x y : Int) :
    x - y * divZ x y = if y = 0 then x else x - y * (if y = 0 then -1 else x.tdiv y) := by
  by_cases h : y = 0 <;> simp [divZ, h]

/-- Settles O25: each row is the model's own, or equal to it as an integer. -/
theorem integerArithmeticResults : Obligations.IntegerArithmeticResults := by
  refine ⟨?_, ?_, ?_, ?_, ?_, ?rem, ?min, ?max, ?abs, ?_, ?_, ?_, ?_, ?_, ?_, fun _ => changesTask_of_issue fun _ => rfl⟩
  case rem => exact fun _ => changesTask_putA (fun _ => rfl) fun _ => sub_mul_divZ ..
  case min => exact fun _ => changesTask_putA (fun _ => rfl) fun _ => min_def ..
  case max => exact fun _ => changesTask_putA (fun _ => rfl) fun _ => max_def ..
  case abs => exact fun _ => changesTask_putA (fun _ => rfl) fun _ => natAbs_eq_ite ..
  all_goals exact fun _ => changesTask_putA (fun _ => rfl) fun _ => rfl

/-! ## Ones, zeros and reversals (R188) -/

/-- On w bits, what a number shares with another and what it shares with the other's complement make it up. -/
theorem and_add_and_complement (w u v : Nat) (hu : u < 2 ^ w) (hv : v < 2 ^ w) :
    (u &&& v) + (u &&& (2 ^ w - 1 - v)) = u := by
  induction w generalizing u v with
  | zero => simp [show u = 0 by omega]
  | succ w ih =>
    have half := ih (u / 2) (v / 2) (by omega) (by omega)
    have hc : (2 ^ (w + 1) - 1 - v) / 2 = 2 ^ w - 1 - v / 2 := by omega
    rw [← hc, ← Nat.and_div_two, ← Nat.and_div_two] at half
    have hodd := @Nat.and_mod_two_eq_one u v
    have hodd' := @Nat.and_mod_two_eq_one u (2 ^ (w + 1) - 1 - v)
    omega

theorem sub_and_eq_and_complement (w u v : Nat) (hu : u < 2 ^ w) (hv : v < 2 ^ w) :
    (u : Int) - (u &&& v : Nat) = (u &&& (2 ^ w - 1 - v) : Nat) := by
  have := and_add_and_complement w u v hu hv
  omega

theorem leadZeros_spec (w n : Nat) (h : n < 2 ^ w) :
    leadZeros w n ≤ w ∧ (∀ i, i < leadZeros w n → n.testBit (w - 1 - i) = false) ∧
      (leadZeros w n < w → n.testBit (w - 1 - leadZeros w n) = true) := by
  by_cases hn : n = 0
  · subst hn
    simp [leadZeros, low]
  · have hlog : n.log2 < w := (Nat.log2_lt hn).mpr h
    have hz : leadZeros w n = w - 1 - n.log2 := by simp [leadZeros, low, Nat.mod_eq_of_lt h, hn]
    rw [hz]
    refine ⟨by omega, fun i hi => ?_, fun _ => ?_⟩
    · exact Nat.testBit_lt_two_pow ((Nat.log2_lt hn).mp (by omega))
    · rw [show w - 1 - (w - 1 - n.log2) = n.log2 by omega]
      exact Nat.testBit_log2 hn

theorem trailZeros_spec (w n : Nat) :
    trailZeros w n ≤ w ∧ (∀ i, i < trailZeros w n → n.testBit i = false) ∧
      (trailZeros w n < w → n.testBit (trailZeros w n) = true) := by
  induction w generalizing n with
  | zero => simp [trailZeros]
  | succ w ih =>
    by_cases hn : n % 2 = 1
    · simp [trailZeros, hn]
    · obtain ⟨hle, hzero, hone⟩ := ih (n / 2)
      simp only [trailZeros, hn, if_false]
      refine ⟨by omega, fun i hi => ?_, fun hi => ?_⟩
      · cases i with
        | zero => simpa using hn
        | succ i => rw [Nat.testBit_succ]; exact hzero i (by omega)
      · rw [Nat.add_comm, Nat.testBit_succ]
        exact hone (by omega)

theorem popCount_eq (w n : Nat) : popCount w n = ((List.range w).filter (fun i => n.testBit i)).length := by
  induction w generalizing n with
  | zero => rfl
  | succ w ih =>
    rw [popCount, ih, List.range_succ_eq_map, List.filter_cons, List.filter_map, Function.comp_def]
    rcases Nat.mod_two_eq_zero_or_one n with h | h <;> simp [h, Nat.testBit_succ, Nat.add_comm]

theorem bitRev_lt (w n : Nat) : bitRev w n < 2 ^ w := by
  induction w generalizing n with
  | zero => simp [bitRev]
  | succ w ih =>
    have := ih (n / 2)
    have : n % 2 * 2 ^ w ≤ 1 * 2 ^ w := Nat.mul_le_mul_right _ (by omega)
    rw [bitRev, Nat.pow_succ]
    omega

theorem bitRev_testBit (w n i : Nat) (h : i < w) : (bitRev w n).testBit i = n.testBit (w - 1 - i) := by
  induction w generalizing n with
  | zero => omega
  | succ w ih =>
    rw [bitRev, Nat.mul_comm, Nat.testBit_two_pow_mul_add _ (bitRev_lt w _)]
    split
    next hi => rw [ih _ hi, ← Nat.testBit_succ, show w + 1 - 1 - i = w - 1 - i + 1 by omega]
    next hi => simp [show i = w by omega, Nat.testBit_zero]

theorem byteRev_lt (k n : Nat) : byteRev k n < 256 ^ k := by
  induction k generalizing n with
  | zero => simp [byteRev]
  | succ k ih =>
    have := ih (n / 256)
    have : n % 256 * 256 ^ k ≤ 255 * 256 ^ k := Nat.mul_le_mul_right _ (by omega)
    rw [byteRev, Nat.pow_succ]
    omega

theorem byteRev_byte (k n i : Nat) (h : i < k) : byteRev k n / 256 ^ i % 256 = n / 256 ^ (k - 1 - i) % 256 := by
  induction k generalizing n with
  | zero => omega
  | succ k ih =>
    rw [byteRev]
    rcases Nat.lt_succ_iff_lt_or_eq.mp h with hi | rfl
    · obtain ⟨m, rfl⟩ : ∃ m, k = i + 1 + m := Nat.exists_eq_add_of_lt hi |>.imp fun m hm => by omega
      have hlow : n % 256 * 256 ^ (i + 1 + m) = 256 ^ i * (256 * (n % 256 * 256 ^ m)) := by ring
      have hhigh := ih (n / 256) hi
      rw [Nat.div_div_eq_div_mul, ← Nat.pow_succ', show (i + 1 + m - 1 - i).succ = i + 1 + m + 1 - 1 - i by omega] at hhigh
      rw [hlow, Nat.mul_add_div (by positivity), Nat.mul_add_mod, hhigh]
    · rw [Nat.mul_comm, Nat.mul_add_div (by positivity), Nat.div_eq_of_lt (byteRev_lt i _)]
      simp

/-- The sources of format A-R on w bits, and the shift count, lie below 2^w and w. -/
theorem FmtAR.u1_lt (f : FmtAR) (t : Task) : f.u1 t < 2 ^ tyWidth f.ty := Nat.mod_lt _ (by positivity)

theorem FmtAR.u2_lt (f : FmtAR) (t : Task) : f.u2 t < 2 ^ tyWidth f.ty := Nat.mod_lt _ (by positivity)

theorem tyWidth_pos (ty : Ty) : 0 < tyWidth ty := by cases ty <;> decide

theorem FmtAR.k_lt (f : FmtAR) (t : Task) : f.k t < tyWidth f.ty :=
  Nat.mod_lt _ (tyWidth_pos f.ty)

/-- Settles O26: what a source lacks of another is its share of the complement, and the counts and reversals are read off bit by
bit. -/
theorem scalarBitsCountsAndReversals : Obligations.ScalarBitsCountsAndReversals := by
  refine ⟨?_, ?_, ?_, ?andn, ?_, ?_, ?_, ?rot, ?_, ?bclr, ?_, ?tst, fun _ => changesTask_of_issue fun _ => rfl,
    fun _ => changesTask_of_issue fun _ => rfl, fun _ => changesTask_of_issue fun _ => rfl,
    ?_, ?_, ?counts, byteRev_byte⟩
  case andn =>
    exact fun f => changesTask_putA (fun _ => rfl) fun t => sub_and_eq_and_complement _ _ _ (FmtAR.u1_lt f t) (FmtAR.u2_lt f t)
  case rot =>
    refine fun f => changesTask_putA (fun _ => rfl) fun t => ?_
    rw [rotLeft, FmtAR.w, low, low, Nat.mod_eq_of_lt (FmtAR.u1_lt f t)]
    rfl
  case bclr =>
    exact fun f => changesTask_putA (fun _ => rfl) fun t => sub_and_eq_and_complement _ _ _ (FmtAR.u1_lt f t)
      (Nat.pow_lt_pow_right (by decide) (FmtAR.k_lt f t))
  case tst =>
    refine fun f => changesTask_of_eq (fun _ => rfl) fun _ t => congrArg (t.putP (predIx f.d)) ?_
    cases f.cnd with
    | eq => rfl
    | _ => exact (decide_not ..).symm
  case counts => 
    exact fun w n h => ⟨leadZeros_spec w n h, trailZeros_spec w n, popCount_eq w n, bitRev_testBit w n⟩
  all_goals exact fun _ => changesTask_putA (fun _ => rfl) fun _ => rfl

end Sys2Proof.Machine
end

section
/-! PROOF. Scratchpad loads, element-wise and full/empty forms of the M slot (R141, R234, R250 to R263). -/

namespace Sys2Proof.Machine

theorem State.mapTask_of_current {s : State} {c : CoreId} {t : Task} (h : s.task? c = some t) (f : Task → Task) :
    s.mapTask c f = s.setTask c (f t) := by
  simp only [State.mapTask, h]

/-! ## Element-wise forms (R259, R260) -/

section
variable {s : State} {c : CoreId} {t : Task} {f : FmtMG} {addr : Nat → Word} {aligned : Bool}

/-- The elements a load form delivers, where every enabled one is admitted. -/
theorem State.mgLoad_of_admitted (syl : Word) (ha : aligned = true → (t.srcM f.s1).toNat % 128 = 0)
    (h : s.mgError c t (mgWidth f / 8) .load (t.mgList f addr) = none) :
    s.mgLoad c t f syl aligned addr =
      (s.mgRead c t (mgWidth f / 8) (t.mgList f addr) (t.regs.read .M 0#1024 f.d)).1.mapTask c
        (fun x => x.putPend (x.regs.dest .M f.d) .value
          (some (s.mgRead c t (mgWidth f / 8) (t.mgList f addr) (t.regs.read .M 0#1024 f.d)).2)) := by
  have hal : (aligned && (t.srcM f.s1).toNat % 128 != 0) = false := by simpa using ha
  simp only [State.mgLoad, hal, h, Bool.false_eq_true, if_false]

theorem State.mgStore_of_admitted (syl : Word) (ha : aligned = true → (t.srcM f.s1).toNat % 128 = 0)
    (h : s.mgError c t (mgWidth f / 8) .store (t.mgList f addr) = none) :
    s.mgStore c t f syl aligned addr = s.mgWrite c t (mgWidth f / 8) (t.regs.read .M 0#1024 f.d) (t.mgList f addr) := by
  have hal : (aligned && (t.srcM f.s1).toNat % 128 != 0) = false := by simpa using ha
  simp only [State.mgStore, hal, h, Bool.false_eq_true, if_false]

end

/-- Settles O43: the six forms differ in the addresses of their elements alone. -/
theorem gatherAndScatterForms : Obligations.GatherAndScatterForms := by
  intro f s t hi w n on els base indexed strided packed loads stores
  have load (syl : Word) (aligned : Bool) (addr : Task → Nat → Word) (ha : aligned = true → base.toNat % 128 = 0)
      (h : s.mgError s.cur t n .load (els (addr t)) = none) :
      s.issueS f.gd (fun t => s.mgLoad s.cur t f syl aligned (addr t)) = .next (loads (els (addr t))) :=
    (s.issueS_of_issues t f.gd _ hi).trans (congrArg _ (State.mgLoad_of_admitted syl ha h))
  have store (syl : Word) (aligned : Bool) (addr : Task → Nat → Word) (ha : aligned = true → base.toNat % 128 = 0)
      (h : s.mgError s.cur t n .store (els (addr t)) = none) :
      s.issueS f.gd (fun t => s.mgStore s.cur t f syl aligned (addr t)) = .next (stores (els (addr t))) :=
    (s.issueS_of_issues t f.gd _ hi).trans (congrArg _ (State.mgStore_of_admitted syl ha h))
  exact ⟨load _ false (Task.mgIndexed · f) nofun, store _ false (Task.mgIndexed · f) nofun,
    load _ false (Task.mgStrided · f) nofun, store _ false (Task.mgStrided · f) nofun,
    fun h ha => load _ true (Task.mgMasked · f) (fun _ => ha) h, fun h ha => store _ true (Task.mgMasked · f) (fun _ => ha) h⟩

/-! ## Full/empty forms (R261 to R263) -/

theorem State.feLoad_of_admitted {s : State} {t : Task} {f : FmtML} {l : Leaf} (syl : Word) (op : FeOp) (ht : s.task? s.cur = some t)
    (h : s.access s.cur t (t.ea f) (4 * feWords f.aux) .feLoad = .ok l) :
    s.feLoad s.cur t f syl op =
      { s.setTask s.cur (t.putPend (t.regs.dest .M f.d) (.feWait (op == .lde) l.pa f.aux (scopeOr .st f.sc) s.feSeq) none) with
        fes := s.fes ++ [⟨op, s.cur, t.ctx, t.launch, t.coord, t.nextPend, l.pa, feWords f.aux, f.aux == 1#4, 0#1024,
          scopeOr .st f.sc, false, none, s.feSeq⟩]
        feSeq := s.feSeq + 1 } := by
  simp only [State.feLoad, h, State.mapTask_of_current ht]
  rfl

theorem State.feStore_of_admitted {s : State} {t : Task} {f : FmtML} {l : Leaf} (syl : Word) (op : FeOp)
    (h : s.access s.cur t (t.ea f) (4 * feWords f.aux) .feStore = .ok l) :
    s.feStore s.cur t f syl op =
      { s.releaseFor s.cur t (scopeOr .st f.sc) with
        fes := (s.releaseFor s.cur t (scopeOr .st f.sc)).fes ++ [⟨op, s.cur, t.ctx, t.launch, t.coord, 0, l.pa, feWords f.aux, false,
          if op = .clre then 0#1024 else t.regs.read .M 0#1024 f.s2, scopeOr .st f.sc, false, none,
          (s.releaseFor s.cur t (scopeOr .st f.sc)).feSeq⟩]
        feSeq := (s.releaseFor s.cur t (scopeOr .st f.sc)).feSeq + 1 } := by
  simp only [State.feStore, h]

theorem State.feReady_of_task {s : State} {a : FeAcc} {t : Task} (h : s.keyTask a.pa (s.feKey a) = some t) :
    (a.op = .ldf ∨ a.op = .lde → (s.feReady a = true ↔ ∀ i, i < a.nwords → t.isFull (winOff a.pa / 4 + i) = true)) ∧
    (a.op = .ste → (s.feReady a = true ↔ ∀ i, i < a.nwords → t.isFull (winOff a.pa / 4 + i) = false)) ∧
    (a.op = .stf ∨ a.op = .clre → s.feReady a = true) := by
  refine ⟨?_, ?_, ?_⟩
  · rintro (ho | ho) <;> simp [State.feReady, h, ho, FeAcc.tag]
  · intro ho
    simp [State.feReady, h, ho, FeAcc.tag]
  · rintro (ho | ho) <;> simp [State.feReady, h, ho]

theorem State.feReady_of_no_task {s : State} {a : FeAcc} (h : s.keyTask a.pa (s.feKey a) = none) :
    s.feReady a = true ↔ a.op ≠ .ldf ∧ a.op ≠ .lde := by
  cases ho : a.op <;> simp [State.feReady, h, ho]

theorem execFeAccessArrival_of_unready {s : State} {n : Nat} {a : FeAcc} (ha : s.fes[n]? = some a) (hm : s.feMayArrive n = true)
    (hr : s.feReady a = false) :
    exec (.feAccessArrival n) s = .next { s with fes := listDrop s.fes n ++ [{ a with waiting := true }] } := by
  simp only [exec, execFeAccessArrival, State.feArrive, hm, ha, hr, if_true]
  rfl

/-- A clre that makes no edge between teams only clears its tags. -/
theorem State.fePerform_clre {s : State} {a : FeAcc} (he : s.feEdge a = s) (ho : a.op = .clre) :
    s.fePerform a = s.keyMap a.pa (s.feKey a) (fun t => t.setTags (winOff a.pa / 4) a.nwords false) := by
  have hb : s.feTagBad a = s := by simp only [State.feTagBad, ho]
  simp only [State.fePerform, he, hb, ho]
  rfl

/-- The tags of `n` words from `w` are set to one value, every other is as before. -/
theorem Task.setTags_isFull (t : Task) (w n k : Nat) (b : Bool) :
    (t.setTags w n b).isFull k = if w ≤ k ∧ k < w + n then b else t.isFull k := by
  have hr : (∃ a < n, w + a = k) ↔ w ≤ k ∧ k < w + n :=
    ⟨fun ⟨a, ha, hk⟩ => by omega, fun h => ⟨k - w, by omega, by omega⟩⟩
  rw [Bool.eq_iff_iff]
  by_cases h : w ≤ k ∧ k < w + n
  · cases b <;> simp [Task.setTags, Task.isFull, hr, h]
  · have hout : k < w ∨ w + n ≤ k := by omega
    cases b <;> simp [Task.setTags, Task.isFull, hr, h, hout]

/-- Settles O44: an issued access is sent as it is admitted, and its condition is read from the tags of its words. -/
theorem fullEmptyForms : Obligations.FullEmptyForms := by
  refine ⟨fun f s t l hi => ?issued, fun s n a => execFeAccessArrival_of_unready, fun s a t => State.feReady_of_task,
    fun s a => State.feReady_of_no_task, fun s a => State.fePerform_clre, Task.setTags_isFull⟩
  intro n ea sc
  constructor
  · intro h load
    have load_of (op : FeOp) (syl : Word) : s.issueS f.gd (fun t => s.feLoad s.cur t f syl op) = .next (load op (op == .lde)) :=
      (s.issueS_of_issues t f.gd _ hi).trans (congrArg _ (State.feLoad_of_admitted syl op hi.current h))
    exact ⟨load_of .ldf _, load_of .lde _⟩
  · intro h r store
    have store_of (op : FeOp) (syl : Word) : s.issueS f.gd (fun t => s.feStore s.cur t f syl op) =
        .next (store op (if op = .clre then 0#1024 else t.regs.read .M 0#1024 f.s2)) :=
      (s.issueS_of_issues t f.gd _ hi).trans (congrArg _ (State.feStore_of_admitted syl op h))
    exact ⟨store_of .ste _, store_of .stf _, store_of .clre _⟩

/-! ## Scratchpad loads (R234, R254, R257, R258) -/

theorem Tab.set_set {α : Type} (t : Tab α) (k : Nat) (v w : α) : (t.set k v).set k w = t.set k w := by
  induction t with
  | nil => simp [Tab.set]
  | cons e t ih =>
    obtain ⟨j, x⟩ := e
    rcases Nat.lt_trichotomy k j with h | rfl | h
    · simp [Tab.set, h]
    · simp [Tab.set]
    · simp [Tab.set, Nat.not_lt.mpr h.le, h.ne', ih]

/-- A task replaced twice is as it was left last. -/
theorem State.setTask_setTask (s : State) (c : CoreId) (t u : Task) : (s.setTask c t).setTask c u = s.setTask c u := by
  simp only [State.setTask, State.setCore, State.core, Tab.get_set_same, Tab.set_set]

theorem leNat_lt (l : List Byte) : leNat l < 256 ^ l.length := by
  induction l with
  | nil => simp [leNat]
  | cons b l ih =>
    have := b.isLt
    rw [leNat, List.length_cons, Nat.pow_succ]
    omega

/-- A window address lies on the stack of its core. -/
theorem stackOf_winCoreId (pa : Nat) : stackOf (winCoreId pa) = winStack pa := by
  apply Fin.ext
  have : winCore pa < 16 := Nat.mod_lt _ (by decide)
  simp only [stackOf, winCoreId, winStack, Fin.val_ofNat]
  omega

theorem State.translateFor_of_access {s : State} {c : CoreId} {t : Task} {va : Word} {n : Nat} {k : AccKind} {l : Leaf}
    (h : s.access c t va n k = .ok l) : s.translateFor c t va = .ok l := by
  unfold State.access at h
  split at h
  · cases h
  · rename_i x hx
    have hxl : x = l := by
      split at h
      · cases h
      · split at h
        · cases h
        · exact Except.ok.inj h
    rw [hx, hxl]

/-- The low bits of a number, extended, are its fit. -/
theorem fit64_natCast (ty : Ty) (n : Nat) : fit64 ty (n : Int) = atomExt ty n := by
  have hu : truncInt (tyWidth ty) (n : Int) = n % 2 ^ tyWidth ty := by
    rw [truncInt]
    exact_mod_cast Int.toNat_natCast _
  simp only [fit64, atomExt, hu, sval, low, Nat.mod_mod]
  rfl

/-- An access to the scratchpad of its own core, with no full/empty access in flight: what the access checks leave to be done is
nothing, and what it reads are the bytes as they stand. -/
structure OwnScratchpad (s : State) (t : Task) (l : Leaf) : Prop where
  sound : s.poison = []
  quiet : s.fes = []
  window : paWindow l.pa = true
  kind : winKind l.pa = 0
  core : winIsCore l.pa = true
  own : winCoreId l.pa = s.cur
  shows : s.windowTask l.pa = some t

section
variable {s : State} {t : Task} {l : Leaf} (ho : OwnScratchpad s t l)
include ho

theorem OwnScratchpad.settle {va : Word} {n : Nat} {k : AccKind} (h : s.access s.cur t va n k = .ok l) :
    s.settle s.cur t va n k = .ok (s, l) := by
  have hw : s.ownFirst s.cur t l.pa n l.atom = s := by
    simp [State.ownFirst, ho.window, ho.quiet, State.feOwnFirst, State.feArriveOwn, State.feArriveWhere]
  simp only [State.settle, h, hw, State.translateFor_of_access h]

theorem OwnScratchpad.noteWindow : s.noteWindow s.cur l.pa = s := by
  simp [State.noteWindow, State.noteShut, State.linkShut, ← ho.own, stackOf_winCoreId]

theorem OwnScratchpad.loadBytes (va : Word) (n : Nat) :
    s.loadBytes s.cur t l va n = (s, leNat (t.scrBytes (winOff l.pa) n)) := by
  have hb : s.windowBad l.pa n = false := by
    simp [State.windowBad, State.windowBadOf, State.poisoned, ho.sound, ho.kind, winDest]
  have hr : s.windowRead l.pa n = leNat (t.scrBytes (winOff l.pa) n) := by
    simp [State.windowRead, ho.kind, ho.shows, Task.winRead]
  have hlt : leNat (t.scrBytes (winOff l.pa) n) < 256 ^ n := by
    simpa [Task.scrBytes] using leNat_lt (t.scrBytes (winOff l.pa) n)
  have hown : s.feOwn s.cur t l.pa n = [] := by simp [State.feOwn, ho.quiet, sortKey]
  simp only [State.loadBytes, ho.window, if_true, ho.noteWindow, hb, State.consume, Bool.false_eq_true, if_false, hown, feOver,
    List.foldl_nil, leNat_natBytes, hr, Nat.mod_eq_of_lt hlt]

theorem OwnScratchpad.loadTo (hc : s.task? s.cur = some t) {va : Word} {n : Nat} (h : s.access s.cur t va n .load = .ok l)
    (syl : Word) (d : Opd) (ext : Nat → Vec) :
    s.loadTo s.cur t syl va n d ext =
      s.setTask s.cur (t.put 4 (t.regs.dest .M d) (ext (leNat (t.scrBytes (winOff l.pa) n))) 0#7) := by
  have hl : loadLatency s.cur l = some 4 := by simp [loadLatency, ho.window, ho.kind, ho.core, ho.own]
  simp only [State.loadTo, ho.settle h, ho.loadBytes, State.mapTask_of_current hc, Task.putLoad, hl, if_true]

end

/-- A load whose task goes on steps its base register after it. -/
theorem State.stepBase_setTask {s : State} {c : CoreId} {t : Task} {f : FmtML} {a : Word} (h : t.failed = false) :
    (s.setTask c t).stepBase c f a = s.setTask c (t.putW 1 .M f.s1 (a + f.off.signExtend 64)) := by
  rw [State.stepBase, State.mapTask_of_current (State.setTask_task_same ..), State.setTask_setTask]
  simp only [h, Bool.false_eq_true, if_false]

/-- Settles O40: each load reads its bytes as they stand, and ldpi steps its base behind it. -/
theorem scratchpadLoads : Obligations.ScratchpadLoads := by
  intro s t l hp hf hfail hw hk hic hown hshow bytes f hi
  have ho : OwnScratchpad s t l := ⟨hp, hf, hw, hk, hic, hown, hshow⟩
  intro ty
  refine ⟨?ld, ?ldpi, ?ldv, ?ldb⟩
  case ld =>
    intro h
    rw [fit64_natCast]
    exact (s.issueS_of_issues t f.gd _ hi).trans (congrArg _ (ho.loadTo hi.current h _ f.d (loadExt ty)))
  case ldpi =>
    intro h
    rw [fit64_natCast]
    exact (s.issueS_of_issues t f.gd _ hi).trans (congrArg _ ((congrArg (State.stepBase · s.cur f (t.srcM f.s1))
      (ho.loadTo hi.current h _ f.d (loadExt ty))).trans (State.stepBase_setTask hfail)))
  case ldv =>
    intro h
    exact (s.issueS_of_issues t f.gd _ hi).trans (congrArg _ (ho.loadTo hi.current h _ f.d (BitVec.ofNat 1024)))
  case ldb =>
    intro ty h
    exact (s.issueS_of_issues t f.gd _ hi).trans (congrArg _ (ho.loadTo hi.current h _ f.d (loadBcast ty)))

end Sys2Proof.Machine
end

section
/-! PROOF. The slot of a refused read of a system register (R411, R427, R455). -/

namespace Sys2Proof.Machine

/-- The record of a fatal error keeps the slot it was raised with. -/
theorem State.raiseFatal_slot_inj {s : State} {c : CoreId} {t : Task} {code m n : Nat} {syl va d : Word}
    (h : s.raiseFatal c t code m syl va d = s.raiseFatal c t code n syl va d) : m = n := by
  have hf := congrArg State.fatals h
  rw [State.raiseFatal_fatals, State.raiseFatal_fatals] at hf
  exact congrArg Fatal.slot (List.head_eq_of_cons_eq (List.append_cancel_left hf))

/-- A read of DLPOL without privilege is refused in the slot of `sysr`: the C slot, which is slot 0 (R112, R427). -/
theorem execSysr_of_refused {s : State} {t : Task} {f : FmtCS} (hi : Issues s t f.gd) (hn : f.sreg.toNat = 0x50)
    (hp : s.privileged t.ctx = false) :
    exec (.sysr f) s = .next (s.raiseFatal s.cur t errPermission 0 (encode (.sysr f)) 0#64 0#64) := by
  have hr : (sregReadPriv f.sreg.toNat && !s.privileged t.ctx) = true := by simp [sregReadPriv, sregDLPOL, hn, hp]
  exact (s.issueS_of_issues t f.gd _ hi).trans (congrArg _ (if_pos hr))

/-- A `sysr` of DLPOL into c0. -/
def readDlpol : FmtCS := ⟨⟨⟨false, false, 0⟩, .main 0, .main 0, .main 0⟩, 0, 0x50⟩

/-- A task of context 0, which no master has made privileged, on core 0. -/
def plainTask : Task := Task.fresh 0 0 0#48 0 0 0#64
def plainState : State := State.reset.setTask 0 plainTask

theorem plainState_issues : Issues plainState plainTask readDlpol.gd := ⟨State.setTask_task_same .., rfl⟩

/-- Refutes O51: the error record of a read of DLPOL without privilege names slot 0, the C slot of `sysr` (R427), and not slot 1. -/
theorem not_systemInstructions : ¬ Obligations.SystemInstructions := by
  intro h
  obtain ⟨_, _, registers⟩ := h
  obtain ⟨_, refused, _⟩ := registers readDlpol plainState plainTask plainState_issues
  have hn := Host.Outcome.next.inj ((execSysr_of_refused plainState_issues rfl rfl).symm.trans (refused rfl rfl))
  exact absurd (State.raiseFatal_slot_inj hn) (by decide)

end Sys2Proof.Machine
end

section
/-! PROOF. A held backing that proceeds on a memory that is not in its canonical form (R236, R242, R245). -/

namespace Sys2Proof.Machine

/-- The L2's dirty copy of line 0, which holds a leaf entry: P and UNB are set, and the byte of the leaf mark is zero (R230). -/
def dirtyLeafLine : L2Line := ⟨0, 0x80000000000001#1024, true, none, false, 0, 0#16⟩

/-- A backing of the page of that entry, held for a frame of 4 KiB, with no spill fault written. -/
def heldBacking : Spill := ⟨0, 0, 0, 4096, 0, 3⟩

/-- A state that no run reaches: memory lists byte 1 twice, and the stack table lists stack 3 after stack 5. -/
def listedTwice : State :=
  { State.reset with
    mem := [(1, 1#8), (1, 1#8)]
    stackTab := [(5, StackS.reset), (3, { StackS.reset with l2 := [dirtyLeafLine], spills := [heldBacking] })]
    pools := [(poolKey 0 0, [0x1000#52])] }

/-- With the dirty line over memory once, one of the two bytes is left, and the entry is a leaf that maps an unbacked page. -/
theorem listedTwice_mapsUnbacked : listedTwice.mapsUnbacked 0 0 = true := by decide +kernel

/-- The reservation that follows the backing lists stack 3 a second time, ahead of stack 5; its dirty line then goes over memory
twice and takes both bytes away, so that the entry which is rewritten is not the one that stood there. -/
theorem listedTwice_backed :
    (listedTwice.spillProceed 3 0).backed.find 0 ≠ some (leafWith (listedTwice.entry 0) false 0x1000 3) := by
  decide +kernel

/-- Refutes O57: its clause on a held backing that takes a frame does not ask that memory be in its canonical form, as its clause
on a write at home does. Where it is not, the leaf entry left behind need not be the one that stood there with a new frame and
home. -/
theorem not_landingsAndWritesAtHome : ¬ Obligations.LandingsAndWritesAtHome := by
  intro h
  obtain ⟨_, _, _, _, proceeds, _⟩ := h
  obtain ⟨u, hu, _, _, _, backed, _⟩ :=
    proceeds listedTwice 3 0 heldBacking 0x1000#52 [] rfl listedTwice_mapsUnbacked rfl rfl
  have huv : listedTwice.spillProceed 3 0 = u := Host.Outcome.next.inj hu
  exact listedTwice_backed (huv ▸ backed)

end Sys2Proof.Machine
end

section
/-! PROOF. Integers read, wrapped and saturated by their type (R155, R156, R187). -/

namespace Sys2Proof.Machine

/-- The signed value of a source is its residue nearest to zero. -/
theorem sval_eq_bmod {w : Nat} (hw : 0 < w) (n : Nat) : sval w n = (n : Int).bmod (2 ^ w) := by
  obtain ⟨k, rfl⟩ : ∃ k, w = k + 1 := ⟨w - 1, by omega⟩
  have hmod : (n : Int) % (2 ^ (k + 1) : Nat) = (n % 2 ^ (k + 1) : Nat) := (Int.natCast_mod ..).symm
  have hpow : (2 : Int) ^ (k + 1) = (2 ^ (k + 1) : Nat) := by norm_cast
  simp only [sval, low, Int.bmod, Nat.add_sub_cancel, hmod, hpow]
  rw [Nat.pow_succ]
  generalize 2 ^ k = p
  generalize n % (p * 2) = r
  split <;> split <;> omega

theorem sval_range {w : Nat} (hw : 0 < w) (n : Nat) : -2 ^ (w - 1) ≤ sval w n ∧ sval w n ≤ 2 ^ (w - 1) - 1 := by
  rw [sval_eq_bmod hw, ← BitVec.toInt_ofNat]
  exact ⟨BitVec.le_toInt _, Int.le_sub_one_of_lt (BitVec.toInt_lt)⟩

/-- The value of a source lies in the range of its type. -/
theorem tyVal_range (ty : Ty) (n : Nat) : tyMin ty ≤ tyVal ty n ∧ tyVal ty n ≤ tyMax ty := by
  unfold tyMin tyMax tyVal
  split
  · exact sval_range (tyWidth_pos ty) n
  · have : n % 2 ^ tyWidth ty < 2 ^ tyWidth ty := Nat.mod_lt _ (by positivity)
    zify at this
    simp only [uval, low]
    push_cast
    omega

/-- The value of a source is congruent to it modulo 2^w. -/
theorem tyVal_emod (ty : Ty) (n : Nat) : tyVal ty n % 2 ^ tyWidth ty = n % 2 ^ tyWidth ty := by
  unfold tyVal
  split
  · rw [sval_eq_bmod (tyWidth_pos ty)]
    exact_mod_cast Int.bmod_emod
  · simp [uval, low]

theorem truncInt_lt (w : Nat) (v : Int) : truncInt w v < 2 ^ w := by
  have : v % 2 ^ w < 2 ^ w := Int.emod_lt_of_pos _ (by positivity)
  zify
  rw [truncInt]
  omega

theorem truncInt_cast (w : Nat) (v : Int) : (truncInt w v : Int) = v % 2 ^ w :=
  Int.toNat_of_nonneg (Int.emod_nonneg _ (by positivity))

theorem tyWidth_le (ty : Ty) : tyWidth ty ≤ 64 := by cases ty <;> decide

/-- The 64-bit register that a fit fills reads, by the type's signedness, as the value of the low bits kept. -/
theorem fit64_value (ty : Ty) (v : Int) :
    (if tySigned ty then (fit64 ty v).toInt else ((fit64 ty v).toNat : Int)) = tyVal ty (truncInt (tyWidth ty) v) := by
  have hw : tyWidth ty ≤ 64 := tyWidth_le ty
  by_cases hs : tySigned ty
  · have hr := sval_range (tyWidth_pos ty) (truncInt (tyWidth ty) v)
    have hp : (2 : Int) ^ (tyWidth ty - 1) ≤ 2 ^ 63 := pow_le_pow_right₀ (by decide) (by omega)
    simp only [fit64, tyVal, hs, if_true, BitVec.toInt_ofInt]
    exact Int.bmod_eq_of_le (by omega) (by omega)
  · have hp : 2 ^ tyWidth ty ≤ 2 ^ 64 := Nat.pow_le_pow_right (by decide) hw
    have hlt := truncInt_lt (tyWidth ty) v
    simp only [fit64, tyVal, hs, uval, low, Nat.mod_eq_of_lt hlt, Bool.false_eq_true, if_false, BitVec.toNat_ofNat,
      Nat.mod_eq_of_lt (hlt.trans_le hp)]

theorem tyMin_le_tyMax (ty : Ty) : tyMin ty ≤ tyMax ty :=
  (tyVal_range ty 0).1.trans (tyVal_range ty 0).2

/-- Settles O24: the value of a source is the residue of its low bits that lies in the range of the type, and the fit of an integer
fills the register with the value of the bits it keeps. -/
theorem integerFitAndSaturation : Obligations.IntegerFitAndSaturation := by
  refine fun ty _ => ⟨fun n => ⟨(tyVal_range ty n).1, (tyVal_range ty n).2, ?_⟩, fun v => ?_, fun v => ⟨?_, ?_, ?_⟩⟩
  · exact Int.emod_eq_emod_iff_emod_sub_eq_zero.mp (tyVal_emod ty n)
  · rw [fit64_value]
    refine ⟨Int.emod_eq_emod_iff_emod_sub_eq_zero.mp ?_, tyVal_range ty _⟩
    rw [tyVal_emod, truncInt_cast, Int.emod_emod_of_dvd _ dvd_rfl]
  all_goals
    have := tyMin_le_tyMax ty
    unfold satInt
    split_ifs <;> omega

end Sys2Proof.Machine
end

section
/-! PROOF. The elements of a register and the operations that run over them (R151, R162, R196 to R198). -/

namespace Sys2Proof.Machine

/-- Digit i of a number packed from its digits. -/
theorem packNat_digit (w : Nat) (l : List Nat) (i : Nat) : packNat w l / 2 ^ (w * i) % 2 ^ w = l.getD i 0 % 2 ^ w := by
  induction l generalizing i with
  | nil => simp [packNat]
  | cons a l ih =>
    cases i with
    | zero => simp [packNat]
    | succ i =>
      have hlow : (a % 2 ^ w + 2 ^ w * packNat w l) / 2 ^ w = packNat w l := by
        rw [Nat.add_mul_div_left _ _ (by positivity), Nat.div_eq_of_lt (Nat.mod_lt _ (by positivity)), Nat.zero_add]
      rw [packNat, Nat.mul_succ, Nat.add_comm (w * i), Nat.pow_add, ← Nat.div_div_eq_div_mul, hlow, ih]
      rfl

theorem packNat_lt (w : Nat) (l : List Nat) : packNat w l < 2 ^ (w * l.length) := by
  induction l with
  | nil => simp [packNat]
  | cons a l ih =>
    have ha : a % 2 ^ w < 2 ^ w := Nat.mod_lt _ (by positivity)
    have : 2 ^ w * (packNat w l + 1) ≤ 2 ^ w * 2 ^ (w * l.length) := Nat.mul_le_mul_left _ ih
    rw [packNat, List.length_cons, Nat.mul_succ, Nat.add_comm (w * _), Nat.pow_add]
    rw [Nat.mul_add] at this
    omega

theorem elem_lt (w : Nat) (x : Vec) (i : Nat) : elem w x i < 2 ^ w := Nat.mod_lt _ (by positivity)

/-- An element of a register built from its elements. -/
theorem elem_ofElems {w : Nat} {l : List Nat} (h : w * l.length ≤ 1024) (i : Nat) :
    elem w (ofElems w l) i = l.getD i 0 % 2 ^ w := by
  have hlt := (packNat_lt w l).trans_le (Nat.pow_le_pow_right Nat.two_pos h)
  have hval : (ofElems w l).toNat = packNat w l := (BitVec.toNat_ofNat ..).trans (Nat.mod_eq_of_lt hlt)
  rw [elem, hval, Nat.shiftRight_eq_div_pow, packNat_digit]

/-- The union of flags holds a flag where one of them does. -/
theorem foldl_or_getLsbD {α : Type} (g : α → FFlags) (l : List α) (a : FFlags) (b : Nat) :
    (l.foldl (fun a r => a ||| g r) a).getLsbD b = (a.getLsbD b || l.any (fun r => (g r).getLsbD b)) := by
  induction l generalizing a with
  | nil => simp
  | cons r l ih => simp [ih, Bool.or_assoc]

theorem elem_lanesRun {w : Nat} (en : Nat → Bool) (old : Vec) (op : Nat → Nat × FFlags) {i : Nat} (hi : i < 1024 / w) :
    elem w (lanesRun w en old op).1 i = if en i then (op i).1 % 2 ^ w else elem w old i := by
  rw [lanesRun, elem_ofElems (by simpa using Nat.mul_div_le 1024 w)]
  by_cases he : en i <;> simp [hi, he, Nat.mod_eq_of_lt (elem_lt w old i)]

theorem lanesRun_flags (w : Nat) (en : Nat → Bool) (old : Vec) (op : Nat → Nat × FFlags) (b : Nat) :
    (lanesRun w en old op).2.getLsbD b = (List.range (1024 / w)).any (fun i => en i && (op i).2.getLsbD b) := by
  rw [lanesRun, foldl_or_getLsbD, List.any_map, BitVec.getLsbD_zero, Bool.false_or]
  congr 1
  funext i
  by_cases he : en i <;> simp [he]

/-- Settles O31, from one element of a register put together out of its elements, and one flag of a union. -/
theorem lanesRunElementwise : Obligations.LanesRunElementwise := by
  refine ⟨fun w en old op _ => ⟨fun i hi => elem_lanesRun en old op hi, fun b _ => lanesRun_flags w en old op b⟩, ?_,
    fun _ _ _ _ _ => rfl⟩
  exact fun km w i => ⟨rfl, fun hw => by simp [laneEn, laneOf, hw], fun hw => by simp [laneEn, laneOf, hw]⟩

end Sys2Proof.Machine
end

section
/-! PROOF. Exact sums, products, quotients and roots, and the one rounding (R157, R159, R163, R174). -/

namespace Sys2Proof.Machine

/-! ## Exact sums (R159, R174) -/

/-- A term in finer units is a multiple. -/
theorem toUnits_finer {q d e : Int} (hq : q ≤ d) (he : d ≤ e) (s : Bool) (m : Nat) :
    toUnits s m e d * 2 ^ (d - q).toNat = toUnits s m e q := by
  have hexp : (e - q).toNat = (e - d).toNat + (d - q).toNat := by omega
  cases s <;> simp [toUnits, hexp, pow_add, mul_assoc]

theorem toUnits_zero (s : Bool) (e q : Int) : toUnits s 0 e q = 0 := by
  simp [toUnits]

/-- An integer of units as a value: its units are that integer, and a zero has the sign given. -/
theorem ofUnits_spec (z : Bool) (v e : Int) :
    ∃ s m, ofUnits z v e = .fin s m e ∧ toUnits s m e e = v ∧ (m = 0 → s = z) := by
  by_cases hv : v = 0
  · exact ⟨z, 0, by simp [ofUnits, hv], by simp [toUnits, hv], fun _ => rfl⟩
  · refine ⟨decide (v < 0), v.natAbs, by simp [ofUnits, hv], ?_, fun h => absurd (Int.natAbs_eq_zero.mp h) hv⟩
    simp only [toUnits, sub_self, Int.toNat_zero, pow_zero, mul_one, decide_eq_true_eq]
    split <;> omega

/-- A finite term, from its sign, magnitude and exponent. -/
def finTerm (x : Bool × Nat × Int) : FVal := .fin x.1 x.2.1 x.2.2

/-- The least exponent of the terms that are not zero and of `d`: it lies on or above every bound of them, and on or below each. -/
theorem minExp_finTerms {q : Int} {l : List (Bool × Nat × Int)} {d : Option Int} (hq : ∀ x ∈ l, q ≤ x.2.2)
    (hd : ∀ p, d = some p → q ≤ p) (hne : (∃ x ∈ l, x.2.1 ≠ 0) ∨ d ≠ none) :
    ∃ e, minExp (l.map finTerm) d = some e ∧ q ≤ e ∧ (∀ x ∈ l, x.2.1 ≠ 0 → e ≤ x.2.2) ∧ ∀ p, d = some p → e ≤ p := by
  induction l generalizing d with
  | nil =>
    obtain ⟨p, rfl⟩ := Option.ne_none_iff_exists'.mp (by simpa using hne)
    exact ⟨p, rfl, hd p rfl, by simp, by simp⟩
  | cons x l ih =>
    have hx : q ≤ x.2.2 := hq x (List.mem_cons_self ..)
    have hl : ∀ y ∈ l, q ≤ y.2.2 := fun y hy => hq y (List.mem_cons_of_mem _ hy)
    by_cases h0 : x.2.1 = 0
    · obtain ⟨e, he, hqe, hle, hde⟩ := ih hl hd (by simpa [h0] using hne)
      exact ⟨e, by simpa [finTerm, minExp, h0] using he, hqe, List.forall_mem_cons.mpr ⟨fun h => absurd h0 h, hle⟩, hde⟩
    · cases d with
      | none =>
        obtain ⟨e, he, hqe, hle, hde⟩ := ih (d := some x.2.2) hl (by simpa using hx) (.inr (by simp))
        exact ⟨e, by simpa [finTerm, minExp, h0] using he, hqe, List.forall_mem_cons.mpr ⟨fun _ => hde _ rfl, hle⟩, by simp⟩
      | some p =>
        have hmin : (if p ≤ x.2.2 then p else x.2.2) = min p x.2.2 := (min_def ..).symm
        obtain ⟨e, he, hqe, hle, hde⟩ := ih (d := some (min p x.2.2)) hl (by simpa using ⟨hd p rfl, hx⟩) (.inr (by simp))
        have hep : e ≤ min p x.2.2 := hde _ rfl
        exact ⟨e, by simpa [finTerm, minExp, h0, hmin] using he, hqe,
          List.forall_mem_cons.mpr ⟨fun _ => hep.trans (min_le_right ..), hle⟩, by simpa using hep.trans (min_le_left ..)⟩

/-- The sum of finite terms in finer units, the zeros counting nothing. -/
theorem sumUnits_finer {q d : Int} (hq : q ≤ d) {l : List (Bool × Nat × Int)} (h : ∀ x ∈ l, x.2.1 ≠ 0 → d ≤ x.2.2) :
    sumUnits d (l.map finTerm) * 2 ^ (d - q).toNat = (l.map fun x => toUnits x.1 x.2.1 x.2.2 q).sum := by
  induction l with
  | nil => simp [sumUnits]
  | cons x l ih =>
    have hl := ih fun y hy => h y (List.mem_cons_of_mem _ hy)
    have hx : (if x.2.1 = 0 then 0 else toUnits x.1 x.2.1 x.2.2 d) * 2 ^ (d - q).toNat = toUnits x.1 x.2.1 x.2.2 q := by
      by_cases h0 : x.2.1 = 0
      · simp [h0, toUnits_zero]
      · rw [if_neg h0, toUnits_finer hq (h x (List.mem_cons_self ..) h0)]
    simp only [List.map_cons, List.sum_cons, sumUnits, finTerm]
    rw [add_mul, hx]
    exact congrArg _ hl

/-- Where one of several finite terms is not zero, their total is the sum of them in units of the least exponent. -/
theorem ftotal_finTerms (rm : Rm) {l : List (Bool × Nat × Int)} {e : Int} (h : minExp (l.map finTerm) none = some e) :
    ftotal rm (l.map finTerm) = (ofUnits (rm == .rdn) (sumUnits e (l.map finTerm)) e, 0#7) := by
  have hnan : (l.map finTerm).any isNan = false := by simp [finTerm, isNan]
  have hinf (s : Bool) : (l.map finTerm).any (isInf s) = false := by simp [finTerm, isInf]
  simp [ftotal, hnan, hinf, h]

/-- The total of finite terms, not all zero, is their exact sum. -/
theorem ftotal_exact (rm : Rm) {l : List (Bool × Nat × Int)} {q : Int} (hq : ∀ x ∈ l, q ≤ x.2.2) (hne : ∃ x ∈ l, x.2.1 ≠ 0) :
    ∃ s m e, ftotal rm (l.map finTerm) = (.fin s m e, 0#7) ∧ q ≤ e ∧
      toUnits s m e q = (l.map fun x => toUnits x.1 x.2.1 x.2.2 q).sum ∧ (m = 0 → s = (rm == .rdn)) := by
  obtain ⟨e, he, hqe, hle, _⟩ := minExp_finTerms hq (d := none) (by simp) (.inl hne)
  obtain ⟨s, m, hv, hu, hz⟩ := ofUnits_spec (rm == .rdn) (sumUnits e (l.map finTerm)) e
  exact ⟨s, m, e, by rw [ftotal_finTerms rm he, hv], hqe, by rw [← toUnits_finer hqe le_rfl, hu, sumUnits_finer hqe hle], hz⟩

/-! ## Quotients and roots (R163, R174) -/

/-- The quotient of a magnitude, taken in units below 2^-70 of it. -/
theorem two_pow_le_quotient {m n : Nat} (hm : 0 < m) : 2 ^ 70 * n ≤ m * 2 ^ (72 + n.log2) := by
  have hn : n < 2 ^ (n.log2 + 1) := Nat.lt_log2_self
  calc 2 ^ 70 * n ≤ 2 ^ 71 * 2 ^ (n.log2 + 1) := Nat.mul_le_mul (by decide) hn.le
    _ = 1 * 2 ^ (72 + n.log2) := by ring
    _ ≤ m * 2 ^ (72 + n.log2) := Nat.mul_le_mul_right _ hm

theorem fdiv_fin (F : FFmt) (rm : Rm) (sat s t : Bool) {m n : Nat} (e f : Int) (hm : 0 < m) (hn : 0 < n) :
    fdiv F rm sat (.fin s m e) (.fin t n f) =
      roundFin F rm sat (s != t) (m * 2 ^ (72 + n.log2) / n) (e - f - (72 + n.log2 : Nat)) (m * 2 ^ (72 + n.log2) % n != 0) := by
  simp [fdiv, quoMag, hm.ne', hn.ne']

/-- A quotient is rounded once, from 2^70 units or more and a mark of what lies above them. -/
theorem fdiv_roundsOnce (F : FFmt) (rm : Rm) (sat s t : Bool) {m n : Nat} (e f : Int) (hm : 0 < m) (hn : 0 < n) :
    ∃ (d k : Nat) (st : Bool), fdiv F rm sat (.fin s m e) (.fin t n f) = roundFin F rm sat (s != t) d (e - f - k) st ∧
      2 ^ 70 ≤ d ∧ d * n ≤ m * 2 ^ k ∧ m * 2 ^ k < (d + 1) * n ∧ (st = false ↔ d * n = m * 2 ^ k) := by
  refine ⟨_, _, _, fdiv_fin F rm sat s t e f hm hn, ?_, Nat.div_mul_le_self .., ?_, ?_⟩
  · exact (Nat.le_div_iff_mul_le hn).mpr (two_pow_le_quotient hm)
  · exact Nat.lt_mul_of_div_lt (Nat.lt_succ_self _) hn
  · rw [bne_eq_false_iff_eq, ← Nat.dvd_iff_mod_eq_zero]
    exact Nat.dvd_iff_div_mul_eq ..

/-- The root by bits keeps its square on or below n, and the square of it with the bits still to come above. -/
theorem isqrtBits_spec {k n r : Nat} (hle : r * r ≤ n) (hlt : n < (r + 2 ^ k) * (r + 2 ^ k)) :
    isqrtBits k n r * isqrtBits k n r ≤ n ∧ n < (isqrtBits k n r + 1) * (isqrtBits k n r + 1) := by
  induction k generalizing r with
  | zero => exact ⟨hle, hlt⟩
  | succ k ih =>
    rw [isqrtBits]
    split
    next h => exact ih h (by rwa [Nat.add_assoc, ← Nat.two_mul, ← Nat.pow_succ'])
    next h => exact ih hle (Nat.not_le.mp h)

theorem isqrt_spec (n : Nat) : isqrt n * isqrt n ≤ n ∧ n < (isqrt n + 1) * (isqrt n + 1) := by
  refine isqrtBits_spec (Nat.zero_le _) ?_
  rw [Nat.zero_add, ← Nat.pow_add]
  exact Nat.lt_log2_self.trans_le (Nat.pow_le_pow_right (by decide) (by omega))

/-- The root of 2^144 units or more has 2^70 units or more. -/
theorem two_pow_le_isqrt {n : Nat} (h : 2 ^ 144 ≤ n) : 2 ^ 70 ≤ isqrt n := by
  by_contra hlt
  have hsq : (isqrt n + 1) * (isqrt n + 1) ≤ 2 ^ 70 * 2 ^ 70 := Nat.mul_le_mul (by omega) (by omega)
  have := (isqrt_spec n).2
  omega

/-- The power of two that a magnitude is multiplied by before its root is taken: it leaves an even exponent. -/
def rootShift (e : Int) : Nat := if e % 2 = 0 then 144 else 145

theorem rootShift_even (e : Int) : 2 * ((e - rootShift e) / 2) = e - rootShift e := by
  unfold rootShift; split <;> omega

theorem fsqrt_fin (F : FFmt) (rm : Rm) (sat : Bool) {m : Nat} (e : Int) (hm : 0 < m) :
    fsqrt F rm sat (.fin false m e) =
      roundFin F rm sat false (isqrt (m * 2 ^ rootShift e)) ((e - rootShift e) / 2)
        (isqrt (m * 2 ^ rootShift e) * isqrt (m * 2 ^ rootShift e) != m * 2 ^ rootShift e) := by
  simp [fsqrt, hm.ne', rootShift]

/-- A root is rounded once, from 2^70 units or more and a mark of what lies above them. -/
theorem fsqrt_roundsOnce (F : FFmt) (rm : Rm) (sat : Bool) {m : Nat} (e : Int) (hm : 0 < m) :
    ∃ (r k : Nat) (h : Int) (st : Bool), fsqrt F rm sat (.fin false m e) = roundFin F rm sat false r h st ∧ 2 * h = e - k ∧
      2 ^ 70 ≤ r ∧ r * r ≤ m * 2 ^ k ∧ m * 2 ^ k < (r + 1) * (r + 1) ∧ (st = false ↔ r * r = m * 2 ^ k) := by
  have hpow : 2 ^ 144 ≤ m * 2 ^ rootShift e :=
    (Nat.pow_le_pow_right (by decide) (by unfold rootShift; split <;> decide)).trans (Nat.le_mul_of_pos_left _ hm)
  exact ⟨_, rootShift e, _, _, fsqrt_fin F rm sat e hm, rootShift_even e, two_pow_le_isqrt hpow, (isqrt_spec _).1,
    (isqrt_spec _).2, bne_eq_false_iff_eq⟩

/-! ## The one rounding (R157) -/

/-- What is discarded below the unit 2^k of a magnitude, with a mark of something more below it, against one half. -/
def discarded (m k : Nat) (sticky : Bool) : Ordering :=
  if m % 2 ^ k < 2 ^ (k - 1) then .lt else if 2 ^ (k - 1) < m % 2 ^ k then .gt else if sticky then .gt else .eq

/-- A rounding to a multiple of a finer unit is exact. -/
theorem roundMag_of_le (rm : Rm) (s : Bool) (m : Nat) {e q : Int} (sticky : Bool) (h : q ≤ e) :
    roundMag rm s m e sticky q = (m * 2 ^ (e - q).toNat, sticky) := by
  rw [roundMag, if_pos h]

theorem add_toNat (y : Nat) (b : Bool) : (if b = true then y + 1 else y) = y + b.toNat := by
  cases b <;> rfl

/-- A rounding to a multiple of a coarser unit gives the quotient, or one more where what is discarded rounds up. -/
theorem roundMag_of_lt (rm : Rm) (s : Bool) (m : Nat) {e q : Int} (sticky : Bool) {k : Nat} (hk : q = e + (k + 1)) :
    roundMag rm s m e sticky q =
      (m / 2 ^ (k + 1) + (roundsUp rm s (m / 2 ^ (k + 1) % 2 == 1) (m % 2 ^ (k + 1) != 0 || sticky)
        (discarded m (k + 1) sticky)).toNat, m % 2 ^ (k + 1) != 0 || sticky) := by
  have hsh : (q - e).toNat = k + 1 := by omega
  rw [roundMag, if_neg (by omega)]
  simp only [hsh]
  split
  next hsmall =>
    have hm : m < 2 ^ k := Nat.lt_log2_self.trans_le (Nat.pow_le_pow_right (by decide) (by omega))
    have hm' : m < 2 ^ (k + 1) := hm.trans (Nat.pow_lt_pow_succ (by decide))
    simp only [discarded, Nat.mod_eq_of_lt hm', Nat.div_eq_of_lt hm', Nat.add_sub_cancel, hm, if_true, Nat.zero_add,
      Bool.toNat, Bool.cond_eq_ite]
    rfl
  next => simp only [discarded, add_toNat]

/-- A number of units rounded to a multiple of 2^k of them. -/
theorem roundMag_units (rm : Rm) (s : Bool) (m k : Nat) :
    roundMag rm s m 0 false k =
      (m / 2 ^ k + (roundsUp rm s (m / 2 ^ k % 2 == 1) (m % 2 ^ k != 0) (discarded m k false)).toNat, m % 2 ^ k != 0) := by
  cases k with
  | zero =>
    rw [roundMag_of_le _ _ _ _ (by simp)]
    cases rm <;> simp [discarded, roundsUp, Nat.mod_one]
  | succ k => rw [roundMag_of_lt rm s m false (k := k) (by push_cast; omega), Bool.or_false]

/-- Units scale out of a rounding. -/
theorem roundMag_sub_exp (rm : Rm) (s : Bool) (m : Nat) (e q : Int) (sticky : Bool) :
    roundMag rm s m e sticky q = roundMag rm s m 0 sticky (q - e) := by
  rcases le_or_gt q e with h | h
  · rw [roundMag_of_le _ _ _ _ h, roundMag_of_le _ _ _ _ (by omega), zero_sub, Int.neg_sub]
  · obtain ⟨k, hk⟩ : ∃ k : Nat, q = e + (k + 1) := ⟨(q - e - 1).toNat, by omega⟩
    rw [roundMag_of_lt _ _ _ _ hk, roundMag_of_lt _ _ _ _ (k := k) (by omega)]

/-- Half a unit more leaves the quotient as it is and marks the rest. -/
theorem div_mod_of_half_more (m k : Nat) :
    (2 * m + 1) / 2 ^ (k + 1) = m / 2 ^ k ∧ (2 * m + 1) % 2 ^ (k + 1) = 2 * (m % 2 ^ k) + 1 := by
  have hm : (2 * m + 1) / 2 = m := by omega
  rw [Nat.pow_succ', ← Nat.div_div_eq_div_mul, Nat.mod_mul, hm]
  exact ⟨rfl, by omega⟩

/-- A mark of something below the units orders what is discarded as half a unit more would. -/
theorem discarded_sticky (m k : Nat) : discarded m (k + 1) true = discarded (2 * m + 1) (k + 2) false := by
  have hhalf : 2 ^ (k + 1) = 2 * 2 ^ k := Nat.pow_succ'
  simp only [discarded, (div_mod_of_half_more m (k + 1)).2, Nat.add_sub_cancel, show k + 2 - 1 = k + 1 from rfl, if_true,
    Bool.false_eq_true, if_false]
  rcases Nat.lt_trichotomy (m % 2 ^ (k + 1)) (2 ^ k) with h | h | h
  · rw [if_pos h, if_pos (by omega)]
  · rw [if_neg (by omega), if_neg (by omega), if_neg (by omega), if_pos (by omega)]
  · rw [if_neg (by omega), if_pos h, if_neg (by omega), if_pos (by omega)]

theorem roundMag_sticky (rm : Rm) (s : Bool) (m : Nat) {k : Nat} (hk : 1 ≤ k) :
    roundMag rm s m 0 true k = roundMag rm s (2 * m + 1) (-1) false k := by
  obtain ⟨k, rfl⟩ := Nat.exists_eq_add_of_le' hk
  obtain ⟨hdiv, hmod⟩ := div_mod_of_half_more m (k + 1)
  rw [roundMag_of_lt _ _ _ _ (k := k) (by push_cast; omega), roundMag_of_lt _ _ _ _ (k := k + 1) (by push_cast; omega),
    discarded_sticky, hdiv, hmod]
  simp

/-- Rounded up, a quotient is the least multiple not below. -/
theorem div_add_toNat_eq_ceil (m k : Nat) : m / 2 ^ k + (m % 2 ^ k != 0).toNat = (m + 2 ^ k - 1) / 2 ^ k := by
  have hp : 0 < 2 ^ k := by positivity
  have hsum : m + 2 ^ k - 1 = 2 ^ k * (m / 2 ^ k) + (m % 2 ^ k + 2 ^ k - 1) := by
    have := Nat.div_add_mod m (2 ^ k)
    omega
  have hlt := Nat.mod_lt m hp
  rw [hsum, Nat.mul_add_div hp]
  by_cases h : m % 2 ^ k = 0
  · simp [h, Nat.div_eq_of_lt (Nat.sub_lt hp Nat.one_pos)]
  · have hone : (m % 2 ^ k + 2 ^ k - 1) / 2 ^ k = 1 := Nat.div_eq_of_lt_le (by omega) (by omega)
    simp [h, hone]

/-- Rounded to nearest, a number of units is no farther off than half a step, and even where two multiples are equally near. -/
theorem roundMag_nearest (s : Bool) (m k : Nat) :
    let y := (roundMag .rne s m 0 false k).1
    2 * (y * 2 ^ k) ≤ 2 * m + 2 ^ k ∧ 2 * m ≤ 2 * (y * 2 ^ k) + 2 ^ k ∧
      (2 * m + 2 ^ k = 2 * (y * 2 ^ k) ∨ 2 * m = 2 * (y * 2 ^ k) + 2 ^ k → y % 2 = 0) := by
  rw [roundMag_units]
  cases k with
  | zero => simp [discarded, roundsUp, Nat.mod_one]
  | succ k =>
    have hlt := Nat.mod_lt m (y := 2 ^ (k + 1)) (by positivity)
    have hdm := Nat.div_add_mod m (2 ^ (k + 1))
    have hpow : 2 ^ (k + 1) = 2 * 2 ^ k := Nat.pow_succ'
    simp only [discarded, roundsUp, Nat.add_sub_cancel, Bool.false_eq_true, if_false]
    rw [hpow] at hlt hdm ⊢
    clear hpow
    generalize m / (2 * 2 ^ k) = y at *
    generalize m % (2 * 2 ^ k) = r at *
    generalize 2 ^ k = p at *
    rcases Nat.lt_trichotomy r p with h | rfl | h
    · simp only [h, if_true, Bool.toNat_false, Nat.add_zero, Nat.mul_comm y]
      omega
    · simp only [Nat.lt_irrefl, if_false]
      rcases Nat.mod_two_eq_zero_or_one y with hy | hy
      · simp only [hy, Nat.reduceBEq, Bool.toNat_false, Nat.add_zero, Nat.mul_comm y, implies_true, and_true]
        omega
      · simp only [hy, beq_self_eq_true, Bool.toNat_true, Nat.mul_comm _ (2 * r), Nat.mul_add]
        omega
    · simp only [h, h.not_gt, if_true, if_false, Bool.toNat_true, Nat.mul_comm _ (2 * p), Nat.mul_add]
      omega

/-- Settles O32: the total is the sum in units of the least exponent, a quotient and a root are the integer ones of a magnitude
scaled up, and a rounding is the quotient by the step, or one more. -/
theorem roundingIsToTheModesNeighbour : Obligations.RoundingIsToTheModesNeighbour := by
  refine ⟨?sum, fun _ _ _ _ _ _ => rfl, fun _ _ _ _ _ _ => ⟨rfl, rfl, rfl⟩, ?quotient, ?root, ?scale, ?modes⟩
  case sum =>
    intro rm l q hq hne
    rw [← List.sum_eq_foldl]
    exact ftotal_exact rm hq hne
  case quotient => exact fun F rm sat s t m n e f hm hn => fdiv_roundsOnce F rm sat s t e f hm hn
  case root => exact fun F rm sat m e hm => fsqrt_roundsOnce F rm sat e hm
  case scale => exact fun rm s m => ⟨roundMag_sub_exp rm s m, fun k hk => roundMag_sticky rm s m hk⟩
  case modes =>
    intro s m k
    refine ⟨fun rm => ?_, ?_, ?_, ?_, roundMag_nearest s m k⟩
    · exact Bool.eq_iff_iff.mpr (by simp [roundMag_units])
    · simp [roundMag_units, roundsUp]
    · cases s <;> simp [roundMag_units, roundsUp, div_add_toNat_eq_ceil]
    · cases s <;> simp [roundMag_units, roundsUp, div_add_toNat_eq_ceil]

end Sys2Proof.Machine
end

section
/-! PROOF. Encodings of the floating formats and the rounding to them (R152, R153, R157, R158, R160). -/

namespace Sys2Proof.Machine

/-! ## The fields of an encoding (R152) -/

/-- Width of the exponent field. -/
def FFmt.ebits (F : FFmt) : Nat := F.width - 1 - F.fbits

/-- What the tables of R152 say of a format: an exponent of two bits or more, and the largest finite value that infinities, or the one
NaN of a format without them, leave. -/
def FFmt.Sound (F : FFmt) : Prop :=
  F.fbits + 3 ≤ F.width ∧ 1 ≤ F.fbits ∧
  (F.hasInf = true → F.maxM = 2 ^ (F.fbits + 1) - 1 ∧ F.maxQ = (2 ^ F.ebits : Nat) - 2 - F.bias - F.fbits) ∧
  (F.hasInf = false → F.maxM = 2 ^ (F.fbits + 1) - 2 ∧ F.maxQ = (2 ^ F.ebits : Nat) - 1 - F.bias - F.fbits)

theorem formats_sound : ∀ F ∈ [fmtF64, fmtF32, fmtF16, fmtBF16, fmtE4M3, fmtE5M2], F.Sound := by
  unfold FFmt.Sound FFmt.ebits
  decide

/-- An encoding put together from its sign, exponent and fraction. -/
def encBits (F : FFmt) (s : Bool) (ex fr : Nat) : Nat := signBit F s + (ex * 2 ^ F.fbits + fr)

/-- The value that the fields of an encoding have. -/
def fieldsVal (F : FFmt) (s : Bool) (ex fr : Nat) : FVal :=
  if ex = 2 ^ F.ebits - 1 ∧ F.hasInf = true then
    if fr = 0 then .inf s else .nan
  else if ex = 2 ^ F.ebits - 1 ∧ F.hasInf = false ∧ fr = 2 ^ F.fbits - 1 then .nan
  else if ex = 0 then .fin s fr (1 - F.bias - F.fbits)
  else .fin s (2 ^ F.fbits + fr) (ex - F.bias - F.fbits)

/-- The exponent and the fraction lie below the sign. -/
theorem exponent_fraction_lt {F : FFmt} {ex fr : Nat} (hex : ex < 2 ^ F.ebits) (hfr : fr < 2 ^ F.fbits) :
    ex * 2 ^ F.fbits + fr < 2 ^ F.fbits * 2 ^ F.ebits := by
  have : (ex + 1) * 2 ^ F.fbits ≤ 2 ^ F.ebits * 2 ^ F.fbits := Nat.mul_le_mul_right _ hex
  rw [Nat.mul_comm (2 ^ F.fbits)]
  rw [Nat.add_mul] at this
  omega

section
variable {F : FFmt} (hF : F.Sound)
include hF

theorem FFmt.Sound.fbits_add_three_le : F.fbits + 3 ≤ F.width := hF.1

theorem FFmt.Sound.two_pow_width_sub_one : 2 ^ (F.width - 1) = 2 ^ F.fbits * 2 ^ F.ebits := by
  rw [← Nat.pow_add, FFmt.ebits]
  congr 1
  have := hF.fbits_add_three_le
  omega

theorem FFmt.Sound.two_pow_width : 2 ^ F.width = 2 * (2 ^ F.fbits * 2 ^ F.ebits) := by
  rw [← hF.two_pow_width_sub_one, ← Nat.pow_succ']
  congr 1
  have := hF.fbits_add_three_le
  omega

theorem FFmt.Sound.four_le_two_pow_ebits : 4 ≤ 2 ^ F.ebits := by
  have : 2 ≤ F.ebits := by
    have := hF.fbits_add_three_le
    unfold FFmt.ebits
    omega
  exact Nat.pow_le_pow_right Nat.two_pos this

theorem FFmt.Sound.signBit_eq (s : Bool) : signBit F s = s.toNat * (2 ^ F.fbits * 2 ^ F.ebits) := by
  rw [← hF.two_pow_width_sub_one]
  cases s <;> simp [signBit]

theorem encBits_lt (s : Bool) {ex fr : Nat} (hex : ex < 2 ^ F.ebits) (hfr : fr < 2 ^ F.fbits) : encBits F s ex fr < 2 ^ F.width := by
  have := exponent_fraction_lt hex hfr
  rw [encBits, hF.two_pow_width, hF.signBit_eq]
  cases s <;> simp <;> omega

/-- The fields of an encoding are read back. -/
theorem fdec_encBits (s : Bool) {ex fr : Nat} (hex : ex < 2 ^ F.ebits) (hfr : fr < 2 ^ F.fbits) :
    fdec F (encBits F s ex fr) = fieldsVal F s ex fr := by
  have hlow := exponent_fraction_lt hex hfr
  have hmod : encBits F s ex fr % 2 ^ F.width = encBits F s ex fr := Nat.mod_eq_of_lt (encBits_lt hF s hex hfr)
  have hval : encBits F s ex fr = 2 ^ F.fbits * (2 ^ F.ebits * s.toNat + ex) + fr := by
    rw [encBits, hF.signBit_eq]; ring
  have hsign : encBits F s ex fr / 2 ^ (F.width - 1) = s.toNat := by
    rw [encBits, hF.signBit_eq, hF.two_pow_width_sub_one, Nat.mul_comm s.toNat, Nat.mul_add_div (by positivity), Nat.div_eq_of_lt hlow,
      Nat.add_zero]
  have hexp : encBits F s ex fr / 2 ^ F.fbits % 2 ^ F.ebits = ex := by
    rw [hval, Nat.mul_add_div (by positivity), Nat.div_eq_of_lt hfr, Nat.add_zero, Nat.mul_add_mod, Nat.mod_eq_of_lt hex]
  have hfrac : encBits F s ex fr % 2 ^ F.fbits = fr := by
    rw [hval, Nat.mul_add_mod, Nat.mod_eq_of_lt hfr]
  have hs : (s.toNat == 1) = s := by cases s <;> rfl
  rw [fdec]
  simp only [hmod, hsign, hs, hfrac, show F.width - 1 - F.fbits = F.ebits from rfl, hexp]
  rfl

/-- Every encoding is put together from its fields. -/
theorem exists_encBits {n : Nat} (hn : n < 2 ^ F.width) :
    ∃ s ex fr, ex < 2 ^ F.ebits ∧ fr < 2 ^ F.fbits ∧ n = encBits F s ex fr := by
  refine ⟨n / 2 ^ F.fbits / 2 ^ F.ebits == 1, n / 2 ^ F.fbits % 2 ^ F.ebits, n % 2 ^ F.fbits, Nat.mod_lt _ (by positivity),
    Nat.mod_lt _ (by positivity), ?_⟩
  have hfrac := Nat.div_add_mod n (2 ^ F.fbits)
  have hexp := Nat.div_add_mod (n / 2 ^ F.fbits) (2 ^ F.ebits)
  have hsign : n / 2 ^ F.fbits / 2 ^ F.ebits < 2 := by
    rw [Nat.div_div_eq_div_mul]
    exact Nat.div_lt_of_lt_mul (by rwa [Nat.mul_comm, ← hF.two_pow_width])
  have hbit : (n / 2 ^ F.fbits / 2 ^ F.ebits == 1).toNat = n / 2 ^ F.fbits / 2 ^ F.ebits := by
    interval_cases n / 2 ^ F.fbits / 2 ^ F.ebits <;> rfl
  rw [encBits, hF.signBit_eq, hbit]
  conv_lhs => rw [← hfrac, ← hexp]
  ring

/-! ## Encodings of finite values -/

theorem FFmt.Sound.maxM_lt : F.maxM < 2 ^ (F.fbits + 1) := by
  have hpos : 0 < 2 ^ (F.fbits + 1) := by positivity
  obtain ⟨-, -, hinf, hno⟩ := hF
  cases h : F.hasInf
  · have := (hno h).1; omega
  · have := (hinf h).1; omega

theorem FFmt.Sound.two_pow_fbits_le_maxM : 2 ^ F.fbits ≤ F.maxM := by
  obtain ⟨-, hf, hinf, hno⟩ := hF
  have hpow : 2 ^ (F.fbits + 1) = 2 * 2 ^ F.fbits := Nat.pow_succ'
  have htwo : 2 ≤ 2 ^ F.fbits := Nat.pow_le_pow_right Nat.two_pos hf
  cases h : F.hasInf
  · have := (hno h).1; omega
  · have := (hinf h).1; omega

end

/-- A magnitude of y units of 2^q is in the one form in which its format encodes it: q is the spacing there, and the largest finite
value is not exceeded. -/
structure Encodable (F : FFmt) (y : Nat) (q : Int) : Prop where
  units_lt : y < 2 ^ (F.fbits + 1)
  spacing_ge : 1 - F.bias - F.fbits ≤ q
  subnormal : y < 2 ^ F.fbits → q = 1 - F.bias - F.fbits
  finite : q < F.maxQ ∨ (q = F.maxQ ∧ y ≤ F.maxM)

/-- The exponent field of a finite value with a leading one. -/
def expField (F : FFmt) (q : Int) : Nat := (q + F.bias + F.fbits).toNat

theorem finBits_subnormal {F : FFmt} (s : Bool) {y : Nat} (q : Int) (h : y < 2 ^ F.fbits) : finBits F s y q = encBits F s 0 y := by
  simp [finBits, encBits, h]

theorem finBits_normal {F : FFmt} (s : Bool) {y : Nat} (q : Int) (h : 2 ^ F.fbits ≤ y) :
    finBits F s y q = encBits F s (expField F q) (y - 2 ^ F.fbits) := by
  rw [finBits, if_neg h.not_gt]
  rfl

/-- The fields of a finite value with a leading one are not those of an infinity or a NaN. -/
theorem Encodable.normal_fields {F : FFmt} (hF : F.Sound) {y : Nat} {q : Int} (h : Encodable F y q) (hy : 2 ^ F.fbits ≤ y) :
    (expField F q : Int) = q + F.bias + F.fbits ∧ expField F q ≠ 0 ∧ expField F q < 2 ^ F.ebits ∧ y - 2 ^ F.fbits < 2 ^ F.fbits ∧
      ¬ (expField F q = 2 ^ F.ebits - 1 ∧ F.hasInf = true) ∧
      ¬ (expField F q = 2 ^ F.ebits - 1 ∧ F.hasInf = false ∧ y - 2 ^ F.fbits = 2 ^ F.fbits - 1) := by
  obtain ⟨hlt, hge, -, hfin⟩ := h
  have hE := hF.four_le_two_pow_ebits
  obtain ⟨-, hf, hinf, hno⟩ := hF
  have htwo : 2 ≤ 2 ^ F.fbits := Nat.pow_le_pow_right Nat.two_pos hf
  rw [Nat.pow_succ'] at hlt hinf hno
  unfold expField
  generalize 2 ^ F.ebits = E at *
  generalize 2 ^ F.fbits = p at *
  cases hi : F.hasInf
  · have := hno hi
    exact ⟨by omega, by omega, by omega, by omega, by simp, by omega⟩
  · have := hinf hi
    exact ⟨by omega, by omega, by omega, by omega, by omega, by simp⟩

/-- The encoding of a finite value has that value. -/
theorem fdec_finBits {F : FFmt} (hF : F.Sound) (s : Bool) {y : Nat} {q : Int} (h : Encodable F y q) :
    fdec F (finBits F s y q) = .fin s y q ∧ finBits F s y q < 2 ^ F.width := by
  have hE := hF.four_le_two_pow_ebits
  rcases lt_or_ge y (2 ^ F.fbits) with hy | hy
  · rw [finBits_subnormal s q hy, fdec_encBits hF s (by omega) hy, h.subnormal hy]
    refine ⟨?_, encBits_lt hF s (by omega) hy⟩
    rw [fieldsVal, if_neg (by omega), if_neg (by omega), if_pos rfl]
  · obtain ⟨hcast, hne, hex, hfr, hninf, hnnan⟩ := h.normal_fields hF hy
    rw [finBits_normal s q hy, fdec_encBits hF s hex hfr]
    refine ⟨?_, encBits_lt hF s hex hfr⟩
    rw [fieldsVal, if_neg hninf, if_neg hnnan, if_neg hne, hcast, Nat.add_sub_cancel' hy]
    congr 1
    omega

/-- A finite encoding is that of its value. -/
theorem encodable_of_fdec {F : FFmt} (hF : F.Sound) {n : Nat} (hn : n < 2 ^ F.width) {s : Bool} {y : Nat} {q : Int}
    (h : fdec F n = .fin s y q) : Encodable F y q ∧ n = finBits F s y q := by
  obtain ⟨t, ex, fr, hex, hfr, rfl⟩ := exists_encBits hF hn
  rw [fdec_encBits hF t hex hfr, fieldsVal] at h
  have hpow : 2 ^ (F.fbits + 1) = 2 * 2 ^ F.fbits := Nat.pow_succ'
  have hE := hF.four_le_two_pow_ebits
  obtain ⟨-, -, hinf, hno⟩ := hF
  rw [hpow] at hinf hno
  split at h
  next => split at h <;> cases h
  next hi =>
    split at h
    next => cases h
    next hnan =>
      split at h
      next h0 =>
        subst h0
        cases h
        refine ⟨⟨by omega, le_rfl, fun _ => rfl, .inl ?_⟩, (finBits_subnormal s _ hfr).symm⟩
        cases hb : F.hasInf
        · have := (hno hb).2; omega
        · have := (hinf hb).2; omega
      next h0 =>
        cases h
        have hle : 2 ^ F.fbits ≤ 2 ^ F.fbits + fr := Nat.le_add_right ..
        have hfield : expField F (ex - F.bias - F.fbits) = ex := by unfold expField; omega
        refine ⟨⟨by omega, by omega, fun hlt => absurd hlt hle.not_gt, ?_⟩, ?_⟩
        · cases hb : F.hasInf
          · have := hno hb; simp only [hb, true_and] at hnan; omega
          · have := hinf hb; simp only [hb, and_true] at hi; omega
        · rw [finBits_normal s _ hle, hfield, Nat.add_sub_cancel_left]

/-! ## The spacing of a format and the rounding to it (R157) -/

/-- The exponent of the spacing of a format at the magnitude m * 2^e. -/
def spacing (F : FFmt) (m : Nat) (e : Int) : Int := max (m.log2 + e) (1 - F.bias) - F.fbits

/-- The encoding of y units of 2^q, with one more than the largest number of units written in units of 2^(q+1). -/
def unitsBits (F : FFmt) (s : Bool) (y : Nat) (q : Int) : Nat :=
  if y < 2 ^ (F.fbits + 1) then finBits F s y q else finBits F s (y / 2) (q + 1)

theorem roundFin_eq (F : FFmt) (rm : Rm) (sat s : Bool) {m : Nat} (e : Int) (hm : 0 < m) :
    let q := spacing F m e
    let y := roundMag rm s m e false q
    roundFin F rm sat s m e false =
      if F.maxQ < q ∨ (q = F.maxQ ∧ F.maxM < y.1) then overflowBits F rm sat s
      else (unitsBits F s y.1 q, flIf y.2 flNX ||| flIf (y.2 && decide (m.log2 + e < 1 - F.bias)) flUF) := by
  have hq : (if (m.log2 : Int) + e < 1 - F.bias then 1 - F.bias else m.log2 + e) - F.fbits = spacing F m e := by
    unfold spacing
    split <;> omega
  simp only [roundFin, hm.ne', false_and, if_false, hq, unitsBits, Bool.or_eq_true, Bool.and_eq_true, decide_eq_true_eq]
  split
  · rfl
  · split <;> rfl

theorem Encodable.spacing_eq {F : FFmt} {y : Nat} {q : Int} (h : Encodable F y q) (hy : 0 < y) : spacing F y q = q := by
  obtain ⟨hlt, hge, hsub, -⟩ := h
  have hlog : y.log2 < F.fbits + 1 := (Nat.log2_lt hy.ne').mpr hlt
  unfold spacing
  rcases lt_or_ge y (2 ^ F.fbits) with hp | hp
  · have := (Nat.log2_lt hy.ne').mpr hp
    have := hsub hp
    omega
  · have := (Nat.le_log2 hy.ne').mpr hp
    omega

/-- A value that a format encodes rounds to its encoding. -/
theorem Encodable.roundFin_eq {F : FFmt} {y : Nat} {q : Int} (h : Encodable F y q) (rm : Rm) (sat s : Bool) :
    roundFin F rm sat s y q false = (finBits F s y q, 0#7) := by
  rcases Nat.eq_zero_or_pos y with rfl | hy
  · simp [roundFin, finBits]
  · have hfin : ¬ (F.maxQ < q ∨ (q = F.maxQ ∧ F.maxM < y)) := by
      have := h.finite
      omega
    rw [Machine.roundFin_eq F rm sat s q hy]
    simp only [h.spacing_eq hy, roundMag_of_le rm s y false le_rfl, sub_self, Int.toNat_zero, pow_zero, mul_one, hfin, if_false,
      unitsBits, h.units_lt, if_true, flIf, Bool.false_and, Bool.false_eq_true, BitVec.or_self]

/-- A rounded magnitude is no larger than the power of two above the exact one. -/
theorem roundMag_le (rm : Rm) (s : Bool) {m : Nat} {e q : Int} {p : Nat} (h : m.log2 + e < q + p) :
    (roundMag rm s m e false q).1 ≤ 2 ^ p := by
  have hm : m < 2 ^ (m.log2 + 1) := Nat.lt_log2_self
  rcases le_or_gt q e with hq | hq
  · rw [roundMag_of_le _ _ _ _ hq]
    calc m * 2 ^ (e - q).toNat ≤ 2 ^ (m.log2 + 1) * 2 ^ (e - q).toNat := Nat.mul_le_mul_right _ hm.le
      _ = 2 ^ (m.log2 + 1 + (e - q).toNat) := (Nat.pow_add ..).symm
      _ ≤ 2 ^ p := Nat.pow_le_pow_right Nat.two_pos (by omega)
  · obtain ⟨k, hk⟩ : ∃ k : Nat, q = e + (k + 1) := ⟨(q - e - 1).toNat, by omega⟩
    rw [roundMag_of_lt _ _ _ _ hk]
    have hdiv : m / 2 ^ (k + 1) < 2 ^ p :=
      Nat.div_lt_of_lt_mul (hm.trans_le (by rw [← Nat.pow_add]; exact Nat.pow_le_pow_right Nat.two_pos (by omega)))
    exact (Nat.add_le_add_left (Bool.toNat_le _) _).trans hdiv

/-- A rounded magnitude is no smaller than a power of two below the exact one. -/
theorem le_roundMag (rm : Rm) (s : Bool) {m : Nat} (hm : 0 < m) {e q : Int} {p : Nat} (h : q + p ≤ m.log2 + e) :
    2 ^ p ≤ (roundMag rm s m e false q).1 := by
  have hm' : 2 ^ m.log2 ≤ m := Nat.log2_self_le hm.ne'
  rcases le_or_gt q e with hq | hq
  · rw [roundMag_of_le _ _ _ _ hq]
    calc 2 ^ p ≤ 2 ^ (m.log2 + (e - q).toNat) := Nat.pow_le_pow_right Nat.two_pos (by omega)
      _ = 2 ^ m.log2 * 2 ^ (e - q).toNat := Nat.pow_add ..
      _ ≤ m * 2 ^ (e - q).toNat := Nat.mul_le_mul_right _ hm'
  · obtain ⟨k, hk⟩ : ∃ k : Nat, q = e + (k + 1) := ⟨(q - e - 1).toNat, by omega⟩
    rw [roundMag_of_lt _ _ _ _ hk]
    refine ((Nat.le_div_iff_mul_le (by positivity)).mpr ?_).trans (Nat.le_add_right ..)
    rw [← Nat.pow_add]
    exact (Nat.pow_le_pow_right Nat.two_pos (by omega)).trans hm'

/-- A magnitude rounded to the spacing there, not above the largest finite value, is read back from its encoding. -/
theorem fdec_unitsBits {F : FFmt} (hF : F.Sound) (rm : Rm) (s : Bool) {m : Nat} (e : Int) (hm : 0 < m) :
    let q := spacing F m e
    let y := (roundMag rm s m e false q).1
    (q < F.maxQ ∨ (q = F.maxQ ∧ y ≤ F.maxM)) → unitsBits F s y q < 2 ^ F.width ∧
      ∃ (n : Nat) (f : Int), fdec F (unitsBits F s y q) = .fin s n f ∧ q ≤ f ∧ n * 2 ^ (f - q).toNat = y := by
  intro q y hfin
  have hge : 1 - F.bias - F.fbits ≤ q := by simp only [q, spacing]; omega
  have hle : y ≤ 2 ^ (F.fbits + 1) := roundMag_le rm s (by simp only [q, spacing]; push_cast; omega)
  have hsub : y < 2 ^ F.fbits → q = 1 - F.bias - F.fbits := by
    intro hlt
    by_contra hne
    exact hlt.not_ge (le_roundMag rm s hm (by simp only [q, spacing] at hne ⊢; omega))
  rcases hle.lt_or_eq with hlt | heq
  · obtain ⟨hval, hbits⟩ := fdec_finBits hF s (y := y) (q := q) ⟨hlt, hge, hsub, hfin⟩
    rw [unitsBits, if_pos hlt]
    exact ⟨hbits, y, q, hval, le_rfl, by simp⟩
  · have hhalf : y / 2 = 2 ^ F.fbits := by rw [heq, Nat.pow_succ]; omega
    have hq : q < F.maxQ := hfin.resolve_right fun h => absurd (h.2.trans_lt hF.maxM_lt) heq.not_lt
    have henc : Encodable F (y / 2) (q + 1) := by
      refine ⟨?_, by omega, fun h => absurd h (by omega), ?_⟩
      · rw [hhalf]; exact Nat.pow_lt_pow_succ (by decide)
      · have := hF.two_pow_fbits_le_maxM
        omega
    obtain ⟨hval, hbits⟩ := fdec_finBits hF s henc
    rw [unitsBits, if_neg heq.not_lt]
    refine ⟨hbits, _, _, hval, by omega, ?_⟩
    rw [add_sub_cancel_left, hhalf, heq]
    rfl

/-- Overflow by mode, sign and SAT (R158, R160). -/
theorem overflowBits_eq (F : FFmt) (rm : Rm) (sat s : Bool) :
    overflowBits F rm sat s =
      if rm = .rtz ∨ (rm = .rup ∧ s = true) ∨ (rm = .rdn ∧ s = false) then (maxBits F s, flOF ||| flNX)
      else if sat then (maxBits F s, flOF ||| flNX ||| flSO) else (infBits F s, flOF ||| flNX) := by
  cases rm <;> cases s <;> rfl

/-- Encodings that are not finite (R152, R153). -/
theorem fdec_inf {F : FFmt} (hF : F.Sound) {n : Nat} (hn : n < 2 ^ F.width) {s : Bool} (h : fdec F n = .inf s) :
    n = infBits F s := by
  obtain ⟨t, ex, fr, hex, hfr, rfl⟩ := exists_encBits hF hn
  rw [fdec_encBits hF t hex hfr, fieldsVal] at h
  split at h
  next hi =>
    obtain ⟨rfl, hinf⟩ := hi
    split at h
    next h0 => cases h; simp [encBits, infBits, hinf, h0, FFmt.ebits]
    next => cases h
  next => split at h <;> [cases h; split at h <;> cases h]

/-- An encoding that is not a NaN rounds to itself. -/
theorem roundF_fdec {F : FFmt} (hF : F.Sound) (rm : Rm) {n : Nat} (hn : n < 2 ^ F.width) (h : isNan (fdec F n) = false) :
    roundF F rm false (fdec F n) = (n, 0#7) := by
  cases hv : fdec F n with
  | nan => rw [hv] at h; cases h
  | inf s => exact congrArg (·, 0#7) (fdec_inf hF hn hv).symm
  | fin s y q =>
    obtain ⟨henc, hbits⟩ := encodable_of_fdec hF hn hv
    rw [roundF, henc.roundFin_eq, ← hbits]

/-- A NaN gives the canonical NaN of the format. -/
theorem roundF_nan (F : FFmt) (rm : Rm) (sat : Bool) {v : FVal} (h : isNan v = true) : roundF F rm sat v = (F.nanBits, 0#7) := by
  cases v with
  | nan => rfl
  | _ => cases h

/-- Settles O33: an encoding is read field by field and put together again, and a rounded magnitude is a number of units that its
format encodes, or overflows. -/
theorem encodingsRoundToThemselves : Obligations.EncodingsRoundToThemselves := by
  refine ⟨fun F hmem rm n hn => ?encoded, fun F hmem rm sat s m e hm => ?finite⟩
  case encoded =>
    exact ⟨roundF_fdec (formats_sound F hmem) rm hn, fun h sat => roundF_nan F rm sat h, fun s => rfl⟩
  case finite =>
    have hround := roundFin_eq F rm sat s e hm
    refine ⟨fun hover => ?_, fun hfin => ?_⟩
    · exact hround.trans ((if_pos hover).trans (overflowBits_eq F rm sat s))
    · have hr := hround.trans (if_neg (by simp only [spacing]; omega))
      obtain ⟨hlt, hval⟩ := fdec_unitsBits (formats_sound F hmem) rm s e hm hfin
      rw [roundF, hr]
      exact ⟨rfl, hlt, hval⟩

end Sys2Proof.Machine
end

section
/-! PROOF. What the V slot's lane forms, reductions and conversions put in flight (R163, R174, R198 to R222). -/

namespace Sys2Proof.Machine

/-! ## Lane forms (R202 to R207) -/

/-- A V-R syllable that runs element by element runs any operation and latency that agree with its own. -/
theorem changesTask_eachVR {i : Instr} {f : FmtVR} {ty : Ty} {lat lat' : Nat} {op op' : Nat → Nat → Nat → Nat × FFlags}
    (hi : ∀ s, exec i s = s.issue f.gd fun t => t.eachVR f ty lat op) (hlat : lat = lat')
    (hop : ∀ x y z, op x y z = op' x y z) : ChangesTask i f.gd fun _ t => t.eachVR f ty lat' op' :=
  changesTask_of_eq hi fun _ t => by
    rw [hlat, show op = op' from funext fun x => funext fun y => funext fun z => hop x y z]

/-- The latency that f64 adds to. -/
theorem add_ifF64 (ty : Ty) (a b : Nat) : a + ifF64 ty b = if ty = .f64 then a + b else a := by
  unfold ifF64; split <;> rfl

theorem addLat_eq (ty : Ty) : addLat ty = if tyIsFloat ty then (if ty = .f64 then 3 + 1 else 3) else 1 := by
  rw [addLat, add_ifF64]

/-- Settles O34: each row is the model's own, with its latency written out. -/
theorem floatingAndIntegerLaneArithmetic : Obligations.FloatingAndIntegerLaneArithmetic := by
  refine ⟨?vadd, ?vsub, ?vmul, ?vfma, ?vfms, ?vfnma, ?vfrcp, ?vfsqrt, ?vdiv, ?_, ?_, ?_, ?_,
    fun _ => changesTask_of_issue fun _ => rfl⟩
  case vadd | vsub => exact fun _ => changesTask_eachVR (fun _ => rfl) (addLat_eq _) fun _ _ _ => rfl
  case vmul | vfma | vfms | vfnma | vfrcp | vfsqrt | vdiv =>
    exact fun _ => changesTask_eachVR (fun _ => rfl) (add_ifF64 ..) fun _ _ _ => rfl
  all_goals exact fun _ => changesTask_of_issue fun _ => rfl

theorem absE_eq (ty : Ty) (sat : Bool) (x : Nat) :
    absE ty sat x = if tyIsFloat ty then roundF (tyFmt ty) .rne sat (fabs (fdec (tyFmt ty) x))
      else fitE ty sat (if tyVal ty x < 0 then -(tyVal ty x) else tyVal ty x) := by
  rw [absE, natAbs_eq_ite]

/-- Settles O35: each row is the model's own, the absolute value of an integer written by its sign. -/
theorem laneOrderSignAndBitForms : Obligations.LaneOrderSignAndBitForms := by
  refine ⟨?_, ?_, ?_, ?vabs, ?_, ?_, ?_, ?_, ?_, ?_, ?_, ?_, ?_, ?_, ?_, ?_, ?_, ?_, ?_, ?_⟩
  case vabs => exact fun _ => changesTask_eachVR (fun _ => rfl) rfl fun x _ _ => absE_eq _ _ x
  all_goals exact fun _ => changesTask_of_issue fun _ => rfl

/-! ## Complex values, reductions and dot products (R211 to R216) -/

/-- A register with one element and zeroes above it. -/
theorem ofElems_singleton (w n : Nat) : ofElems w [n] = BitVec.ofNat 1024 (n % 2 ^ w) := by
  simp [ofElems, packNat]

/-- A reduction puts its result in element 0. -/
theorem Task.reduceVR_eq (t : Task) (f : FmtVR) (ty : Ty) (lat w : Nat) (op : (Nat → Bool) → Vec → Nat × FFlags) :
    t.reduceVR f ty lat w op =
      let r := op (laneEn f.msk (t.regs.k.get 0#32 f.k.toNat) (tyWidth ty)) (t.regs.read .V (immVec ty f.s3) f.s1)
      t.putV lat .V f.d (BitVec.ofNat 1024 (r.1 % 2 ^ w)) r.2 :=
  congrArg (fun v => t.putV lat .V f.d v _) (ofElems_singleton w _)

theorem cmulE_even (ty : Ty) (rm : Rm) (sat conj : Bool) (x y : Vec) (c : Nat) :
    let F := tyFmt ty
    let at_ (v : Vec) (k : Nat) : FVal := fdec F (elem (tyWidth ty) v k)
    let p := fmulX (at_ x (2 * c + 1)) (if conj then fneg (at_ y (2 * c + 1)) else at_ y (2 * c + 1))
    cmulE ty rm sat conj x y (2 * c) = sumRound F rm sat [fmulX (at_ x (2 * c)) (at_ y (2 * c)), (fneg p.1, p.2)] := by
  simp [cmulE, prodX]

theorem cmulE_odd (ty : Ty) (rm : Rm) (sat conj : Bool) (x y : Vec) (c : Nat) :
    let F := tyFmt ty
    let at_ (v : Vec) (k : Nat) : FVal := fdec F (elem (tyWidth ty) v k)
    let im := if conj then fneg (at_ y (2 * c + 1)) else at_ y (2 * c + 1)
    cmulE ty rm sat conj x y (2 * c + 1) =
      sumRound F rm sat [fmulX (at_ x (2 * c)) im, fmulX (at_ x (2 * c + 1)) (at_ y (2 * c))] := by
  have hc : (2 * c + 1) / 2 = c := by omega
  simp [cmulE, prodX, hc]

/-- Settles O38: the parts of a complex product by the parity of their element, and a reduction by its one element. -/
theorem complexReductionsAndDotProducts : Obligations.ComplexReductionsAndDotProducts := by
  refine ⟨?_, ?parts, ?_, ?_, ?vred, ?vmaxi, ?vmini, ?vdot⟩
  case parts => exact fun ty rm sat conj x y c => ⟨cmulE_even ty rm sat conj x y c, cmulE_odd ty rm sat conj x y c⟩
  case vred =>
    exact fun f => changesTask_of_eq (fun _ => rfl) fun _ t => by
      rw [Task.reduceVR_eq, add_ifF64]
  case vmaxi | vmini => exact fun f => changesTask_of_eq (fun _ => rfl) fun _ t => Task.reduceVR_eq ..
  case vdot =>
    refine fun f => changesTask_of_eq (fun _ => rfl) fun _ t => ?_
    congr 1
    funext x y z j
    by_cases h : tyIsFloat f.ty <;> simp [dotE, dotAcc, prodX, h]
  all_goals exact fun _ => changesTask_of_issue fun _ => rfl

/-! ## Conversions and the 4-bit forms (R217 to R222) -/

/-- Two operations that agree on every element run alike. -/
theorem lanesRun_congr {w : Nat} {en : Nat → Bool} {old : Vec} {op op' : Nat → Nat × FFlags} (h : ∀ i, op i = op' i) :
    lanesRun w en old op = lanesRun w en old op' := by
  rw [funext h]

/-- A V-C syllable that puts a register with flags in flight puts any equal one. -/
theorem changesTask_putV {i : Instr} {f : FmtVC} {lat : Nat} {r r' : Task → Vec × FFlags}
    (hi : ∀ s, exec i s = s.issue f.gd fun t => t.putV lat .V f.d (r t).1 (r t).2) (h : ∀ t, r t = r' t) :
    ChangesTask i f.gd fun _ t => t.putV lat .V f.d (r' t).1 (r' t).2 :=
  changesTask_of_eq hi fun _ t => by rw [h]

/-- `vcvt` with its widening first: no two of its cases overlap. -/
theorem vcvtV_eq (td ts : Ty) (rm : Rm) (sat : Bool) (part : Nat) (x y : Vec) :
    vcvtV td ts rm sat part x y =
      let ws := tyWidth ts
      let wd := tyWidth td
      lanesRun wd (fun _ => true) 0#1024 fun i =>
        if ws < wd then cvtE td ts rm sat (elem ws x (part * (1024 / wd) + i))
        else if wd < ws then
          if i < 1024 / ws then cvtE td ts rm sat (elem ws x i)
          else if i < 2 * (1024 / ws) then cvtE td ts rm sat (elem ws y (i - 1024 / ws))
          else (0, 0#7)
        else cvtE td ts rm sat (elem ws x i) := by
  refine lanesRun_congr fun i => ?_
  rcases Nat.lt_trichotomy (tyWidth td) (tyWidth ts) with h | h | h
  · simp only [h, h.not_gt, if_true, if_false]
  · simp only [h, Nat.lt_irrefl, if_false]
  · simp only [h, h.not_gt, if_true, if_false]

/-- The clamp of a 4-bit code and its flag (R221). -/
theorem clamp_eq (v : Int) : (if v < -7 then -7 else if 7 < v then 7 else v) = max (-7) (min 7 v) := by
  split_ifs <;> omega

theorem flIf_bne (c v : Int) (fl : FFlags) : flIf (c != v) fl = if c = v then 0#7 else fl := by
  by_cases h : c = v <;> simp [flIf, h]

theorem vpack4V_eq (sat : Bool) (x y : Vec) :
    vpack4V sat x y = lanesRun 4 (fun _ => true) 0#1024 fun i =>
      let v := sval 8 (if i < 128 then elem 8 x i else elem 8 y (i - 128))
      if sat then (truncInt 4 (max (-7) (min 7 v)), if max (-7) (min 7 v) = v then 0#7 else flSO)
      else (truncInt 4 v, 0#7) := by
  refine lanesRun_congr fun i => ?_
  simp only [clamp_eq, flIf_bne]

/-- Settles O39: each row is the model's own, its tests written as propositions and the cases of `vcvt` in another order. -/
theorem conversionsAndQuantisation : Obligations.ConversionsAndQuantisation := by
  refine ⟨?vcvt, ?vqnt, ?vdqnt, ?_, ?_, ?vpack4, ?_⟩
  case vcvt => exact fun _ => changesTask_putV (fun _ => rfl) fun _ => vcvtV_eq ..
  case vqnt | vdqnt =>
    exact fun _ => changesTask_putV (fun _ => rfl) fun _ => lanesRun_congr fun _ => by simp only [beq_iff_eq]; rfl
  case vpack4 => exact fun _ => changesTask_putV (fun _ => rfl) fun _ => vpack4V_eq ..
  all_goals exact fun _ => changesTask_of_issue fun _ => rfl

end Sys2Proof.Machine
end

section
/-! PROOF. Moves, wide forms, constants and bit fields of the A slot, its hash and check steps, and the selectors of `crd` (R187 to
R193). -/

namespace Sys2Proof.Machine

/-! ## The 64-bit values of moves and wide forms (R188, R190) -/

/-- The guard-file entry that S3 names is its low six bits. -/
theorem Regs.pred_p3 (r : Regs) (f : FmtAR) : r.pred f.p3 = r.p.getLsbD (f.s3.toNat % 64) := by
  rw [Regs.pred, FmtAR.p3, BitVec.extractLsb'_toNat, Nat.shiftRight_zero]

theorem shiftLeft_eq_ofNat (x : Word) (n : Nat) : x <<< n = BitVec.ofNat 64 (x.toNat * 2 ^ n) := by
  rw [← BitVec.toNat_inj, BitVec.toNat_shiftLeft, Nat.shiftLeft_eq, BitVec.toNat_ofNat]

theorem add_shiftLeft_eq_ofNat (x y : Word) (n : Nat) : x + y <<< n = BitVec.ofNat 64 (x.toNat + y.toNat * 2 ^ n) := by
  rw [BitVec.ofNat_add, BitVec.ofNat_toNat, BitVec.setWidth_eq, shiftLeft_eq_ofNat]

/-- The low bits of a source, extended with zeros. -/
theorem setWidth_setWidth_eq_ofNat (x : Word) (k : Nat) : (x.setWidth k).setWidth 64 = BitVec.ofNat 64 (x.toNat % 2 ^ k) := by
  rw [← BitVec.ofNat_toNat, BitVec.toNat_setWidth]

/-- `lih`: the immediate, sign-extended, above the low 24 bits of S1. -/
theorem signExtend_shiftLeft_add (i : BitVec 24) (x : Word) :
    i.signExtend 64 <<< 24 + (x.setWidth 24).setWidth 64 = BitVec.ofInt 64 (i.toInt * 2 ^ 24 + (x.toNat % 2 ^ 24 : Nat)) := by
  rw [setWidth_setWidth_eq_ofNat, BitVec.ofInt_add, BitVec.ofInt_natCast, BitVec.ofInt_mul, BitVec.shiftLeft_eq_mul_twoPow]
  rfl

/-- `lih.hi`: the immediate above the low 40 bits of S1. -/
theorem setWidth_shiftLeft_add (i : BitVec 24) (x : Word) :
    i.setWidth 64 <<< 40 + (x.setWidth 40).setWidth 64 = BitVec.ofNat 64 (i.toNat * 2 ^ 40 + x.toNat % 2 ^ 40) := by
  rw [setWidth_setWidth_eq_ofNat, shiftLeft_eq_ofNat, BitVec.toNat_setWidth_of_le (by decide), ← BitVec.ofNat_add]

/-! ## Bit fields (R191) -/

/-- The mask of a field of `n` bits at `p`. -/
theorem fieldMask_getLsbD (p n j : Nat) (hj : j < 64) :
    (BitVec.ofNat 64 ((2 ^ n - 1) * 2 ^ p)).getLsbD j = decide (p ≤ j ∧ j < p + n) := by
  rw [BitVec.getLsbD_ofNat, Nat.testBit_mul_two_pow, Nat.testBit_two_pow_sub_one, Bool.eq_iff_iff]
  simp only [Bool.and_eq_true, decide_eq_true_eq]
  omega

/-- Under the mask of a field the result of `bfi` holds S1 moved to the field, and elsewhere S2. -/
theorem fieldInsert_getLsbD (x y : Word) (p n j : Nat) (hj : j < 64) :
    ((y &&& ~~~BitVec.ofNat 64 ((2 ^ n - 1) * 2 ^ p)) ||| (x <<< p &&& BitVec.ofNat 64 ((2 ^ n - 1) * 2 ^ p))).getLsbD j =
      if p ≤ j ∧ j < p + n then x.getLsbD (j - p) else y.getLsbD j := by
  rw [BitVec.getLsbD_or, BitVec.getLsbD_and, BitVec.getLsbD_and, BitVec.getLsbD_not, fieldMask_getLsbD p n j hj,
    BitVec.getLsbD_shiftLeft]
  by_cases h : p ≤ j ∧ j < p + n
  · simp [h, hj, h.1.not_gt]
  · simp [h, hj]

/-- Settles O27: each row is the model's own, written with naturals or integers modulo 2^64; `bfi` is read bit by bit. -/
theorem scalarMovesAndWideForms : Obligations.ScalarMovesAndWideForms := by
  refine ⟨?sel, ?_, ?lea, ?addc, ?subb, ?_, ?_, ?_, ?lih, ?lihHi, ?_, ?bfi⟩
  case sel =>
    refine fun f => changesTask_of_eq (fun _ => rfl) fun _ t => congrArg (t.putW 1 .A f.d) ?_
    rw [Regs.pred_p3]
    split <;> simp only [BitVec.ofNat_toNat, BitVec.setWidth_eq]
  case lea =>
    exact fun f => changesTask_of_eq (fun _ => rfl) fun _ t => congrArg (t.putW 1 .A f.d) (add_shiftLeft_eq_ofNat ..)
  case addc | subb =>
    exact fun f => changesTask_of_eq (fun _ => rfl) fun _ t => by simp only [Regs.pred_p3]; rfl
  case lih =>
    exact fun f => changesTask_of_eq (fun _ => rfl) fun _ t => congrArg (t.putW 1 .A f.d) (signExtend_shiftLeft_add ..)
  case lihHi =>
    exact fun f => changesTask_of_eq (fun _ => rfl) fun _ t => congrArg (t.putW 1 .A f.d) (setWidth_shiftLeft_add ..)
  case bfi =>
    refine fun f s t h => ⟨_, s.issue_of_issues t f.gd _ h, fun j hj => ?_⟩
    rw [fieldInsert_getLsbD _ _ _ _ _ hj, ← Nat.add_assoc]
    simp only [Nat.lt_succ_iff]
  all_goals exact fun _ => changesTask_of_issue fun _ => rfl

/-! ## The hash and the cyclic check (R189) -/

/-- One half of the mix: a word and its own upper bits. -/
theorem toNat_xor_ushiftRight (h : Word) (n : Nat) : (h ^^^ (h >>> n)).toNat = h.toNat ^^^ (h.toNat / 2 ^ n) := by
  rw [BitVec.toNat_xor, BitVec.toNat_ushiftRight, Nat.shiftRight_eq_div_pow]

/-- The hash on naturals: only its product leaves 64 bits. -/
theorem hmix_eq_ofNat (a b : Word) :
    hmix a b = BitVec.ofNat 64 (
      let h := a.toNat ^^^ b.toNat
      let h := (h ^^^ (h / 2 ^ 29)) * 0xBF58476D1CE4E5B9 % 2 ^ 64
      h ^^^ (h / 2 ^ 32)) := by
  calc hmix a b = BitVec.ofNat 64 (hmix a b).toNat := by rw [BitVec.ofNat_toNat, BitVec.setWidth_eq]
    _ = _ := by
      rw [hmix, toNat_xor_ushiftRight, BitVec.toNat_mul, toNat_xor_ushiftRight, BitVec.toNat_xor]
      rfl

/-- The check takes the bytes of `v` in order, byte 0 first. -/
theorem crcStep_eq_foldl (k c v : Nat) :
    crcStep k c v = (List.range k).foldl (fun c j => crcByte c (v / 2 ^ (8 * j) % 256)) c := by
  induction k generalizing c v with
  | zero => rfl
  | succ k ih =>
    have next (j : Nat) : v / 256 / 2 ^ (8 * j) = v / 2 ^ (8 * (j + 1)) := by
      rw [Nat.div_div_eq_div_mul, Nat.mul_succ, Nat.add_comm, Nat.pow_add]
    rw [crcStep, ih, List.range_succ_eq_map, List.foldl_cons, List.foldl_map]
    simp only [next, Nat.mul_zero, Nat.pow_zero, Nat.div_one]

/-- Settles O28: both functions are the model's own, the hash on naturals and the check as one fold over the bytes; the check value
is computed. -/
theorem hashAndCyclicCheckSteps : Obligations.HashAndCyclicCheckSteps := by
  refine ⟨?hmix, ?crc, by decide +kernel⟩
  case hmix =>
    exact fun f => changesTask_of_eq (fun _ => rfl) fun _ t => congrArg (t.putW 3 .A f.d) (hmix_eq_ofNat ..)
  case crc =>
    exact fun f => changesTask_of_eq (fun _ => rfl) fun _ t =>
      congrArg (fun n => t.putW 2 .A f.d (BitVec.ofNat 64 n)) (crcStep_eq_foldl ..)

/-! ## The selectors of `crd` (R193) -/

theorem Image.trip_eq_getD (i : Image) (k : Nat) :
    i.trip k = (((i.loops.filter (fun x => x.lkind == 0)).map LoopRec.trip)[k]?).getD 0 := by
  rw [Image.trip, List.getElem?_map]
  cases (i.loops.filter (fun x => x.lkind == 0))[k]? <;> rfl

section
variable {s : State} {t : Task} {sel : Nat}

theorem State.crdValue_component (h : sel < 3) :
    s.crdValue t sel = BitVec.ofNat 64 (t.coord.toNat / 2 ^ (16 * sel) % 2 ^ 16) := if_pos h

theorem State.crdValue_packed : s.crdValue t 3 = BitVec.ofNat 64 t.coord.toNat := by
  rw [State.crdValue, if_neg (by decide), if_pos rfl, BitVec.ofNat_toNat]

variable {l : Launch} (hl : s.launch? t.launch = some l)
include hl

theorem State.crdValue_extent (h3 : 3 < sel) (h7 : sel < 7) :
    s.crdValue t sel = BitVec.ofNat 64 (extOf l.rcd.ext (sel - 4)) := by
  rw [State.crdValue, if_neg (by omega), if_neg (by omega), if_pos h7, s.fromLaunch_of_some t l _ hl]

theorem State.crdValue_trip (h : 7 ≤ sel) : s.crdValue t sel = BitVec.ofNat 64 (l.img.trip (sel - 8)) := by
  rw [State.crdValue, if_neg (by omega), if_neg (by omega), if_neg (by omega), s.fromLaunch_of_some t l _ hl]

end

theorem crdSel_eq_false {n : Nat} (h : n = 7 ∨ 16 ≤ n) : crdSel n = false := by
  simp only [crdSel, Bool.or_eq_false_iff, Bool.and_eq_false_iff, decide_eq_false_iff_not]
  omega

/-- Settles O29, by the ranges of the selector: a component, the packed coordinate, an extent of the record, a trip count. -/
theorem coordinateSelectors : Obligations.CoordinateSelectors := by
  refine ⟨fun f s t l h hl v hcomp hpacked hx hy hz htrip _ h7 => ?value, fun f h => ?reserved⟩
  case value =>
    have hv : s.crdValue t f.imm.toNat = v := by
      rcases show f.imm.toNat < 3 ∨ f.imm.toNat = 3 ∨ f.imm.toNat = 4 ∨ f.imm.toNat = 5 ∨ f.imm.toNat = 6 ∨ 8 ≤ f.imm.toNat by
        omega with h | h | h | h | h | h
      · rw [hcomp h, State.crdValue_component h]
      · rw [hpacked h, h, State.crdValue_packed]
      · rw [hx h, h, State.crdValue_extent hl (by decide) (by decide)]
        rfl
      · rw [hy h, h, State.crdValue_extent hl (by decide) (by decide)]
        rfl
      · rw [hz h, h, State.crdValue_extent hl (by decide) (by decide)]
        rfl
      · rw [htrip h, State.crdValue_trip hl (by omega), Image.trip_eq_getD]
    rw [← hv]
    exact s.issue_of_issues t f.gd _ h
  case reserved =>
    show aiConstOk crdSel f = false
    rw [aiConstOk, crdSel_eq_false h, Bool.and_false]

end Sys2Proof.Machine
end

section
/-! PROOF. Compares into lane masks and the mask instructions (R206, R208); the permutes and the V-I constants (R209, R210). -/

namespace Sys2Proof.Machine

/-! ## Lane masks (R206, R208) -/

/-- A bit of a lane mask put together out of its bits. -/
theorem maskOf_getLsbD (l : List Bool) {j : Nat} (hj : j < 32) : (maskOf l).getLsbD j = l.getD j false := by
  have hdigit := packNat_digit 1 (l.map fun b => if b then 1 else 0) j
  rw [Nat.one_mul, Nat.pow_one, List.getD_eq_getElem?_getD, List.getElem?_map] at hdigit
  rw [maskOf, BitVec.getLsbD_ofNat, Nat.testBit_eq_decide_div_mod_eq, hdigit, List.getD_eq_getElem?_getD]
  rcases l[j]? with _ | _ | _ <;> simp [hj]

/-- The mask bit that governs the element in 32-bit lane j: that lane's own, or the even lane's of a 64-bit element (R196). -/
theorem laneOf_elemOfLane {w : Nat} (hw : w = 8 ∨ w = 16 ∨ w = 32 ∨ w = 64) (j : Nat) :
    laneOf w (32 * j / w) = if w = 64 then j / 2 * 2 else j := by
  rcases hw with rfl | rfl | rfl | rfl
  case inr.inr.inr => rw [laneOf, if_neg (by decide), if_pos rfl]; omega
  all_goals rw [laneOf, if_pos (by decide), if_neg (by decide)]; omega

theorem vcmpMask_getLsbD {ty : Ty} (hw : tyWidth ty = 8 ∨ tyWidth ty = 16 ∨ tyWidth ty = 32 ∨ tyWidth ty = 64) (c : Cnd)
    (msk : Bool) (km : BitVec 32) (x y : Vec) {j : Nat} (hj : j < 32) :
    (vcmpMask ty c msk km x y).getLsbD j =
      ((!msk || km.getLsbD (if tyWidth ty = 64 then j / 2 * 2 else j)) &&
        cmpE ty c (elem (tyWidth ty) x (32 * j / tyWidth ty)) (elem (tyWidth ty) y (32 * j / tyWidth ty))) := by
  rw [← laneOf_elemOfLane hw, vcmpMask, maskOf_getLsbD _ hj]
  simp [hj, laneEn, Nat.mul_comm j]

/-- Settles O36: `vcmp` read bit by bit, `vall` by the complement of its mask and `kpop` by the bits it counts. -/
theorem laneMasksAndCompares : Obligations.LaneMasksAndCompares := by
  refine ⟨?vcmp, ?vany, ?vall, ?_, ?_, ?_, ?_, ?kpop⟩
  case vcmp =>
    intro f s t h ty w x y hw
    refine ⟨_, s.issue_of_issues t f.gd _ h, fun j hj => ?_⟩
    rw [vcmpMask_getLsbD hw _ _ _ _ _ hj, cmpE]
    rfl
  case vany => exact fun f => changesTask_of_eq (fun _ => rfl) fun _ t => congrArg (t.putP _) (decide_not ..).symm
  case vall =>
    exact fun f => changesTask_of_eq (fun _ => rfl) fun _ t =>
      congrArg (t.putP _) ((beq_eq_decide ..).trans (decide_eq_decide.2 (BitVec.not_eq_comm (y := 0#32)).symm))
  case kpop =>
    exact fun f => changesTask_of_eq (fun _ => rfl) fun _ t => by rw [popCount_eq]; rfl
  all_goals exact fun _ => changesTask_of_issue fun _ => rfl

/-! ## The permutes (R209) -/

/-- An element of a register built from a function of the index whose values fit the width. -/
theorem elem_ofElems_range {w : Nat} {g : Nat → Nat} (hg : ∀ i, g i < 2 ^ w) {e : Nat} (he : e < 1024 / w) :
    elem w (ofElems w ((List.range (1024 / w)).map g)) e = g e := by
  rw [elem_ofElems (by simpa using Nat.mul_div_le 1024 w)]
  simp [he, Nat.mod_eq_of_lt (hg e)]

theorem elem_permute {w : Nat} (x : Vec) (ix : Nat → Nat) {e : Nat} (he : e < 1024 / w) :
    elem w (permute w x ix) e = elem w x (ix e) :=
  elem_ofElems_range (fun _ => elem_lt ..) he

/-- An element of a permute that takes element a of x where p holds, and else element b of y. -/
theorem elem_permute2 {w : Nat} {x y : Vec} {fst : Nat → Bool} {ix : Nat → Nat} {e a b : Nat} {p : Prop} [Decidable p]
    (he : e < 1024 / w) (hp : fst e = true ↔ p) (ha : p → ix e = a) (hb : ¬p → ix e = b) :
    elem w (permute2 w x y fst ix) e = if p then elem w x a else elem w y b := by
  rw [permute2, elem_ofElems_range (fun _ => elem_lt ..) he]
  by_cases h : p
  · rw [if_pos (hp.2 h), if_pos h, ha h]
  · rw [if_neg (h ∘ hp.1), if_neg h, hb h]

/-- Settles O37: permutes of one source, and those that choose between two, element by element; the other rows are the model's own. -/
theorem permutesMoveElements : Obligations.PermutesMoveElements := by
  refine ⟨?vperm, ?vshuf, ?vrotl, ?vbrev, ?vzip, ?vuzp, ?vtrn, ?vrev, ?vinsl, ?vbcst, ?_, ?_, ?_, ?_⟩
  case vperm | vshuf | vrotl | vbrev | vrev | vbcst =>
    exact fun f s t h => ⟨_, s.issue_of_issues t f.gd _ h, fun e he => elem_permute _ _ he⟩
  case vzip =>
    exact fun f s t h => ⟨_, s.issue_of_issues t f.gd _ h, fun e he =>
      elem_permute2 he beq_iff_eq (fun _ => rfl) fun _ => rfl⟩
  case vuzp =>
    exact fun f s t h => ⟨_, s.issue_of_issues t f.gd _ h, fun e he =>
      elem_permute2 he decide_eq_true_iff (fun h => if_pos h) fun h => if_neg h⟩
  case vtrn =>
    exact fun f s t h => ⟨_, s.issue_of_issues t f.gd _ h, fun e he =>
      elem_permute2 he beq_iff_eq (fun h => if_pos h) fun h => if_neg h⟩
  case vinsl =>
    refine fun f s t h => ⟨_, s.issue_of_issues t f.gd _ h, fun e he => ?_⟩
    beta_reduce
    rw [← ite_not]
    exact elem_permute2 he bne_iff_ne (fun h => if_neg h) fun h => if_pos (not_not.1 h)
  all_goals exact fun _ => changesTask_of_issue fun _ => rfl

end Sys2Proof.Machine
end

section
/-! PROOF. Memory in its canonical form (R223, R241, R245): what keeps it, and the stores, caches and accesses. -/

namespace Sys2Proof

open Machine

set_option Elab.async false

/-! ## Ways in which a state is put together -/

theorem MemOk.ite {c : Prop} [Decidable c] {s u : State} (hs : MemOk s) (hu : MemOk u) : MemOk (if c then s else u) := by
  split
  · exact hs
  · exact hu

theorem MemOk.ite_fst {α : Type} {c : Prop} [Decidable c] {p q : State × α} (hp : MemOk p.1) (hq : MemOk q.1) :
    MemOk (if c then p else q).1 := by
  split
  · exact hp
  · exact hq

theorem MemOk.next {s u : State} (hu : MemOk u) : MemOk (s.after (.next u)) := hu

theorem MemOk.foldl_fst {α β : Type} {p : State × α} (hp : MemOk p.1) (l : List β) (f : State × α → β → State × α)
    (hf : ∀ q x, MemOk q.1 → MemOk (f q x).1) : MemOk (l.foldl f p).1 := by
  induction l generalizing p with
  | nil => exact hp
  | cons x l ih => exact ih (hf p x hp)

theorem Machine.Task.fillSlot_wf (t : Task) (n base : Nat) (m : List Host.Cell) (hm : Memory.wf m = true) :
    Memory.wf (t.fillSlot n base m) = true := by
  unfold Task.fillSlot
  generalize List.range slotSpan = l
  induction l generalizing m with
  | nil => exact hm
  | cons o l ih => exact ih _ (Memory.wf_put m _ _ hm)

theorem MemOk.of_none (u : State) (e : none = some u) : MemOk u := nomatch e

theorem MemOk.ite_some {c : Prop} [Decidable c] {o p : Option State} (ho : ∀ u, o = some u → MemOk u)
    (hp : ∀ u, p = some u → MemOk u) : ∀ u, (if c then o else p) = some u → MemOk u := by
  split
  · exact ho
  · exact hp

/-- A claim that ends does so in a state that keeps memory canonical. -/
def EndOk : ClaimEnd → Prop
  | .done s => MemOk s
  | _ => True

theorem EndOk.of_done {s : State} (hs : MemOk s) : EndOk (.done s) := hs
theorem EndOk.lost : EndOk .lost := trivial
theorem EndOk.waits : EndOk .waits := trivial
theorem EndOk.nak : EndOk .nak := trivial

theorem EndOk.ite {c : Prop} [Decidable c] {e f : ClaimEnd} (he : EndOk e) (hf : EndOk f) : EndOk (if c then e else f) := by
  split
  · exact he
  · exact hf

/-- A change of the state that keeps memory canonical, and a list of such. -/
def Keeps (f : State → State) : Prop := ∀ s, MemOk s → MemOk (f s)
def AllKeep (l : List (State → State)) : Prop := ∀ f ∈ l, Keeps f

section
variable {l k : List (State → State)}

theorem AllKeep.nil : AllKeep [] := List.forall_mem_nil _

theorem AllKeep.append (hl : AllKeep l) (hk : AllKeep k) : AllKeep (l ++ k) :=
  List.forall_mem_append.mpr ⟨hl, hk⟩

theorem AllKeep.one {f : State → State} (hf : Keeps f) : AllKeep [f] := List.forall_mem_singleton.mpr hf

theorem AllKeep.ite {c : Prop} [Decidable c] (hl : AllKeep l) (hk : AllKeep k) : AllKeep (if c then l else k) := by
  split
  · exact hl
  · exact hk

theorem AllKeep.map {α : Type} {a : List α} {f : α → State → State} (hf : ∀ x, Keeps (f x)) : AllKeep (a.map f) :=
  List.forall_mem_map.mpr fun x _ => hf x

theorem AllKeep.upTo {n : Nat} {f : Nat → State → State} (hf : ∀ i, Keeps (f i)) : AllKeep (upTo n f) := .map hf

theorem AllKeep.flatMap {α : Type} {a : List α} {f : α → List (State → State)} (hf : ∀ x, AllKeep (f x)) :
    AllKeep (a.flatMap f) := by
  intro g hg
  obtain ⟨x, -, hx⟩ := List.mem_flatMap.mp hg
  exact hf x g hx

end

section
variable {s : State} (hs : MemOk s)
include hs

theorem MemOk.congr {u : State} (e : u.mem = s.mem) : MemOk u := by rw [MemOk, e]; exact hs

theorem MemOk.update {u : State} (e : u.mem = s.mem := by with_reducible rfl) : MemOk u := hs.congr e

theorem MemOk.of_some (u : State) (e : some s = some u) : MemOk u := Option.some.inj e ▸ hs

theorem MemOk.getD {o : Option State} (ho : ∀ u, o = some u → MemOk u) : MemOk (o.getD s) := by
  cases o with
  | none => exact hs
  | some u => exact ho u rfl

theorem MemOk.foldl {α : Type} (l : List α) (f : State → α → State) (hf : ∀ u x, MemOk u → MemOk (f u x)) : MemOk (l.foldl f s) :=
  State.foldl_wf l f hf s hs

/-! ## Fatal errors and ways to issue -/

theorem MemOk.setCore (c : CoreId) (x : CoreS) : MemOk (s.setCore c x) := hs.congr (State.setCore_mem ..)
theorem MemOk.setCluster (c : ClusterId) (x : ClusterS) : MemOk (s.setCluster c x) := hs.congr (State.setCluster_mem ..)
theorem MemOk.setStack (c : StackId) (x : StackS) : MemOk (s.setStack c x) := hs.congr (State.setStack_mem ..)
theorem MemOk.setCtx (c : CtxId) (x : CtxS) : MemOk (s.setCtx c x) := hs.congr (State.setCtx_mem ..)
theorem MemOk.setQueue (q : QueueId) (x : QueueS) : MemOk (s.setQueue q x) := hs.congr (State.setQueue_mem ..)
theorem MemOk.setSem (n : SemId) (x : SemS) : MemOk (s.setSem n x) := hs.congr (State.setSem_mem ..)
theorem MemOk.setLaunch (n : Nat) (l : Launch) : MemOk (s.setLaunch n l) := hs.congr (State.setLaunch_mem ..)
theorem MemOk.setTask (c : CoreId) (t : Task) : MemOk (s.setTask c t) := hs.congr (State.setTask_mem ..)

theorem MemOk.noteShut (src dst : StackId) : MemOk (s.noteShut src dst) := by
  unfold State.noteShut
  exact .ite hs.update hs

theorem MemOk.count (c : CtxId) (sreg n : Nat) : MemOk (s.count c sreg n) := hs.congr (State.count_mem ..)
theorem MemOk.soon (p : PoisonUse) : MemOk (s.soon p) := hs
theorem MemOk.interrupt (i : Irq) : MemOk (s.interrupt i) := hs.congr (State.interrupt_mem ..)

theorem MemOk.raiseFatal (c : CoreId) (t : Task) (code slot : Nat) (syl va detail : Word) :
    MemOk (s.raiseFatal c t code slot syl va detail) :=
  hs.congr (State.raiseFatal_mem ..)

theorem MemOk.fatalAt (c : CoreId) (code slot : Nat) (syl va detail : Word) : MemOk (s.fatalAt c code slot syl va detail) :=
  hs.congr (State.fatalAt_mem ..)

theorem MemOk.fatalFor (c : CoreId) (ctx : CtxId) (launch : Nat) (coord : BitVec 48) (fpos : BitVec 32) (code slot :
    Nat) (agent : BitVec 32) (va detail : Word) : MemOk (s.fatalFor c ctx launch coord fpos code slot agent va detail) :=
  hs.congr (State.fatalFor_mem ..)

theorem MemOk.raiseEvent (c : CoreId) (t : Task) (kind : Nat) (info : Word) : MemOk (s.raiseEvent c t kind info) :=
  hs.congr (State.raiseEvent_mem ..)

/-! ## Fatal errors, events and ways to issue -/

theorem MemOk.issue (g : Guard) (f : Task → Task) : MemOk (s.after (s.issue g f)) := by
  unfold State.issue
  split
  · split
    · exact hs.setTask ..
    · exact hs
  · exact hs

theorem MemOk.issueS (g : Guard) {f : Task → State} (hf : ∀ t, MemOk (f t)) : MemOk (s.after (s.issueS g f)) := by
  unfold State.issueS
  split
  · split
    · exact hf _
    · exact hs
  · exact hs

/-! ## The L2 of a stack (R236, R238) -/

theorem MemOk.unpoison (pa : Nat) (bytes : List (Option Byte)) : MemOk (s.unpoison pa bytes) := hs

theorem MemOk.evictL2 (home : StackId) (line : Nat) : MemOk (s.evictL2 home line) := State.evictL2_wf s home line hs
theorem MemOk.evictUnpinned (home : StackId) (line : Nat) : MemOk (s.evictUnpinned home line) := .ite (hs.evictL2 ..) hs
theorem MemOk.trimL2 (home : StackId) : MemOk (s.trimL2 home) := State.trimL2_wf s home hs
theorem MemOk.absorb (u : ErrUnit) (good : Bool) : MemOk (s.absorb u good) := hs.congr (State.absorb_mem ..)
theorem MemOk.touchL2 (w : WrTag) (line : Nat) : MemOk (s.touchL2 w line) := State.touchL2_wf s w line hs

theorem MemOk.putPhys (pa : Nat) (bytes : List (Option Byte)) : MemOk (s.putPhys pa bytes) := State.putPhys_wf s pa bytes hs
theorem MemOk.putPhysNum (pa n v : Nat) : MemOk (s.putPhysNum pa n v) := State.putPhysNum_wf s pa n v hs

/-! ## Translation (R226 to R229) -/

theorem MemOk.fillTlb (c : CoreId) (ctx : CtxId) (va : Word) : MemOk (s.fillTlb c ctx va) := by
  unfold State.fillTlb
  dsimp only
  split
  · exact hs
  · exact .ite hs ((hs.setCore ..).setStack ..)

theorem MemOk.dropTlbs (p : TlbEnt → Bool) : MemOk (s.dropTlbs p) := hs.congr (State.dropTlbs_mem ..)

/-! ## Token records (R361 to R366) -/

theorem MemOk.putRest (base size : Nat) (sc : Scope) : MemOk (s.putRest base size sc) := hs
theorem MemOk.loseRegion (st : StackId) (base size : Nat) : MemOk (s.loseRegion st base size) := hs

/-! ## Unbacked lines and pages (R241 to R246) -/

theorem MemOk.addUsed (st : StackId) (ctx : CtxId) (n : Int) : MemOk (s.addUsed st ctx n) := hs.congr (State.addUsed_mem ..)
theorem MemOk.freeLine (line : Nat) : MemOk (s.freeLine line) := State.freeLine_wf s line hs
theorem MemOk.makeLive (line : Nat) (l : LiveLine) : MemOk (s.makeLive line l) := hs.congr (State.makeLive_mem ..)
theorem MemOk.renameCore (f : Nat → Nat) : MemOk (s.renameCore f) := hs
theorem MemOk.parkRegions (c : CoreId) (team : Nat) : MemOk (s.parkRegions c team) := hs.renameCore ..
theorem MemOk.unparkRegions (c : CoreId) (team : Nat) : MemOk (s.unparkRegions c team) := hs.renameCore ..
theorem MemOk.putLeaf (leafPa : Nat) (e : Word) : MemOk (s.putLeaf leafPa e) := State.putLeaf_wf s leafPa e hs
theorem MemOk.moveRecs (a b : StackId) (base n : Nat) : MemOk (s.moveRecs a b base n) := hs.congr (State.moveRecs_mem ..)

theorem MemOk.rehomeWrites (leafPa : Nat) (h : StackId) :
    MemOk (s.rehomeWrites leafPa h) := hs.congr (State.rehomeWrites_mem ..)

theorem MemOk.backPage (leafPa f : Nat) (newHome : StackId) : MemOk (s.backPage leafPa f newHome) :=
  State.backPage_wf s leafPa f newHome hs

theorem MemOk.takeFrame {die z f : Nat} {u : State} (e : s.takeFrame die z = some (f, u)) : MemOk u :=
  hs.congr (s.takeFrame_mem u die z f e)

theorem MemOk.needFrame (ctx : CtxId) (leafPa : Nat) (home : StackId) (die : Nat) (newHome : StackId) :
    MemOk (s.needFrame ctx leafPa home die newHome).1 :=
  State.needFrame_wf s ctx leafPa home die newHome hs

theorem MemOk.writeHome (w : WrTag) (pa : Nat) (bytes : List (Option Byte)) (disc : Bool) (bad : BitVec 16) :
    MemOk (s.writeHome w pa bytes disc bad).1 :=
  State.writeHome_wf s w pa bytes disc bad hs

theorem MemOk.performWrite (n : Nat) : MemOk (s.performWrite n) := State.performWrite_wf s n hs
theorem MemOk.drain (p : PWrite → Bool) : MemOk (s.drain p) := State.drain_wf s p hs

/-! ## The L1 and the cluster cache (R235, R236) -/

theorem MemOk.orderReads (st : StackId) (line : Nat) : MemOk (s.orderReads st line) := hs.drain ..

theorem MemOk.cleanCC (cl : ClusterId) (line : Nat) : MemOk (s.cleanCC cl line) := by
  unfold State.cleanCC
  dsimp only
  split
  · exact hs
  · split
    · exact hs
    · exact (hs.setCluster ..).update

theorem MemOk.evictCC (cl : ClusterId) (line : Nat) : MemOk (s.evictCC cl line) := (hs.cleanCC ..).setCluster ..

theorem MemOk.roomCC (cl : ClusterId) : MemOk (s.roomCC cl) := by
  unfold State.roomCC
  dsimp only
  refine .ite hs ?_
  split
  · exact hs.update.evictCC ..
  · exact hs

theorem MemOk.cleanL1 (c : CoreId) (line : Nat) : MemOk (s.cleanL1 c line) := by
  unfold State.cleanL1
  dsimp only
  split
  · exact hs
  · exact .ite hs (((MemOk.ite hs (hs.roomCC ..)).setCluster ..).setCore ..)

theorem MemOk.evictL1 (c : CoreId) (line : Nat) : MemOk (s.evictL1 c line) := (hs.cleanL1 ..).setCore ..

theorem MemOk.roomL1 (c : CoreId) : MemOk (s.roomL1 c) := by
  unfold State.roomL1
  dsimp only
  refine .ite hs ?_
  split
  · exact hs.update.evictL1 ..
  · exact hs

theorem MemOk.flushL1 (c : CoreId) : MemOk (s.flushL1 c) := by
  unfold State.flushL1
  exact hs.foldl _ _ fun _ _ hu => hu.cleanL1 ..

theorem MemOk.evictAllL1 (c : CoreId) : MemOk (s.evictAllL1 c) := by
  unfold State.evictAllL1
  exact hs.foldl _ _ fun _ _ hu => hu.evictL1 ..

theorem MemOk.flushCC (c : CoreId) : MemOk (s.flushCC c) := by
  unfold State.flushCC
  exact hs.foldl _ _ fun _ _ hu => hu.cleanCC ..

theorem MemOk.fillCC (w : WrTag) (line : Nat) : MemOk (s.fillCC w line) := by
  unfold State.fillCC
  dsimp only
  split
  · exact .ite (((((hs.noteShut ..).orderReads ..).touchL2 ..).setCluster ..).absorb ..) (hs.setCluster ..)
  · exact ((((hs.roomCC ..).noteShut ..).orderReads ..).touchL2 ..).setCluster ..

theorem MemOk.fillL1 (w : WrTag) (line : Nat) : MemOk (s.fillL1 w line) := by
  unfold State.fillL1
  dsimp only
  split
  · refine .ite ?_ hs
    refine .absorb ?_ ..
    split
    · exact (hs.fillCC ..).setCore ..
    · exact hs.fillCC ..
  · split
    · exact ((hs.roomL1 ..).fillCC ..).setCore ..
    · exact (hs.roomL1 ..).fillCC ..

theorem MemOk.readLine (w : WrTag) (line : Nat) (atom : Bool) : MemOk (s.readLine w line atom).1 :=
  .ite_fst (((hs.noteShut ..).orderReads ..).touchL2 ..) (hs.fillL1 ..)

theorem MemOk.writeLine (w : WrTag) (pa : Nat) (bytes : List (Option Byte)) (atom : Bool) :
    MemOk (s.writeLine w pa bytes atom) := by
  unfold State.writeLine
  dsimp only
  refine .ite hs.update ?_
  split
  · exact ((hs.fillL1 ..).fillCC ..).setCore ..
  · exact (hs.fillL1 ..).fillCC ..

theorem MemOk.dropL1Clean (c : CoreId) : MemOk (s.dropL1Clean c) := hs.setCore ..
theorem MemOk.dropCCClean (cl : ClusterId) (p : Line → Bool) : MemOk (s.dropCCClean cl p) := hs.setCluster ..

theorem MemOk.carryPosts (c : CoreId) (p : PWrite → Bool) : MemOk (s.carryPosts c p) := by
  unfold State.carryPosts
  split
  · exact hs
  · exact hs.update

theorem MemOk.carryWrites (c : CoreId) (sc : Scope) : MemOk (s.carryWrites c sc) := by
  unfold State.carryWrites
  dsimp only
  split
  · exact (hs.setCluster ..).carryPosts ..
  · exact hs.carryPosts ..
  · exact hs

theorem MemOk.dropAt (c : CoreId) (sc : Scope) : MemOk (s.dropAt c sc) := by
  unfold State.dropAt
  split
  · exact hs
  · exact hs
  · exact hs.dropL1Clean ..
  · exact (hs.dropL1Clean ..).dropCCClean ..
  · exact (hs.dropL1Clean ..).dropCCClean ..
  · exact (hs.dropL1Clean ..).dropCCClean ..

theorem MemOk.acquireAll (c : CoreId) (l : List Scope) : MemOk (s.acquireAll c l) := by
  unfold State.acquireAll
  exact (hs.foldl _ _ fun _ _ hu => hu.carryWrites ..).dropAt ..

theorem MemOk.acquire (c : CoreId) (sc : Scope) : MemOk (s.acquire c sc) := hs.acquireAll ..

theorem MemOk.dropRegion (c : CoreId) (base n : Nat) (sc : Scope) : MemOk (s.dropRegion c base n sc) := by
  unfold State.dropRegion
  exact .ite ((hs.foldl _ _ fun _ _ hu => hu.evictL1 ..).setCluster ..) (hs.foldl _ _ fun _ _ hu => hu.evictL1 ..)

theorem MemOk.dropEverywhere (line : Nat) : MemOk (s.dropEverywhere line) := hs

theorem MemOk.unmapStale : MemOk s.unmapStale := by
  unfold State.unmapStale
  exact (hs.foldl _ _ fun _ _ hu => (hu.dropEverywhere ..).freeLine ..).foldl _ _ fun _ _ hu => hu.dropEverywhere ..

theorem MemOk.releaseData (c : CoreId) (sc : Scope) : MemOk (s.releaseData c sc) := by
  unfold State.releaseData
  extract_lets r u v w
  have hu : MemOk u := by
    unfold u
    split
    · exact .ite (hs.drain ..) hs
    · exact hs
  have hv : MemOk v := .ite (hu.flushL1 ..) hu
  have hw : MemOk w := .ite (hv.flushCC ..) hv
  split
  · exact .ite (hw.drain ..) hw
  · exact hw

/-! ## What is on the chip (R232, R233) -/

theorem MemOk.mapTask (c : CoreId) (f : Task → Task) : MemOk (s.mapTask c f) := by
  unfold State.mapTask
  split
  · exact hs.setTask ..
  · exact hs

theorem MemOk.mapTasks (f : Task → Task) : MemOk (s.mapTasks f) := hs

theorem MemOk.mapTaskOf (launch : Nat) (coord : BitVec 48) (f : Task → Task) :
    MemOk (s.mapTaskOf launch coord f) := hs.mapTasks ..

theorem MemOk.keyMap (pa : Nat) (k : Option (Nat × BitVec 48)) (f : Task → Task) : MemOk (s.keyMap pa k f) := by
  unfold State.keyMap
  split
  · exact hs.mapTaskOf ..
  · exact .ite (hs.mapTask ..) hs

theorem MemOk.cwGone (pa n : Nat) : MemOk (s.cwGone pa n) := hs.mapTasks ..

/-! ## Wait-for entries (R411) -/

theorem MemOk.enterStack (st : StackId) : MemOk (s.enterStack st) := by
  unfold State.enterStack
  exact .ite hs ((hs.setStack ..).update)

theorem MemOk.enterWaits : MemOk s.enterWaits := by
  unfold State.enterWaits
  exact hs.foldl _ _ fun _ _ hu => hu.enterStack ..

/-! ## Registers -/

theorem MemOk.send (m : OutMsg) : MemOk (s.send m) := hs

/-! ## Pre-images and poison (R440 to R445) -/

theorem MemOk.setTeam (st : StackId) (n : Nat) (tm : Team) : MemOk (s.setTeam st n tm) := hs.setStack ..

theorem MemOk.noteWrite (st : StackId) (n : Nat) : MemOk (s.noteWrite st n) := by
  unfold State.noteWrite
  split
  · exact .ite ((hs.setTeam ..).count ..) hs
  · exact hs

theorem MemOk.unprotectTeam (st : StackId) (n : Nat) : MemOk (s.unprotectTeam st n) := by
  unfold State.unprotectTeam
  split
  · split
    · exact .ite ((hs.setTeam ..).count ..) hs
    · exact hs
  · exact hs

theorem MemOk.unprotect (c : CoreId) (t : Task) : MemOk (s.unprotect c t) := hs.unprotectTeam ..

theorem MemOk.preImage (st : StackId) (n : Nat) (u : PreUnit) (data : BitVec 1024) (live : Bool) (bad : BitVec 16) :
    MemOk (s.preImage st n u data live bad) := by
  unfold State.preImage
  split
  · split
    · exact .ite hs (.ite (hs.setTeam ..) (hs.unprotectTeam ..))
    · exact hs.noteWrite ..
  · exact hs

theorem MemOk.preWindow (st : StackId) (n pa : Nat) (k : Option (Nat × BitVec 48)) : MemOk (s.preWindow st n pa k) := by
  unfold State.preWindow
  refine .ite ?_ (hs.noteWrite ..)
  split
  · exact hs.preImage ..
  · exact hs

theorem MemOk.preLine (st : StackId) (n line : Nat) (d : BitVec 1024) (bad : BitVec 16) : MemOk (s.preLine st n line d bad) :=
  hs.preImage ..

theorem MemOk.consume (c : CoreId) (va : Word) (pa : Nat) (bad : Bool) : MemOk (s.consume c va pa bad) := .ite (hs.soon ..) hs

/-! ## Accesses (R255) -/

theorem MemOk.failAccess (c : CoreId) (t : Task) (slot : Slot) (syl va : Word) (e : AccErr) :
    MemOk (s.failAccess c t slot syl va e) :=
  hs.raiseFatal ..

theorem MemOk.windowReg (pa : Nat) (v : Word) : MemOk (s.windowReg pa v) := by
  unfold State.windowReg
  dsimp only
  refine .ite hs ?_
  refine .ite ?_ hs.update
  split
  · exact .ite (hs.setTask ..) hs
  · exact hs

theorem MemOk.windowWrite (pa : Nat) (k : Option (Nat × BitVec 48)) (bytes : List (Option Byte)) :
    MemOk (s.windowWrite pa k bytes) :=
  .ite (hs.keyMap ..) (hs.windowReg ..)

theorem MemOk.windowStore (st : StackId) (n : Nat) (pre : Bool) (pa : Nat) (k : Option (Nat × BitVec 48)) (bytes :
    List (Option Byte)) : MemOk (s.windowStore st n pre pa k bytes) :=
  (((MemOk.ite (hs.preWindow ..) hs).windowWrite ..).unpoison ..).cwGone ..

theorem MemOk.noteWindow (c : CoreId) (pa : Nat) : MemOk (s.noteWindow c pa) := .ite (hs.noteShut ..) hs

theorem MemOk.loadBytes (c : CoreId) (t : Task) (l : Leaf) (va : Word) (n : Nat) : MemOk (s.loadBytes c t l va n).1 :=
  .ite_fst ((hs.noteWindow ..).consume ..) ((hs.readLine ..).consume ..)

theorem MemOk.storeBytes (c : CoreId) (t : Task) (l : Leaf) (va : Word) (bytes : List (Option Byte)) :
    MemOk (s.storeBytes c t l va bytes) := by
  unfold State.storeBytes
  exact .ite (MemOk.ite ((hs.noteWindow ..).windowStore ..) hs.update)
    ((MemOk.ite ((hs.readLine ..).preLine ..) (hs.noteWrite ..)).writeLine ..)

/-! ## Atomics at their home (R404) -/

theorem MemOk.putHome (w : WrTag) (pa b v : Nat) : MemOk (s.putHome w pa b v).1 := hs.writeHome ..

theorem MemOk.applyAmo (n : Nat) : MemOk (s.applyAmo n) := by
  unfold State.applyAmo
  dsimp only
  split
  · exact hs
  · split
    · exact (hs.putHome ..).update
    · exact (hs.putHome ..).update
    · exact ((hs.putHome ..).update).fatalFor ..

theorem MemOk.applyAmosFrom (p : AmoMsg → Bool) (k n : Nat) : MemOk (s.applyAmosFrom p k n) := by
  induction k generalizing s n with
  | zero => exact hs
  | succ k ih =>
    unfold State.applyAmosFrom
    split
    · exact hs
    · exact .ite (.ite (ih (hs.applyAmo _) _) (ih (hs.applyAmo _) _)) (ih hs _)

theorem MemOk.applyAmos (p : AmoMsg → Bool) : MemOk (s.applyAmos p) := hs.applyAmosFrom ..
theorem MemOk.healObjs (st : StackId) (p : ObjUse → Bool) : MemOk (s.healObjs st p) := hs
theorem MemOk.consumeObj (st : StackId) (x : Src) (p : ObjUse → Bool) : MemOk (s.consumeObj st x p) := .ite (hs.soon ..) hs

theorem MemOk.receiveRound (n : Nat) : MemOk (s.receiveRound n) := by
  unfold State.receiveRound
  dsimp only
  split
  · refine .ite hs ?_
    split
    · exact ((hs.setStack ..).update).healObjs ..
    · exact hs.update
  · exact hs

theorem MemOk.receiveRoundsOf (launch : Nat) (coord : BitVec 48) : MemOk (s.receiveRoundsOf launch coord) := by
  unfold State.receiveRoundsOf
  refine hs.foldl _ _ fun _ _ hu => ?_
  split
  · exact .ite (hu.receiveRound ..) hu
  · exact hu

theorem MemOk.sendAfter (src : Src) (after : Nat) (m : OutMsg) : MemOk (s.sendAfter src after m) := by
  unfold State.sendAfter
  exact .ite hs.update (hs.send ..)

theorem MemOk.sendWaiting : MemOk s.sendWaiting := by
  unfold State.sendWaiting
  exact hs.update.foldl _ _ fun _ _ hu => hu.sendAfter ..

theorem MemOk.releaseFor (c : CoreId) (t : Task) (sc : Scope) : MemOk (s.releaseFor c t sc) :=
  .ite (((hs.releaseData ..).applyAmos ..).receiveRoundsOf ..) (hs.releaseData ..)

theorem MemOk.ownAmos (t : Task) (line : Nat) : MemOk (s.ownAmos t line) := hs.applyAmos ..

/-! ## Joins (R282) -/

theorem MemOk.editToks (st : StackId) (f : TokRec → Option TokRec) : MemOk (s.editToks st f) := hs

theorem MemOk.joinOp (c : CoreId) (h : Nat) : MemOk (s.joinOp c h) := by
  unfold State.joinOp
  dsimp only
  split
  · exact hs
  · split
    · exact hs
    · exact .ite hs (((((hs.foldl _ _ fun _ _ hu => hu.editToks ..).foldl _ _ fun _ _ hu =>
        hu.editToks ..).update).mapTask ..).acquire ..)

/-! ## Full/empty accesses (R261 to R263) -/

theorem MemOk.feEdge (a : FeAcc) : MemOk (s.feEdge a) := by
  unfold State.feEdge
  dsimp only
  split
  · exact .ite hs ((hs.unprotectTeam ..).unprotectTeam ..)
  · exact hs

theorem MemOk.feGive (a : FeAcc) (scs : List Scope) (v : Vec) : MemOk (s.feGive a scs v) := hs.mapTaskOf ..

theorem MemOk.feTagBad (a : FeAcc) : MemOk (s.feTagBad a) := by
  unfold State.feTagBad
  split
  · exact .ite (hs.soon ..) hs
  · exact .ite (hs.soon ..) hs
  · exact .ite (hs.soon ..) hs
  · exact hs

theorem MemOk.fePerform (a : FeAcc) : MemOk (s.fePerform a) := by
  unfold State.fePerform
  dsimp only
  split
  · exact (MemOk.ite ((((hs.feEdge ..).feTagBad ..).consume ..).keyMap ..) (((hs.feEdge ..).feTagBad ..).consume ..)).feGive ..
  · exact (MemOk.ite ((((hs.feEdge ..).feTagBad ..).consume ..).keyMap ..) (((hs.feEdge ..).feTagBad ..).consume ..)).feGive ..
  · split
    · exact ((((hs.feEdge ..).feTagBad ..).windowStore ..).keyMap ..).mapTaskOf ..
    · exact (((hs.feEdge ..).feTagBad ..).windowStore ..).keyMap ..
  · split
    · exact ((((hs.feEdge ..).feTagBad ..).windowStore ..).keyMap ..).mapTaskOf ..
    · exact (((hs.feEdge ..).feTagBad ..).windowStore ..).keyMap ..
  · exact ((hs.feEdge ..).feTagBad ..).keyMap ..
  · exact ((hs.feEdge ..).feTagBad ..).windowStore ..

theorem MemOk.feServe (k : Nat) : MemOk (s.feServe k) := by
  induction k generalizing s with
  | zero => exact hs
  | succ k ih =>
    unfold State.feServe
    split
    · exact hs
    · split
      · exact ih (hs.update.fePerform _)
      · exact hs

theorem MemOk.feArrive (n : Nat) : MemOk (s.feArrive n) := by
  unfold State.feArrive
  refine .ite ?_ hs
  split
  · exact MemOk.ite ((hs.update.fePerform ..).feServe ..) hs.update
  · exact hs

theorem MemOk.feArriveWhere (p : FeAcc → Bool) (k : Nat) : MemOk (s.feArriveWhere p k) := by
  induction k generalizing s with
  | zero => exact hs
  | succ k ih =>
    unfold State.feArriveWhere
    split
    · exact ih (hs.feArrive _)
    · exact hs

theorem MemOk.feArriveOwn (c : CoreId) (t : Task) (p : FeAcc → Bool) (k : Nat) : MemOk (s.feArriveOwn c t p k) :=
  hs.feArriveWhere ..

theorem MemOk.feOwnFirst (c : CoreId) (t : Task) (pa n fuel : Nat) : MemOk (s.feOwnFirst c t pa n fuel) := hs.feArriveOwn ..

theorem MemOk.ownFirst (c : CoreId) (t : Task) (pa n : Nat) (atom : Bool) : MemOk (s.ownFirst c t pa n atom) :=
  .ite (hs.feOwnFirst ..) (.ite (hs.ownAmos ..) hs)

/-! ## The M slot (R254 to R276) -/

theorem MemOk.settle {c : CoreId} {t : Task} {va : Word} {n : Nat} {k : AccKind} {u : State} {l : Leaf}
    (e : s.settle c t va n k = .ok (u, l)) : MemOk u := by
  unfold State.settle at e
  dsimp only at e
  split at e
  · cases e
  · split at e
    · cases e
      exact hs.ownFirst ..
    · cases e

theorem MemOk.loadTo (c : CoreId) (t : Task) (syl va : Word) (n : Nat) (d : Opd) (ext : Nat → Vec) :
    MemOk (s.loadTo c t syl va n d ext) := by
  unfold State.loadTo
  dsimp only
  split
  · exact hs.failAccess ..
  · rename_i u _ e
    exact ((hs.settle e).loadBytes ..).mapTask ..

theorem MemOk.storeFrom (c : CoreId) (t : Task) (syl va : Word) (n v : Nat) : MemOk (s.storeFrom c t syl va n v) := by
  unfold State.storeFrom
  split
  · exact hs.failAccess ..
  · rename_i u _ e
    exact (hs.settle e).storeBytes ..

theorem MemOk.stepBase (c : CoreId) (f : FmtML) (a : Word) : MemOk (s.stepBase c f a) := hs.mapTask ..

theorem MemOk.mgRead (c : CoreId) (t : Task) (n : Nat) (l : List (Nat × Word)) (v : Vec) : MemOk (s.mgRead c t n l v).1 := by
  induction l generalizing s v with
  | nil => exact hs
  | cons x l ih =>
    unfold State.mgRead
    dsimp only
    split
    · exact ih hs _
    · rename_i u _ e
      exact ih ((hs.settle e).loadBytes ..) _

theorem MemOk.mgWrite (c : CoreId) (t : Task) (n : Nat) (data : Vec) (l : List (Nat × Word)) :
    MemOk (s.mgWrite c t n data l) := by
  induction l generalizing s with
  | nil => exact hs
  | cons x l ih =>
    unfold State.mgWrite
    split
    · exact ih hs
    · rename_i u _ e
      exact ih ((hs.settle e).storeBytes ..)

theorem MemOk.mgLoad (c : CoreId) (t : Task) (f : FmtMG) (syl : Word) (aligned : Bool) (addr : Nat → Word) :
    MemOk (s.mgLoad c t f syl aligned addr) := by
  unfold State.mgLoad
  dsimp only
  refine .ite (hs.failAccess ..) ?_
  split
  · exact hs.failAccess ..
  · exact (hs.mgRead ..).mapTask ..

theorem MemOk.mgStore (c : CoreId) (t : Task) (f : FmtMG) (syl : Word) (aligned : Bool) (addr : Nat → Word) :
    MemOk (s.mgStore c t f syl aligned addr) := by
  unfold State.mgStore
  dsimp only
  refine .ite (hs.failAccess ..) ?_
  split
  · exact hs.failAccess ..
  · exact hs.mgWrite ..

theorem MemOk.feLoad (c : CoreId) (t : Task) (f : FmtML) (syl : Word) (op : FeOp) : MemOk (s.feLoad c t f syl op) := by
  unfold State.feLoad
  dsimp only
  split
  · exact hs.failAccess ..
  · exact (hs.mapTask ..).update

theorem MemOk.reissueFe (c : CoreId) (t : Task) : MemOk (s.reissueFe c t) := hs

theorem MemOk.feStore (c : CoreId) (t : Task) (f : FmtML) (syl : Word) (op : FeOp) : MemOk (s.feStore c t f syl op) := by
  unfold State.feStore
  dsimp only
  split
  · exact hs.failAccess ..
  · exact (hs.releaseFor ..).update

theorem MemOk.fenceAct (c : CoreId) (t : Task) (sc : Scope) : MemOk (s.fenceAct c t sc) := by
  unfold State.fenceAct
  extract_lets r u v w
  have hv : MemOk v := ((hs.releaseData ..).applyAmos ..).receiveRoundsOf ..
  have hw : MemOk w := .ite (hv.dropL1Clean ..) hv
  exact .ite (hw.dropCCClean ..) hw

theorem MemOk.execFenceComplete (core : CoreId) : MemOk (s.after (execFenceComplete core s)) := by
  unfold Machine.execFenceComplete
  dsimp only
  split
  · exact .next hs
  · split
    · split
      · exact .next (.ite (hs.fenceAct ..) ((hs.fenceAct ..).mapTask ..))
      · exact .next hs
    · exact .next hs

theorem MemOk.probeRun (c : CoreId) (va len : Word) (aux : BitVec 4) (d : Dest) : MemOk (s.probeRun c va len aux d) := by
  unfold State.probeRun
  dsimp only
  split
  · exact hs
  · split
    · exact hs
    · split
      · exact hs.setTask ..
      · split
        · exact hs.setTask ..
        · exact .ite hs (hs.raiseEvent ..)

theorem MemOk.execPref (f : FmtML) : MemOk (s.after (execPref f s)) := by
  unfold Machine.execPref
  refine hs.issueS _ fun _ => ?_
  split
  · exact hs.fillCC ..
  · exact hs.count ..

theorem MemOk.discLine (c : CoreId) (t : Task) (va : Word) : MemOk (s.discLine c t va) := by
  unfold State.discLine
  split
  · exact hs
  · extract_lets line w u v held x
    have hu : MemOk u := .ite ((hs.readLine ..).preLine ..) (hs.noteWrite ..)
    have hx : MemOk x := ((hu.applyAmos ..).dropEverywhere ..).update
    exact .ite hx (hx.drain ..)

theorem MemOk.discLines (c : CoreId) (t : Task) (k : Nat) (va : Word) : MemOk (s.discLines c t k va) := by
  induction k generalizing s va with
  | zero => exact hs
  | succ k ih => exact ih (hs.discLine ..) _

theorem MemOk.execDisc (f : FmtML) : MemOk (s.after (execDisc f s)) := by
  unfold Machine.execDisc
  dsimp only
  refine hs.issueS _ fun _ => ?_
  split
  · exact hs.failAccess ..
  · exact hs.discLines ..

theorem MemOk.cbFail (c : CoreId) (t : Task) (syl va : Word) : MemOk (s.cbFail c t syl va) := hs.failAccess ..

theorem MemOk.cbChange (c : CoreId) (t : Task) (b : Nat) (x : Option CircBuf) : MemOk (s.cbChange c t b x) := by
  unfold State.cbChange
  dsimp only
  refine .setTask ?_ ..
  split
  · exact hs.setStack ..
  · exact hs

theorem MemOk.execCbdef (f : FmtML) : MemOk (s.after (execCbdef f s)) := by
  unfold Machine.execCbdef
  dsimp only
  refine hs.issueS _ fun _ => ?_
  refine .ite (hs.cbFail ..) ?_
  refine .ite (.ite (hs.cbFail ..) (hs.cbChange ..)) ?_
  split
  · exact hs.cbFail ..
  · exact .ite (hs.failAccess ..) (hs.cbChange ..)

theorem MemOk.cbServe (c : CoreId) (b : Nat) : MemOk (s.cbServe c b) := by
  unfold State.cbServe
  dsimp only
  split
  · exact hs
  · split
    · refine .ite hs ?_
      split
      · exact (hs.setTask ..).joinOp ..
      · exact hs.setTask ..
    · exact hs

theorem MemOk.execCbget (f : FmtML) : MemOk (s.after (execCbget f s)) := by
  unfold Machine.execCbget
  dsimp only
  refine hs.issueS _ fun _ => ?_
  split
  · exact hs.cbFail ..
  · exact (hs.setTask ..).cbServe ..

theorem MemOk.execCbput (f : FmtML) : MemOk (s.after (execCbput f s)) := by
  unfold Machine.execCbput
  dsimp only
  refine hs.issueS _ fun _ => ?_
  split
  · exact hs.cbFail ..
  · exact .ite (hs.cbFail ..) (hs.setTask ..)

end

end Sys2Proof
end

section
/-! PROOF. Memory in its canonical form: arrays, power, copy operations, tokens and phases. -/

namespace Sys2Proof

open Machine

set_option Elab.async false

section
variable {s : State} (hs : MemOk s)
include hs

/-! ## Arrays and the E slot (R313 to R344) -/

theorem MemOk.mxTry (c : CoreId) (w : Wait) : MemOk (s.mxTry c w) := by
  unfold State.mxTry
  dsimp only
  split
  · exact hs
  · refine .ite hs ?_
    split
    · refine .ite hs ?_
      split
      · exact hs.failAccess ..
      · exact hs.setTask ..
    · exact .ite (hs.setTask ..) hs
    · exact .ite (hs.setTask ..) hs
    · exact .ite (hs.setTask ..) hs
    · exact hs

theorem MemOk.mxWait (c : CoreId) (w : Wait) : MemOk (s.mxWait c w) := (hs.mapTask ..).mxTry ..

theorem MemOk.mxIssue (gd : Guard) (arr : Bool) (syl : Word) {f : Task → ArrayS → State} (hf : ∀ t a, MemOk (f t a)) :
    MemOk (s.after (s.mxIssue gd arr syl f)) := by
  refine hs.issueS _ fun _ => ?_
  split
  · exact hs.failAccess ..
  · exact hf ..

theorem MemOk.putArr (t : Task) (arr : Bool) (x : ArrayS) : MemOk (s.putArr t arr x) := hs.setTask ..

theorem MemOk.mxCommit (t : Task) (f : FmtEM) (syl : Word) (form : MxForm) : MemOk (s.mxCommit t f syl form) := by
  unfold State.mxCommit
  dsimp only
  split
  · exact hs.failAccess ..
  · exact hs.mxWait ..

theorem MemOk.execMxclr (f : FmtEI) : MemOk (s.after (execMxclr f s)) := by
  unfold Machine.execMxclr
  dsimp only
  refine hs.mxIssue _ _ _ fun _ _ => ?_
  split
  · exact hs.failAccess ..
  · exact .ite (hs.failAccess ..) (hs.putArr ..)

theorem MemOk.execMxstop (f : FmtEI) : MemOk (s.after (execMxstop f s)) := by
  unfold Machine.execMxstop
  refine hs.mxIssue _ _ _ fun _ _ => ?_
  split
  · exact hs.failAccess ..
  · exact hs.putArr ..

theorem MemOk.charge (launch : Nat) (st : StackId) (f : Acct → Acct) : MemOk (s.charge launch st f) := by
  unfold State.charge
  split
  · exact hs.setLaunch ..
  · exact hs

theorem MemOk.execArrayStep (arr : ArrayId) : MemOk (s.after (execArrayStep arr s)) := by
  unfold Machine.execArrayStep
  dsimp only
  split
  · exact .next hs
  · split
    · exact .next hs
    · split
      · exact .next hs
      · exact .next (((hs.setTask ..).count ..).charge ..)

theorem MemOk.execArrayCommandEnd (arr : ArrayId) : MemOk (s.after (execArrayCommandEnd arr s)) := by
  unfold Machine.execArrayCommandEnd
  dsimp only
  split
  · exact .next hs
  · split
    · exact .next (.ite (hs.setTask ..) hs)
    · exact .next hs

/-! ## Power (R345 to R355, R480 to R485) -/

theorem MemOk.reposition (cl : ClusterId) : MemOk (s.reposition cl) := hs.setCluster ..

theorem MemOk.arrayStart (c : CoreId) (arr : Nat) : MemOk (s.arrayStart c arr) := by
  unfold State.arrayStart
  dsimp only
  split
  · exact hs
  · split
    · exact hs
    · refine .ite hs ?_
      split
      · exact hs
      · exact hs
      · exact (MemOk.ite (((hs.setTask ..).setCluster ..).count ..) ((hs.setTask ..).setCluster ..)).reposition ..

theorem MemOk.openWindow (core : CoreId) : MemOk (s.openWindow core) := by
  unfold State.openWindow
  dsimp only
  split
  · exact .ite hs ((hs.setCore ..).reposition ..)
  · exact hs

theorem MemOk.openWindows (cl : ClusterId) : MemOk (s.openWindows cl) := by
  unfold State.openWindows
  exact hs.foldl _ _ fun _ _ hu => hu.openWindow ..

theorem MemOk.catchUp (cl : ClusterId) : MemOk (s.catchUp cl) := by
  unfold State.catchUp
  exact .ite hs (((hs.setCluster ..).foldl _ _ fun _ _ hu => hu.setCore ..).openWindows ..)

theorem MemOk.execDroopAlarm (cl : ClusterId) : MemOk (s.after (execDroopAlarm cl s)) := by
  unfold Machine.execDroopAlarm
  dsimp only
  split
  · exact .next hs
  · exact .next ((hs.setCluster ..).foldl _ _ fun _ _ hu => hu.count ..)

theorem MemOk.execStretchEnd (cl : ClusterId) : MemOk (s.after (execStretchEnd cl s)) := by
  unfold Machine.execStretchEnd
  dsimp only
  split
  · exact .next (hs.setCluster ..)
  · exact .next hs

theorem MemOk.execHalfIssueWindowEnd (cl : ClusterId) : MemOk (s.after (execHalfIssueWindowEnd cl s)) := by
  unfold Machine.execHalfIssueWindowEnd
  dsimp only
  split
  · exact .next (hs.setCluster ..)
  · exact .next hs

theorem MemOk.execCurrentTrip (cl : ClusterId) : MemOk (s.after (execCurrentTrip cl s)) := by
  unfold Machine.execCurrentTrip
  dsimp only
  split
  · exact .next hs
  · exact .next ((hs.setCluster ..).interrupt ..)

theorem MemOk.pointWrite (cl : ClusterId) (freq : Bool) (v : Word) : MemOk (s.pointWrite cl freq v) :=
  ((hs.catchUp ..).setCluster ..).reposition ..

theorem MemOk.execRelockDone (cl : ClusterId) (stopped : Nat) : MemOk (s.after (execRelockDone cl stopped s)) := by
  unfold Machine.execRelockDone
  dsimp only
  split
  · exact .next hs
  · exact .next ((((hs.setCluster ..).foldl _ _ fun _ _ hu => hu.mapTask ..).openWindows ..).reposition ..)

theorem MemOk.execWatchdogExpire : MemOk (s.after (execWatchdogExpire s)) := by
  unfold Machine.execWatchdogExpire
  dsimp only
  split
  · exact .next hs
  · exact .next ((hs.update.foldl _ _ fun _ _ hu => ((hu.catchUp ..).setCluster ..).reposition ..).interrupt ..)

/-! ## Copy operations (R277 to R291) -/

theorem MemOk.addRec (st : StackId) (r : TokRec) (src : Src) : MemOk (s.addRec st r src) := by
  unfold State.addRec
  split
  · exact hs.setStack ..
  · exact hs.update

theorem MemOk.ensureRec (c : CoreId) (t : Task) (h : Held) : MemOk (s.ensureRec c t h) := .ite hs (hs.addRec ..)

theorem MemOk.editOwn (st : StackId) (ag : Agent) (base size : Nat) (f : TokRec → TokRec) :
    MemOk (s.editOwn st ag base size f) :=
  hs.editToks ..

theorem MemOk.engineLend (c : CoreId) (t : Task) (h : Nat) (r : Held) : MemOk (s.engineLend c t h r) :=
  (((hs.ensureRec ..).editOwn ..).addRec ..).dropRegion ..

theorem MemOk.engineShare (c : CoreId) (t : Task) (h : Nat) (r : Held) : MemOk (s.engineShare c t h r) :=
  ((hs.ensureRec ..).editOwn ..).addRec ..

theorem MemOk.forkRelease (c : CoreId) (t : Task) : MemOk (s.forkRelease c t) := (hs.feOwnFirst ..).releaseFor ..

theorem MemOk.launchCopy (c : CoreId) (t : Task) (k : CopyKind) (p : CopyPlan) (d : Opd) (arr : Nat) (follow : Option Cmd) :
    MemOk (s.launchCopy c t k p d arr follow) := by
  unfold State.launchCopy
  extract_lets u h eng v w x y op
  have hu : MemOk u := .ite (hs.unprotect ..) hs
  have hv : MemOk v := hu.foldl _ _ fun _ _ hu => hu.engineLend ..
  have hw : MemOk w := hv.foldl _ _ fun _ _ hu => hu.engineShare ..
  have hx : MemOk x := .ite hw.update hw
  exact (hx.mapTask ..).setStack ..

theorem MemOk.consumeDesc (c : CoreId) (t : Task) (va : Word) : MemOk (s.consumeDesc c t va) := by
  unfold State.consumeDesc
  split
  · exact hs.consume ..
  · exact hs

theorem MemOk.forkCopy (c : CoreId) (t : Task) (k : CopyKind) (bytes : List Byte) (d : Opd) (arr : Nat) (follow : Option Cmd) :
    MemOk (s.forkCopy c t k bytes d arr follow) := by
  unfold State.forkCopy
  dsimp only
  split
  · exact (hs.forkRelease ..).launchCopy ..
  · exact hs.forkRelease ..

theorem MemOk.issueCopy (t : Task) (k : CopyKind) (f : FmtEC) (syl : Word) : MemOk (s.issueCopy t k f syl) := by
  unfold State.issueCopy
  dsimp only
  split
  · exact hs.failAccess ..
  · split
    · exact (hs.consumeDesc ..).failAccess ..
    · exact (hs.consumeDesc ..).forkCopy ..

theorem MemOk.execCpymx (f : FmtEC) : MemOk (s.after (execCpymx f s)) := by
  unfold Machine.execCpymx
  dsimp only
  refine hs.issueS _ fun _ => ?_
  split
  · exact hs.failAccess ..
  · split
    · exact (hs.consumeDesc ..).failAccess ..
    · split
      · exact (hs.consumeDesc ..).failAccess ..
      · split
        · exact (hs.consumeDesc ..).failAccess ..
        · exact (hs.consumeDesc ..).forkCopy ..

theorem MemOk.execCopyAccept (n : Nat) : MemOk (s.after (execCopyAccept n s)) := by
  unfold Machine.execCopyAccept
  dsimp only
  split
  · exact .next hs
  · split
    · exact .next hs
    · split
      · exact .next ((hs.setStack ..).mapTaskOf ..)
      · exact .next (hs.setStack ..)

theorem MemOk.claimSlot (st : StackId) (n : Nat) (o : CopyOp) (b : Nat) : MemOk (s.claimSlot st n o b) := by
  unfold State.claimSlot
  dsimp only
  split
  · exact hs.setStack ..
  · split
    · exact hs
    · split
      · exact hs
      · exact .ite hs ((hs.mapTaskOf ..).setStack ..)

theorem MemOk.execCopyStart (st : StackId) (eng : Fin 2) (n : Nat) : MemOk (s.after (execCopyStart st eng n s)) := by
  unfold Machine.execCopyStart
  dsimp only
  split
  · exact .next hs
  · split
    · split
      · exact .next hs
      · split
        · exact .next (hs.setStack ..)
        · split
          · exact .next hs
          · exact .next ((hs.setStack ..).claimSlot ..)
    · split
      · split
        · exact .next (hs.claimSlot ..)
        · exact .next hs
      · exact .next hs

theorem MemOk.readLines (o : CopyOp) (m : PageMap) (pa va k n : Nat) (r : SideRead) :
    MemOk (s.readLines o m pa va k n r).1 := by
  induction k generalizing s pa va n r with
  | zero => exact hs
  | succ k ih =>
    unfold State.readLines
    exact .ite_fst hs (ih (hs.touchL2 ..) ..)

theorem MemOk.readSide (o : CopyOp) (ms : List PageMap) (va n : Nat) : MemOk (s.readSide o ms va n).1 := by
  unfold State.readSide
  refine MemOk.foldl_fst (p := (s, _)) hs _ _ fun p r hp => ?_
  refine .ite_fst hp ?_
  split
  · exact hp.readLines ..
  · exact hp

theorem MemOk.preOp (o : CopyOp) (pa : Nat) : MemOk (s.preOp o pa) := .ite (hs.preWindow ..) hs

theorem MemOk.copyWindow (o : CopyOp) (l : List (Nat × Nat)) (d : List Byte) : MemOk (s.copyWindow o l d) := by
  induction l generalizing s d with
  | nil => exact hs
  | cons x l ih => exact ih ((((hs.preOp ..).windowWrite ..).unpoison ..).cwGone ..) _

theorem MemOk.copyMemory (st : StackId) (o : CopyOp) (va k : Nat) (l : List Byte) : MemOk (s.copyMemory st o va k l) := by
  induction k generalizing s va l with
  | zero => exact hs
  | succ k ih =>
    unfold State.copyMemory
    refine .ite hs ?_
    dsimp only
    split
    · exact hs
    · refine ih ?_ ..
      have hp (line : Nat) (d : BitVec 1024) (bad : BitVec 16) :
          MemOk (if s.opNew o = true then s.preLine (stackOf o.core) o.team line d bad else s) := .ite (hs.preLine ..) hs
      split
      · exact .ite_fst (hp ..) ((hp ..).writeHome ..)
      · exact .update (.ite_fst (hp ..) ((hp ..).writeHome ..))
      · exact .fatalFor (.ite_fst (hp ..) ((hp ..).writeHome ..)) ..

theorem MemOk.copyRow (st : StackId) (o : CopyOp) (va : Nat) (bytes : List Byte) : MemOk (s.copyRow st o va bytes) := by
  unfold State.copyRow
  exact hs.foldl _ _ fun _ _ hu => MemOk.ite (hu.copyWindow ..) (hu.copyMemory ..)

theorem MemOk.slotRow (o : CopyOp) (b slot i : Nat) (bytes : List Byte) : MemOk (s.slotRow o b slot i bytes) := by
  unfold State.slotRow
  dsimp only
  split
  · exact hs
  · split
    · exact hs
    · exact hs.copyWindow ..

theorem MemOk.copyRows (st : StackId) (o : CopyOp) (i : Nat) (l : List (List Byte)) : MemOk (s.copyRows st o i l) := by
  induction l generalizing s i with
  | nil => exact hs
  | cons r l ih =>
    unfold State.copyRows
    refine ih ?_ _
    split
    · exact hs.send _
    · split
      · exact hs.slotRow ..
      · exact hs.copyRow ..

omit hs in
theorem Machine.State.withBackedStacks_mem (b : Tab Word) (x : Tab StackS) :
    ({ s with backed := b, stackTab := x } : State).mem = s.mem := rfl

theorem MemOk.rehome (leafPa : Nat) (t : StackId) : MemOk (s.rehome leafPa t) :=
  MemOk.congr ((hs.putLeaf ..).rehomeWrites ..) (State.withBackedStacks_mem ..)

theorem MemOk.dropPage (home : StackId) (base n : Nat) : MemOk (s.dropPage home base n) := by
  unfold State.dropPage
  exact hs.foldl _ _ fun _ _ hu => hu.evictL2 ..

theorem MemOk.migrate (o : CopyOp) : MemOk (s.migrate o).1 := by
  unfold State.migrate
  dsimp only
  split
  · split
    · exact hs
    · exact .ite_fst hs (.ite_fst (((hs.dropPage ..).rehome ..).moveRecs ..)
        (.ite_fst (((((hs.addUsed ..).addUsed ..).update).rehome ..).moveRecs ..)
          (.ite_fst (hs.fatalFor ..) (hs.needFrame ..))))
  · exact hs

theorem MemOk.readRows (o : CopyOp) (k i : Nat) : MemOk (s.readRows o k i).1 := by
  induction k generalizing s i with
  | zero => exact hs
  | succ k ih => exact ih (hs.readSide ..) _

theorem MemOk.mapOp (st : StackId) (n : Nat) (f : CopyOp → CopyOp) : MemOk (s.mapOp st n f) := by
  unfold State.mapOp
  dsimp only
  split
  · exact hs.setStack ..
  · exact hs

theorem MemOk.runOp (st : StackId) (n : Nat) : MemOk (s.runOp st n) := by
  unfold State.runOp
  dsimp only
  split
  · exact hs
  · refine .ite hs ?_
    refine .ite (.ite ((hs.migrate ..).mapOp ..) (hs.migrate ..)) ?_
    refine .ite ((hs.mapOp ..).soon ..) ?_
    split
    · exact ((hs.readRows ..).mapOp ..).soon ..
    · exact (((((hs.readRows ..).copyRows ..).count ..).charge ..).mapTaskOf ..).mapOp ..

theorem MemOk.execFollowOnCommit (st : StackId) (n : Nat) : MemOk (s.after (execFollowOnCommit st n s)) := by
  unfold Machine.execFollowOnCommit
  dsimp only
  split
  · exact .next (hs.runOp ..)
  · split
    · exact .next (hs.runOp ..)
    · split
      · exact .next (hs.runOp ..)
      · split
        · split
          · split
            · exact .next (hs.runOp ..)
            · exact .next (((hs.runOp ..).mapOp ..).setTask ..)
          · exact .next (.ite ((hs.runOp ..).mapOp ..) (hs.runOp ..))
        · exact .next (.ite ((hs.runOp ..).mapOp ..) (hs.runOp ..))

theorem MemOk.completeOp (o : CopyOp) : MemOk (s.completeOp o) := by
  unfold State.completeOp
  extract_lets u v
  have hu : MemOk u := hs.mapTaskOf ..
  have hv : MemOk v := by
    unfold v
    split
    · exact .ite (hu.cbServe ..) hu
    · exact hu
  exact .ite hv hv.update

theorem MemOk.clearOpRecs (o : CopyOp) : MemOk (s.clearOpRecs o) := by
  unfold State.clearOpRecs
  exact hs.update.foldl _ _ fun _ _ hu => MemOk.ite (hu.send ..) hu

theorem MemOk.execCopyComplete (st : StackId) (n : Nat) : MemOk (s.after (execCopyComplete st n s)) := by
  unfold Machine.execCopyComplete
  dsimp only
  split
  · exact .next (hs.runOp ..)
  · split
    · exact .next (hs.runOp ..)
    · exact .next (.ite (((hs.runOp ..).setStack ..).completeOp ..) (((hs.runOp ..).setStack ..).clearOpRecs ..))

/-! ## Tokens that move (R364 to R372) -/

theorem MemOk.unprotectAgent (x1 : Agent) : MemOk (s.unprotectAgent x1) := by
  unfold State.unprotectAgent
  split
  · split
    · exact hs.unprotectTeam ..
    · exact hs
  · exact hs

theorem MemOk.outsideEdge (a b : Agent) : MemOk (s.outsideEdge a b) := .ite hs ((hs.unprotectAgent ..).unprotectAgent ..)

theorem MemOk.keepLent (r : TokRec) : MemOk (s.keepLent r) := by
  unfold State.keepLent
  split
  · exact .ite (hs.mapTaskOf ..) hs
  · exact hs

theorem MemOk.toRest (st : StackId) (base size : Nat) (sc : Scope) : MemOk (s.toRest st base size sc) := by
  unfold State.toRest
  exact .ite hs (((hs.foldl _ _ fun _ _ hu => hu.keepLent ..).setStack ..).putRest ..)

theorem MemOk.stackEmpty (st : StackId) (r : TokRec) : MemOk (s.stackEmpty st r) := by
  unfold State.stackEmpty
  dsimp only
  refine .ite (hs.toRest ..) ?_
  split
  · exact .ite ((hs.setStack ..).toRest ..) (hs.setStack ..)
  · exact hs.setStack ..

theorem MemOk.shareBack (st : StackId) (base size : Nat) (at_ : Bool) (sc : Scope) :
    MemOk (s.shareBack st base size at_ sc) := by
  unfold State.shareBack
  dsimp only
  split
  · exact hs
  · split
    · exact .ite ((hs.setStack ..).stackEmpty ..) (hs.setStack ..)
    · exact hs.setStack ..

theorem MemOk.deadDelivery (st : StackId) (e : Nat) (r : TokRec) : MemOk (s.deadDelivery st e r) :=
  .ite hs (.ite ((hs.setStack ..).shareBack ..) (hs.toRest ..))

theorem MemOk.tokArrive (n : Nat) : MemOk (s.tokArrive n) := by
  unfold State.tokArrive
  dsimp only
  refine .ite hs ?_
  split
  · exact hs
  · split
    · split
      · exact hs.update
      · exact .ite (hs.update.deadDelivery ..) (hs.update.setStack ..)
    · refine .ite (hs.update.putRest ..) ?_
      split
      · refine .ite (hs.update.toRest ..) ?_
        split
        · exact hs.update.stackEmpty ..
        · exact hs.update.setStack ..
      · exact hs.update
    · exact hs.update.shareBack ..
    · exact hs

theorem MemOk.execNakRetry (n : Nat) : MemOk (s.after (execNakRetry n s)) := by
  unfold Machine.execNakRetry
  dsimp only
  split
  · split
    · exact .next hs
    · split
      · exact .next (.ite (((hs.setStack ..).update).deadDelivery ..) ((hs.setStack ..).update))
      · exact .next hs.update
  · exact .next hs

theorem MemOk.execTokenRecordClear (st : StackId) (e : Fin 16384) : MemOk (s.after (execTokenRecordClear st e s)) := by
  unfold Machine.execTokenRecordClear
  split
  · exact .next (.ite (hs.setStack ..) hs)
  · exact .next hs

theorem MemOk.putRec (st : StackId) (e : Nat) (r : TokRec) : MemOk (s.putRec st e r) := hs.setStack ..

theorem MemOk.restShare {st : StackId} {c : CoreId} {naks : Nat} {ag : Agent} {base size : Nat} {u : State}
    (e : s.restShare st c naks ag base size = some u) : MemOk u := by
  unfold State.restShare at e
  dsimp only at e
  split at e
  · obtain ⟨k, -, rfl⟩ := Option.map_eq_some_iff.mp e
    exact hs.setStack ..
  · obtain ⟨k, -, e⟩ := Option.bind_eq_some_iff.mp e
    obtain ⟨j, -, rfl⟩ := Option.map_eq_some_iff.mp e
    exact hs.setStack ..

theorem MemOk.giveGrant (src : Src) (g : GrantS) : MemOk (s.giveGrant src g) := by
  unfold State.giveGrant
  exact .ite (hs.update.sendAfter ..) (hs.update.soon ..)

theorem MemOk.claim (c : CoreId) (t : Task) (share : Bool) (st : StackId) (base size : Nat) :
    EndOk (s.claim c t share st base size) := by
  unfold State.claim
  extract_lets ag x view took
  have ht {u : State} (hu : MemOk u) (l : List Scope) (g : Option Agent) : EndOk (took u l g) := by
    refine .of_done ?_
    split
    · exact ((hu.mapTask ..).acquireAll ..).outsideEdge ..
    · exact ((hu.mapTask ..).acquireAll ..).unprotect ..
  have hd : EndOk (.done s) := .of_done hs
  clear_value took
  refine .ite .lost ?_
  split
  · refine .ite hd (.ite ?_ (.ite (ht (hs.setStack ..) ..) (.ite hd .waits)))
    split
    · split
      · refine .ite ?_ .waits
        split
        · exact .ite (.of_done (hs.joinOp ..)) .waits
        · exact .waits
      · exact .ite (ht (hs.putRec ..) ..) .waits
    · exact .ite (ht (hs.putRec ..) ..) .waits
  · refine .ite .waits (.ite ?_ (.ite hd (.ite (ht hs ..) (.ite ?_ .waits))))
    · split
      · exact hd
      · split
        · exact .ite (ht (hs.setStack ..) ..) .waits
        · refine .ite hd (.ite .waits ?_)
          split
          · rename_i u e
            exact ht (hs.restShare e) ..
          · exact .nak
    · split
      · exact ht (hs.setStack ..) ..
      · exact .nak

theorem MemOk.claimGrant (c : CoreId) (t : Task) (a size : Nat) : EndOk (s.claimGrant c t a size) := by
  have hd : EndOk (.done s) := .of_done hs
  unfold State.claimGrant
  dsimp only
  split
  · split
    · exact .of_done ((hs.update.acquire ..).unprotect ..)
    · refine .ite ?_ .waits
      split
      · exact hd
      · split
        · exact .ite (.of_done (hs.joinOp ..)) .waits
        · exact hd
  · exact .waits

theorem MemOk.splitRegion {c : CoreId} {naks : Nat} {st : StackId} {base size : Nat} {u : State}
    (e : s.splitRegion c naks st base size = some u) : MemOk u := by
  obtain ⟨x, -, rfl⟩ := Option.map_eq_some_iff.mp e
  exact hs.setStack ..

theorem MemOk.endWait (c : CoreId) (w : Wait) : MemOk (s.endWait c w) := hs.mapTask ..
theorem MemOk.nakTask (c : CoreId) : MemOk (s.nakTask c) := hs.mapTask ..

theorem MemOk.tokTry (c : CoreId) (w : Wait) : MemOk (s.tokTry c w) := by
  unfold State.tokTry
  split
  · exact hs
  · refine .ite hs ?_
    extract_lets lost
    have hl (base : Nat) : MemOk (lost base) := (hs.endWait ..).fatalAt ..
    clear_value lost
    split
    · extract_lets e
      have he : EndOk e := by
        refine .ite (hs.claimGrant ..) ?_
        split
        · exact .ite .waits (hs.claim ..)
        · exact hs.claim ..
      clear_value e
      split
      · exact hs
      · exact hs.nakTask ..
      · exact MemOk.endWait he ..
      · exact hl ..
    · refine .ite (hl ..) (.ite hs ?_)
      split
      · rename_i u e
        exact (hs.splitRegion e).endWait ..
      · exact hs.nakTask ..
    · refine .ite hs ?_
      split
      · exact .ite (hl ..) (.ite (((hs.putRec ..).acquireAll ..).endWait ..) hs)
      · exact .ite hs (hs.endWait ..)
    · refine .ite hs ?_
      extract_lets st
      split
      · exact .ite (hl ..) ((((hs.releaseFor ..).dropRegion ..).setStack ..).update.endWait ..)
      · exact hs.endWait ..
    · exact hs

theorem MemOk.tokWait (c : CoreId) (w : Wait) : MemOk (s.tokWait c w) := (hs.mapTask ..).tokTry ..

/-! ## The token forms of the Y slot (R387 to R393) -/

theorem MemOk.tokFail (c : CoreId) (t : Task) (syl va : Word) (code pa : Nat) : MemOk (s.tokFail c t syl va code pa) :=
  hs.failAccess ..

theorem MemOk.onRegion (c : CoreId) (t : Task) (syl va : Word) {f : Named → State} (hf : ∀ r, MemOk (f r)) :
    MemOk (s.onRegion c t syl va f) := by
  unfold State.onRegion
  split
  · exact hs.failAccess ..
  · exact (hf _).noteShut ..

theorem MemOk.giver (c : CoreId) (t : Task) (syl va : Word) (r : Named) (ok : TokRec → Bool) {f : TokRec → State}
    (hf : ∀ x, MemOk (f x)) : MemOk (s.giver c t syl va r ok f) := by
  unfold State.giver
  refine .ite (hs.tokFail ..) ?_
  split
  · exact .ite (hf _) (hs.tokFail ..)
  · exact hs.tokFail ..

theorem MemOk.transferRelease (c : CoreId) (t : Task) (va : Word) (r : Named) (sc : Scope) :
    MemOk (s.transferRelease c t va r sc).1 :=
  ((hs.feOwnFirst ..).releaseFor ..).dropRegion ..

theorem MemOk.sendRec (src : Src) (st : StackId) (r : TokRec) : MemOk (s.sendRec src st r) := by
  unfold State.sendRec
  dsimp only
  split
  · exact (hs.setStack ..).update
  · exact hs.update

theorem MemOk.dropOwn (st : StackId) (ag : Agent) (base size : Nat) : MemOk (s.dropOwn st ag base size) := hs.editToks ..

theorem MemOk.lendTo (c : CoreId) (t : Task) (va : Word) (r : Named) (x : TokRec) (to_ : Agent) (sc : Scope) :
    MemOk (s.lendTo c t va r x to_ sc) :=
  ((((hs.transferRelease ..).ensureRec ..).editOwn ..).sendRec ..).outsideEdge ..

theorem MemOk.lendRemote (c : CoreId) (t : Task) (va : Word) (r : Named) (x : TokRec) (m : ModuleId) :
    MemOk (s.lendRemote c t va r x m) := by
  unfold State.lendRemote
  have hr := hs.transferRelease c t va r .sy
  generalize s.transferRelease c t va r .sy = p at hr
  exact .ite (((((hr.unprotect ..).ensureRec ..).editOwn ..).addRec ..).sendAfter ..)
    (((((hr.unprotect ..).ensureRec ..).editOwn ..).addRec ..).loseRegion ..)

theorem MemOk.execTklend (f : FmtYT) : MemOk (s.after (execTklend f s)) := by
  unfold Machine.execTklend
  dsimp only
  refine hs.issueS _ fun _ => ?_
  refine hs.onRegion _ _ _ _ fun _ => ?_
  refine .ite (.ite (hs.tokFail ..) (hs.giver _ _ _ _ _ _ fun _ => hs.lendRemote ..)) ?_
  split
  · exact hs.tokFail ..
  · exact hs.giver _ _ _ _ _ _ fun _ => hs.lendTo ..

theorem MemOk.returnTok (c : CoreId) (t : Task) (va : Word) (r : Named) (x : TokRec) (sc : Scope) :
    MemOk (s.returnTok c t va r x sc) := by
  unfold State.returnTok
  dsimp only
  refine .ite ?_ ?_
  · split
    · exact (hs.transferRelease ..).outsideEdge ..
    · exact (hs.transferRelease ..).unprotect ..
  · refine (MemOk.dropOwn ?_ ..).update
    split
    · exact (hs.transferRelease ..).outsideEdge ..
    · exact (hs.transferRelease ..).unprotect ..

theorem MemOk.execTkret (f : FmtYT) : MemOk (s.after (execTkret f s)) := by
  unfold Machine.execTkret
  dsimp only
  refine hs.issueS _ fun _ => ?_
  refine .ite ?_ (hs.onRegion _ _ _ _ fun _ => hs.giver _ _ _ _ _ _ fun _ => hs.returnTok ..)
  split
  · exact ((hs.releaseFor ..).unprotect ..).giveGrant ..
  · exact hs.tokFail ..

theorem MemOk.execTkshr (f : FmtYT) : MemOk (s.after (execTkshr f s)) := by
  unfold Machine.execTkshr
  dsimp only
  refine hs.issueS _ fun _ => ?_
  refine hs.onRegion _ _ _ _ fun _ => ?_
  split
  · exact hs.tokFail ..
  · exact hs.giver _ _ _ _ _ _ fun _ => MemOk.ite (hs.tokFail ..)
      (((((hs.transferRelease ..).ensureRec ..).editOwn ..).sendRec ..).outsideEdge ..)

theorem MemOk.execTkunsh (f : FmtYT) : MemOk (s.after (execTkunsh f s)) := by
  unfold Machine.execTkunsh
  dsimp only
  refine hs.issueS _ fun _ => ?_
  refine hs.onRegion _ _ _ _ fun _ => ?_
  refine .ite (hs.tokFail ..) ?_
  split
  · exact hs.tokFail ..
  · exact ((hs.feOwnFirst ..).outsideEdge ..).tokWait ..

theorem MemOk.tkwaitFor (t : Task) (f : FmtYT) (syl : Word) (share : Bool) : MemOk (s.tkwaitFor t f syl share) := by
  unfold State.tkwaitFor
  dsimp only
  refine .ite (.ite (hs.tokFail ..) (hs.tokWait ..)) ?_
  split
  · exact hs.failAccess ..
  · exact .ite (hs.tokFail ..) (hs.tokWait ..)

theorem MemOk.joinRegion (r : Named) (lo : Nat) : MemOk (s.joinRegion r lo) := hs.setStack ..

theorem MemOk.execTkjoin (f : FmtYT) : MemOk (s.after (execTkjoin f s)) := by
  unfold Machine.execTkjoin
  dsimp only
  refine hs.issueS _ fun _ => ?_
  refine hs.onRegion _ _ _ _ fun _ => ?_
  refine .ite (hs.tokFail ..) ?_
  refine .ite (hs.tokFail ..) ?_
  split
  · exact .ite (hs.joinRegion ..) (hs.tokFail ..)
  · exact hs.tokFail ..

/-! ## Phases, rounds and triggers (R394 to R411) -/

theorem MemOk.settleToks (st : StackId) (ts : Tab Task) (k : Nat) : MemOk (s.settleToks st ts k) := by
  induction k generalizing s with
  | zero => exact hs
  | succ k ih =>
    unfold State.settleToks
    split
    · exact ih (hs.tokArrive _)
    · exact hs

theorem MemOk.takeCheckpoint (st : StackId) (m : Nat) : MemOk (s.takeCheckpoint st m) := by
  unfold State.takeCheckpoint
  dsimp only
  split
  · exact hs.settleToks ..
  · exact .ite ((hs.settleToks ..).setTeam ..) (((hs.settleToks ..).setTeam ..).count ..)

theorem MemOk.applyRound (n : Nat) : MemOk (s.applyRound n).1 := by
  unfold State.applyRound
  dsimp only
  split
  · exact hs
  · refine .ite_fst hs ?_
    split
    · exact ((MemOk.ite ((hs.touchL2 ..).preLine ..) (hs.touchL2 ..)).putHome ..).update
    · exact (MemOk.ite ((hs.touchL2 ..).preLine ..) (hs.touchL2 ..)).putHome ..
    · exact (((MemOk.ite ((hs.touchL2 ..).preLine ..) (hs.touchL2 ..)).putHome ..).update).fatalFor ..

theorem MemOk.applyRounds (l : List Nat) : MemOk (s.applyRounds l).1 := by
  induction l generalizing s with
  | nil => exact hs
  | cons n l ih =>
    unfold State.applyRounds
    exact .ite_fst (ih (hs.applyRound n)) (hs.applyRound n)

theorem MemOk.giveRound (r : RoundMsg) (v : Word) : MemOk (s.giveRound r v) := hs.mapTaskOf ..

theorem MemOk.giveRounds (st : StackId) (m ph inst : Nat) (order : List Nat) : MemOk (s.giveRounds st m ph inst order) := by
  unfold State.giveRounds
  dsimp only
  refine (MemOk.setStack ?_ ..).update
  refine hs.foldl _ _ fun _ _ hu => ?_
  split
  · exact hu.giveRound ..
  · exact hu

theorem MemOk.completeInstance (st : StackId) (m ph : Nat) : MemOk (s.completeInstance st m ph) := by
  unfold State.completeInstance
  dsimp only
  split
  · exact hs
  · split
    · exact hs.giveRounds ..
    · exact (hs.giveRounds ..).setTeam ..

theorem MemOk.closeInstance (st : StackId) (m ph : Nat) : MemOk (s.closeInstance st m ph).1 := by
  unfold State.closeInstance
  split
  · exact hs
  · rename_i tm _
    refine .ite_fst hs ?_
    have ha := hs.applyRounds (s.roundOrder st m ph ((tm.phases.get .none ph).inst + 1))
    generalize s.applyRounds _ = p at ha
    exact .ite_fst ha ((ha.takeCheckpoint ..).completeInstance ..)

theorem MemOk.closeAll (st : StackId) (m ph k : Nat) : MemOk (s.closeAll st m ph k) := by
  induction k generalizing s with
  | zero => exact hs
  | succ k ih => exact .ite (ih (hs.closeInstance ..)) (hs.closeInstance ..)

theorem MemOk.closeFull : MemOk s.closeFull := by
  unfold State.closeFull
  exact hs.foldl _ _ fun _ _ hu => hu.foldl _ _ fun _ _ hu => hu.foldl _ _ fun _ _ hu => MemOk.ite (hu.closeAll ..) hu

theorem MemOk.countArrival {st : StackId} {m ph : Nat} {sc : Scope} {a : Option Agent} {naks : Nat} {u : State}
    (e : s.countArrival st m ph sc a naks = some u) : MemOk u := by
  unfold State.countArrival at e
  dsimp only at e
  split at e
  · cases e
    exact hs
  · split at e
    · obtain ⟨x, -, rfl⟩ := Option.map_eq_some_iff.mp e
      exact (hs.setStack ..).setTeam ..
    · cases e
      refine .closeAll (.setTeam ?_ ..) ..
      split
      · exact hs.consumeObj ..
      · exact hs

theorem MemOk.phaseArrival (n : Nat) : MemOk (s.phaseArrival n) := by
  unfold State.phaseArrival
  split
  · exact hs
  · rename_i a _
    have hr := MemOk.ite (c := a.outside = true) hs (hs.receiveRoundsOf a.launch a.coord)
    revert hr
    dsimp only
    generalize (if a.outside = true then s else s.receiveRoundsOf a.launch a.coord) = u
    intro hu
    refine .ite hu ?_
    split
    · exact .getD hu.update fun _ => (MemOk.ite (hu.update.unprotectTeam ..) hu.update).countArrival
    · split
      · exact hu.update
      · exact .ite hu.update (hu.update.setLaunch ..)

theorem MemOk.sendArrival (c : CoreId) (t : Task) (ph : Nat) (target : BitVec 48) (rel : Bool) (sc : Scope) :
    MemOk (s.sendArrival c t ph target rel sc) := by
  unfold State.sendArrival
  exact (MemOk.ite (hs.mapTask ..) (hs.unprotect ..)).update

theorem MemOk.sendRemote (c : CoreId) (t : Task) (ph : Nat) (target : BitVec 48) (m : ModuleId) :
    MemOk (s.sendRemote c t ph target m) := by
  unfold State.sendRemote
  exact .ite (((hs.unprotect ..).update).sendAfter ..) ((hs.unprotect ..).soon ..)

theorem MemOk.arriveAct (c : CoreId) (t : Task) (syl v : Word) (rel : Bool) (sc : Scope) :
    MemOk (s.arriveAct c t syl v rel sc) := by
  unfold State.arriveAct
  dsimp only
  split
  · exact hs.raiseFatal ..
  · exact .ite ((hs.releaseFor ..).sendRemote ..) (.ite (hs.raiseFatal ..) ((MemOk.ite (hs.releaseFor ..) hs).sendArrival ..))

theorem MemOk.phaseTry (c : CoreId) (w : Wait) : MemOk (s.phaseTry c w) := by
  unfold State.phaseTry
  dsimp only
  split
  · refine .ite hs ?_
    split
    · exact .ite ((hs.acquireAll ..).endWait ..) hs
    · exact hs
  · exact hs

theorem MemOk.execWaitph (f : FmtYS) : MemOk (s.after (execWaitph f s)) := by
  unfold Machine.execWaitph
  dsimp only
  refine hs.issueS _ fun _ => ?_
  split
  · exact (hs.setTask ..).phaseTry ..
  · exact hs.raiseFatal ..

theorem MemOk.countEarly (st : StackId) (m ph : Nat) : MemOk (s.countEarly st m ph) := by
  unfold State.countEarly
  split
  · exact hs
  · exact ((hs.setTeam ..).setStack ..).foldl _ _ fun _ _ hu => .getD hu fun _ => hu.countArrival

theorem MemOk.execPhdef (f : FmtYS) : MemOk (s.after (execPhdef f s)) := by
  unfold Machine.execPhdef
  dsimp only
  refine hs.issueS _ fun _ => ?_
  split
  · exact hs
  · exact .ite (hs.raiseFatal ..) ((hs.setTeam ..).countEarly ..)

theorem MemOk.ownLine (t : Task) (line : Nat) : MemOk (s.ownLine t line) := (hs.drain ..).ownAmos ..

theorem MemOk.roundAct (t : Task) (f : FmtYS) (syl : Word) (op : AtomOp) : MemOk (s.roundAct t f syl op) := by
  unfold State.roundAct
  dsimp only
  split
  · exact hs.failAccess ..
  · exact ((hs.ownLine ..).mapTask ..).update

theorem MemOk.amoAct (t : Task) (f : FmtYS) (syl : Word) (op : AtomOp) : MemOk (s.amoAct t f syl op) := by
  unfold State.amoAct
  dsimp only
  split
  · exact hs.failAccess ..
  · exact (((hs.unprotect ..).noteWrite ..).drain ..).update

theorem MemOk.mergeAmo (n : Nat) : MemOk (s.mergeAmo n) := by
  unfold State.mergeAmo
  split
  · exact hs
  · split
    · exact hs
    · split
      · exact hs.update
      · exact hs

theorem MemOk.trigger (c : CoreId) (t : Task) : MemOk (s.trigger c t) := by
  unfold State.trigger
  exact .ite (hs.unprotect ..) ((((hs.unprotect ..).releaseFor ..).mapTask ..).update)

theorem MemOk.endVictim (e : WaitEnt) : MemOk (s.endVictim e) := by
  unfold State.endVictim
  dsimp only
  split
  · exact hs
  · split
    · exact .ite (hs.raiseFatal ..) (hs.fatalFor ..)
    · exact hs.fatalFor ..

theorem MemOk.walkCycles (k : Nat) (es : List ((Nat × WaitEnt) × List Agent)) : MemOk (s.walkCycles k es) := by
  induction k generalizing s es with
  | zero => exact hs
  | succ k ih =>
    unfold State.walkCycles
    split
    · exact hs
    · exact ih (hs.endVictim _) _

/-! ## System registers -/

theorem MemOk.startDrop (v : Word) (master : Bool) : MemOk (s.startDrop v master) := hs

theorem MemOk.unpinUnmapped : MemOk s.unpinUnmapped := by
  unfold State.unpinUnmapped
  exact hs.foldl _ _ fun _ _ hu => hu.evictL2 ..

theorem MemOk.execTlbDropComplete (n : Nat) : MemOk (s.after (execTlbDropComplete n s)) := by
  unfold Machine.execTlbDropComplete
  exact .next ((((hs.foldl _ _ fun _ _ hu => hu.dropTlbs ..).update).unpinUnmapped).mapTasks ..)

theorem MemOk.writeDlpol (v : Word) : MemOk (s.writeDlpol v) := hs

theorem MemOk.writeSreg (c : CoreId) (t : Task) (n : Nat) (v : Word) : MemOk (s.writeSreg c t n v) :=
  .ite (hs.setCtx ..) (.ite (hs.setTask ..) (.ite (hs.writeDlpol ..) (.ite ((hs.setTask ..).startDrop ..) hs)))

end

end Sys2Proof
end

section
/-! PROOF. Memory in its canonical form: launches, saves, placement, endings, preemption, recovery and what is outside. -/

namespace Sys2Proof

open Machine

set_option Elab.async false

section
variable {s : State} (hs : MemOk s)
include hs

/-! ## The error log (R425 to R427) -/

theorem MemOk.writeEl (st : StackId) (b : List Byte) : MemOk (s.writeEl st b) := (hs.putPhys ..).setStack ..

theorem MemOk.drainEl (st : StackId) (k : Nat) : MemOk (s.drainEl st k) := by
  induction k generalizing s with
  | zero => exact hs
  | succ k ih =>
    unfold State.drainEl
    dsimp only
    split
    · exact hs
    · exact .ite (ih ((hs.setStack ..).writeEl ..)) hs

theorem MemOk.logRecord (st : StackId) (l : List (Nat × Nat)) (time : Nat) (ctx : Option CtxId) (core : Option CoreId) :
    MemOk (s.logRecord st l time ctx core) := by
  unfold State.logRecord
  refine .ite ((hs.setStack ..).writeEl ..) ?_
  dsimp only
  split
  · exact ((hs.setStack ..).interrupt ..).count ..
  · exact (hs.setStack ..).interrupt ..

theorem MemOk.drainLog (st : StackId) : MemOk (s.drainLog st) := hs.drainEl ..
theorem MemOk.logSoft (st : StackId) (code : Nat) (u : ErrUnit) : MemOk (s.logSoft st code u) := hs.logRecord ..

/-! ## Queues, records and launch words (R57 to R84) -/

theorem MemOk.semWrite (m : Master) (n : SemId) (acq rel : Bool) (lease : BitVec 32) :
    MemOk (s.semWrite m n acq rel lease) := by
  unfold State.semWrite
  exact .ite hs (.ite (.ite ((hs.setSem ..).update) hs) (.ite hs (.ite (hs.setSem ..) (hs.setSem ..))))

theorem MemOk.execSemLeaseExpire (n : SemId) : MemOk (s.after (execSemLeaseExpire n s)) := by
  unfold Machine.execSemLeaseExpire
  dsimp only
  refine .next ?_
  split
  · exact .ite (hs.setSem ..) hs
  · exact hs

theorem MemOk.execDispatcherTakeover : MemOk (s.after (execDispatcherTakeover s)) := by
  unfold Machine.execDispatcherTakeover
  dsimp only
  refine .next ?_
  split
  · exact hs
  · exact hs.semWrite ..

theorem MemOk.renewLease : MemOk s.renewLease := by
  unfold State.renewLease
  split
  · exact hs.semWrite ..
  · exact hs

theorem MemOk.putWord (ctx : CtxId) (launch : Nat) (va : Word) (v : Nat) : MemOk (s.putWord ctx launch va v) := by
  unfold State.putWord
  dsimp only
  split
  · exact hs
  · exact .ite hs.update (hs.update.performWrite ..)

theorem MemOk.putWords (ctx : CtxId) (launch : Nat) (r : LaunchRec) (tdone cdone gref : Bool) (code trig fin : Nat) :
    MemOk (s.putWords ctx launch r tdone cdone gref code trig fin) :=
  (MemOk.ite hs (hs.putWord ..)).putWord ..

theorem MemOk.stepJob (k : Nat) (j : WordJob) : MemOk (s.stepJob k j).1 := by
  induction k generalizing s j with
  | zero => exact hs
  | succ k ih =>
    unfold State.stepJob
    refine .ite_fst hs ?_
    split
    · exact hs
    · exact ih (hs.putWord ..) _

theorem MemOk.freeRegions (l : Launch) : MemOk (s.freeRegions l) := by
  unfold State.freeRegions
  exact hs.foldl _ _ fun _ _ hu => MemOk.ite hu ((hu.setStack ..).putRest ..)

theorem MemOk.retired (n : Nat) : MemOk (s.retired n) := by
  unfold State.retired
  split
  · exact hs
  · exact (hs.setLaunch ..).freeRegions ..

theorem MemOk.endJob (j : WordJob) : MemOk (s.endJob j) := by
  unfold State.endJob
  dsimp only
  refine .ite ?_ ?_
  · refine .retired ?_ ..
    split
    · exact hs.interrupt ..
    · exact hs
  · split
    · exact hs.interrupt ..
    · exact hs

theorem MemOk.writeAcct (l : Launch) (code : Nat) : MemOk (s.writeAcct l code) := by
  unfold State.writeAcct
  exact hs.foldl _ _ fun _ _ hu => hu.logRecord ..

theorem MemOk.acctJob (j : WordJob) : MemOk (s.acctJob j).1 := by
  unfold State.acctJob
  split
  · exact .ite_fst (hs.writeAcct ..) hs
  · exact hs

theorem MemOk.runJob (j : WordJob) : MemOk (s.runJob j) := by
  unfold State.runJob
  have ha := hs.acctJob j
  generalize s.acctJob j = p at ha
  dsimp only
  exact .ite ha.update (.ite ((ha.stepJob ..).endJob ..) (ha.stepJob ..).update)

theorem MemOk.runJobs : MemOk s.runJobs := by
  unfold State.runJobs
  exact hs.update.foldl _ _ fun _ _ hu => hu.runJob _

theorem MemOk.refuseRec (q : QueueS) (r : Option LaunchRec) (code : Nat) : MemOk (s.refuseRec q r code) := by
  unfold State.refuseRec
  split
  · exact hs
  · exact hs.update.runJobs

theorem MemOk.refuseHead (n : QueueId) (code : Nat) : MemOk (s.refuseHead n code) := by
  unfold State.refuseHead
  dsimp only
  split
  · exact hs
  · exact (hs.refuseRec ..).setQueue ..

theorem MemOk.dropRecords (n : QueueId) (code k : Nat) : MemOk (s.dropRecords n code k) := by
  induction k generalizing s with
  | zero => exact hs
  | succ k ih => exact .ite hs (ih (hs.refuseHead ..))

theorem MemOk.qcfgWrite (m : Master) (n : QueueId) (v : Word) : MemOk (s.qcfgWrite m n v) :=
  .ite hs ((MemOk.ite hs (hs.dropRecords ..)).setQueue ..)

theorem MemOk.execQueuePush (m : Master) (n : QueueId) (v : Word) : MemOk (s.after (execQueuePush m n v s)) :=
  .next (hs.setQueue ..)

theorem MemOk.execLaunchRecordRead (n : QueueId) : MemOk (s.after (execLaunchRecordRead n s)) := by
  unfold Machine.execLaunchRecordRead
  dsimp only
  refine .next ?_
  split
  · refine .ite hs ?_
    refine .ite (hs.refuseHead ..) ?_
    split
    · exact hs.refuseHead ..
    · split
      · exact hs.refuseHead ..
      · exact hs.setQueue ..
  · exact hs

theorem MemOk.execImageValidate (n : QueueId) : MemOk (s.after (execImageValidate n s)) := by
  unfold Machine.execImageValidate
  dsimp only
  refine .next ?_
  split
  · refine .ite hs ?_
    split
    · exact hs.refuseHead ..
    · exact hs.setQueue ..
    · exact hs
  · exact hs

theorem MemOk.execDependenceMet (n : QueueId) : MemOk (s.after (execDependenceMet n s)) := by
  unfold Machine.execDependenceMet
  dsimp only
  refine .next ?_
  split
  · refine .ite hs ?_
    split
    · exact hs.refuseHead ..
    · exact .ite (hs.setQueue ..) hs
  · exact hs

theorem MemOk.takeRegion (p : StackId × Nat) : MemOk (s.takeRegion p) := by
  unfold State.takeRegion
  dsimp only
  refine .ite hs ?_
  split
  · exact hs.setStack ..
  · exact hs

theorem MemOk.admitHead (n : QueueId) : MemOk (s.admitHead n) := by
  unfold State.admitHead
  dsimp only
  split
  · refine .ite hs ?_
    split
    · exact hs.refuseHead ..
    · exact .update (.setQueue (hs.foldl _ _ fun _ _ hu => hu.takeRegion _) ..)
  · exact hs

theorem MemOk.retire (n code : Nat) : MemOk (s.retire n code) := by
  unfold State.retire
  split
  · exact hs
  · refine .ite hs ?_
    extract_lets u v
    have hu : MemOk u := hs.setLaunch ..
    have hv : MemOk v := by
      unfold v
      split
      · exact .ite hu.update hu
      · exact hu
    exact hv.update.runJobs

theorem MemOk.updateWords (n : Nat) : MemOk (s.updateWords n) := by
  unfold State.updateWords
  dsimp only
  split
  · exact hs
  · exact .ite hs (.ite (hs.retire ..) (hs.putWords ..))

theorem MemOk.applyGrow (g : GrowMsg) : MemOk (s.applyGrow g) := by
  unfold State.applyGrow
  dsimp only
  split
  · exact hs
  · refine .ite hs ?_
    split
    · exact (hs.setLaunch ..).updateWords ..
    · exact .ite ((hs.setLaunch ..).updateWords ..) (hs.setLaunch ..)

theorem MemOk.execGrowApply (n : Nat) : MemOk (s.after (execGrowApply n s)) := by
  unfold Machine.execGrowApply
  refine .next ?_
  split
  · exact hs
  · exact .ite hs (hs.update.applyGrow ..)

theorem MemOk.applyGrows (launch : Nat) : MemOk (s.applyGrows launch) := by
  unfold State.applyGrows
  exact hs.update.foldl _ _ fun _ _ hu => hu.applyGrow _

theorem MemOk.countTrigger (launch : Nat) : MemOk (s.countTrigger launch) := by
  unfold State.countTrigger
  dsimp only
  split
  · exact ((hs.applyGrows ..).setLaunch ..).updateWords ..
  · exact hs.applyGrows ..

theorem MemOk.triggerCount (n : Nat) : MemOk (s.triggerCount n) := by
  unfold State.triggerCount
  split
  · exact hs
  · exact .ite hs (hs.update.countTrigger ..)

theorem MemOk.endLaunches (ctx : CtxId) (cause : Option Nat) : MemOk (s.endLaunches ctx cause) := by
  unfold State.endLaunches
  exact (hs.foldl _ _ fun _ _ hu => MemOk.ite ((hu.dropRecords ..).setQueue ..) hu).foldl _ _ fun _ _ hu => hu.retire ..

/-! ## Saves (R435 to R439) -/

theorem MemOk.putSlot (base n : Nat) (t : Task) : MemOk (s.putSlot base n t) := by
  have hf := t.fillSlot_wf n base s.mem hs
  unfold State.putSlot
  generalize t.fillSlot n base s.mem = m at hf
  exact hf

theorem MemOk.saveTask (t : Task) (redo : Bool) : MemOk (s.saveTask t redo).1 := by
  unfold State.saveTask
  dsimp only
  split
  · exact hs
  · exact .ite ((hs.setCtx ..).putSlot ..) (hs.setCtx ..)

theorem MemOk.clearWindows (c : CoreId) : MemOk (s.clearWindows c) := hs

theorem MemOk.spoilSaved {c : CoreId} {t : Task} {o : Nat} : ∀ u, s.spoilSaved c t o = some u → MemOk u := by
  unfold State.spoilSaved
  extract_lets win
  have hw (kind k : Nat) : MemOk (win kind k) := .ite hs hs.update
  clear_value win
  refine .ite_some .of_none (.ite_some ?_ (.ite_some (.of_some (hw ..)) (.ite_some (.of_some (hs.mapTaskOf ..))
    (.ite_some (.of_some (hw ..)) (.ite_some .of_none (.of_some (hw ..)))))))
  split
  · exact .of_some (hs.mapTaskOf ..)
  · exact .of_some hs

theorem MemOk.readSave (c : CoreId) (t : Task) : MemOk (s.readSave c t).1 := by
  unfold State.readSave
  split
  · exact hs
  · rename_i base n _
    have hf := t.fillSlot_wf n base s.mem hs
    generalize t.fillSlot n base s.mem = m at hf
    exact .ite_fst hf hf

/-! ## Placement (R85 to R103) -/

theorem MemOk.execPlaneLoadDone (core : CoreId) : MemOk (s.after (execPlaneLoadDone core s)) := by
  unfold Machine.execPlaneLoadDone
  dsimp only
  refine .next ?_
  split
  · split
    · exact hs.setCore ..
    · refine .ite (hs.soon ..) ?_
      split
      · exact hs.setCore ..
      · split
        · exact (hs.setCore ..).fatalFor ..
        · exact (hs.setCore ..).fatalFor ..
        · exact hs.setCore ..
  · exact hs

theorem MemOk.placeHolder (ag : Agent) : MemOk (s.placeHolder ag) := hs

theorem MemOk.enter (c : CoreId) (l : Launch) (x3 : Asg) : MemOk (s.enter c l x3).1 := by
  unfold State.enter
  dsimp only
  split
  · exact hs
  · exact (hs.unparkRegions ..).readSave ..

theorem MemOk.taskStart (c : CoreId) : MemOk (s.taskStart c) := by
  unfold State.taskStart
  dsimp only
  split
  · exact hs
  · split
    · exact hs
    · exact .ite hs
        (((((((((hs.clearWindows ..).enter ..).setCore ..).evictAllL1 ..).charge ..).setTask ..).acquire ..).reissueFe ..).placeHolder
          ..)

theorem MemOk.assign (st : StackId) (n : Nat) (l : Launch) (tc : BitVec 48) (team seq base r : Nat) :
    MemOk (s.assign st n l tc team seq base r) :=
  ((hs.setCore ..).placeHolder ..).taskStart ..

theorem MemOk.countHeld (st : StackId) (n : Nat) (tc : BitVec 48) (team : Nat) : MemOk (s.countHeld st n tc team) := by
  unfold State.countHeld
  split
  · exact hs
  · refine (hs.setLaunch ..).foldl _ _ fun _ _ hu => MemOk.getD ?_ fun _ => hu.countArrival
    split
    · exact hu.setLaunch ..
    · exact hu

theorem MemOk.retryHeld (n : Nat) : MemOk (s.retryHeld n) := by
  unfold State.retryHeld
  split
  · exact hs
  · refine hs.foldl _ _ fun _ _ hu => ?_
    split
    · exact hu.countHeld ..
    · exact hu

theorem MemOk.acceptTeam (st : StackId) (n : Nat) (l : Launch) (tc : BitVec 48) (base : Nat) :
    MemOk (s.acceptTeam st n l tc base) := by
  unfold State.acceptTeam
  exact ((hs.setStack ..).foldl _ _ fun _ _ hu => hu.assign ..).countHeld ..

theorem MemOk.offer {n : Nat} {l : Launch} {u : State} (e : s.offer n l = some u) : MemOk u := by
  unfold State.offer at e
  split at e
  · cases e
  · obtain ⟨⟨st, b⟩, -, rfl⟩ := Option.map_eq_some_iff.mp e
    dsimp only
    split
    · exact .ite ((hs.setLaunch ..).acceptTeam ..).update ((hs.setLaunch ..).acceptTeam ..).update
    · exact ((hs.setLaunch ..).acceptTeam ..).update

theorem MemOk.ageQueues : MemOk s.ageQueues := by
  unfold State.ageQueues
  exact hs.foldl _ _ fun _ _ hu => MemOk.ite (hu.setQueue ..) hu

theorem MemOk.issuedAt (e : Nat) (n : QueueId) : MemOk (s.issuedAt e n) := hs

theorem MemOk.holdFor (e : Nat) (n : QueueId) (k : Nat) (l : Launch) : MemOk (s.holdFor e n k l) := by
  unfold State.holdFor
  split
  · split
    · exact hs.update
    · exact hs
  · exact hs

theorem MemOk.decide_ (l : List (Nat × QueueId)) : MemOk (s.decide_ l) := by
  induction l generalizing s with
  | nil => exact hs
  | cons x l ih =>
    unfold State.decide_
    split
    · split
      · rename_i u e
        exact (hs.offer e).issuedAt ..
      · exact ih (hs.holdFor ..)
    · exact (hs.admitHead _).issuedAt ..

theorem MemOk.execLaunchAdmit (q : QueueId) : MemOk (s.after (execLaunchAdmit q s)) := by
  unfold Machine.execLaunchAdmit
  dsimp only
  refine .next ?_
  split
  · exact .ite ((hs.ageQueues.admitHead ..).issuedAt ..) hs
  · exact hs

/-! ## Arrivals at a home and at a stack -/

theorem MemOk.interlocked (c : CoreId) (n : Nat) : MemOk (s.interlocked c n) := by
  unfold State.interlocked
  dsimp only
  split
  · exact hs
  · split
    · exact hs
    · split
      · exact hs
      · split
        · exact ((hs.setTask ..).foldl _ _ fun _ _ hu => hu.joinOp ..).acquireAll ..
        · exact hs.setTask ..

theorem MemOk.writeSpillFault (st : StackId) (n : Nat) (p : Spill) : MemOk (s.writeSpillFault st n p) := by
  unfold State.writeSpillFault
  dsimp only
  split
  · exact hs.setStack ..
  · exact hs

theorem MemOk.writeHeldEvent (c : CoreId) : MemOk (s.writeHeldEvent c) := by
  unfold State.writeHeldEvent
  dsimp only
  split
  · exact hs
  · split
    · exact hs
    · refine .ite hs ?_
      split
      · exact (hs.setStack ..).setTask ..
      · exact hs

theorem MemOk.writeHeldFaults (st : StackId) : MemOk (s.writeHeldFaults st) := by
  unfold State.writeHeldFaults
  dsimp only
  refine MemOk.foldl ?_ _ _ fun _ _ hu => ?_
  · refine hs.foldl _ _ fun _ _ hu => ?_
    split
    · exact .ite (hu.writeSpillFault ..) hu
    · exact hu
  · exact hu.writeHeldEvent ..

theorem MemOk.freeFault (st : StackId) (ent : Nat) : MemOk (s.freeFault st ent) := (hs.setStack ..).writeHeldFaults ..

theorem MemOk.backAll (st : StackId) (ctx : CtxId) (ls : List Nat) : MemOk (s.backAll st ctx ls) := by
  unfold State.backAll
  exact hs.foldl _ _ fun _ _ hu => hu.needFrame ..

theorem MemOk.lowerResv (st : StackId) (ctx : CtxId) (k : Nat) : MemOk (s.lowerResv st ctx k) := by
  induction k generalizing s with
  | zero => exact hs
  | succ k ih =>
    unfold State.lowerResv
    split
    · refine .ite hs ?_
      split
      · exact hs
      · exact ih (hs.backAll ..)
    · exact hs

theorem MemOk.clearReleased (st : StackId) : MemOk (s.clearReleased st) := by
  unfold State.clearReleased
  exact hs.foldl _ _ fun _ _ hu => MemOk.ite hu (hu.setStack ..)

theorem MemOk.releasePages (ctx : CtxId) : MemOk (s.releasePages ctx) := by
  unfold State.releasePages
  dsimp only
  refine MemOk.foldl ?_ _ _ fun _ _ hu => ?_
  · refine hs.foldl _ _ fun _ _ hu => ?_
    split
    · exact hu
    · exact (hu.backAll ..).setStack ..
  · exact hu.clearReleased ..

theorem MemOk.unhold (leafPa : Nat) : MemOk (s.unhold leafPa) := hs

theorem MemOk.endSpill (st : StackId) (n : Nat) (p : Spill) : MemOk (s.endSpill st n p) :=
  (MemOk.ite ((hs.setStack ..).unhold ..) (((hs.setStack ..).unhold ..).freeFault ..)).clearReleased ..

theorem MemOk.spillProceed (st : StackId) (n : Nat) : MemOk (s.spillProceed st n) := by
  unfold State.spillProceed
  dsimp only
  split
  · exact hs
  · refine .ite (hs.endSpill ..) ?_
    split
    · exact hs
    · rename_i _ u e
      exact (((hs.takeFrame e).setStack ..).backPage ..).endSpill ..

theorem MemOk.poolPush (die : DieId) (z : Nat) (v : Word) : MemOk (s.poolPush die z v) := by
  unfold State.poolPush
  exact MemOk.ite hs hs.update

theorem MemOk.resvWrite (st : StackId) (e : Nat) (v : Word) : MemOk (s.resvWrite st e v) :=
  .ite hs (.ite ((hs.setStack ..).lowerResv ..) (hs.setStack ..))

theorem MemOk.execCarveoutPeriod (st : StackId) (gain loss : BitVec 16) : MemOk (s.after (execCarveoutPeriod st gain loss s)) :=
  .next (.ite hs (hs.setStack ..))

theorem MemOk.execCarveoutMoveDone (st : StackId) : MemOk (s.after (execCarveoutMoveDone st s)) := by
  unfold Machine.execCarveoutMoveDone
  dsimp only
  refine .next ?_
  split
  · exact (hs.setStack ..).trimL2 ..
  · exact hs

/-! ## The end of a task and of a context (R370, R428) -/

theorem MemOk.settleRec (c : CoreId) (t : Task) (st : StackId) (e : Nat) : MemOk (s.settleRec c t st e) := by
  unfold State.settleRec
  dsimp only
  split
  · exact hs
  · refine .ite hs ?_
    refine .ite (.ite (hs.deadDelivery ..) hs) ?_
    refine .ite (((hs.dropRegion ..).setStack ..).update) ?_
    refine .ite (.ite (hs.toRest ..) hs) ?_
    refine .ite ?_ (hs.setStack ..)
    refine .ite ((hs.dropRegion ..).setStack ..) ?_
    refine (MemOk.setStack ?_ ..).update
    refine .dropRegion ?_ ..
    split
    · exact hs.outsideEdge ..
    · exact hs

theorem MemOk.settleAll (c : CoreId) (t : Task) : MemOk (s.settleAll c t) := by
  unfold State.settleAll
  exact (hs.foldl _ _ fun _ _ hu => hu.settleRec ..).foldl _ _ fun _ _ hu => (hu.releaseFor ..).giveGrant ..

theorem MemOk.preCheck (st : StackId) : MemOk (s.preCheck st) := .ite (hs.setStack ..) hs

theorem MemOk.leaveTeam (st : StackId) (m : Nat) : MemOk (s.leaveTeam st m) := by
  unfold State.leaveTeam
  split
  · exact .ite (hs.setStack ..) (hs.setTeam ..)
  · exact hs

theorem MemOk.countFinish (launch : Nat) (coord : BitVec 48) (st : StackId) : MemOk (s.countFinish launch coord st) := by
  unfold State.countFinish
  dsimp only
  split
  · exact (((hs.applyGrows ..).charge ..).setLaunch ..).updateWords ..
  · exact (hs.applyGrows ..).charge ..

theorem MemOk.drainCore (c : CoreId) : MemOk (s.drainCore c) := (((hs.evictAllL1 ..).clearWindows ..).setCore ..).reposition ..

theorem MemOk.settleTask (c : CoreId) (t : Task) : MemOk (s.settleTask c t) := by
  unfold State.settleTask
  extract_lets u v
  have hu : MemOk u := (hs.unprotect ..).releaseFor ..
  have hv : MemOk v := hu.foldl _ _ fun _ _ hu => .ite hu (hu.joinOp ..)
  exact .ite hu ((hv.settleAll ..).mapTask ..)

theorem MemOk.finishTask (c : CoreId) (t : Task) : MemOk (s.finishTask c t) :=
  .ite hs (((((MemOk.ite hs (hs.countTrigger ..)).countFinish ..).leaveTeam ..).drainCore ..).preCheck ..)

theorem MemOk.taskRelease (c : CoreId) : MemOk (s.taskRelease c) := by
  unfold State.taskRelease
  dsimp only
  split
  · exact hs
  · refine .ite (hs.finishTask ..) ?_
    refine .ite hs ?_
    split
    · exact .ite ((hs.settleTask ..).finishTask ..) (hs.settleTask ..)
    · exact hs.settleTask ..

theorem MemOk.clearCtxToks (ctx : CtxId) (live : List Agent) (st : StackId) : MemOk (s.clearCtxToks ctx live st) := by
  unfold State.clearCtxToks
  exact (hs.setStack ..).foldl _ _ fun _ _ hu => MemOk.ite (hu.shareBack ..) (hu.putRest ..)

theorem MemOk.dropMessages (ctx : CtxId) : MemOk (s.dropMessages ctx) := hs

theorem MemOk.dropGrant (g : GrantS) : MemOk (s.dropGrant g) := by
  unfold State.dropGrant
  dsimp only
  refine .ite hs.update ?_
  split
  · exact hs.update.sendAfter ..
  · exact hs.update.send ..

theorem MemOk.clearGrants (ctx : CtxId) (live : List Agent) : MemOk (s.clearGrants ctx live) := by
  unfold State.clearGrants
  exact hs.foldl _ _ fun _ _ hu => hu.dropGrant ..

theorem MemOk.arriveAll (ctx : CtxId) (k : Nat) : MemOk (s.arriveAll ctx k) := by
  induction k generalizing s with
  | zero => exact hs
  | succ k ih =>
    unfold State.arriveAll
    split
    · exact ih (hs.phaseArrival _)
    · exact hs

theorem MemOk.triggerAll (ls : List Nat) (k : Nat) : MemOk (s.triggerAll ls k) := by
  induction k generalizing s with
  | zero => exact hs
  | succ k ih =>
    unfold State.triggerAll
    split
    · exact ih (hs.triggerCount _)
    · exact hs

theorem MemOk.performAll (ctx : CtxId) : MemOk (s.performAll ctx) := by
  unfold State.performAll
  exact (((((hs.foldl _ _ fun _ _ hu => hu.releaseData ..).applyAmos ..).feArriveWhere ..).arriveAll ..).foldl _ _ fun _ _ hu =>
    hu.applyGrows ..).triggerAll ..

theorem MemOk.forgetWriter (ctx : CtxId) : MemOk (s.forgetWriter ctx) := hs

theorem MemOk.endContext (ctx : CtxId) (cause : Option Nat) : MemOk (s.endContext ctx cause) := by
  unfold State.endContext
  exact ((((((((hs.performAll ..).endLaunches ..).dropMessages ..).forgetWriter ..).update).foldl _ _ fun _ _ hu =>
    hu.clearCtxToks ..).clearGrants ..).foldl _ _ fun _ _ hu => hu.reposition ..).foldl _ _ fun _ _ hu => hu.preCheck ..

theorem MemOk.fatalError (n : Nat) : MemOk (s.fatalError n) := by
  unfold State.fatalError
  dsimp only
  split
  · exact hs
  · exact .ite ((hs.update.logRecord ..).endContext ..) (.ite hs ((hs.update.count ..).interrupt ..))

/-! ## Preemption and debugging (R430 to R460) -/

theorem MemOk.faultPop (st : StackId) : MemOk (s.faultPop st) := by
  unfold State.faultPop
  dsimp only
  split
  · exact hs.setStack ..
  · exact hs

theorem MemOk.mapStackTasks (st : StackId) (f : Task → Task) : MemOk (s.mapStackTasks st f) := by
  unfold State.mapStackTasks
  exact (hs.foldl _ _ fun _ _ hu => hu.setCore ..).setStack ..

theorem MemOk.reply (st : StackId) (ctx : CtxId) (ent : Nat) (seq : BitVec 32) (refused : Bool) :
    MemOk (s.reply st ctx ent seq refused) := by
  unfold State.reply
  split
  · exact .ite ((hs.mapStackTasks ..).freeFault ..) hs
  · exact hs

theorem MemOk.replyEnd (st : StackId) (ctx : CtxId) (ent : Nat) (seq : BitVec 32) : MemOk (s.replyEnd st ctx ent seq) := by
  unfold State.replyEnd
  dsimp only
  split
  · exact .ite (hs.update.freeFault ..) hs
  · exact hs

theorem MemOk.freplyWrite (st : StackId) (v : Word) : MemOk (s.freplyWrite st v) := by
  unfold State.freplyWrite
  dsimp only
  split
  · exact hs.reply ..
  · exact hs.reply ..
  · exact hs.replyEnd ..
  · exact hs

theorem MemOk.withdrawFe (c : CoreId) (t : Task) : MemOk (s.withdrawFe c t) := hs

theorem MemOk.park (c : CoreId) (t : Task) : MemOk (s.park c t) := by
  unfold State.park
  split
  · exact hs.setTeam ..
  · exact hs

theorem MemOk.taskSuspend (c : CoreId) : MemOk (s.taskSuspend c) := by
  unfold State.taskSuspend
  split
  · exact hs
  · refine .ite hs ?_
    extract_lets st u
    have hu : MemOk u := hs.feArriveOwn ..
    split
    · exact hu
    · extract_lets errs v w
      have hv : MemOk v := .ite (hu.logSoft ..) hu
      exact .ite (((hu.logSoft ..).setCore ..).raiseFatal ..)
        (((((((hv.withdrawFe ..).flushL1 ..).saveTask ..).park ..).parkRegions ..).drainCore ..).preCheck ..)

theorem MemOk.holdNext (st : StackId) (teams : List Nat) (k : Nat) : MemOk (s.holdNext st teams k) := by
  unfold State.holdNext
  dsimp only
  split
  · refine .ite ?_ hs
    split
    · exact ((hs.saveTask ..).park ..).setCore ..
    · exact hs
  · exact .ite ((hs.park ..).setCore ..) hs
  · exact hs

theorem MemOk.holdTeams (st : StackId) (teams : List Nat) : MemOk (s.holdTeams st teams) := by
  unfold State.holdTeams
  exact (hs.mapStackTasks ..).foldl _ _ fun _ _ hu => hu.holdNext ..

theorem MemOk.preSuspend (st : StackId) (v : Word) : MemOk (s.preSuspend st v) :=
  .ite (hs.setStack ..) ((MemOk.ite (((hs.holdTeams ..).setStack ..).releasePages ..)
    ((hs.holdTeams ..).setStack ..)).preCheck ..)

theorem MemOk.preResume (st : StackId) (v : Word) : MemOk (s.preResume st v) :=
  .ite (hs.setStack ..) ((hs.mapStackTasks ..).setStack ..)

theorem MemOk.precmdWrite (st : StackId) (v : Word) : MemOk (s.precmdWrite st v) :=
  .ite (hs.setStack ..) (.ite hs (.ite ((hs.setStack ..).preResume ..) ((hs.setStack ..).preSuspend ..)))

theorem MemOk.teamResume (st : StackId) (m : Nat) : MemOk (s.teamResume st m) := by
  unfold State.teamResume
  dsimp only
  split
  · exact hs
  · exact .ite hs (((hs.setTeam ..).setStack ..).foldl _ _ fun _ _ hu => (hu.setCore ..).taskStart ..)

theorem MemOk.saveAreaCheck (ctx : CtxId) (v : Word) (linesOk : Bool) : MemOk (s.saveAreaCheck ctx v linesOk) :=
  .ite hs (hs.setCtx ..)

theorem MemOk.haltRequest (c : CoreId) : MemOk (s.haltRequest c) := .ite hs (hs.setCore ..)

theorem MemOk.debugHalt (c : CoreId) : MemOk (s.debugHalt c) := by
  unfold State.debugHalt
  dsimp only
  split
  · exact .ite hs (hs.setCore ..)
  · exact hs

theorem MemOk.debugResume (c : CoreId) : MemOk (s.debugResume c) := .ite (hs.setCore ..) hs

theorem MemOk.debugDataWrite (c : CoreId) (v : Word) : MemOk (s.debugDataWrite c v) := by
  unfold State.debugDataWrite
  dsimp only
  split
  · refine .ite hs ?_
    refine .ite ?_ (.ite (.ite (hs.setCtx ..) hs) (hs.setTask ..))
    split
    · exact hs.setTask ..
    · exact hs
  · exact hs

theorem MemOk.dbgctlWrite (c : CoreId) (v : Word) : MemOk (s.dbgctlWrite c v) :=
  .ite ((MemOk.ite ((hs.setCore ..).debugResume ..) (hs.setCore ..)).haltRequest ..)
    (.ite ((hs.setCore ..).debugResume ..) (hs.setCore ..))

/-! ## Recovery (R440 to R451) -/

theorem MemOk.putCapWords (a : Nat) (l : List Nat) : MemOk (s.putCapWords a l) := hs.putPhys ..

theorem MemOk.buildCaps : MemOk s.buildCaps := by
  unfold State.buildCaps
  exact hs.update.putCapWords ..

theorem MemOk.rewriteCap (id : Nat) : MemOk (s.rewriteCap id) := by
  unfold State.rewriteCap
  refine .ite hs ?_
  split
  · exact hs.putCapWords ..
  · exact hs

theorem MemOk.rewriteCaps : MemOk s.rewriteCaps := (hs.rewriteCap ..).interrupt ..

theorem MemOk.loseWhere (p : TokRec → Bool) : MemOk (s.loseWhere p) := by
  unfold State.loseWhere
  exact hs.foldl _ _ fun _ _ hu => hu.loseRegion ..

theorem MemOk.endTasks (c : CoreId) (code : Nat) (l : List (CtxId × Nat × BitVec 48)) : MemOk (s.endTasks c code l) := by
  unfold State.endTasks
  exact hs.foldl _ _ fun _ _ hu => MemOk.ite hu (hu.fatalFor ..)

theorem MemOk.fenceCore (c : CoreId) (u : ErrUnit) : MemOk (s.fenceCore c u) :=
  (((hs.setCore ..).logSoft ..).loseWhere ..).endTasks ..

theorem MemOk.endStackTasks (st : StackId) (code : Nat) (current : Bool) : MemOk (s.endStackTasks st code current) := by
  unfold State.endStackTasks
  exact hs.foldl _ _ fun _ _ hu => hu.endTasks ..

theorem MemOk.loseStack (st : StackId) : MemOk (s.loseStack st) := by
  unfold State.loseStack
  exact ((hs.foldl _ _ fun _ _ hu => (hu.dropEverywhere ..).freeLine ..).setStack ..).update

theorem MemOk.fenceStack (st : StackId) (u : ErrUnit) : MemOk (s.fenceStack st u) :=
  (((((hs.setStack ..).logSoft ..).loseWhere ..).loseStack ..).endStackTasks ..).rewriteCaps

theorem MemOk.fenceEngine (st : StackId) (e : Fin 2) : MemOk (s.fenceEngine st e) := by
  unfold State.fenceEngine
  extract_lets x k u y v w
  have hv : MemOk v := ((hs.setStack ..).logSoft ..).setStack ..
  have hw : MemOk w := hv.foldl _ _ fun _ _ hu => (hu.loseWhere ..).fatalFor ..
  exact .ite (hw.fenceStack ..) hw

theorem MemOk.addPoison (pa : Nat) : MemOk (s.addPoison pa) := by
  unfold State.addPoison
  exact MemOk.ite hs hs.update

theorem MemOk.strikeSave (c : CoreId) : MemOk (s.strikeSave c) := by
  unfold State.strikeSave
  dsimp only
  split
  · exact .ite (hs.setCore ..) hs
  · exact hs

theorem MemOk.spoilMem (pa : Nat) : MemOk (s.spoilMem pa) := by
  have hf := hs.foldl (s.savingInto pa) (fun u c => u.strikeSave c) fun _ _ hu => hu.strikeSave _
  unfold State.spoilMem
  refine (hf.addPoison pa).getD fun u e => ?_
  obtain ⟨x, -, e⟩ := List.exists_of_findSome?_eq_some e
  split at e
  · split at e
    · exact hf.spoilSaved u e
    · cases e
  · cases e

theorem MemOk.spoil (u : ErrUnit) : MemOk (s.spoil u) := by
  unfold State.spoil
  dsimp only
  split
  · exact hs.spoilMem ..
  · exact .ite (hs.soon ..) (hs.addPoison ..)
  · exact hs.addPoison ..
  · exact hs.mapTask ..
  · exact hs.mapTask ..
  · exact hs.mapTask ..
  · exact hs.setCore ..
  · exact hs.setCluster ..
  · exact hs.setStack ..
  · exact hs.setCore ..
  · exact hs.strikeSave ..
  · exact hs.soon ..
  · exact hs
  · exact hs
  · exact hs

theorem MemOk.softError (u : ErrUnit) (corrected : Bool) : MemOk (s.softError u corrected) := by
  unfold State.softError
  dsimp only
  refine .ite ?_ ?_
  · split
    · exact hs.update.mapTask ..
    · exact hs.update
  · refine .spoil ?_ ..
    split
    · exact hs.update.mapTask ..
    · exact hs.update

theorem MemOk.fenceUnit (u : ErrUnit) : MemOk (s.fenceUnit u) := by
  unfold State.fenceUnit
  split
  · exact .ite (hs.fenceStack ..) (hs.logSoft ..)
  · exact .ite (hs.fenceCore ..) (hs.fenceStack ..)
  · exact hs.fenceCore ..
  · exact hs.fenceCore ..
  · exact hs.fenceCore ..
  · exact hs.fenceCore ..
  · exact hs.fenceCore ..
  · exact hs.fenceCore ..
  · exact hs.fenceCore ..
  · exact hs.fenceCore ..
  · exact hs.fenceEngine ..
  · exact hs.fenceStack ..
  · exact hs.fenceStack ..
  · exact hs.fenceStack ..
  · exact hs.fenceStack ..

theorem MemOk.selfTestDone (u : ErrUnit) (passed : Bool) : MemOk (s.selfTestDone u passed) := by
  unfold State.selfTestDone
  dsimp only
  split
  · exact hs
  · refine .ite (MemOk.ite (hs.update.logSoft ..) hs.update) ?_
    split
    · exact hs.update.fenceUnit ..
    · exact .ite (hs.update.fenceUnit ..) (MemOk.ite (hs.update.logSoft ..) hs.update)

theorem MemOk.pushOps (st : StackId) : MemOk (s.pushOps st) := by
  unfold State.pushOps
  exact ((hs.foldl _ _ fun _ _ hu => hu.execCopyAccept ..).foldl _ _ fun _ _ hu =>
    (hu.execCopyStart ..).execCopyStart ..).foldl _ _ fun _ _ hu => (hu.execFollowOnCommit ..).execCopyComplete ..

theorem MemOk.finishOps (st : StackId) (k : Nat) : MemOk (s.finishOps st k) := by
  induction k generalizing s with
  | zero => exact hs
  | succ k ih => exact ih (hs.pushOps st)

theorem MemOk.mapTeam (st : StackId) (m : Nat) (f : Nat → Task → Task) : MemOk (s.mapTeam st m f) := by
  unfold State.mapTeam
  dsimp only
  split
  · exact (hs.foldl _ _ fun _ _ hu => hu.setCore ..).setTeam ..
  · exact hs.foldl _ _ fun _ _ hu => hu.setCore ..

theorem MemOk.markUnit (pa : Nat) (bad : BitVec 16) : MemOk (s.markUnit pa bad) := by
  unfold State.markUnit
  exact hs.foldl _ _ fun _ _ hu => MemOk.ite (hu.addPoison ..) hu

theorem MemOk.markHome (pa : Nat) (bad : BitVec 16) : MemOk (s.markHome pa bad) := by
  unfold State.markHome
  exact (hs.markUnit ..).update

theorem MemOk.restoreUnit (st : StackId) (m : Nat) (ctx : CtxId) (p : PreImage) : MemOk (s.restoreUnit st m ctx p) := by
  unfold State.restoreUnit
  dsimp only
  split
  · refine .ite ((hs.dropEverywhere ..).freeLine ..) ?_
    refine .markHome ?_ ..
    refine .putPhys ?_ ..
    refine .ite ?_ (hs.dropEverywhere ..)
    split
    · exact (hs.dropEverywhere ..).makeLive ..
    · exact hs.dropEverywhere ..
  · exact ((hs.mapTeam ..).unpoison ..).markUnit ..
  · exact ((hs.mapTeam ..).unpoison ..).markUnit ..

theorem MemOk.restoreToks (tm : Team) (cp : Checkpoint) : MemOk (s.restoreToks tm cp) := by
  unfold State.restoreToks
  dsimp only
  refine hs.update.foldl _ _ fun _ _ hu => ?_
  refine .ite hu ?_
  refine .ite (hu.setStack ..) ?_
  split
  · exact hu.setStack ..
  · exact hu.update

theorem MemOk.restoreObjs (st : StackId) (m : Nat) (tm : Team) (cp : Checkpoint) : MemOk (s.restoreObjs st m tm cp) := by
  unfold State.restoreObjs
  exact (hs.setStack ..).update

theorem MemOk.completeFull (st : StackId) (m : Nat) (cp : Checkpoint) : MemOk (s.completeFull st m cp) := by
  unfold State.completeFull
  exact hs.foldl _ _ fun _ _ hu => MemOk.ite (hu.completeInstance ..) hu

theorem MemOk.refollow (st : StackId) (cp : Checkpoint) : MemOk (s.refollow st cp) := by
  unfold State.refollow
  exact hs.foldl _ _ fun _ _ hu => MemOk.ite (hu.setStack ..) (hu.setStack ..)

theorem MemOk.replay (st : StackId) (m : Nat) : MemOk (s.replay st m) := by
  unfold State.replay
  extract_lets cores u v
  have hv : MemOk v := (hs.foldl _ _ fun _ _ hu => hu.releaseData ..).finishOps ..
  split
  · exact hv
  · split
    · exact hv
    · extract_lets now again ours x left fes w y z a b
      have hy : MemOk y := (hv.setStack ..).update.foldl _ _ fun _ _ hu => hu.restoreUnit ..
      have ha : MemOk a := (((hy.restoreToks ..).restoreObjs ..).refollow ..).mapTeam ..
      have hb : MemOk b := by
        unfold b
        split
        · exact ha.setTeam ..
        · exact ha
      exact (hb.completeFull ..).logSoft ..

theorem MemOk.dropClean (pa : Nat) : MemOk (s.dropClean pa) := by
  unfold State.dropClean
  exact hs.update.foldl _ _ fun _ _ hu => hu.logSoft ..

theorem MemOk.taskPoison (c : CoreId) (t : Task) (ec : Bool) (va detail : Word) : MemOk (s.taskPoison c t ec va detail) :=
  .ite (hs.replay ..) (.ite ((hs.logSoft ..).raiseFatal ..) (((hs.logSoft ..).fatalFor ..).mapTaskOf ..))

theorem MemOk.loadPoison (c : CoreId) (ec : Bool) (va detail : Word) : MemOk (s.loadPoison c ec va detail) := by
  unfold State.loadPoison
  split
  · exact hs
  · exact hs.taskPoison ..

theorem MemOk.copyPoison (st : StackId) (n : Nat) (ec : Bool) (pa : Nat) : MemOk (s.copyPoison st n ec pa) := by
  unfold State.copyPoison
  dsimp only
  split
  · exact hs
  · exact .ite ((hs.mapOp ..).replay ..) (((hs.mapOp ..).logSoft ..).fatalFor ..)

theorem MemOk.remoteFault (st : StackId) (n : Nat) : MemOk (s.remoteFault st n) := by
  unfold State.remoteFault
  split
  · exact hs
  · exact .ite hs ((hs.mapOp ..).fatalFor ..)

theorem MemOk.reloadPlane (c : CoreId) : MemOk (s.reloadPlane c) := by
  unfold State.reloadPlane
  dsimp only
  split
  · exact hs
  · split
    · exact hs
    · refine .ite (hs.soon ..) ?_
      split
      · exact (hs.setCore ..).logSoft ..
      · exact hs

theorem MemOk.poisonConsumed (x1 : PoisonUse) : MemOk (s.poisonConsumed x1) := by
  unfold State.poisonConsumed
  dsimp only
  split
  · exact hs.dropClean ..
  · exact hs.loadPoison ..
  · exact hs.loadPoison ..
  · exact hs.copyPoison ..
  · exact hs.copyPoison ..
  · exact .ite (hs.fenceCore ..) ((hs.setCore ..).logSoft ..)
  · exact .ite (hs.fenceCore ..) (hs.reloadPlane ..)
  · exact hs.addPoison ..
  · exact hs.logSoft ..
  · split
    · exact hs.taskPoison ..
    · exact hs
  · split
    · exact (hs.loseRegion ..).logSoft ..
    · exact hs

theorem MemOk.execPoisonConsumed (p : PoisonUse) : MemOk (s.after (execPoisonConsumed p s)) := .next (hs.poisonConsumed ..)

theorem MemOk.parkToks (st : StackId) : MemOk (s.parkToks st) := by
  unfold State.parkToks
  exact hs.foldl _ _ fun _ _ hu => (hu.putPhysNum ..).putPhysNum ..

theorem MemOk.unparkTok (st : StackId) (e : Nat) (r : TokRec) : MemOk (s.unparkTok st e r) :=
  .ite hs (.ite (hs.soon ..) (.ite (hs.setStack ..) (.ite hs (hs.setStack ..))))

theorem MemOk.unparkToks (st : StackId) : MemOk (s.unparkToks st) := by
  unfold State.unparkToks
  exact hs.foldl _ _ fun _ _ hu => hu.unparkTok ..

theorem MemOk.refuseRequest (core : CoreId) (launch : Nat) (coord : BitVec 48) (handle : Option Nat) :
    MemOk (s.refuseRequest core launch coord handle) := by
  unfold State.refuseRequest
  split
  · exact (hs.mapOp ..).soon ..
  · exact hs.soon ..

theorem MemOk.fenceLinks (st : StackId) : MemOk (s.fenceLinks st) := by
  unfold State.fenceLinks
  exact ((((hs.setStack ..).update).foldl _ _ fun _ _ hu => hu.refuseRequest ..).foldl _ _ fun _ _ hu =>
    hu.refuseRequest ..).foldl _ _ fun _ _ hu => hu.refuseRequest ..

theorem MemOk.backHomed (st : StackId) : MemOk (s.backHomed st) := by
  unfold State.backHomed
  exact hs.foldl _ _ fun _ _ hu => hu.backAll ..

theorem MemOk.clearCaches (st : StackId) : MemOk (s.clearCaches st) := by
  unfold State.clearCaches
  exact ((hs.foldl _ _ fun _ _ hu => hu.setCore ..).foldl _ _ fun _ _ hu => hu.setCluster ..).setStack ..

theorem MemOk.emptyCaches (st : StackId) : MemOk (s.emptyCaches st) := by
  unfold State.emptyCaches
  exact (((hs.foldl _ _ fun _ _ hu => (hu.flushL1 ..).flushCC ..).drain ..).foldl _ _ fun _ _ hu =>
    hu.evictL2 ..).clearCaches ..

theorem MemOk.resetGoesOn (st : StackId) : MemOk (s.resetGoesOn st) :=
  .ite hs (.ite hs (.ite (hs.backHomed ..) (((((hs.backHomed ..).fenceLinks ..).emptyCaches ..).parkToks ..).setStack ..)))

theorem MemOk.clearNext (st : StackId) (lost : List Nat) (k : Nat) : MemOk (s.clearNext st lost k) := by
  unfold State.clearNext
  dsimp only
  split
  · refine .ite (hs.endTasks ..) ?_
    split
    · exact ((hs.saveTask ..).park ..).setCore ..
    · exact hs
  · exact (hs.park ..).setCore ..
  · exact hs

theorem MemOk.resetQuiesce (st : StackId) (fen : Bool) : MemOk (s.resetQuiesce st fen) := by
  unfold State.resetQuiesce
  exact .ite hs ((((hs.setStack ..).foldl _ _ fun _ _ hu => hu.clearNext ..).foldl _ _ fun _ _ hu =>
    hu.mapTask ..).resetGoesOn ..)

theorem MemOk.resetNoQuiesce (st : StackId) (fen : Bool) : MemOk (s.resetNoQuiesce st fen) :=
  .ite hs ((((hs.setStack ..).loseStack ..).endStackTasks ..).clearCaches ..)

theorem MemOk.resetDone (st : StackId) : MemOk (s.resetDone st) := by
  unfold State.resetDone
  extract_lets u x v z w y
  have hu : MemOk u := hs.resetGoesOn ..
  have hv : MemOk v := .ite (hu.unparkToks ..) hu
  have hy : MemOk y := (hv.setStack ..).logSoft ..
  exact .ite hu (.ite (hy.fenceStack ..) hy)

theorem MemOk.strstWrite (st : StackId) (v : Word) : MemOk (s.strstWrite st v) :=
  .ite (hs.setStack ..) (.ite hs (.ite (hs.resetQuiesce ..) (hs.resetNoQuiesce ..)))

/-! ## What is outside the module (R471 to R489) -/

theorem MemOk.quiesceRequest (cl : ClusterId) (req : Bool) : MemOk (s.quiesceRequest cl req) := hs.setCluster ..

theorem MemOk.switchOff (cl : ClusterId) : MemOk (s.switchOff cl) := by
  unfold State.switchOff
  exact (((hs.foldl _ _ fun _ _ hu => (hu.flushL1 ..).flushCC ..).drain ..).setCluster ..).foldl _ _ fun _ _ hu => hu.setCore ..

theorem MemOk.powerCommand (cl : ClusterId) (tgt : BitVec 3) : MemOk (s.powerCommand cl tgt) :=
  .ite (hs.setCluster ..) (.ite (hs.setCluster ..) (.ite (hs.setCluster ..)
    ((MemOk.ite ((hs.catchUp ..).switchOff ..) (hs.catchUp ..)).setCluster ..)))

theorem MemOk.clusterWake (cl : ClusterId) : MemOk (s.clusterWake cl) :=
  .ite (.ite hs (hs.setCluster ..)) (.ite hs (hs.setCluster ..))

theorem MemOk.logicRestored (cl : ClusterId) : MemOk (s.logicRestored cl) := by
  unfold State.logicRestored
  exact .ite hs (.ite (hs.setCluster ..) (.ite hs (.ite ((hs.setCluster ..).update) (hs.setCluster ..))))

theorem MemOk.wakeRelock (cl : ClusterId) : MemOk (s.wakeRelock cl) := .ite (hs.setCluster ..) hs

theorem MemOk.transitionDone (cl : ClusterId) : MemOk (s.transitionDone cl) :=
  .ite hs (.ite (hs.setCluster ..) (.ite ((hs.setCluster ..).reposition ..) ((hs.setCluster ..).reposition ..)))

theorem MemOk.cpscmdWrite (cl : ClusterId) (v : Word) :
    MemOk (s.cpscmdWrite cl v) := .ite (hs.powerCommand ..) (hs.setCluster ..)

theorem MemOk.window8 (st : StackId) (o : Nat) (v : Word) : MemOk (s.window8 st o v) := by
  unfold State.window8
  dsimp only
  refine .ite ?_ ?_
  · split
    · exact hs.pointWrite ..
    · exact hs.pointWrite ..
    · exact hs.setCluster ..
  · refine .ite ?_ ?_
    · split
      · exact hs.quiesceRequest ..
      · exact hs.cpscmdWrite ..
      · exact .ite (hs.setCluster ..) hs
      · exact .ite (hs.clusterWake ..) hs
      · exact hs
    · refine .ite ?_ ?_
      · split
        · exact hs.dbgctlWrite ..
        · exact hs.setCore ..
        · exact hs.debugDataWrite ..
        · exact hs
      · split
        · exact (hs.setStack ..).drainLog ..
        · exact (hs.setStack ..).drainLog ..
        · exact (hs.setStack ..).drainLog ..
        · exact hs.faultPop ..
        · exact hs.setStack ..
        · exact hs.freplyWrite ..
        · exact hs.precmdWrite ..
        · exact hs.setStack ..
        · exact hs.strstWrite ..
        · exact hs.setStack ..
        · exact hs

theorem MemOk.windowAct (pa : Nat) (v : Word) : MemOk (s.windowAct pa v) := by
  unfold State.windowAct
  dsimp only
  split
  · exact .ite (hs.poolPush ..) hs
  · exact .ite (.ite (hs.execTokenRecordClear ..) hs) (.ite (hs.resvWrite ..) hs)
  · exact hs.window8 ..
  · exact hs

theorem MemOk.contextConfigure (ctx : CtxId) (v : Word) : MemOk (s.contextConfigure ctx v) := .ite hs (hs.setCtx ..)

theorem MemOk.ctxRegWrite (ctx : CtxId) (k : Nat) (v : Word) : MemOk (s.ctxRegWrite ctx k v) := by
  unfold State.ctxRegWrite
  dsimp only
  refine .ite hs ?_
  split
  · exact hs.setCtx ..
  · exact hs.setCtx ..
  · exact hs.setCtx ..
  · exact hs.setCtx ..
  · exact hs.setCtx ..
  · exact hs.setCtx ..
  · exact hs.saveAreaCheck ..
  · exact hs.setCtx ..
  · exact hs

theorem MemOk.repositionAll : MemOk s.repositionAll := by
  unfold State.repositionAll
  exact hs.foldl _ _ fun _ _ hu => hu.reposition ..

theorem MemOk.wdogWrite (m : Master) (v : Word) : MemOk (s.wdogWrite m v) := by
  unfold State.wdogWrite
  exact .ite hs (MemOk.ite (.ite hs.update hs.update.repositionAll) hs.update)

theorem MemOk.attestRequest (v : Word) : MemOk (s.attestRequest v) := by
  unfold State.attestRequest
  exact MemOk.ite hs hs.update

theorem MemOk.attestDone (err : Bool) : MemOk (s.attestDone err) := by
  unfold State.attestDone
  exact .ite hs (.ite hs.update (hs.update.putPhys ..))

theorem MemOk.unreachable (m : ModuleId) : MemOk (s.unreachable m) := by
  unfold State.unreachable
  dsimp only
  refine (((hs.loseWhere ..).foldl _ _ fun _ _ hu => hu.update.fatalFor ..).foldl _ _ fun _ _ hu =>
    hu.update.soon ..).foldl _ _ fun _ _ hu => ?_
  refine hu.foldl _ _ fun _ _ hu => ?_
  split
  · exact .ite ((hu.setStack ..).fatalFor ..) hu
  · exact hu

theorem MemOk.lostModules (before : State) : MemOk (s.lostModules before) := by
  unfold State.lostModules
  exact hs.foldl _ _ fun _ _ hu => hu.unreachable ..

theorem MemOk.setPort (p : Nat) (x : PortS) : MemOk (s.setPort p x) := by
  unfold State.setPort
  exact (hs.update.rewriteCap ..).lostModules ..

theorem MemOk.linkEnable (p : PortId) (en : Bool) : MemOk (s.linkEnable p en) := hs.setPort ..
theorem MemOk.routeWrite (m : ModuleId) (v : Word) : MemOk (s.routeWrite m v) := hs.congr (State.routeWrite_mem ..)
theorem MemOk.moduleUnreachable (m : ModuleId) : MemOk (s.moduleUnreachable m) := .ite (hs.setPort ..) (hs.unreachable ..)

theorem MemOk.grantBack (ctx : CtxId) (va : Nat) : MemOk (s.grantBack ctx va) := by
  unfold State.grantBack
  dsimp only
  split
  · exact hs
  · split
    · exact hs
    · split
      · exact .ite ((hs.setStack ..).toRest ..) (hs.setStack ..)
      · exact hs.setStack ..

theorem MemOk.addGrant (g : GrantMsg) (die : Option Nat) : MemOk (s.addGrant g die) := hs

theorem MemOk.grantReceive (g : GrantMsg) : MemOk (s.grantReceive g) := by
  unfold State.grantReceive
  refine .ite (hs.grantBack ..) ?_
  split
  · exact hs.addGrant ..
  · exact hs.update

theorem MemOk.grantTry {g : GrantMsg × Nat} {u : State} (e : s.grantTry g = some u) : MemOk u := by
  unfold State.grantTry at e
  split at e
  · cases e
    exact hs.update.addGrant ..
  · split at e
    · cases e
      exact hs.update
    · cases e

theorem MemOk.grantNext {u : State} (e : s.grantNext = some u) : MemOk u := by
  obtain ⟨g, -, e⟩ := List.exists_of_findSome?_eq_some e
  exact hs.grantTry e

theorem MemOk.acknowledge (r : RemoteArr) (outside : Bool) : MemOk (s.acknowledge r outside) := .ite (hs.send ..) hs

theorem MemOk.remoteArrival (r : RemoteArr) : MemOk (s.remoteArrival r) := by
  unfold State.remoteArrival
  split
  · exact hs.update
  · refine .ite (hs.acknowledge ..) ?_
    split
    · split
      · rename_i u e
        exact ((hs.unprotectTeam ..).countArrival e).acknowledge ..
      · exact hs.update
    · exact .ite (hs.acknowledge ..) ((hs.setLaunch ..).acknowledge ..)

theorem MemOk.inboxNext {u : State} (e : s.inboxNext = some u) : MemOk u := by
  obtain ⟨r, -, e⟩ := List.exists_of_findSome?_eq_some e
  dsimp only at e
  split at e
  · cases e
    exact hs.update.remoteArrival r
  · cases e

theorem MemOk.execArrivalAcknowledgement (n : Nat) (outside : Bool) :
    MemOk (s.after (execArrivalAcknowledgement n outside s)) := by
  unfold Machine.execArrivalAcknowledgement
  dsimp only
  split
  · exact .next hs
  · exact .next (MemOk.ite (hs.update.fatalFor ..) hs.update)

theorem MemOk.flitSend (h : Hop) (tr : Traffic) (pay : FlitPay) : MemOk (s.flitSend h tr pay) := by
  unfold State.flitSend
  exact MemOk.ite hs hs.update

theorem MemOk.flitTake (h : Hop) (vc : Fin 4) : MemOk (s.flitTake h vc) := by
  unfold State.flitTake
  dsimp only
  split
  · exact hs.update
  · exact hs

theorem MemOk.flitReceive (h : Hop) (f : BitVec 2048) : MemOk (s.flitReceive h f) := by
  unfold State.flitReceive
  exact .ite hs (MemOk.ite hs.update hs.update)

theorem MemOk.bringUp (ok : Bool) : MemOk (s.bringUp ok) := by
  unfold State.bringUp
  refine .ite hs ?_
  split
  · exact MemOk.ite hs.update hs.update
  · exact MemOk.ite hs.update hs.update
  · exact .ite hs.update hs
  · exact hs.update.buildCaps
  · exact hs

theorem MemOk.queueBlockWrite (m : Master) (o : Nat) (v : Word) : MemOk (s.queueBlockWrite m o v) := by
  unfold State.queueBlockWrite
  dsimp only
  refine .ite hs ?_
  refine .ite (hs.semWrite ..) ?_
  refine .ite hs.update ?_
  refine .ite ?_ hs
  split
  · exact hs.qcfgWrite ..
  · exact hs.execQueuePush ..
  · exact hs

theorem MemOk.moduleWrite (m : Master) (o : Nat) (v : Word) : MemOk (s.moduleWrite m o v) := by
  unfold State.moduleWrite
  refine .ite hs ?_
  refine .ite (hs.linkEnable ..) ?_
  refine .ite (hs.routeWrite ..) ?_
  refine .ite (hs.contextConfigure ..) ?_
  refine .ite (hs.ctxRegWrite ..) ?_
  split
  · exact MemOk.ite hs hs.update
  · exact hs.wdogWrite ..
  · exact hs.update
  · exact .ite (hs.attestRequest ..) hs
  · exact hs.update
  · exact hs.startDrop ..
  · exact hs

theorem MemOk.registerWrite (m : Master) (r : RegSpace) (o : Nat) (v : Word) : MemOk (s.registerWrite m r o v) := by
  unfold State.registerWrite
  split
  · exact hs.queueBlockWrite ..
  · exact hs.moduleWrite ..
  · exact .ite (hs.window8 ..) hs

/-! ## Fetch -/

theorem MemOk.latch (c : CoreId) (t : Task) (b : Bundle) (next : Nat) : MemOk (s.latch c t b next) := hs.setTask ..

theorem MemOk.fetchTask (c : CoreId) (img : Image) (t : Task) : MemOk (s.fetchTask c img t) := by
  unfold State.fetchTask
  dsimp only
  refine .ite (.ite hs (hs.raiseFatal ..)) ?_
  split
  · exact .ite hs (hs.raiseFatal ..)
  · exact .ite hs (hs.soon ..)
  · refine .ite ?_ ?_
    · refine .ite (.ite hs (hs.raiseFatal ..)) ?_
      split
      · exact .ite hs (hs.raiseFatal ..)
      · exact .ite hs (hs.soon ..)
      · exact hs.latch ..
    · refine .ite ?_ (.ite hs (hs.raiseFatal ..))
      refine .ite (.ite hs (hs.soon ..)) ?_
      split
      · exact hs.latch ..
      · exact .ite hs (hs.raiseFatal ..)

theorem MemOk.fetch (c : CoreId) : MemOk (s.fetch c) := by
  unfold State.fetch
  split
  · exact hs
  · split
    · exact .ite ((hs.fetchTask ..).fillTlb ..) hs
    · exact hs

end

end Sys2Proof
end

section
/-! PROOF. Memory in its canonical form: every meaning, every cycle and every step. -/

namespace Sys2Proof

open Machine

set_option Elab.async false

section
variable {s : State} (hs : MemOk s)
include hs

/-! ## A cycle of a cluster (R112, R123) -/

theorem MemOk.fillTok (c : CoreId) (t : Task) (l : Leaf) : MemOk (s.fillTok c t l) := by
  unfold State.fillTok
  dsimp only
  split
  · exact hs.setCore ..
  · exact hs

theorem MemOk.touch (c : CoreId) (t : Task) (va : Word) : MemOk (s.touch c t va) := by
  unfold State.touch
  split
  · exact (hs.fillTlb ..).fillTok ..
  · exact hs

/-! ## The meanings -/

/-- Every meaning: a syllable issues on its own task, or on the state; an event changes the state, or goes by its conditions. -/
theorem MemOk.exec (i : Instr) : MemOk (s.after (exec i s)) :=
  match i with
  | .xcp .. | .br .. | .brx .. | .call .. | .callx .. | .ret .. | .loop .. | .loopRot .. | .lpend .. | .lpbrk .. | .endTask .. |
    .tstamp .. | .rdcyc .. | .cli .. | .cmov .. | .cadd .. | .csub .. | .cand .. | .cor .. | .cxor .. | .ccmp .. | .pand .. |
    .por .. | .pxor .. | .pmov .. | .pset .. | .setld .. | .add .. | .sub .. | .mul .. | .mulh .. | .div .. | .rem .. |
    .and .. | .or .. | .xor .. | .andn .. | .shl .. | .shr .. | .sar .. | .rot .. | .min .. | .max .. | .abs .. | .neg .. |
    .cmp .. | .sel .. | .mov .. | .li .. | .lih .. | .lihHi .. | .bfx .. | .bfi .. | .clz .. | .ctz .. | .pcnt .. | .brev .. |
    .bswap .. | .lea .. | .sadd .. | .ssub .. | .madd .. | .ext .. | .clamp .. | .tst .. | .addc .. | .subb .. | .hmix .. |
    .align .. | .crc .. | .bset .. | .bclr .. | .bflip .. | .pack .. | .crd .. | .rank .. | .rankSz .. | .cbase .. | .argb .. |
    .locq .. | .locqSelf .. | .ctxid .. | .ctxidLid .. | .rdld .. | .rdrb .. | .vadd .. | .vsub .. | .vmul .. | .vfma .. |
    .vfms .. | .vfnma .. | .vmin .. | .vmax .. | .vabs .. | .vneg .. | .vfrcp .. | .vfsqrt .. | .vdiv .. | .vscl .. | .vcmp .. |
    .vsel .. | .vany .. | .vall .. | .kand .. | .kor .. | .kxor .. | .kmov .. | .vand .. | .vor .. | .vxor .. | .vandn .. |
    .vshl .. | .vshr .. | .vsar .. | .vmov .. | .vperm .. | .vshuf .. | .vrotl .. | .vbrev .. | .vzip .. | .vuzp .. |
    .vlane .. | .vli .. | .vcmul .. | .vbfly .. | .vconj .. | .vmulh .. | .vsadd .. | .vssub .. | .vdot .. | .vpcnt .. |
    .vcvt .. | .vqnt .. | .vdqnt .. | .vamax .. | .vred .. | .vcnt .. | .vpack4 .. | .vunpk4 .. | .vclz .. | .vrnd .. |
    .vclass .. | .vmadd .. | .vext .. | .vclamp .. | .vinsl .. | .kpop .. | .vsort2 .. | .vmaxi .. | .vmini .. | .vbcst .. |
    .vsgn .. | .vmerge .. | .vtrn .. | .vrev .. | .fence .. | .cbqry .. | .mmov .. | .xadd .. | .xli .. | .xmov .. | .cpyq .. |
    .phq .. | .yli .. | .ymov .. | .yadd .. =>
    hs.issue ..
  | .nop .. => .next hs
  | .svc .. => hs.issueS _ fun _ => (hs.raiseEvent ..).unprotect ..
  | .brk .. => hs.issueS _ fun _ => MemOk.ite (hs.setCore ..) ((hs.raiseEvent ..).unprotect ..)
  | .sysr .. => hs.issueS _ fun _ => MemOk.ite (hs.raiseFatal ..) (hs.setTask ..)
  | .sysw .. => hs.issueS _ fun _ => MemOk.ite (hs.raiseFatal ..) (hs.writeSreg ..)
  | .ld .. => hs.issueS _ fun _ => hs.loadTo ..
  | .st .. => hs.issueS _ fun _ => hs.storeFrom ..
  | .ldv .. => hs.issueS _ fun _ => hs.loadTo ..
  | .stv .. => hs.issueS _ fun _ => hs.storeFrom ..
  | .ldpi .. => hs.issueS _ fun _ => (hs.loadTo ..).stepBase ..
  | .stpi .. => hs.issueS _ fun _ => (hs.storeFrom ..).stepBase ..
  | .ldf .. => hs.issueS _ fun _ => hs.feLoad ..
  | .lde .. => hs.issueS _ fun _ => hs.feLoad ..
  | .ste .. => hs.issueS _ fun _ => hs.feStore ..
  | .stf .. => hs.issueS _ fun _ => hs.feStore ..
  | .clre .. => hs.issueS _ fun _ => hs.feStore ..
  | .gth .. => hs.issueS _ fun _ => hs.mgLoad ..
  | .sct .. => hs.issueS _ fun _ => hs.mgStore ..
  | .ldb .. => hs.issueS _ fun _ => hs.loadTo ..
  | .probe .. => hs.issueS _ fun _ => (hs.setTask ..).probeRun ..
  | .pref .. => hs.execPref ..
  | .disc .. => hs.execDisc ..
  | .cbdef .. => hs.execCbdef ..
  | .cbget .. => hs.execCbget ..
  | .cbput .. => hs.execCbput ..
  | .ldvs .. => hs.issueS _ fun _ => hs.mgLoad ..
  | .stvs .. => hs.issueS _ fun _ => hs.mgStore ..
  | .ldvm .. => hs.issueS _ fun _ => hs.mgLoad ..
  | .stvm .. => hs.issueS _ fun _ => hs.mgStore ..
  | .cpy .. => hs.issueS _ fun _ => hs.issueCopy ..
  | .cpymx .. => hs.execCpymx ..
  | .cpyMig .. => hs.issueS _ fun _ => hs.issueCopy ..
  | .cpyx .. => hs.issueS _ fun _ => hs.issueCopy ..
  | .mxfmt .. => hs.mxIssue _ _ _ fun _ _ => hs.putArr ..
  | .mxlen .. => hs.mxIssue _ _ _ fun _ _ => hs.putArr ..
  | .mxseed .. => hs.mxIssue _ _ _ fun _ _ => hs.putArr ..
  | .mxthr .. => hs.mxIssue _ _ _ fun _ _ => hs.putArr ..
  | .mxset .. => hs.mxIssue _ _ _ fun _ _ => hs.putArr ..
  | .mxgo .. => hs.mxIssue _ _ _ fun _ _ => hs.mxCommit ..
  | .mxgos .. => hs.mxIssue _ _ _ fun _ _ => hs.mxCommit ..
  | .mxgoa .. => hs.mxIssue _ _ _ fun _ _ => hs.mxCommit ..
  | .mxdrain .. => hs.mxIssue _ _ _ fun _ _ => hs.mxWait ..
  | .mxrd .. => hs.mxIssue _ _ _ fun _ _ => (hs.setTask ..).mxWait ..
  | .mxclr .. => hs.execMxclr ..
  | .mxsel .. => hs.mxIssue _ _ _ fun _ _ => hs.putArr ..
  | .mxst .. => hs.mxIssue _ _ _ fun _ _ => (hs.setTask ..).mxWait ..
  | .mxmute .. => hs.mxIssue _ _ _ fun _ _ => hs.putArr ..
  | .phase .. => hs.issueS _ fun _ => (hs.setCore ..).reposition ..
  | .mxstop .. => hs.execMxstop ..
  | .tklend .. => hs.execTklend ..
  | .tkret .. => hs.execTkret ..
  | .tksplit .. => hs.issueS _ fun _ => hs.onRegion _ _ _ _ fun _ => MemOk.ite (hs.tokFail ..)
      (.ite (hs.tokFail ..) (hs.giver _ _ _ _ _ _ fun _ => MemOk.ite (hs.tokFail ..) (.ite (hs.tokWait ..) (hs.tokFail ..))))
  | .tkjoin .. => hs.execTkjoin ..
  | .tkshr .. => hs.execTkshr ..
  | .tkunsh .. => hs.execTkunsh ..
  | .tkrcl .. => hs.issueS _ fun _ => hs.onRegion _ _ _ _ fun _ => hs.giver _ _ _ _ _ _ fun _ => hs.tokWait ..
  | .tkwait .. => hs.issueS _ fun _ => hs.tkwaitFor ..
  | .tkwaitSh .. => hs.issueS _ fun _ => hs.tkwaitFor ..
  | .tkqry .. => hs.issueS _ fun _ => MemOk.ite (hs.setTask ..) (hs.onRegion _ _ _ _ fun _ => hs.setTask ..)
  | .arrive .. => hs.issueS _ fun _ => hs.arriveAct ..
  | .arriveRel .. => hs.issueS _ fun _ => hs.arriveAct ..
  | .waitph .. => hs.execWaitph ..
  | .trig .. => hs.issueS _ fun _ => hs.trigger ..
  | .grow .. => hs.issueS _ fun _ => (hs.unprotect ..).update
  | .rmin .. => hs.issueS _ fun _ => hs.roundAct ..
  | .rmax .. => hs.issueS _ fun _ => hs.roundAct ..
  | .rsum .. => hs.issueS _ fun _ => hs.roundAct ..
  | .redf .. => hs.issueS _ fun _ => hs.roundAct ..
  | .amor .. => hs.issueS _ fun _ => hs.roundAct ..
  | .cas .. => hs.issueS _ fun _ => hs.roundAct ..
  | .amoAdd .. => hs.issueS _ fun _ => hs.amoAct ..
  | .amoMin .. => hs.issueS _ fun _ => hs.amoAct ..
  | .amoMax .. => hs.issueS _ fun _ => hs.amoAct ..
  | .amoAnd .. => hs.issueS _ fun _ => hs.amoAct ..
  | .amoOr .. => hs.issueS _ fun _ => hs.amoAct ..
  | .amoXor .. => hs.issueS _ fun _ => hs.amoAct ..
  | .phdef .. => hs.execPhdef ..
  | .fetch .. => .next (hs.fetch ..)
  | .taskRelease .. => .next (hs.taskRelease ..)
  | .feAccessArrival .. => .next (hs.feArrive ..)
  | .fenceComplete .. => hs.execFenceComplete ..
  | .copyAccept .. => hs.execCopyAccept ..
  | .copyStart .. => hs.execCopyStart ..
  | .copyComplete .. => hs.execCopyComplete ..
  | .followOnCommit .. => hs.execFollowOnCommit ..
  | .arrayStart .. => .next (hs.arrayStart ..)
  | .arrayStep .. => hs.execArrayStep ..
  | .arrayCommandEnd .. => hs.execArrayCommandEnd ..
  | .phaseWindowOpen .. => .next (hs.openWindow ..)
  | .phaseWindowEnd .. => .next (hs.reposition ..)
  | .tokenMessageArrival .. => .next (hs.tokArrive ..)
  | .tokenRecordClear .. => hs.execTokenRecordClear ..
  | .phaseArrival .. => .next (hs.phaseArrival ..)
  | .roundReceive .. => .next (hs.receiveRound ..)
  | .amoApply .. => .next (.ite ((MemOk.ite (hs.mergeAmo ..) hs).applyAmo ..) hs)
  | .triggerCount .. => .next (hs.triggerCount ..)
  | .growApply .. => hs.execGrowApply ..
  | .resultLand .. => .next (hs.mapTask ..)
  | .lateLoadArrival .. => .next (hs.mapTask ..)
  | .interlockedArrival .. => .next (hs.interlocked ..)
  | .writeAtHome .. => .next (.ite (hs.performWrite ..) hs)
  | .spillProceed .. => .next (hs.spillProceed ..)
  | .poolPush .. => .next (hs.poolPush ..)
  | .resvWrite .. => .next (hs.resvWrite ..)
  | .tlbinv .. => .next (hs.startDrop ..)
  | .carveoutPeriod .. => .next (.ite hs (hs.setStack ..))
  | .carveoutMoveDone .. => hs.execCarveoutMoveDone ..
  | .semAcquire .. => .next (hs.semWrite ..)
  | .semRelease .. => .next (hs.semWrite ..)
  | .semLeaseExpire .. => hs.execSemLeaseExpire ..
  | .dispatcherTakeover => hs.execDispatcherTakeover ..
  | .queueEnable .. => .next (hs.qcfgWrite ..)
  | .queueDisable .. => .next (hs.qcfgWrite ..)
  | .queueConfigure .. => .next (hs.qcfgWrite ..)
  | .queuePush .. => .next (hs.setQueue ..)
  | .launchRecordRead .. => hs.execLaunchRecordRead ..
  | .imageValidate .. => hs.execImageValidate ..
  | .dependenceMet .. => hs.execDependenceMet ..
  | .launchAdmit q => hs.execLaunchAdmit q
  | .issueDecision => .next (.ite (hs.ageQueues.decide_ ..) hs)
  | .taskStart .. => .next (hs.taskStart ..)
  | .planeLoadDone .. => hs.execPlaneLoadDone ..
  | .contextEnd .. => .next (hs.endContext ..)
  | .fatalContextError .. => .next (hs.fatalError ..)
  | .eltailWrite .. => .next ((hs.setStack ..).drainLog ..)
  | .faultPop .. => .next (hs.faultPop ..)
  | .freplyServiced .. => .next (hs.reply ..)
  | .freplyRefused .. => .next (hs.reply ..)
  | .freplyEndContext .. => .next (hs.replyEnd ..)
  | .preemptSuspend .. => .next (hs.precmdWrite ..)
  | .preemptSwapOutRelease .. => .next (hs.precmdWrite ..)
  | .preemptResume .. => .next (hs.precmdWrite ..)
  | .taskSuspend .. => .next (hs.taskSuspend ..)
  | .teamResume .. => .next (hs.teamResume ..)
  | .saveAreaCheck .. => .next (hs.saveAreaCheck ..)
  | .softError .. => .next (hs.softError ..)
  | .selfTestDone .. => .next (hs.selfTestDone ..)
  | .poisonConsumed .. => .next (hs.poisonConsumed ..)
  | .teamReplay .. => .next (.ite (hs.replay ..) hs)
  | .stackResetQuiesce .. => .next (hs.resetQuiesce ..)
  | .stackResetNoQuiesce .. => .next (hs.resetNoQuiesce ..)
  | .stackResetDone .. => .next (hs.resetDone ..)
  | .debugHaltRequest .. => .next (hs.haltRequest ..)
  | .debugHalt .. => .next (hs.debugHalt ..)
  | .debugResume .. => .next (hs.debugResume ..)
  | .debugDataWrite .. => .next (hs.debugDataWrite ..)
  | .deadlockWalk => .next (MemOk.ite (hs.enterWaits.update.walkCycles ..) hs.enterWaits.update)
  | .nakRetry .. => hs.execNakRetry ..
  | .droopAlarm .. => hs.execDroopAlarm ..
  | .stretchEnd .. => hs.execStretchEnd ..
  | .halfIssueWindowEnd .. => hs.execHalfIssueWindowEnd ..
  | .thermalTrip .. => .next ((hs.setCluster ..).interrupt ..)
  | .currentTrip .. => hs.execCurrentTrip ..
  | .tripClear .. => .next (hs.setCluster ..)
  | .clockSet .. => .next (hs.pointWrite ..)
  | .vsetWrite .. => .next (hs.pointWrite ..)
  | .relockDone .. => hs.execRelockDone ..
  | .watchdogKick .. => .next (hs.wdogWrite ..)
  | .watchdogExpire => hs.execWatchdogExpire ..
  | .registerWrite .. => .next (hs.registerWrite ..)
  | .contextConfigure .. => .next (hs.contextConfigure ..)
  | .clusterQuiesceRequest .. => .next (hs.quiesceRequest ..)
  | .clusterPowerCommand .. => .next (hs.powerCommand ..)
  | .clusterWake .. => .next (hs.clusterWake ..)
  | .clusterTransitionDone .. => .next (hs.transitionDone ..)
  | .pfSelect .. => .next hs.update
  | .attestRequest .. => .next (hs.attestRequest ..)
  | .attestDone .. => .next (hs.attestDone ..)
  | .linkEnable .. => .next (hs.linkEnable ..)
  | .linkUp .. => .next (.ite (hs.setPort ..) hs)
  | .routeWrite .. => .next (hs.routeWrite ..)
  | .moduleUnreachable .. => .next (hs.moduleUnreachable ..)
  | .remoteGrantReceive .. => .next (hs.grantReceive ..)
  | .remoteArrival .. => .next (hs.remoteArrival ..)
  | .flitReceive .. => .next (hs.flitReceive ..)
  | .flitReplay .. => .next hs.update
  | .campionReset .. => .next hs.update
  | .moduleReset => .next (MemOk.update (s := State.reset) rfl)
  | .bringUpStage .. => .next (hs.bringUp ..)
  | .tlbDropComplete .. => hs.execTlbDropComplete ..
  | .arrivalAcknowledgement .. => hs.execArrivalAcknowledgement ..

/-! ## A cycle of a cluster (R112, R123) -/

theorem MemOk.issueSyl (c : CoreId) (t : Task) (i : Instr) : MemOk (s.issueSyl c t i) := by
  unfold State.issueSyl
  dsimp only
  split
  · exact hs.fatalAt ..
  · exact .ite ((hs.exec ..).foldl _ _ fun _ _ hu => hu.touch ..) (hs.exec ..)

theorem MemOk.endIssue (c : CoreId) : MemOk (s.endIssue c) := by
  unfold State.endIssue
  dsimp only
  split
  · exact hs
  · exact .ite (hs.setTask ..) ((hs.setTask ..).count ..)

theorem MemOk.issueBundle (c : CoreId) (t : Task) (l : List Instr) : MemOk (s.issueBundle c t l) := by
  unfold State.issueBundle
  exact ((((((hs.setTask ..).update).foldl _ _ fun _ _ hu => hu.issueSyl ..).mapTask ..).count ..).charge ..).endIssue ..

theorem MemOk.idleCycle (c : CoreId) (t : Task) : MemOk (s.idleCycle c t) := (hs.setTask ..).endIssue ..

theorem MemOk.freeze (c : CoreId) (t : Task) (frz iq words : Bool) : MemOk (s.freeze c t frz iq words) := by
  unfold State.freeze
  extract_lets u v w
  have hu : MemOk u := .ite (hs.count ..) hs
  have hv : MemOk v := .ite (hu.count ..) hu
  have hw : MemOk w := .ite (hv.count ..) hv
  exact hw.charge ..

theorem MemOk.tryBundle (c : CoreId) (t : Task) (l : List Instr) (w : Nat) : MemOk (s.tryBundle c t l w).1 :=
  .ite_fst (hs.freeze ..) (hs.issueBundle ..)

theorem MemOk.dueCycle (c : CoreId) (t : Task) : MemOk (s.dueCycle c t).1 := by
  unfold State.dueCycle
  dsimp only
  split
  · exact .ite hs (hs.freeze ..)
  · refine .ite_fst (hs.freeze ..) ?_
    split
    · exact hs.raiseFatal ..
    · exact .ite_fst (hs.freeze ..) (.ite_fst (hs.soon ..) (.ite_fst (hs.raiseFatal ..) (hs.tryBundle ..)))

theorem MemOk.endCycle (c : CoreId) (t : Task) : MemOk (s.endCycle c t) := .ite (hs.count ..) ((hs.count ..).endIssue ..)

theorem MemOk.taskCycle (c : CoreId) (t : Task) : MemOk (s.taskCycle c t).1 := by
  unfold State.taskCycle
  dsimp only
  refine .ite_fst hs ?_
  refine .ite_fst (hs.endCycle ..) ?_
  refine .ite_fst (.ite (hs.freeze ..) (hs.idleCycle ..)) ?_
  split
  · exact (MemOk.ite hs (hs.fetch ..)).dueCycle ..
  · exact .ite hs (hs.fetch ..)

theorem MemOk.arrayWaits (c : CoreId) : MemOk (s.arrayWaits c) := by
  unfold State.arrayWaits
  split
  · exact .ite hs (hs.foldl _ _ fun _ _ hu => hu.mxTry ..)
  · exact hs

theorem MemOk.coreCycle (c : CoreId) : MemOk (s.coreCycle c) := by
  unfold State.coreCycle
  dsimp only
  split
  · exact .ite hs (hs.setCore ..)
  · exact (((hs.taskCycle ..).arrayWaits ..).setCore ..).mapTask ..

theorem MemOk.tryStart (c : CoreId) (a : Nat) : MemOk (s.tryStart c a) := by
  unfold State.tryStart
  dsimp only
  refine .ite ?_ hs
  refine .ite ?_ (hs.arrayStart ..)
  split
  · exact (hs.arrayStart ..).count ..
  · exact hs.arrayStart ..

theorem MemOk.heldArray (c : CoreId) (a : Nat) : MemOk (s.heldArray c a) := by
  unfold State.heldArray
  split
  · refine .ite ?_ hs
    split
    · exact hs
    · exact hs.count ..
  · exact hs

theorem MemOk.arrayCycle (c : CoreId) (a : Nat) : MemOk (s.arrayCycle c a) := by
  unfold State.arrayCycle
  dsimp only
  split
  · exact hs
  · refine .ite hs ?_
    split
    · exact hs
    · exact .ite (hs.tryStart ..) (.ite (hs.setTask ..) (.ite (hs.setTask ..)
        ((((hs.setTask ..).execArrayStep ..).execArrayCommandEnd ..).tryStart ..)))

theorem MemOk.leaseCare : MemOk s.leaseCare := by
  unfold State.leaseCare
  refine .ite hs ?_
  refine .ite hs.renewLease ?_
  split
  · exact .ite hs.renewLease hs
  · exact hs.renewLease

theorem MemOk.elapse (n : Nat) : MemOk (s.elapse n) := by
  unfold State.elapse
  exact hs.update.leaseCare

theorem MemOk.droopCycle (cl : ClusterId) : MemOk (s.droopCycle cl) :=
  .ite (hs.setCluster ..) (.ite ((hs.setCluster ..).execStretchEnd ..) (.ite ((hs.setCluster ..).execHalfIssueWindowEnd ..) hs))

theorem MemOk.windowCycle (cl : ClusterId) : MemOk (s.windowCycle cl) := ((hs.setCluster ..).openWindows ..).reposition ..

theorem MemOk.clusterCycle (cl : ClusterId) : MemOk (s.clusterCycle cl) := by
  unfold State.clusterCycle
  refine .ite hs ?_
  extract_lets u x v w y z
  have hy : MemOk y := (((hs.catchUp ..).elapse ..).setCluster ..).foldl _ _ fun _ _ hu => hu.coreCycle ..
  have hz : MemOk z := .ite (hy.foldl _ _ fun _ _ hu => (hu.heldArray ..).heldArray ..)
    (hy.foldl _ _ fun _ _ hu => (hu.arrayCycle ..).arrayCycle ..)
  exact (hz.droopCycle ..).windowCycle ..

/-! ## What goes on by itself -/

theorem MemOk.relockBy {a : Option Nat} {u : State} (e : s.relockBy a = some u) : MemOk u := by
  revert e
  unfold State.relockBy
  split
  · exact MemOk.ite_some (MemOk.of_some ((hs.elapse _).execRelockDone ..)) MemOk.of_none u
  · exact MemOk.of_none u

theorem MemOk.move (m : Move) : MemOk (s.after (s.move m)) := by
  cases m with
  | event i =>
    unfold State.move
    dsimp only
    split
    · exact hs
    · exact hs.exec i
  | cycle cl => exact .next (.ite (hs.clusterCycle cl) hs)
  | elapse n => exact .next (hs.elapse _)
  | delayLoad c n => exact .next (hs.mapTask ..)
  | delayFetch c => exact .next (hs.mapTask ..)
  | evictL1 c line => exact .next (hs.evictL1 ..)
  | evictCC cl line => exact .next (hs.evictCC ..)
  | poison p => exact hs.execPoisonConsumed p
  | logicRestored cl => exact .next (hs.logicRestored cl)
  | wakeRelock cl => exact .next (hs.wakeRelock cl)
  | remoteFault st n => exact .next (hs.remoteFault ..)
  | flitSend h vc pay => exact .next (hs.flitSend ..)
  | flitTake h vc => exact .next (hs.flitTake ..)
  | tlbEvict c n => exact .next (hs.setCore ..)
  | stackTlbEvict st n => exact .next (hs.setStack ..)
  | evictL2 st line => exact .next (hs.evictUnpinned ..)

theorem MemOk.firstOf {l : List (State → State)} {u : State} (hl : AllKeep l) (e : s.firstOf l = some u) : MemOk u := by
  induction l with
  | nil => cases e
  | cons f l ih =>
    obtain ⟨hf, hl⟩ := List.forall_mem_cons.mp hl
    unfold State.firstOf at e
    split at e
    · rename_i v hv
      unfold State.changed at hv
      split at hv
      · cases hv
      · cases hv
        cases e
        exact hf s hs
    · exact ih hl e

theorem MemOk.carvePeriodEnds (st : StackId) : MemOk (s.carvePeriodEnds st) := hs.execCarveoutPeriod ..

omit hs in
theorem timedOps_keep : AllKeep s.timedOps := by
  unfold State.timedOps
  exact .append (.ite .nil (.map fun _ _ hu => hu.carvePeriodEnds _)) (.ite (.one fun _ hu => hu.exec .deadlockWalk) .nil)

omit hs in
theorem urgentOps_keep : AllKeep s.urgentOps := by
  unfold State.urgentOps
  exact .append (.append (.append (.upTo fun _ _ hu => hu.fatalError _) timedOps_keep)
    (.map fun _ _ hu => hu.exec (.semLeaseExpire _))) (.ite (.one fun _ hu => hu.exec .watchdogExpire) .nil)

omit hs in
theorem tokOp_keep (n : Nat) : AllKeep (s.tokOp n) := by
  unfold State.tokOp
  split
  · exact .one fun _ hu => hu.exec (.nakRetry n)
  · exact .one fun _ hu => hu.tokArrive n
  · exact .nil

omit hs in
theorem messageOps_keep : AllKeep s.messageOps := by
  unfold State.messageOps
  refine .append (.append (.append (.append (.append (.append (.append (.append (.append (.append (.append (.append (.append
    (.upTo fun _ _ hu => hu.exec (.writeAtHome _)) (.flatMap fun n => ?arrival)) (.flatMap tokOp_keep))
    (.upTo fun _ _ hu => hu.phaseArrival _)) (.upTo fun _ _ hu => hu.receiveRound _))
    (.upTo fun _ _ hu => hu.exec (.amoApply _ false))) (.upTo fun _ _ hu => hu.exec (.triggerCount _)))
    (.upTo fun _ _ hu => hu.exec (.growApply _))) (.ite .nil (.one fun _ hu => hu.getD fun _ => hu.inboxNext)))
    (.ite .nil (.one fun _ hu => hu.getD fun _ => hu.grantNext))) (.map fun _ _ hu => hu.exec (.tlbDropComplete _)))
    (.upTo fun _ _ hu => hu.exec (.copyAccept _))) (.ite .nil (.one fun _ hu => hu.runJobs)))
    (.flatMap fun _ => .ite .nil (.one fun _ hu => hu.retryHeld _))
  case arrival =>
    split
    · exact .ite .nil (.one fun _ hu => hu.feArrive n)
    · exact .nil

omit hs in
theorem waitOp_keep (c : CoreId) (t : Task) (w : Wait) : AllKeep (waitOp c t w) := by
  unfold waitOp
  split
  · exact .one fun _ hu => hu.exec (.fenceComplete c)
  · exact .ite (.one fun _ hu => hu.probeRun ..) .nil
  · exact .nil
  · exact .one fun _ hu => hu.tokTry ..
  · exact .one fun _ hu => hu.tokTry ..
  · exact .one fun _ hu => hu.tokTry ..
  · exact .one fun _ hu => hu.tokTry ..
  · exact .one fun _ hu => hu.phaseTry ..
  · exact .nil
  · exact .nil
  · exact .nil
  · exact .nil
  · exact .one fun _ hu => hu.taskRelease c

omit hs in
theorem taskOps_keep (c : CoreId) (t : Task) : AllKeep (s.taskOps c t) := by
  unfold State.taskOps
  refine .append (.append (.append (.append (.append (.flatMap fun p => ?pending) (.flatMap (waitOp_keep c t)))
    (.ite (.upTo fun _ _ hu => hu.mapTask ..) .nil)) (.ite (.one fun _ hu => hu.fetch c) .nil))
    (.ite (.one fun _ hu => hu.taskSuspend c) .nil)) (.ite (.one fun _ hu => hu.debugHalt c) .nil)
  case pending =>
    split
    · exact .ite (.one fun _ hu => hu.interlocked ..) (.one fun _ hu => hu.cbServe ..)
    · exact .ite (.one fun _ hu => hu.interlocked ..) .nil

omit hs in
theorem coreOps_keep (e : Nat × CoreS) : AllKeep (s.coreOps e) := by
  unfold State.coreOps
  refine .append (.append ?current (.ite (.one fun _ hu => hu.exec (.planeLoadDone _)) .nil))
    (.ite (.one fun _ hu => hu.taskStart _) .nil)
  case current =>
    split
    · exact .ite .nil (taskOps_keep _ _)
    · exact .nil

omit hs in
theorem copyOps_keep (st : StackId) (n : Nat) (o : CopyOp) : AllKeep (copyOps st n o) := by
  have hstart (e : Fin 2) : Keeps (doing (execCopyStart st e n)) := fun _ hu => hu.exec (.copyStart st e n)
  unfold copyOps
  refine .append (.append ?start (.ite (.one fun _ hu => hu.exec (.followOnCommit st n)) .nil))
    (.one fun _ hu => hu.exec (.copyComplete st n))
  case start =>
    split
    · exact .append (.one (hstart 0)) (.one (hstart 1))
    · exact .ite (.one (hstart _)) .nil

omit hs in
theorem stackOps_keep (e : Nat × StackS) : AllKeep (stackOps e) := by
  unfold stackOps
  refine .append (.append (.append (.append (.append (.append (.flatMap fun n => ?copies)
    (.upTo fun _ _ hu => hu.spillProceed ..)) (.ite .nil (.one fun _ hu => hu.clearReleased _)))
    (.ite .nil (.one fun _ hu => hu.trimL2 _))) (.ite (.one fun _ hu => hu.exec (.carveoutMoveDone _)) .nil))
    (.ite (.one fun _ hu => hu.resetGoesOn _) .nil)) (.flatMap fun _ => .ite .nil (.one fun _ hu => hu.teamResume ..))
  case copies =>
    split
    · exact copyOps_keep _ _ _
    · exact .nil

omit hs in
theorem dispatcherOps_keep : AllKeep s.dispatcherOps := by
  have hq (q : QueueId) :
      AllKeep [doing (execLaunchRecordRead q), doing (execImageValidate q), doing (execDependenceMet q)] :=
    .append (.one fun _ hu => hu.exec (.launchRecordRead q))
      (.append (.one fun _ hu => hu.exec (.imageValidate q)) (.one fun _ hu => hu.exec (.dependenceMet q)))
  unfold State.dispatcherOps
  exact .append (.flatMap fun _ => .ite (.one fun _ hu => hu.updateWords _) .nil)
    (.ite .nil (.ite (.one fun _ hu => hu.exec .dispatcherTakeover)
      (.append (.flatMap fun _ => hq _) (.ite (.one fun _ hu => hu.exec .issueDecision) .nil))))

omit hs in
theorem ops_keep : AllKeep s.ops :=
  .append (.append (.append (.append urgentOps_keep messageOps_keep) (.flatMap coreOps_keep)) (.flatMap stackOps_keep))
    dispatcherOps_keep

theorem MemOk.goOn : MemOk s.goOn := by
  unfold State.goOn
  dsimp only
  split
  · rename_i u e
    exact hs.firstOf ops_keep e
  · split
    · rename_i u e
      exact hs.relockBy e
    · exact hs.update.clusterCycle ..

theorem MemOk.turn {u : State} (e : s.turn = .next u) : MemOk u := by
  unfold State.turn at e
  split at e
  · cases e
    exact hs.update.windowAct ..
  · split at e
    · rename_i m l _
      have hm := (hs.update (u := { s with agenda := l })).move m
      rw [e] at hm
      exact hm
    · cases e
      exact hs.goOn

theorem MemOk.upkeep : MemOk s.upkeep := hs.unmapStale.closeFull.sendWaiting.enterWaits

end

/-- Settles O23: a turn is a register write, a move of the agenda or what goes on by itself, and upkeep follows it. -/
theorem stepKeepsMemoryCanonical : Obligations.StepKeepsMemoryCanonical := by
  intro s t hs e
  obtain ⟨u, hu⟩ := s.turn_next
  rw [step, State.advance, hu, entered] at e
  cases e
  exact (hs.turn hu).upkeep

end Sys2Proof
end


section
/-! PROOF. Fences, hints, disc and probe (R249, R266 to R273). -/

namespace Sys2Proof.Machine

set_option Elab.async false

/-! ## Translation and the running task (R225, R227, R228) -/

/-- A page walk reads memory under the L2s and the record of the pages the device backed: no task. -/
theorem State.setTask_walk (s : State) (c : CoreId) (t : Task) (va tbl : Nat) :
    (s.setTask c t).walk va 4 tbl = s.walk va 4 tbl := rfl

theorem State.setTask_translateOn (s : State) (c d : CoreId) (t : Task) (ctx : CtxId) (va : Word) :
    (s.setTask c t).translateOn d ctx va = s.translateOn d ctx va := by
  have ht : ((s.setTask c t).core d).tlb = (s.core d).tlb := by
    rw [State.setTask_core_of]
    split
    · next h => rw [h]
    · rfl
  simp only [State.translateOn, State.setTask_walk, ht]
  rfl

theorem State.setTask_probeFrom (s : State) (c d : CoreId) (t : Task) (ctx : CtxId) (aux : BitVec 4) (e k a : Nat) :
    (s.setTask c t).probeFrom d ctx aux e k a = s.probeFrom d ctx aux e k a := by
  induction k generalizing a with
  | zero => rfl
  | succ k ih => simp only [State.probeFrom, State.setTask_translateOn, ih]

/-! ## Fences (R266, R267) -/

/-- A waiting fence acts once it is ready, and ends its wait unless something of its task is still held. -/
theorem execFenceComplete_of_waiting {s : State} {c : CoreId} {t : Task} {sc : Scope} {n : Nat} (ht : s.task? c = some t)
    (hw : t.waits.find? (fun w => match w with | .fence _ _ => true | _ => false) = some (.fence sc n)) :
    execFenceComplete c s = .next (if s.fenceReady c t = true then
      if (s.fenceAct c t sc).fenceHeld t = true then s.fenceAct c t sc
      else (s.fenceAct c t sc).mapTask c (fun t => { t with waits := t.waits.erase (.fence sc n) })
      else s) := by
  unfold execFenceComplete
  simp only [ht]
  split
  · next sc' n' h =>
    obtain ⟨rfl, rfl⟩ : sc' = sc ∧ n' = n := by simpa using Option.some.inj (h.symm.trans hw)
    split <;> rfl
  · next h => exact (h _ _ hw).elim

/-! ## Hints (R249, R272) -/

/-- A hint is dropped where its address has no mapping, or the mapping is of no cached line of memory. -/
theorem State.hintLeaf_eq (s : State) (c : CoreId) (ctx : CtxId) (va : Word) :
    s.hintLeaf c ctx va = match s.translateOn c ctx va with
      | .ok l =>
        if l.atom = true ∨ paWindow l.pa = true ∨ l.lclass = 0 ∨ (l.unb = true ∧ s.live.find (lineOf l.pa) = none) then none
        else some l
      | .error _ => none := by
  unfold State.hintLeaf
  cases s.translateOn c ctx va with
  | error e => rfl
  | ok l => simp [or_assoc]

/-! ## disc (R273) -/

theorem execDisc_of_admitted {f : FmtML} {s : State} {t : Task} (hi : Issues s t f.gd)
    (ha : (t.ea f).toNat % 128 = 0) (h0 : 0 < (t.srcM f.s2).toNat % 2 ^ 32) (hl : (t.srcM f.s2).toNat % 2 ^ 32 % 128 = 0)
    (hd : s.discError s.cur t false ((t.srcM f.s2).toNat % 2 ^ 32) ((t.srcM f.s2).toNat % 2 ^ 32 / 128) (t.ea f) = none) :
    execDisc f s = .next (s.discLines s.cur t ((t.srcM f.s2).toNat % 2 ^ 32 / 128) (t.ea f)) := by
  have hone : max 1 ((t.srcM f.s2).toNat % 2 ^ 32 / 128) = (t.srcM f.s2).toNat % 2 ^ 32 / 128 := max_eq_right (by omega)
  have hbad : ((t.ea f).toNat % 128 != 0 || (t.srcM f.s2).toNat % 2 ^ 32 == 0 ||
      (t.srcM f.s2).toNat % 2 ^ 32 % 128 != 0) = false := by
    rw [ha, hl]
    simpa using h0.ne'
  refine (s.issueS_of_issues t f.gd _ hi).trans (congrArg _ ?_)
  simp only [hbad, hone, hd]

/-! ## probe (R268 to R271) -/

/-- A task with an empty queue that issued a probe, with its result or without one. -/
def Task.probing (t : Task) (va len : Word) (aux : BitVec 4) (d : Dest) (v : Option Vec) : Task :=
  { t with
    nextPend := t.nextPend + 1
    pend := [⟨t.nextPend, d, .value, v, 0#7, t.regs.destDead d⟩]
    waits := t.waits ++ [.probe va len aux d] }

/-- The result of the only probe goes into its entry of the queue. -/
theorem Task.probing_give {t : Task} (hr : t.probeRefused = none) (va len : Word) (aux : BitVec 4) (d : Dest) (v : Vec) :
    { t.probing va len aux d none with
      probeRefused := none
      pend := (t.probing va len aux d none).pend.map (fun p => if p.id = t.nextPend then { p with val := some v } else p) } =
    t.probing va len aux d (some v) := by
  simp [Task.probing, hr]

/-- A probe of a task that no event holds and no refusal waits for is examined at once. -/
theorem State.probeRun_of_probing (s : State) (c : CoreId) {t : Task} (hr : t.probeRefused = none) (he : t.event = none)
    (va len : Word) (aux : BitVec 4) (d : Dest) :
    (s.setTask c (t.probing va len aux d none)).probeRun c va len aux d =
      match s.probeFrom c t.ctx aux (va.toNat + len.toNat % 2 ^ 32) (len.toNat % 2 ^ 32 / 4096 + 2) va.toNat with
      | .result w => s.setTask c (t.probing va len aux d (some (w.setWidth 1024)))
      | .missing pg => (s.setTask c (t.probing va len aux d none)).raiseEvent c (t.probing va len aux d none) 0
          (BitVec.ofNat 64 (pg.toNat % 2 ^ 56 + aux.toNat % 8)) := by
  have hq : (t.probing va len aux d none).probePend d = some ⟨t.nextPend, d, .value, none, 0#7, t.regs.destDead d⟩ := by
    simp [Task.probePend, Task.probing]
  have hr' : (t.probing va len aux d none).probeRefused = none := hr
  have he' : (t.probing va len aux d none).event.isSome = false := by simp [Task.probing, he]
  have hx : (t.probing va len aux d none).ctx = t.ctx := rfl
  simp only [State.probeRun, State.setTask_task_same, hq, hr', he', hx, State.setTask_probeFrom, State.setTask_setTask,
    Bool.false_eq_true, if_false]
  cases s.probeFrom c t.ctx aux (va.toNat + len.toNat % 2 ^ 32) (len.toNat % 2 ^ 32 / 4096 + 2) va.toNat with
  | result w => exact congrArg (s.setTask c) (Task.probing_give hr va len aux d _)
  | missing pg => rfl

theorem execProbe_of_quiet {f : FmtML} {s : State} {t : Task} (hi : Issues s t f.gd) (hp : t.pend = [])
    (hr : t.probeRefused = none) (he : t.event = none) :
    execProbe f s = .next (match s.probeFrom s.cur t.ctx f.aux ((t.ea f).toNat + (t.srcM f.s2).toNat % 2 ^ 32)
        ((t.srcM f.s2).toNat % 2 ^ 32 / 4096 + 2) (t.ea f).toNat with
      | .result w => s.setTask s.cur (t.probing (t.ea f) (t.srcM f.s2) f.aux (t.regs.dest .M f.d) (some (w.setWidth 1024)))
      | .missing pg => (s.setTask s.cur (t.probing (t.ea f) (t.srcM f.s2) f.aux (t.regs.dest .M f.d) none)).raiseEvent s.cur
          (t.probing (t.ea f) (t.srcM f.s2) f.aux (t.regs.dest .M f.d) none) 0
          (BitVec.ofNat 64 (pg.toNat % 2 ^ 56 + f.aux.toNat % 8))) := by
  have hq : { t.putPend (t.regs.dest .M f.d) .value none with
      waits := t.waits ++ [.probe (t.ea f) (t.srcM f.s2) f.aux (t.regs.dest .M f.d)] } =
      t.probing (t.ea f) (t.srcM f.s2) f.aux (t.regs.dest .M f.d) none := by
    simp [Task.probing, Task.putPend, hp]
  refine (s.issueS_of_issues t f.gd _ hi).trans (congrArg _ ?_)
  rw [← State.probeRun_of_probing s s.cur hr he, ← hq]

/-- Settles O46: each of them by what it does where it acts; the pages of a probe are those of the state that issued it. -/
theorem fencesHintsAndDiscard : Obligations.FencesHintsAndDiscard := by
  refine ⟨fun f => changesTask_of_issue fun s => rfl, ?fenceComplete, ?pref, fun f s t hi => execDisc_of_admitted hi, ?probe⟩
  case fenceComplete =>
    intro s c t sc n ht hw u
    refine (execFenceComplete_of_waiting ht hw).trans (congrArg _ ?_)
    cases s.fenceReady c t <;> simp [State.fenceHeld, u]
  case pref =>
    intro f s t hi
    refine (s.issueS_of_issues t f.gd _ hi).trans (congrArg _ ?_)
    rw [State.hintLeaf_eq]
    simp only [Task.ea]
    cases s.translateOn s.cur t.ctx (t.srcM f.s1 + f.off.signExtend 64) with
    | error e => rfl
    | ok l => dsimp only; split_ifs <;> rfl
  case probe =>
    intro f s t hi hp hr he
    exact execProbe_of_quiet hi hp hr he

end Sys2Proof.Machine
end

section
/-! PROOF. Circular buffers, the join of the operation that filled a slot, and the moves of the M slot (R247, R274 to R276). -/

namespace Sys2Proof.Machine

set_option Elab.async false

/-! ## cbdef (R274) -/

/-- A buffer may be defined anew while no slot of it is claimed, filled or held. -/
theorem CircBuf.busy_eq_false {x : CircBuf} (h : x.claim = [] ∧ x.filled = 0 ∧ x.held = 0) : x.busy = false := by
  obtain ⟨hc, hf, hh⟩ := h
  simp [CircBuf.busy, hc, hf, hh]

section
variable {f : FmtML} {s : State} {t : Task} (hi : Issues s t f.gd)
  (hb : ∀ x, t.cbs.find f.aux.toNat = some x → x.claim = [] ∧ x.filled = 0 ∧ x.held = 0) (hc : cbCfgOk (t.srcM f.s2) = true)
include hi hb hc

theorem execCbdef_of_count_zero (h0 : (t.srcM f.s2).toNat % 512 = 0) :
    execCbdef f s = .next (s.cbChange s.cur t f.aux.toNat none) := by
  refine (s.issueS_of_issues t f.gd _ hi).trans (congrArg _ ?_)
  cases ho : t.cbs.find f.aux.toNat with
  | none => simp [hc, h0, ho]
  | some x => simp [hc, h0, ho, CircBuf.busy_eq_false (hb x ho)]

theorem execCbdef_of_admitted {l : Leaf} (hn : 0 < (t.srcM f.s2).toNat % 512) (hl : s.translateOn s.cur t.ctx (t.ea f) = .ok l)
    (hw : paWindow l.pa = true) (hk : winKind l.pa = 0) (hp : winPlaceOk l.pa = true) (hown : winCoreId l.pa = s.cur)
    (hal : winOff l.pa % 128 = 0)
    (hend : winOff l.pa + (t.srcM f.s2).toNat % 512 * (128 * ((t.srcM f.s2).toNat / 2 ^ 16 % 1024)) ≤ 0x80000)
    (hmeet : ∀ e ∈ t.cbs, e.1 ≠ f.aux.toNat → rangesMeet e.2.off (e.2.count * e.2.size) (winOff l.pa)
      ((t.srcM f.s2).toNat % 512 * (128 * ((t.srcM f.s2).toNat / 2 ^ 16 % 1024))) = false) :
    execCbdef f s = .next (s.cbChange s.cur t f.aux.toNat (some ⟨t.ea f, winOff l.pa, 128 * ((t.srcM f.s2).toNat / 2 ^ 16 % 1024),
      (t.srcM f.s2).toNat % 512, (t.srcM f.s2).toNat % 512, 0, 0, 0, 0, [], 0⟩)) := by
  have hclash : t.cbs.any (fun e => e.1 != f.aux.toNat && rangesMeet e.2.off (e.2.count * e.2.size) (winOff l.pa)
      ((t.srcM f.s2).toNat % 512 * (128 * ((t.srcM f.s2).toNat / 2 ^ 16 % 1024)))) = false := by
    simp only [List.any_eq_false, Bool.and_eq_true, bne_iff_ne, not_and, Bool.not_eq_true]
    exact hmeet
  refine (s.issueS_of_issues t f.gd _ hi).trans (congrArg _ ?_)
  simp only [hc, hn.ne', hl, hw, hk, hp, hown, hal, hclash, Nat.not_lt.mpr hend]
  cases ho : t.cbs.find f.aux.toNat with
  | none => simp
  | some x => simp [CircBuf.busy_eq_false (hb x ho)]

end

/-! ## cbput, cbget and cbqry (R247, R275) -/

section
variable {f : FmtML} {s : State} {t : Task} {x : CircBuf} (hi : Issues s t f.gd) (hx : t.cbs.find f.aux.toNat = some x)
include hi hx

theorem execCbput_of_held (hh : 0 < x.held) : execCbput f s =
    .next (s.setTask s.cur { t with cbs := t.cbs.set f.aux.toNat { x with held := x.held - 1, free := x.free + 1 } }) := by
  refine (s.issueS_of_issues t f.gd _ hi).trans (congrArg _ ?_)
  simp only [hx, hh.ne', if_false]

theorem execCbget_of_defined : execCbget f s =
    .next ((s.setTask s.cur (t.putPend (t.regs.dest .M f.d) (.cbget f.aux.toNat) none)).cbServe s.cur f.aux.toNat) := by
  refine (s.issueS_of_issues t f.gd _ hi).trans (congrArg _ ?_)
  simp only [hx]

end

/-- The operation that filled the slot of a buffer which is next to be taken, while it is not joined. -/
def Task.filler (t : Task) (b : Nat) (x : CircBuf) : Option (Nat × TaskOp) :=
  t.ops.find? fun e => e.2.cb == some b && e.2.slot == some x.rd && e.2.done && !e.2.joined

/-- A task whose `cbget` has taken the next slot of its buffer. -/
def Task.takeSlot (t : Task) (b : Nat) (x : CircBuf) (d : Dest) : Task :=
  { t with
    nextPend := t.nextPend + 1
    pend := t.pend ++ [⟨t.nextPend, d, .cbget b, some ((x.base + BitVec.ofNat 64 (x.rd * x.size)).setWidth 1024), 0#7,
      t.regs.destDead d⟩]
    cbs := t.cbs.set b { x with filled := x.filled - 1, held := x.held + 1, rd := (x.rd + 1) % x.count } }

/-- Where no other `cbget` of the buffer waits, the one just issued is served. -/
theorem State.cbServe_of_filled {s : State} {c : CoreId} {t : Task} {b : Nat} {x : CircBuf} (d : Dest)
    (hx : t.cbs.find b = some x) (hf : 0 < x.filled) (hw : t.cbWaiter b = none) (hid : ∀ p ∈ t.pend, p.id < t.nextPend) :
    (s.setTask c (t.putPend d (.cbget b) none)).cbServe c b = match t.filler b x with
      | some (h, _) => (s.setTask c (t.takeSlot b x d)).joinOp c h
      | none => s.setTask c (t.takeSlot b x d) := by
  have hwait : (t.putPend d (.cbget b) none).cbWaiter b = some ⟨t.nextPend, d, .cbget b, none, 0#7, t.regs.destDead d⟩ := by
    rw [Task.cbWaiter] at hw
    simp [Task.cbWaiter, Task.putPend, List.find?_append, hw]
  have hx' : (t.putPend d (.cbget b) none).cbs.find b = some x := hx
  have hold (v : Option Vec) : t.pend.map (fun q => if q.id = t.nextPend then { q with val := v } else q) = t.pend :=
    (List.map_congr_left fun q hq => if_neg (hid q hq).ne).trans (List.map_id' _)
  have hlast (v : Option Vec) : (t.putPend d (.cbget b) none).pend.map (fun q => if q.id = t.nextPend then
      { q with val := v } else q) = t.pend ++ [⟨t.nextPend, d, .cbget b, v, 0#7, t.regs.destDead d⟩] := by
    simp only [Task.putPend, List.map_append, hold, List.map_singleton, if_true]
  simp only [State.cbServe, State.setTask_task_same, hx', hwait, hf.ne', if_false, hlast, State.setTask_setTask]
  cases hh : t.filler b x with
  | none => simp only [show List.find? _ (t.putPend d (.cbget b) none).ops = none from hh, Option.map_none]; rfl
  | some e => simp only [show List.find? _ (t.putPend d (.cbget b) none).ops = some e from hh, Option.map_some]; rfl

/-! ## The join of an operation (R285) -/

/-- What a join acquires drops clean lines and changes no task. -/
theorem State.acquire_task (s : State) (c : CoreId) {sc : Scope} (h : sc = .dv ∨ sc = .sy) :
    (s.acquire c sc).task? c = s.task? c := by
  have hd : (s.acquire c sc).core c = { s.core c with l1 := (s.core c).l1.filter (fun e => e.2.dirty != 0#128) } := by
    rcases h with rfl | rfl <;> exact State.setCore_core_same ..
  simp only [State.task?, hd]

theorem State.editToks_cores (s : State) (st : StackId) (f : TokRec → Option TokRec) : (s.editToks st f).cores = s.cores := rfl

/-- The lent regions and the shares that come back with a join change no core. -/
theorem State.foldl_editToks_cores {α : Type} (l : List α) (st : State → α → StackId) (g : α → TokRec → Option TokRec)
    (s : State) : (l.foldl (fun s r => s.editToks (st s r) (g r)) s).cores = s.cores :=
  State.foldl_keeps State.cores l _ (fun s r => s.editToks_cores (st s r) (g r)) s

theorem State.mapTask_task_same {s : State} {c : CoreId} {t : Task} (h : s.task? c = some t) (f : Task → Task) :
    (s.mapTask c f).task? c = some (f t) := by
  rw [State.mapTask_of_current h, State.setTask_task_same]

theorem State.joinOp_marks {s : State} {c : CoreId} {h : Nat} {t : Task} {o : TaskOp} (ht : s.task? c = some t)
    (ho : t.ops.find h = some o) : ∃ u, (s.joinOp c h).task? c = some u ∧ u.ops.find h = some { o with joined := true } := by
  simp only [State.joinOp, ht, ho]
  split
  · next hj => exact ⟨t, ht, by rw [ho, ← hj]⟩
  · generalize hv : List.foldl _ _ o.shared = v
    have hc : v.cores = s.cores := hv ▸ (State.foldl_editToks_cores _ (fun s (r : Nat × Nat) => s.sliceOf r.1) _ _).trans
      (State.foldl_editToks_cores _ (fun s (r : Nat × Nat) => s.sliceOf r.1) _ _)
    refine ⟨{ t with ops := t.ops.set h { o with joined := true } }, ?_, Tab.find_set_same ..⟩
    rw [State.acquire_task _ _ (by split <;> simp)]
    refine State.mapTask_task_same (t := t) ?_ _
    exact (congrArg CoreS.live (State.core_of_cores hc c)).trans ht

/-- Settles O47: each form by what it does where it is admitted; the `cbget` that is served is the one just put in the queue. -/
theorem circularBuffersAndMemorySlotMoves : Obligations.CircularBuffersAndMemorySlotMoves := by
  refine ⟨?cbdef, ?cbufs, fun s c h t o => State.joinOp_marks, ?absent, fun f => changesTask_of_issue fun s => rfl,
    fun f => changesTask_of_issue fun s => ?xadd, fun f => changesTask_of_issue fun s => rfl,
    fun f => changesTask_of_issue fun s => rfl⟩
  case cbdef =>
    intro f s t l hi b v va count size s' hb hc
    exact ⟨execCbdef_of_count_zero hi hb hc, execCbdef_of_admitted hi hb hc⟩
  case cbufs =>
    intro f s t x hi hx
    refine ⟨execCbput_of_held hi hx, ?get, ?word⟩
    case get =>
      intro hf hw hid d u filler
      have hget := (execCbget_of_defined hi hx).trans (congrArg _ (State.cbServe_of_filled (t.regs.dest .M f.d) hx hf hw hid))
      exact ⟨fun h o hh => hget.trans (by rw [show t.filler f.aux.toNat x = some (h, o) from hh]; rfl),
        fun hh => hget.trans (by rw [show t.filler f.aux.toNat x = none from hh]; rfl)⟩
    case word =>
      refine (s.issue_of_issues t f.gd _ hi).trans ?_
      simp [hx, CircBuf.word, pack64]
  case absent =>
    intro f s t hi hx
    refine (s.issue_of_issues t f.gd _ hi).trans ?_
    simp only [hx]
  case xadd =>
    have hadd (v : Word) : v + f.imm.signExtend 64 = BitVec.ofInt 64 (v.toNat + f.imm.toInt) := by
      rw [BitVec.ofInt_add]
      simp [BitVec.signExtend]
    simp only [← hadd]
    rfl

end Sys2Proof.Machine
end

section
/-! PROOF. A store to a cached line that is lost where backing frames overlap the line names of the pages they back (R236, R245,
R246, R496). -/

namespace Sys2Proof.Machine

set_option Elab.async false

/-! ## The state: two leaves map one unbacked page, and poison lies in its first line -/

/-- The tag of a write to the unbacked page through the leaf entry at an address, with a home stack. -/
def leafTag (home : StackId) (leafPa : Nat) : WrTag := ⟨0, 0, 0, 0#48, home, leafPa, true, 0#64, 0, 0#32, none⟩

/-- The first and the second line of the unbacked page with name 2^50. -/
def firstLine : Nat := 2 ^ 43
def secondLine : Nat := 2 ^ 43 + 1

/-- The lines the cluster cache holds of that page, and the dirty line that the L1 holds of another. -/
def secondCopy : Line := ⟨0#1024, 0#128, 0#4, some (leafTag 0 0x1000), 0#16⟩
def firstCopy : Line := ⟨0#1024, 0#128, 0#4, some (leafTag 1 0x2000), 0#16⟩
def dirtyCopy : Line := ⟨0#1024, 1#128, 0#4, none, 0#16⟩

/-- The same page behind the leaf entries at 0x1000 and 0x2000, both UNB and LATE; the pool's first frame is the page itself, one
line further on. The caches of core 0 and its cluster, the posted writes and the count of evictions are given. -/
def twoLeaves (free : Nat) (l1 cc : Tab Line) (posts : List PWrite) : State :=
  { State.reset with
    mem := [(0x1000, 1#8), (0x1001, 1#8), (0x1006, 0x84#8), (0x2000, 1#8), (0x2001, 1#8), (0x2006, 0x84#8)]
    poison := [2 ^ 50]
    pools := [(poolKey 0 0, [BitVec.ofNat 52 (2 ^ 50 + 128), 0x100000#52])]
    cores := [(0, { CoreS.reset with l1 := l1 })]
    clusters := [(0, { ClusterS.reset with cc := cc })]
    free := free
    pwrites := posts }

/-- What an eviction of a line without touch bits posts. -/
def postedCopy (k : Nat) (x : Line) (w : WrTag) : PWrite :=
  ⟨128 * k, maskedBytes x.data x.dirty, w, false, false, [], false, x.bad⟩

/-- The copy of that dirty line in the cluster cache, once the L1 has given it up. -/
def cleanedCopy : Line := ⟨mergeBytes 0#1024 0 (maskedBytes 0#1024 1#128), 1#128, 1#4, none, 0#16⟩

/-! ## A full cache gives up a line before it is filled (R236) -/

theorem State.roomCC_of_short {s : State} {cl : ClusterId} (h : (s.cluster cl).cc.length < ccRoom) : s.roomCC cl = s := if_pos h

theorem State.roomL1_of_short {s : State} {c : CoreId} (h : (s.core c).l1.length < l1Room) : s.roomL1 c = s := if_pos h

/-- Filling a line that a cluster cache does not hold is filling it once there is room. -/
theorem State.fillCC_of_room {s u : State} {w : WrTag} {line : Nat} (hr : s.roomCC (clusterOf w.core) = u)
    (hs : (s.cluster (clusterOf w.core)).cc.find line = none) (hu : (u.cluster (clusterOf w.core)).cc.find line = none)
    (hl : (u.cluster (clusterOf w.core)).cc.length < ccRoom) : s.fillCC w line = u.fillCC w line := by
  simp only [State.fillCC, hs, hu, hr, State.roomCC_of_short hl]

/-- The same of an L1, whose line comes through the cluster cache. -/
theorem State.fillL1_of_room {s u v : State} {w : WrTag} {line : Nat} (hr : s.roomL1 w.core = u)
    (hf : u.fillCC w line = v.fillCC w line) (hs : (s.core w.core).l1.find line = none)
    (hv : (v.core w.core).l1.find line = none) (hl : (v.core w.core).l1.length < l1Room) :
    s.fillL1 w line = v.fillL1 w line := by
  simp only [State.fillL1, hs, hv, hr, hf, State.roomL1_of_short hl]

/-- A store to a line goes through the fill of the line alone. -/
theorem State.writeLine_of_fill {s u : State} {w : WrTag} {pa : Nat} (h : s.fillL1 w (lineOf pa) = u.fillL1 w (lineOf pa))
    (bytes : List (Option Byte)) : s.writeLine w pa bytes false = u.writeLine w pa bytes false := by
  simp only [State.writeLine, h, Bool.false_eq_true, if_false]

/-! ## A cluster cache full of copies of one line, with another among them -/

/-- Entries of the first line, with another entry after the first `m` of them. -/
def amid (m k : Nat) (e : Nat × Line) : Tab Line :=
  List.replicate m (firstLine, firstCopy) ++ e :: List.replicate k (firstLine, firstCopy)

theorem amid_length (m k : Nat) (e : Nat × Line) : (amid m k e).length = m + k + 1 := by
  simp [amid]; omega

theorem amid_getElem_same (m k : Nat) (e : Nat × Line) : (amid m k e)[m]? = some e := by
  simp [amid]

theorem amid_getElem_of_ne {m k j : Nat} (e : Nat × Line) (h : j ≠ m) (hj : j < m + k + 1) :
    (amid m k e)[j]? = some (firstLine, firstCopy) := by
  rcases Nat.lt_or_gt_of_ne h with hl | hg
  · simp [amid, List.getElem?_append, hl]
  · obtain ⟨d, rfl⟩ : ∃ d, j = m + (d + 1) := ⟨j - m - 1, by omega⟩
    have hd : d < k := by omega
    simp [amid, hd]

theorem find_replicate_append (m k a : Nat) (x : Line) (t : Tab Line) (h : a ≠ k) :
    Tab.find (List.replicate m (k, x) ++ t) a = t.find a := by
  induction m with
  | zero => rfl
  | succ m ih => rw [List.replicate_succ, List.cons_append, Tab.find, if_neg h, ih]

theorem amid_find_same (m k : Nat) {a : Nat} (x : Line) (h : a ≠ firstLine) : (amid m k (a, x)).find a = some x := by
  rw [amid, find_replicate_append _ _ _ _ _ h, Tab.find, if_pos rfl]

theorem amid_find_of_ne (m k : Nat) {a b : Nat} (x : Line) (hb : b ≠ firstLine) (h : b ≠ a) : (amid m k (a, x)).find b = none := by
  rw [amid, find_replicate_append _ _ _ _ _ hb, Tab.find, if_neg h, ← List.append_nil (List.replicate k _),
    find_replicate_append _ _ _ _ _ hb, Tab.find]

theorem amid_find_first (m k : Nat) {a : Nat} (x : Line) (h : a ≠ firstLine) (hk : 0 < m + k) :
    (amid m k (a, x)).find firstLine = some firstCopy := by
  cases m with
  | succ m => rw [amid, List.replicate_succ, List.cons_append, Tab.find, if_pos rfl]
  | zero =>
    obtain ⟨k, rfl⟩ : ∃ j, k = j + 1 := ⟨k - 1, by omega⟩
    rw [amid, List.replicate_zero, List.nil_append, Tab.find, if_neg h.symm, List.replicate_succ, Tab.find, if_pos rfl]

theorem amid_drop_same (m k : Nat) {a : Nat} (x : Line) (h : a ≠ firstLine) :
    (amid m k (a, x)).drop a = List.replicate (m + k) (firstLine, firstCopy) := by
  simp [amid, Tab.drop, List.filter_append, h.symm]

theorem amid_drop_first (m k : Nat) {a : Nat} (x : Line) (h : a ≠ firstLine) : (amid m k (a, x)).drop firstLine = [(a, x)] := by
  simp [amid, Tab.drop, List.filter_append, h]

theorem drop_replicate (n k : Nat) (x : Line) : Tab.drop (List.replicate n (k, x)) k = [] := by simp [Tab.drop]

/-- A lower line goes before them, a higher one behind. -/
theorem set_replicate_low (n : Nat) {a : Nat} (x : Line) (h : a < firstLine) :
    Tab.set (List.replicate n (firstLine, firstCopy)) a x = amid 0 n (a, x) := by
  cases n with
  | zero => rfl
  | succ n => rw [List.replicate_succ, Tab.set, if_pos h]; rfl

theorem set_replicate_high (n : Nat) {a : Nat} (x : Line) (h : firstLine < a) :
    Tab.set (List.replicate n (firstLine, firstCopy)) a x = amid n 0 (a, x) := by
  induction n with
  | zero => rfl
  | succ n ih => rw [List.replicate_succ, Tab.set, if_neg (by omega), if_neg (by omega), ih]; rfl

/-! ## The two evictions -/

theorem State.roomCC_of_full {s : State} {cl : ClusterId} {e : Nat × Line} (h : ccRoom ≤ (s.cluster cl).cc.length)
    (he : (s.cluster cl).cc[Config.cacheVictim s.free % (s.cluster cl).cc.length]? = some e) :
    s.roomCC cl = { s with free := s.free + 1 }.evictCC cl e.1 := by
  simp only [State.roomCC, Nat.not_lt.mpr h, if_false, he]

theorem State.roomL1_of_full {s : State} {c : CoreId} {e : Nat × Line} (h : l1Room ≤ (s.core c).l1.length)
    (he : (s.core c).l1[Config.cacheVictim s.free % (s.core c).l1.length]? = some e) :
    s.roomL1 c = { s with free := s.free + 1 }.evictL1 c e.1 := by
  simp only [State.roomL1, Nat.not_lt.mpr h, if_false, he]

theorem twoLeaves_cleanCC {free k : Nat} {l1 cc : Tab Line} {posts : List PWrite} {x : Line} {t : WrTag} (hx : cc.find k = some x)
    (hw : x.wr = some t) (ht : x.touch = 0#4) :
    (twoLeaves free l1 cc posts).cleanCC 0 k =
      twoLeaves free l1 (cc.set k { x with dirty := 0#128, wr := none }) (posts ++ [postedCopy k x t]) := by
  have hc : ((twoLeaves free l1 cc posts).cluster 0).cc = cc := rfl
  simp only [State.cleanCC, hc, hx, hw, ht]
  rfl

theorem twoLeaves_evictCC {free k : Nat} {l1 cc : Tab Line} {posts : List PWrite} {x : Line} {t : WrTag} (hx : cc.find k = some x)
    (hw : x.wr = some t) (ht : x.touch = 0#4) :
    (twoLeaves free l1 cc posts).evictCC 0 k = twoLeaves free l1 (cc.drop k) (posts ++ [postedCopy k x t]) := by
  rw [State.evictCC, twoLeaves_cleanCC hx hw ht, ← Tab.drop_set cc k { x with dirty := 0#128, wr := none }]
  rfl

/-- The full cluster cache gives up a line that it was to write back. -/
theorem twoLeaves_roomCC {free k : Nat} {l1 cc : Tab Line} {posts : List PWrite} {x : Line} {t : WrTag} (hl : ccRoom ≤ cc.length)
    (hv : cc[Config.cacheVictim free % cc.length]? = some (k, x)) (hx : cc.find k = some x) (hw : x.wr = some t)
    (ht : x.touch = 0#4) :
    (twoLeaves free l1 cc posts).roomCC 0 = twoLeaves (free + 1) l1 (cc.drop k) (posts ++ [postedCopy k x t]) :=
  (State.roomCC_of_full (s := twoLeaves free l1 cc posts) (cl := 0) hl hv).trans
    (twoLeaves_evictCC (free := free + 1) (l1 := l1) (posts := posts) hx hw ht)

/-- The L1 gives up its dirty line, for which the cluster cache has to make room. -/
theorem twoLeaves_evictL1 {free free' k : Nat} {l1 cc cc' : Tab Line} {posts posts' : List PWrite}
    (hk : l1.find k = some dirtyCopy) (hc : cc.find k = none) (hc' : cc'.find k = none)
    (hr : (twoLeaves free l1 cc posts).roomCC 0 = twoLeaves free' l1 cc' posts') :
    (twoLeaves free l1 cc posts).evictL1 0 k = twoLeaves free' (l1.drop k) (cc'.set k cleanedCopy) posts' := by
  have h1 : ((twoLeaves free l1 cc posts).core 0).l1.find k = some dirtyCopy := hk
  have h2 : ((twoLeaves free l1 cc posts).cluster (clusterOf 0)).cc.find k = none := hc
  have h3 : ((twoLeaves free' l1 cc' posts').cluster (clusterOf 0)).cc.find k = none := hc'
  have hr' : (twoLeaves free l1 cc posts).roomCC (clusterOf 0) = twoLeaves free' l1 cc' posts' := hr
  have hd : dirtyCopy.dirty ≠ 0#128 := by decide
  have hcl : (twoLeaves free l1 cc posts).cleanL1 0 k =
      twoLeaves free' (l1.set k { dirtyCopy with dirty := 0#128, wr := none }) (cc'.set k cleanedCopy) posts' := by
    simp only [State.cleanL1, h1, hd, h2, Option.isSome_none, Bool.false_eq_true, if_false, hr', h3, Option.getD_none]
    rfl
  rw [State.evictL1, hcl, ← Tab.drop_set l1 k { dirtyCopy with dirty := 0#128, wr := none }]
  rfl

/-! ## The store that is lost -/

/-- Once both lines are posted, the fill for the store performs the write of the second: the page moves one line on, and with it
the poison and the write of the first, which now stands for the second line. The fill of the cluster cache that follows performs
that one, and the page moves away, with the line that the L1 holds. -/
theorem twoLeaves_loses_store {e : Nat} (he : e = 7 ∨ e = 2 ^ 43 + 100) :
    lineByte (((twoLeaves 3 [] [(e, cleanedCopy)] [postedCopy secondLine secondCopy (leafTag 0 0x1000),
      postedCopy firstLine firstCopy (leafTag 1 0x2000)]).writeLine (leafTag 0 0) (128 * secondLine) [some 1#8] false).readLine
        (leafTag 0 0) secondLine false).2.1 0 = 0#8 := by
  rcases he with rfl | rfl
  · decide +kernel
  · decide +kernel

/-- The key of the L1's dirty lines: behind the first line in the cluster cache where the third victim is the first entry of it,
and before it where it is not. -/
def spareKey : Nat := if Config.cacheVictim 2 % ccRoom = 0 then 2 ^ 43 + 100 else 7

theorem spareKey_cases : spareKey = 7 ∨ spareKey = 2 ^ 43 + 100 := by
  unfold spareKey
  split
  · exact .inr rfl
  · exact .inl rfl

/-- With that key, the third victim is the first line. -/
theorem set_spareKey : ∃ m k, m + k + 1 = ccRoom ∧ m ≠ Config.cacheVictim 2 % ccRoom ∧
    Tab.set (List.replicate 32767 (firstLine, firstCopy)) spareKey cleanedCopy = amid m k (spareKey, cleanedCopy) := by
  unfold spareKey
  split
  · next h => exact ⟨32767, 0, rfl, by omega, set_replicate_high _ _ (by decide)⟩
  · next h => exact ⟨0, 32767, rfl, Ne.symm h, set_replicate_low _ _ (by decide)⟩

/-- The place of the second line in the full cluster cache: where the second victim is taken. The model leaves open which lines are
given up, so the state is laid out by it. -/
def secondPlace : Nat := Config.cacheVictim 1 % ccRoom

/-- No write is posted, both caches are full, and the L1 does not hold the second line. -/
def fullCaches : State :=
  twoLeaves 0 (List.replicate 512 (spareKey, dirtyCopy)) (amid secondPlace (32767 - secondPlace) (secondLine, secondCopy)) []

theorem spareKey_ne : spareKey ≠ firstLine ∧ spareKey ≠ secondLine := by
  rcases spareKey_cases with h | h <;> rw [h] <;> decide

theorem victim_lt (n : Nat) : Config.cacheVictim n % ccRoom < ccRoom := Nat.mod_lt _ (by decide)

/-- The L1 gives up its dirty line, and so the cluster cache the second line. -/
theorem fullCaches_roomL1 : fullCaches.roomL1 0 =
    twoLeaves 2 [] (Tab.set (List.replicate 32767 (firstLine, firstCopy)) spareKey cleanedCopy)
      [postedCopy secondLine secondCopy (leafTag 0 0x1000)] := by
  obtain ⟨hf, hs⟩ := spareKey_ne
  have hp : secondPlace + (32767 - secondPlace) = 32767 := by
    have : secondPlace < 32768 := victim_lt 1
    omega
  have hlen : (amid secondPlace (32767 - secondPlace) (secondLine, secondCopy)).length = ccRoom := by
    rw [amid_length, hp]
    rfl
  have hroom := twoLeaves_roomCC (free := 1) (l1 := List.replicate 512 (spareKey, dirtyCopy)) (posts := []) (t := leafTag 0 0x1000)
    hlen.ge (hlen ▸ amid_getElem_same secondPlace _ (secondLine, secondCopy)) (amid_find_same _ _ _ (by decide)) rfl rfl
  rw [amid_drop_same _ _ _ (by decide), hp] at hroom
  have hnone : Tab.find (List.replicate 32767 (firstLine, firstCopy)) spareKey = none :=
    (congrArg (Tab.find · spareKey) (List.append_nil _).symm).trans (find_replicate_append _ _ _ _ [] hf)
  refine (State.roomL1_of_full (s := fullCaches) (c := 0) (e := (spareKey, dirtyCopy)) ?_ ?_).trans ?_
  · exact (List.length_replicate ..).ge
  · exact (List.getElem?_replicate_of_lt ((List.length_replicate (α := Nat × Line)).symm ▸ Nat.mod_lt _ (by decide)))
  · exact (twoLeaves_evictL1 (free := 1) (by rw [List.replicate_succ, Tab.find, if_pos rfl]) (amid_find_of_ne _ _ _ hf hs) hnone
      hroom).trans (by rw [drop_replicate]; rfl)

/-- The store finds both caches as they are once the second line and then the first have been posted. -/
theorem fullCaches_writeLine : fullCaches.writeLine (leafTag 0 0) (128 * secondLine) [some 1#8] false =
    (twoLeaves 3 [] [(spareKey, cleanedCopy)] [postedCopy secondLine secondCopy (leafTag 0 0x1000),
      postedCopy firstLine firstCopy (leafTag 1 0x2000)]).writeLine (leafTag 0 0) (128 * secondLine) [some 1#8] false := by
  obtain ⟨hf, hs⟩ := spareKey_ne
  obtain ⟨m, k, hmk, hm, hset⟩ := set_spareKey
  have hlen : (amid m k (spareKey, cleanedCopy)).length = ccRoom := (amid_length ..).trans hmk
  have hroom := twoLeaves_roomCC (free := 2) (l1 := []) (posts := [postedCopy secondLine secondCopy (leafTag 0 0x1000)])
    (t := leafTag 1 0x2000) hlen.ge (hlen ▸ amid_getElem_of_ne (spareKey, cleanedCopy) hm.symm (hmk ▸ victim_lt 2))
    (amid_find_first _ _ _ hf (by have : ccRoom = 32768 := rfl; omega)) rfl rfl
  rw [amid_drop_first _ _ _ hf] at hroom
  have hfill := State.fillL1_of_room (w := leafTag 0 0) (line := secondLine) fullCaches_roomL1
    (v := twoLeaves 3 [] [(spareKey, cleanedCopy)] [postedCopy secondLine secondCopy (leafTag 0 0x1000),
      postedCopy firstLine firstCopy (leafTag 1 0x2000)])
    (by rw [hset]; exact State.fillCC_of_room hroom (amid_find_of_ne _ _ _ (by decide) hs.symm) (if_neg hs.symm) (by decide))
    ((congrArg (Tab.find · secondLine) (List.append_nil _).symm).trans (find_replicate_append _ _ _ _ [] hs.symm)) rfl (by decide)
  exact State.writeLine_of_fill hfill _

/-- Refutes O42: its first clause does not ask that a pool's frames lie apart from the unbacked pages, and that one page have one
leaf. Where they do not, the second fill of a store can back the page of its line and take the line away, and the store is lost. -/
theorem not_cachedStoreIsReadBack : ¬ Obligations.CachedStoreIsReadBack := by
  intro h
  obtain ⟨readBack, _⟩ := h
  have hb := readBack fullCaches (leafTag 0 0) (128 * secondLine) [some 1#8] rfl (by decide) 0 1#8 (by decide) rfl
  rw [fullCaches_writeLine] at hb
  exact absurd ((twoLeaves_loses_store spareKey_cases).symm.trans hb) (by decide)

end Sys2Proof.Machine
end

section
/-! PROOF. Scratchpad stores, and a full/empty access at its word (R250, R251, R255, R257, R258, R261 to R263). -/

namespace Sys2Proof.Machine

/-! ## Bytes of a scratchpad -/

/-- One byte of a word replaced, every other byte as before. -/
theorem extractLsb'_replace_byte (w : BitVec 32) (b : Byte) {i j : Nat} (hi : i < 4) (hj : j < 4) :
    ((w &&& ~~~((0xFF#32) <<< (8 * j))) ||| ((b.setWidth 32) <<< (8 * j))).extractLsb' (8 * i) 8 =
      if i = j then b else w.extractLsb' (8 * i) 8 := by
  have ones (k : Nat) : (0xFF#32).getLsbD k = decide (k < 8) := by
    rw [BitVec.getLsbD_ofNat, show 255 = 2 ^ 8 - 1 from rfl, Nat.testBit_two_pow_sub_one, ← Bool.decide_and, decide_eq_decide]
    omega
  apply BitVec.eq_of_getLsbD_eq
  intro e he
  have hin : 8 * i + e < 32 := by omega
  simp only [BitVec.getLsbD_extractLsb', BitVec.getLsbD_or, BitVec.getLsbD_and, BitVec.getLsbD_not, BitVec.getLsbD_shiftLeft,
    BitVec.getLsbD_setWidth, ones, he, hin, decide_true, Bool.true_and]
  rcases Nat.lt_trichotomy i j with h | rfl | h
  · have below : 8 * i + e < 8 * j := by omega
    simp [below, h.ne, he]
  · simp [he, show e < 32 by omega]
  · have above : ¬ 8 * i + e < 8 * j ∧ 8 ≤ 8 * i + e - 8 * j := by omega
    simp [above, h.ne', he]

theorem Task.setScrByte_scrByte (t : Task) (o p : Nat) (b : Byte) :
    (t.setScrByte o b).scrByte p = if p = o then b else t.scrByte p := by
  have hp := Nat.mod_lt p (show 0 < 4 by decide)
  have ho := Nat.mod_lt o (show 0 < 4 by decide)
  simp only [Task.setScrByte, Task.scrByte, Tab.get_set]
  by_cases hw : p / 4 = o / 4
  · rw [if_pos hw, extractLsb'_replace_byte _ _ hp ho, hw]
    exact if_congr (by omega) rfl rfl
  · rw [if_neg hw, if_neg (by rintro rfl; exact hw rfl)]

/-- The low `n` bytes of a number written from offset `a`. -/
theorem Task.setScrBytes_natBytes (t : Task) (a n v o : Nat) : (t.setScrBytes a ((natBytes n v).map some)).scrByte o =
    if a ≤ o ∧ o < a + n then BitVec.ofNat 8 (v / 256 ^ (o - a)) else t.scrByte o := by
  induction n generalizing t a v with
  | zero => rw [if_neg (by omega)]; rfl
  | succ n ih =>
    simp only [natBytes, List.map_cons, Task.setScrBytes, ih, Task.setScrByte_scrByte]
    by_cases h : o = a
    · subst h
      rw [if_neg (by omega), if_pos rfl, if_pos (by omega)]
      apply BitVec.eq_of_toNat_eq
      simp
    · rw [if_neg h]
      refine if_ctx_congr (by omega) (fun ho => ?_) fun _ => rfl
      rw [Nat.div_div_eq_div_mul, ← Nat.pow_succ', Nat.succ_eq_add_one, show o - (a + 1) + 1 = o - a by omega]

/-- Bytes written to a scratchpad change nothing else of its task. -/
theorem Task.setScrBytes_eq (t : Task) (o : Nat) (bytes : List (Option Byte)) :
    t.setScrBytes o bytes = { t with scratch := (t.setScrBytes o bytes).scratch } := by
  induction bytes generalizing t o with
  | nil => rfl
  | cons b bytes ih =>
    cases b with
    | none => exact ih t (o + 1)
    | some b => exact ih (t.setScrByte o b) (o + 1)

/-! ## The task that a key names -/

/-- At a window address, the key of an access names the task current on a core: by its launch and coordinate, or as the task of the
core whose window it is. -/
def KeyNames (pa : Nat) (k : Option (Nat × BitVec 48)) (c : CoreId) (t : Task) : Prop :=
  match k with
  | some (l, co) => isTask t l co = true
  | none => pa < 2 ^ 52 ∧ winCoreId pa = c

theorem KeyNames.of_same {pa : Nat} {k : Option (Nat × BitVec 48)} {c : CoreId} {t t' : Task} (h : KeyNames pa k c t)
    (hl : t'.launch = t.launch) (hc : t'.coord = t.coord) : KeyNames pa k c t' := by
  cases k with
  | none => exact h
  | some k => simpa only [KeyNames, isTask, hl, hc] using h

theorem State.mapTasks_task (s : State) (f : Task → Task) (c : CoreId) : (s.mapTasks f).task? c = (s.task? c).map f :=
  congrArg CoreS.live (s.mapTasks_core f c)

section
variable {s : State} {c : CoreId} {t : Task} (ht : s.task? c = some t)
include ht

theorem State.mapTaskOf_task {launch : Nat} {coord : BitVec 48} (h : isTask t launch coord = true) (f : Task → Task) :
    (s.mapTaskOf launch coord f).task? c = some (f t) := by
  obtain ⟨hl, hc⟩ : launch = t.launch ∧ coord = t.coord := by simpa [isTask] using h
  rw [State.mapTaskOf, State.mapTasks_task, ht, Option.map_some, if_pos ⟨hl.symm, hc.symm⟩]

theorem State.keyMap_task {pa : Nat} {k : Option (Nat × BitVec 48)} (h : KeyNames pa k c t) (f : Task → Task) :
    (s.keyMap pa k f).task? c = some (f t) := by
  cases k with
  | some k => exact State.mapTaskOf_task ht h f
  | none =>
    obtain ⟨hpa, rfl⟩ := h
    rw [State.keyMap, if_pos hpa]
    exact State.mapTask_task_same ht f

end

theorem State.keyMap_mem_fes (s : State) (pa : Nat) (k : Option (Nat × BitVec 48)) (f : Task → Task) :
    (s.keyMap pa k f).mem = s.mem ∧ (s.keyMap pa k f).fes = s.fes := by
  unfold State.keyMap State.mapTask
  split
  · exact ⟨rfl, rfl⟩
  · split
    · split <;> exact ⟨rfl, rfl⟩
    · exact ⟨rfl, rfl⟩

theorem State.keyMap_none_task_ne (s : State) {pa : Nat} {c : CoreId} (h : c ≠ winCoreId pa) (f : Task → Task) :
    (s.keyMap pa none f).task? c = s.task? c := by
  simp only [State.keyMap, State.mapTask]
  split
  · split
    · rw [State.setTask_task_of, if_neg h]
    · rfl
  · rfl

/-! ## A write through a window (R232, R445) -/

/-- The cores, the memory and the full/empty accesses of a state are those of another. -/
structure SameData (s u : State) : Prop where
  cores : u.cores = s.cores
  mem : u.mem = s.mem
  fes : u.fes = s.fes

theorem SameData.refl (s : State) : SameData s s := ⟨rfl, rfl, rfl⟩

theorem SameData.task {s u : State} (h : SameData s u) (c : CoreId) : u.task? c = s.task? c :=
  congrArg CoreS.live (State.core_of_cores h.cores c)

theorem State.noteWrite_sameData (s : State) (st : StackId) (n : Nat) : SameData s (s.noteWrite st n) := by
  unfold State.noteWrite
  split
  · split
    · exact ⟨rfl, rfl, rfl⟩
    · exact .refl s
  · exact .refl s

theorem State.unprotectTeam_sameData (s : State) (st : StackId) (n : Nat) : SameData s (s.unprotectTeam st n) := by
  unfold State.unprotectTeam
  split
  · split
    · split
      · exact ⟨rfl, rfl, rfl⟩
      · exact .refl s
    · exact .refl s
  · exact .refl s

theorem State.preImage_sameData (s : State) (st : StackId) (n : Nat) (u : PreUnit) (data : BitVec 1024) (live : Bool)
    (bad : BitVec 16) : SameData s (s.preImage st n u data live bad) := by
  unfold State.preImage
  split
  · split
    · split
      · exact .refl s
      · split
        · exact ⟨rfl, rfl, rfl⟩
        · exact s.unprotectTeam_sameData st n
    · exact s.noteWrite_sameData st n
  · exact .refl s

/-- The pre-image of a write is kept with its team. -/
theorem State.preWindow_sameData (s : State) (st : StackId) (n pa : Nat) (k : Option (Nat × BitVec 48)) :
    SameData s (s.preWindow st n pa k) := by
  unfold State.preWindow
  split
  · split
    · exact s.preImage_sameData ..
    · exact .refl s
  · exact s.noteWrite_sameData st n

/-- A write through the window of a scratchpad is the write of its bytes, behind what keeps the pre-image. -/
theorem State.windowStore_eq (s : State) (st : StackId) (n : Nat) (pre : Bool) {pa : Nat} (k : Option (Nat × BitVec 48))
    (bytes : List (Option Byte)) (hk : winKind pa = 0) : ∃ v, SameData s v ∧ s.windowStore st n pre pa k bytes =
      ((v.keyMap pa k (fun t => t.winWrite 0 (winOff pa) bytes)).unpoison pa bytes).cwGone pa bytes.length := by
  refine ⟨if pre then s.preWindow st n pa k else s, ?_, ?_⟩
  · split
    · exact s.preWindow_sameData st n pa k
    · exact .refl s
  · rw [State.windowStore, State.windowWrite, if_pos (by omega), hk]

/-- The task whose scratchpad the window shows, after `bytes` have been written there. -/
def Task.stored (t : Task) (pa : Nat) (bytes : List (Option Byte)) : Task :=
  (t.winWrite 0 (winOff pa) bytes).cwGone pa bytes.length

theorem Task.stored_scrByte (t : Task) (pa n v o : Nat) : (t.stored pa ((natBytes n v).map some)).scrByte o =
    if winOff pa ≤ o ∧ o < winOff pa + n then BitVec.ofNat 8 (v / 256 ^ (o - winOff pa)) else t.scrByte o :=
  t.setScrBytes_natBytes (winOff pa) n v o

/-- A task is who it was, with the tags, registers, flags and results in flight that it had. -/
structure SameButBytes (t t' : Task) : Prop where
  launch : t'.launch = t.launch
  coord : t'.coord = t.coord
  full : t'.full = t.full
  regs : t'.regs = t.regs
  fstat : t'.fstat = t.fstat
  flight : t'.flight = t.flight
  ord : t'.ord = t.ord
  failed : t'.failed = t.failed

theorem Task.stored_sameButBytes (t : Task) (pa : Nat) (bytes : List (Option Byte)) : SameButBytes t (t.stored pa bytes) := by
  have h : t.stored pa bytes = ({ t.setScrBytes (winOff pa) bytes with
      rel := t.rel.filter (fun e => !rangesMeet (4 * e.1) 4 (winOff pa) bytes.length) } : Task).cwGone pa bytes.length := rfl
  rw [h, Task.setScrBytes_eq]
  exact ⟨rfl, rfl, rfl, rfl, rfl, rfl, rfl, rfl⟩

theorem Task.stored_isFull (t : Task) (pa : Nat) (bytes : List (Option Byte)) (k : Nat) :
    (t.stored pa bytes).isFull k = t.isFull k :=
  congrArg (List.contains · k) (t.stored_sameButBytes pa bytes).full

theorem State.windowStore_task {s : State} {c : CoreId} {t : Task} {pa : Nat} {k : Option (Nat × BitVec 48)}
    (ht : s.task? c = some t) (hn : KeyNames pa k c t) (hk : winKind pa = 0) (st : StackId) (n : Nat) (pre : Bool)
    (bytes : List (Option Byte)) : (s.windowStore st n pre pa k bytes).task? c = some (t.stored pa bytes) := by
  obtain ⟨v, hv, h⟩ := s.windowStore_eq st n pre k bytes hk
  rw [h, State.cwGone, State.mapTasks_task]
  exact congrArg (Option.map _) (State.keyMap_task ((hv.task c).trans ht) hn _)

theorem State.windowStore_mem_fes (s : State) (st : StackId) (n : Nat) (pre : Bool) {pa : Nat} (k : Option (Nat × BitVec 48))
    (bytes : List (Option Byte)) (hk : winKind pa = 0) :
    (s.windowStore st n pre pa k bytes).mem = s.mem ∧ (s.windowStore st n pre pa k bytes).fes = s.fes := by
  obtain ⟨v, hv, h⟩ := s.windowStore_eq st n pre k bytes hk
  obtain ⟨hm, hf⟩ := v.keyMap_mem_fes pa k (fun t => t.winWrite 0 (winOff pa) bytes)
  rw [h]
  exact ⟨hm.trans hv.mem, hf.trans hv.fes⟩

/-- No other core's scratchpad changes with a write through a plain window address. -/
theorem State.windowStore_scratch_ne (s : State) (st : StackId) (n : Nat) (pre : Bool) {pa : Nat} (bytes : List (Option Byte))
    (hk : winKind pa = 0) {c : CoreId} (hc : c ≠ winCoreId pa) :
    ((s.windowStore st n pre pa none bytes).task? c).map Task.scratch = (s.task? c).map Task.scratch := by
  obtain ⟨v, hv, h⟩ := s.windowStore_eq st n pre none bytes hk
  rw [h, State.cwGone, State.mapTasks_task, Option.map_map, ← hv.task c]
  exact congrArg _ (v.keyMap_none_task_ne hc _)

/-! ## Stores of a task to its own scratchpad (R257, R258) -/

/-- An access to the scratchpad window of its own core, at the address of the task current there, with no full/empty access in
flight that a store would have to come behind. -/
structure OwnStore (s : State) (l : Leaf) : Prop where
  quiet : s.fes = []
  window : paWindow l.pa = true
  kind : winKind l.pa = 0
  own : winCoreId l.pa = s.cur
  plain : l.pa < 2 ^ 52

/-- The current core's task `t` is `t'` after a store: the low `n` bytes of `v` stand at offset `a` of its scratchpad, and `fl` is
behind its results in flight. Memory and every other core's scratchpad are as before. -/
structure Wrote (s u : State) (t t' : Task) (a n v : Nat) (fl : List Flight) : Prop where
  task : u.task? s.cur = some t'
  bytes : ∀ o, t'.scrByte o = if a ≤ o ∧ o < a + n then BitVec.ofNat 8 (v / 256 ^ (o - a)) else t.scrByte o
  full : t'.full = t.full
  regs : t'.regs = t.regs
  fstat : t'.fstat = t.fstat
  flight : t'.flight = t.flight ++ fl
  mem : u.mem = s.mem
  others : ∀ c, c ≠ s.cur → (u.task? c).map Task.scratch = (s.task? c).map Task.scratch

section
variable {s : State} {t : Task} {l : Leaf} (ho : OwnStore s l)
include ho

theorem OwnStore.settle {va : Word} {n : Nat} {k : AccKind} (h : s.access s.cur t va n k = .ok l) :
    s.settle s.cur t va n k = .ok (s, l) := by
  have hw : s.ownFirst s.cur t l.pa n l.atom = s := by
    simp [State.ownFirst, ho.window, ho.quiet, State.feOwnFirst, State.feArriveOwn, State.feArriveWhere]
  simp only [State.settle, h, hw, State.translateFor_of_access h]

theorem OwnStore.names : KeyNames l.pa none s.cur t := ⟨ho.plain, ho.own⟩

/-- An admitted store writes its bytes through the window. -/
theorem OwnStore.storeFrom {va : Word} {n : Nat} (h : s.access s.cur t va n .store = .ok l) (syl : Word) (v : Nat) :
    s.storeFrom s.cur t syl va n v =
      s.windowStore (stackOf s.cur) t.team true l.pa none ((natBytes n v).map some) := by
  have hnote : s.noteWindow s.cur l.pa = s := by
    simp [State.noteWindow, State.noteShut, State.linkShut, ← ho.own, stackOf_winCoreId]
  have hown : s.feOwn s.cur t l.pa ((natBytes n v).map some).length = [] := by simp [State.feOwn, ho.quiet, sortKey]
  simp only [State.storeFrom, ho.settle h, State.storeBytes, ho.window, hown, List.isEmpty_nil, if_true, hnote, State.windowKey,
    ho.plain]

theorem OwnStore.wrote (ht : s.task? s.cur = some t) {va : Word} {n : Nat} (h : s.access s.cur t va n .store = .ok l) (syl : Word)
    (v : Nat) : Wrote s (s.storeFrom s.cur t syl va n v) t (t.stored l.pa ((natBytes n v).map some)) (winOff l.pa) n v [] := by
  have same := t.stored_sameButBytes l.pa ((natBytes n v).map some)
  rw [ho.storeFrom h]
  exact {
    task := State.windowStore_task ht ho.names ho.kind ..
    bytes := t.stored_scrByte l.pa n v
    full := same.full
    regs := same.regs
    fstat := same.fstat
    flight := same.flight.trans (List.append_nil _).symm
    mem := (s.windowStore_mem_fes _ _ _ _ _ ho.kind).1
    others := fun _ hc => s.windowStore_scratch_ne _ _ _ _ ho.kind (ho.own ▸ hc) }

end

/-- A store whose task goes on steps its base register after it. -/
theorem Wrote.stepBase {s u : State} {t t' : Task} {a n v : Nat} (h : Wrote s u t t' a n v []) (hf : t'.failed = false)
    (f : FmtML) (base : Word) : Wrote s (u.stepBase s.cur f base) t (t'.putW 1 .M f.s1 (base + f.off.signExtend 64)) a n v
      [⟨1, t'.ord, t.regs.dest .M f.s1, ((base + f.off.signExtend 64).setWidth 1024 : Vec), 0#7,
        t.regs.destDead (t.regs.dest .M f.s1), false, false, false⟩] := by
  have hu : u.stepBase s.cur f base = u.setTask s.cur (t'.putW 1 .M f.s1 (base + f.off.signExtend 64)) := by
    rw [State.stepBase, State.mapTask_of_current h.task, hf]
    rfl
  rw [hu]
  refine ⟨State.setTask_task_same .., h.bytes, h.full, h.regs, h.fstat, ?_, h.mem, fun c hc => ?_⟩
  · rw [← h.regs, Task.putW, Task.put, h.flight, List.append_nil]
  · rw [State.setTask_task_of, if_neg hc]
    exact h.others c hc

/-- Settles O41: each store is a write of its bytes through the window, and stpi steps its base behind it. -/
theorem scratchpadStoresWriteTheirBytes : Obligations.ScratchpadStoresWriteTheirBytes := by
  intro s t l hq hfail hw hk _ hown hpa wrote f hi n
  have ho : OwnStore s l := ⟨hq, hw, hk, hown, hpa⟩
  have done {u : State} {t' : Task} {n v : Nat} {fl : List Flight} {r} (hr : r = .next u)
      (h : Wrote s u t t' (winOff l.pa) n v fl) : wrote n v r fl :=
    ⟨u, t', hr, h.task, h.bytes, h.full, h.regs, h.fstat, h.flight, h.mem, h.others⟩
  refine ⟨fun h => ?st, fun h => ?stpi, fun h => ?stv⟩
  case st => exact done (s.issueS_of_issues t f.gd _ hi) (ho.wrote hi.current h (encode (.st f)) (t.srcM f.s2).toNat)
  case stv =>
    exact done (s.issueS_of_issues t f.gd _ hi) (ho.wrote hi.current h (encode (.stv f)) (t.regs.read .M 0#1024 f.s2).toNat)
  case stpi =>
    have same := t.stored_sameButBytes l.pa ((natBytes n (t.srcM f.s2).toNat).map some)
    have stored := ho.wrote hi.current h (encode (.stpi f)) (t.srcM f.s2).toNat
    exact done (s.issueS_of_issues t f.gd _ hi) (same.ord ▸ stored.stepBase (same.failed.trans hfail) f (t.srcM f.s1))

/-! ## A full/empty access that reaches its word (R261 to R263) -/

theorem Task.setTag_isFull (t : Task) (w : Nat) (b : Bool) (k : Nat) :
    (t.setTags w 1 b).isFull k = if k = w then b else t.isFull k :=
  (t.setTags_isFull ..).trans (if_congr (by omega) rfl rfl)

/-- A task whose queue entry for a load has its value, and the releases that it has read. -/
def Task.given (t : Task) (a : FeAcc) (scs : List Scope) (v : Vec) : Task :=
  { t with pend := t.pend.map (fun p => if p.id = a.pend then
      { p with val := some v, kind := .feGot scs (t.joinable a.pa a.len) } else p) }

theorem State.feGive_eq (s : State) (a : FeAcc) (scs : List Scope) (v : Vec) :
    s.feGive a scs v = s.mapTaskOf a.launch a.coord (fun t => t.given a scs v) := rfl

theorem Task.setTags_scrByte (t : Task) (w n : Nat) (b : Bool) (o : Nat) : (t.setTags w n b).scrByte o = t.scrByte o := rfl
theorem Task.setRel_scrByte (t : Task) (w n : Nat) (sc : Scope) (o : Nat) : (t.setRel w n sc).scrByte o = t.scrByte o := rfl
theorem Task.setRel_isFull (t : Task) (w n : Nat) (sc : Scope) (k : Nat) : (t.setRel w n sc).isFull k = t.isFull k := rfl
theorem Task.given_scrByte (t : Task) (a : FeAcc) (scs : List Scope) (v : Vec) (o : Nat) :
    (t.given a scs v).scrByte o = t.scrByte o := rfl
theorem Task.given_isFull (t : Task) (a : FeAcc) (scs : List Scope) (v : Vec) (k : Nat) :
    (t.given a scs v).isFull k = t.isFull k := rfl

theorem Task.given_val {t : Task} {a : FeAcc} {scs : List Scope} {v : Vec} {p : Pend} (hp : p ∈ (t.given a scs v).pend)
    (hid : p.id = a.pend) : p.val = some v := by
  obtain ⟨q, _, rfl⟩ := List.mem_map.mp hp
  by_cases hq : q.id = a.pend
  · rw [if_pos hq]
  · rw [if_neg hq] at hid
    exact absurd hid hq

/-- Poison that an access may meet is put on the agenda, and changes nothing else. -/
theorem State.ite_soon (s : State) (b : Bool) (p : PoisonUse) : ∃ ag, (if b then s.soon p else s) = { s with agenda := ag } := by
  cases b with
  | false => exact ⟨_, rfl⟩
  | true => exact ⟨_, rfl⟩

/-- A one-word access of a task, not of a copy operation, to the scratchpad of the task `t` that issued it, current on its core. -/
structure OwnWord (s : State) (a : FeAcc) (t : Task) : Prop where
  handle : a.handle = none
  one : a.nwords = 1
  aligned : a.pa % 4 = 0
  own : winCoreId a.pa = a.core
  kind : winKind a.pa = 0
  current : s.task? a.core = some t
  issuer : isTask t a.launch a.coord = true
  found : s.taskOf a.launch a.coord = some t
  plain : a.pa < 2 ^ 52

section
variable {s : State} {a : FeAcc} {t : Task} (ho : OwnWord s a t)
include ho

/-- It is that still, once it has left the list of those on their way. -/
theorem OwnWord.reached : OwnWord { s with fes := [] } a t :=
  ⟨ho.handle, ho.one, ho.aligned, ho.own, ho.kind, ho.current, ho.issuer, ho.found, ho.plain⟩

theorem OwnWord.feKey_cases : s.feKey a = some (a.launch, a.coord) ∨ s.feKey a = none := by
  simp only [State.feKey, State.issuerKey, State.windowKey, ho.plain, if_true]
  split
  · exact .inl rfl
  · exact .inr rfl

theorem OwnWord.key_names : KeyNames a.pa (s.feKey a) a.core t := by
  rcases ho.feKey_cases with h | h <;> rw [h]
  · exact ho.issuer
  · exact ⟨ho.plain, ho.own⟩

theorem OwnWord.keyTask : s.keyTask a.pa (s.feKey a) = some t := by
  rcases ho.feKey_cases with h | h <;> rw [h]
  · exact ho.found
  · rw [State.keyTask, if_pos ho.plain, ho.own, ho.current]

/-- Both ends of the access are of one team. -/
theorem OwnWord.feEdge : s.feEdge a = s := by
  simp only [State.feEdge, ho.keyTask, ho.found, ho.own, and_self, if_true]

theorem OwnWord.len (hop : a.op ≠ .plain) : a.len = 4 := by
  rw [FeAcc.len, if_neg hop, ho.one]

theorem OwnWord.winOff_mod : winOff a.pa % 4 = 0 := by
  have := ho.aligned
  rw [winOff]
  omega

/-- The four bytes of a number in the word of the access. -/
theorem OwnWord.byte_of_word (o : Nat) (b : Byte) : (if winOff a.pa ≤ o ∧ o < winOff a.pa + 4 then
    BitVec.ofNat 8 (a.data.toNat / 256 ^ (o - winOff a.pa)) else b) =
      if o / 4 = winOff a.pa / 4 then a.data.extractLsb' (8 * (o % 4)) 8 else b := by
  have hoff := ho.winOff_mod
  refine if_ctx_congr (by omega) (fun h => ?_) fun _ => rfl
  rw [show o - winOff a.pa = o % 4 by omega, BitVec.extractLsb', Nat.shiftRight_eq_div_pow, Nat.pow_mul]

/-- The only access on its way stays on its own stack, so it may reach its word once a store has nothing to wait for. -/
theorem OwnWord.feMayArrive (hf : s.fes = [a]) (hw : a.waiting = false) (hop : a.op = .stf ∨ a.op = .lde)
    (hr : a.op = .stf → s.heldWrites a.launch a.coord = false ∧ s.earlierFe a.launch a.coord a.seq = false ∧
      s.roundsWait a.launch a.coord a.seq = false) : s.feMayArrive 0 = true := by
  have hway : a.way.src = a.way.dst := by
    rw [FeAcc.way, ← ho.own, stackOf_winCoreId, winStack, winSocket]
    apply Fin.ext
    simp
  have hleft : s.feLeft a = true := by
    rcases hop with hop | hop
    · simp [State.feLeft, State.linkShut, hway, hw, hf, hr hop]
    · simp [State.feLeft, State.linkShut, hway, hw, hf, hop]
  simp [State.feMayArrive, hf, hleft]

/-- A store writes its word, and then its tag and the release that it holds. -/
theorem OwnWord.fePerform_stf (hop : a.op = .stf) : (s.fePerform a).fes = s.fes ∧ (s.fePerform a).task? a.core =
    some (((t.stored a.pa ((natBytes 4 a.data.toNat).map some)).setTags (winOff a.pa / 4) 1 true).setRel
      (winOff a.pa / 4) 1 a.sc) := by
  have htag : s.feTagBad a = s := by simp only [State.feTagBad, hop]
  simp only [State.fePerform, ho.feEdge, htag, ho.len (hop ▸ nofun), hop, ho.handle, ho.one, FeAcc.tag]
  have same := t.stored_sameButBytes a.pa ((natBytes 4 a.data.toNat).map some)
  exact ⟨(State.keyMap_mem_fes ..).2.trans (s.windowStore_mem_fes _ _ _ _ _ ho.kind).2,
    State.keyMap_task (State.windowStore_task ho.current ho.key_names ho.kind ..) (ho.key_names.of_same same.launch same.coord) _⟩

/-- A load that empties its word clears its tag and brings its bytes to its task. -/
theorem OwnWord.fePerform_lde (hop : a.op = .lde) (hs : a.signed = false) :
    (s.fePerform a).fes = s.fes ∧ ∃ scs, (s.fePerform a).task? a.core = some ((t.setTags (winOff a.pa / 4) 1 false).given a scs
      (BitVec.ofNat 1024 (leNat (t.scrBytes (winOff a.pa) 4)))) := by
  obtain ⟨ag, htag⟩ : ∃ ag, s.feTagBad a = { s with agenda := ag } := by
    simp only [State.feTagBad, hop, ho.keyTask]
    exact State.ite_soon ..
  have hkey : ({ s with agenda := ag } : State).keyTask a.pa (s.feKey a) = some t := ho.keyTask
  obtain ⟨ag', hc⟩ := State.ite_soon { s with agenda := ag } (({ s with agenda := ag } : State).poisoned a.pa 4)
    (.loadAt a.core false 0#64 a.pa)
  have hext (n : Nat) : a.extend n = BitVec.ofNat 1024 n := if_neg (by simp [hs])
  simp only [State.fePerform, ho.feEdge, htag, ho.len (hop ▸ nofun), hop, hkey, State.consume, hc, hext, ho.one, FeAcc.tag,
    State.feGive_eq, if_true]
  have hcur : ({ s with agenda := ag' } : State).task? a.core = some t := ho.current
  exact ⟨(State.keyMap_mem_fes ..).2, a.reads (some t),
    State.mapTaskOf_task (State.keyMap_task hcur ho.key_names _) ho.issuer _⟩

end

/-- Nothing is served where nothing waits. -/
theorem State.feServe_of_empty {s : State} (h : s.fes = []) (k : Nat) : s.feServe k = s := by
  cases k with
  | zero => rfl
  | succ k => simp [State.feServe, State.feNext, h]

/-- The only access on its way is performed where it may reach its word and finds it ready. -/
theorem execFeAccessArrival_of_ready {s : State} {a : FeAcc} (ha : s.fes = [a]) (hm : s.feMayArrive 0 = true)
    (hr : s.feReady a = true) (hf : ({ s with fes := [] }.fePerform a).fes = []) :
    exec (.feAccessArrival 0) s = .next ({ s with fes := [] }.fePerform a) := by
  have h0 : s.fes[0]? = some a := by rw [ha]; rfl
  have hd : listDrop s.fes 0 = [] := by rw [ha]; rfl
  simp only [exec, execFeAccessArrival, State.feArrive, hm, h0, hr, hd, State.feServe_of_empty hf, if_true]

/-- Settles O45: the access may reach its word, finds it ready, and is performed on the task that issued it. -/
theorem arrivedFullEmptyAccessIsPerformed : Obligations.ArrivedFullEmptyAccessIsPerformed := by
  intro s a t hf hw hh h1 hal hown hk ht his hof hpw ham hro hpa _
  have ho : OwnWord s a t := ⟨hh, h1, hal, hown, hk, ht, his, hof, hpa⟩
  obtain ⟨readyLoad, _, readyStore⟩ := State.feReady_of_task ho.keyTask
  constructor
  case left =>
    intro hop hearly
    have hmay := ho.feMayArrive hf hw (.inl hop) fun _ =>
      ⟨by simp [State.heldWrites, hpw, ham], hearly, by simp [State.roundsWait, hro]⟩
    obtain ⟨hfes, htask⟩ := ho.reached.fePerform_stf hop
    refine ⟨_, _, execFeAccessArrival_of_ready hf hmay (readyStore (.inl hop)) hfes, hfes, htask, fun k => ?_, fun o => ?_⟩
    · rw [Task.setRel_isFull, Task.setTag_isFull, Task.stored_isFull]
    · rw [Task.setRel_scrByte, Task.setTags_scrByte, Task.stored_scrByte, ho.byte_of_word]
  case right =>
    intro hop hs hfull
    have hready := (readyLoad (.inr hop)).mpr fun i hi => by
      obtain rfl : i = 0 := by omega
      exact hfull
    obtain ⟨hfes, scs, htask⟩ := ho.reached.fePerform_lde hop hs
    have hmay := ho.feMayArrive hf hw (.inr hop) (hop ▸ nofun)
    refine ⟨_, _, execFeAccessArrival_of_ready hf hmay hready hfes, hfes, htask, fun k => ?_, fun o => ?_,
      fun _ => Task.given_val⟩
    · rw [Task.given_isFull, Task.setTag_isFull]
    · rw [Task.given_scrByte, Task.setTags_scrByte]

end Sys2Proof.Machine
end

section
/-! PROOF. Copy operations from their request to their completion (R248, R275, R277, R283, R284, R286, R288, R408). -/

namespace Sys2Proof

/-- What a table reads as is one of its entries, or the default. -/
theorem Tab.get_mem_or_default {α : Type} (d : α) (t : Tab α) (k : Nat) : (k, t.get d k) ∈ t ∨ t.get d k = d := by
  induction t with
  | nil => exact .inr rfl
  | cons e t ih =>
    obtain ⟨j, w⟩ := e
    by_cases hj : j = k
    · simp [Tab.get, hj]
    · simpa [Tab.get, hj, Ne.symm hj] using ih

namespace Machine

/-! ## The task of an operation -/

/-- A task that is current on a core is found by its launch and coordinate. -/
theorem State.taskOf_isSome_of_current {s : State} {c : CoreId} {t : Task} (ht : s.task? c = some t) {launch : Nat}
    {coord : BitVec 48} (hi : isTask t launch coord = true) : (s.taskOf launch coord).isSome = true := by
  obtain ⟨rfl, rfl⟩ : launch = t.launch ∧ coord = t.coord := by simpa [isTask] using hi
  have hmem : (c.val, s.core c) ∈ s.cores := by
    refine (Tab.get_mem_or_default CoreS.reset s.cores c.val).resolve_right fun hd => ?_
    rw [State.task?, State.core, hd] at ht
    cases ht
  have hlive : (s.core c).live = some t := ht
  simp only [State.taskOf]
  split
  · rfl
  · next hnone => exact absurd (List.find?_eq_none.mp hnone t (List.mem_flatMap.mpr ⟨_, hmem, by simp [hlive]⟩)) (by simp)

/-- A change of a task leaves the operations and the requests of every stack. -/
theorem State.mapTaskOf_stack_ops (s : State) (launch : Nat) (coord : BitVec 48) (f : Task → Task) (st : StackId) :
    ((s.mapTaskOf launch coord f).stack st).ops = (s.stack st).ops := by
  rw [State.mapTaskOf, State.mapTasks_stack]; rfl

theorem State.mapTaskOf_stack_requests (s : State) (launch : Nat) (coord : BitVec 48) (f : Task → Task) (st : StackId) :
    ((s.mapTaskOf launch coord f).stack st).requests = (s.stack st).requests := by
  rw [State.mapTaskOf, State.mapTasks_stack]; rfl

/-! ## Acceptance (R283, R408) -/

/-- A request that no earlier request, access or round of its task keeps back is accepted where a place admits it, or counts a NAK. -/
theorem execCopyAccept_of_first {s : State} {n i : Nat} {st : StackId} {o : CopyOp} (hn : s.copyRequests[n]? = some (st, i, o))
    (hfirst : ∀ p ∈ (s.stack st).requests.take i, p.ofTask o.launch o.coord = false)
    (hfe : s.earlierFe o.launch o.coord o.after = false) (hround : s.roundsWait o.launch o.coord o.after = false) :
    execCopyAccept n s = .next (match (s.stack st).acceptOp o with
      | some r => (s.setStack st { s.stack st with
          requests := listDrop (s.stack st).requests i, ops := (s.stack st).ops ++ [{ o with resv := r }] }).mapTaskOf
            o.launch o.coord (fun t => t.giveHandle o.handle)
      | none => s.setStack st { s.stack st with requests := listSet (s.stack st).requests i { o with naks := nakUp o.naks } }) := by
  have hnone : ((s.stack st).requests.take i).any (fun p => p.ofTask o.launch o.coord) = false :=
    List.any_eq_false.mpr fun p hp => by simp [hfirst p hp]
  simp only [execCopyAccept, hn, hnone, hfe, hround, Bool.or_self, Bool.false_eq_true, if_false]
  cases (s.stack st).acceptOp o <;> rfl

theorem Task.giveHandle_mem {t : Task} {h : Nat} {p : Pend} (hp : p ∈ t.pend) (hk : p.kind = .handle h) :
    { p with val := some (BitVec.ofNat 1024 h) } ∈ (t.giveHandle h).pend :=
  List.mem_map.mpr ⟨p, hp, if_pos hk⟩

/-! ## An operation at its engine (R277, R283, R286, R288) -/

/-- An operation that names no buffer is taken by an engine that is sound and idle. -/
theorem execCopyStart_of_idle {s : State} {st : StackId} {eng : Fin 2} {n : Nat} {o : CopyOp} (hn : (s.stack st).ops[n]? = some o)
    (heng : o.eng = none) (hcb : o.desc.cb = none) (hsound : (s.stack st).engFenced.getLsbD eng.val = false)
    (htest : ∀ u ∈ s.tests, u.1 ≠ .engine st eng) (hidle : ∀ p ∈ (s.stack st).ops, p.eng ≠ some eng)
    (hready : s.opReady o = true) :
    execCopyStart st eng n s =
      .next (s.setStack st { s.stack st with ops := listSet (s.stack st).ops n { o with eng := some eng } }) := by
  have htest' : s.tests.any (fun u => u.1 == .engine st eng) = false :=
    List.any_eq_false.mpr fun u hu => by simpa using htest u hu
  have hidle' : (s.stack st).ops.any (fun p => p.eng == some eng) = false :=
    List.any_eq_false.mpr fun p hp => by simpa using hidle p hp
  simp only [execCopyStart, hn, heng, hcb, hsound, htest', hidle', hready, Bool.or_self, Bool.not_true, Bool.false_eq_true, if_false]

/-- The operation at a place of a stack has left it. -/
def State.leave (s : State) (st : StackId) (n : Nat) : State :=
  s.setStack st { s.stack st with ops := listDrop (s.stack st).ops n }

section
variable {s : State} {st : StackId} {n : Nat} {o : CopyOp} (hn : (s.stack st).ops[n]? = some o)
include hn

/-- The bytes of an operation move once. -/
theorem State.runOp_of_ran (hran : o.ran = true) : s.runOp st n = s := by
  simp only [State.runOp, hn, hran, Bool.true_or, if_true]

theorem State.mapOp_of_some (f : CopyOp → CopyOp) :
    s.mapOp st n f = s.setStack st { s.stack st with ops := listSet (s.stack st).ops n (f o) } := by
  simp only [State.mapOp, hn]

variable (hran : o.ran = true) (hgo : s.opStopped st o = false) (hheld : s.opHeld o = false) {t : Task}
  (ht : s.task? o.core = some t) (hi : isTask t o.launch o.coord = true)
include hran hgo hheld ht hi

theorem execFollowOnCommit_of_free {k : Cmd} (hcom : o.committed = false) (hk : o.follow = some k) (hfree : (t.arr o.arr).pnd = none) :
    execFollowOnCommit st n s =
      .next ((s.setStack st { s.stack st with ops := listSet (s.stack st).ops n { o with committed := true } }).setTask o.core
        (t.setArr o.arr ((t.arr o.arr).commit (k.capture t o.arr)))) := by
  simp only [execFollowOnCommit, State.runOp_of_ran hn hran, State.mapOp_of_some hn, hn, hk, hran, hcom, hgo, hheld, ht, hi, hfree,
    Bool.not_true, Bool.or_self, Bool.false_eq_true, if_false, if_true, Option.isSome_none]

/-- An operation without a follow-on command, or with one committed, leaves its stack and completes on its task's side. -/
theorem execCopyComplete_of_done (hfol : o.follow = none ∨ o.committed = true) : execCopyComplete st n s =
    .next ((s.leave st n).completeOp o) := by
  have hfol' : (o.follow.isSome && !o.committed) = false := by rcases hfol with h | h <;> simp [h]
  have hsome := State.taskOf_isSome_of_current (s := s.leave st n) ht hi
  rw [State.leave] at hsome ⊢
  simp only [execCopyComplete, State.runOp_of_ran hn hran, hn, hran, hgo, hheld, hfol', hsome, Bool.not_true, Bool.or_self,
    Bool.false_eq_true, if_false, if_true]

end

/-! ## Completion (R248, R284) -/

/-- The buffers of a task once an operation has filled its slot. A slot of a definition that has been replaced counts for none. -/
def Task.filledCbs (t : Task) (o : CopyOp) : Tab CircBuf :=
  match o.desc.cb, o.slot, o.buf with
  | some b, some k, none => (match t.cbs.find b with
    | some x => t.cbs.set b (x.fill k)
    | none => t.cbs)
  | _, _, _ => t.cbs

/-- A task that has seen an operation done. -/
def Task.seeDone (t : Task) (o : CopyOp) (p : TaskOp) : Task :=
  { t with ops := t.ops.set o.handle { p with done := true }, cbs := t.filledCbs o }

/-- A `cbget` that waits for the buffer of an operation is served. -/
def State.serveFor (s : State) (o : CopyOp) : State :=
  match o.desc.cb with
  | some b => s.cbServe o.core b
  | none => s

/-- The full/empty store to the completion word of an operation, which takes the next number of its kind. -/
def CopyOp.wordStores (o : CopyOp) (seq : Nat) : List FeAcc :=
  if o.cwPa = 0 then []
  else [⟨.stf, o.core, o.ctx, o.launch, o.coord, 0, o.cwPa, 1, false, o.desc.tag.setWidth 1024,
    if o.kind = .remote then .sy else .dv, false, some o.handle, seq⟩]

/-- On the side of a task that is current and knows the operation, completion marks it done and fills its slot, serves the `cbget`
that waits, and sends the store to its completion word. -/
theorem State.completeOp_of_current {s : State} {o : CopyOp} {t : Task} {p : TaskOp} (ht : s.task? o.core = some t)
    (hi : isTask t o.launch o.coord = true) (hp : t.ops.find o.handle = some p) :
    ∃ f, (s.mapTaskOf o.launch o.coord f).task? o.core = some (t.seeDone o p) ∧
      s.completeOp o = { (s.mapTaskOf o.launch o.coord f).serveFor o with
        fes := ((s.mapTaskOf o.launch o.coord f).serveFor o).fes ++
          o.wordStores ((s.mapTaskOf o.launch o.coord f).serveFor o).feSeq } := by
  unfold State.completeOp
  generalize hf : (fun t : Task => _) = f
  have hft : f t = t.seeDone o p := by
    subst hf
    simp only [hp, Task.seeDone, Task.filledCbs]
    cases o.desc.cb with
    | none => rfl
    | some b => cases o.slot with
      | none => rfl
      | some k => cases o.buf with
        | some x => dsimp only; cases t.cbs.find b <;> rfl
        | none => dsimp only; cases t.cbs.find b <;> rfl
  have htask := (State.mapTaskOf_task ht hi f).trans (congrArg some hft)
  refine ⟨f, htask, ?_⟩
  have hi' : isTask (t.seeDone o p) o.launch o.coord = true := hi
  simp only [htask, State.serveFor, CopyOp.wordStores]
  cases o.desc.cb with
  | none => by_cases hw : o.cwPa = 0 <;> simp [hw]
  | some b => by_cases hw : o.cwPa = 0 <;> simp [hw, hi']

/-- Slots at the head of a claim list are counted up to the first that is not filled. -/
theorem CircBuf.countFilled_eq (x : CircBuf) (n : Nat) (h : x.claim.length ≤ n) :
    x.countFilled n = { x with
      claim := x.claim.drop (x.claim.takeWhile (fun e => e.2)).length
      filled := x.filled + (x.claim.takeWhile (fun e => e.2)).length } := by
  induction n generalizing x with
  | zero =>
    obtain ⟨base, off, size, count, free, filled, rd, wr, held, claim, queued⟩ := x
    obtain rfl : claim = [] := by simpa using h
    rfl
  | succ n ih =>
    obtain ⟨base, off, size, count, free, filled, rd, wr, held, claim, queued⟩ := x
    match claim with
    | [] => rfl
    | (j, false) :: l => rfl
    | (j, true) :: l =>
      refine (ih ⟨base, off, size, count, free, filled + 1, rd, wr, held, l, queued⟩ (by simpa using h)).trans ?_
      simp [Nat.add_assoc, Nat.add_comm 1]

/-- The slot that was claimed first is counted with the filled ones right behind it. -/
theorem CircBuf.fill_head {x : CircBuf} {k : Nat} {l : List (Nat × Bool)} (hx : x.claim = (k, false) :: l) (hl : ∀ e ∈ l, e.1 ≠ k) :
    x.fill k = { x with claim := l.drop (l.takeWhile (fun e => e.2)).length
                        filled := x.filled + 1 + (l.takeWhile (fun e => e.2)).length } := by
  have hrest : l.map (fun e => if e.1 = k then (e.1, true) else e) = l :=
    (List.map_congr_left fun e he => if_neg (hl e he)).trans (List.map_id' _)
  simp only [CircBuf.fill, hx, List.map_cons, if_true, hrest]
  rw [CircBuf.countFilled_eq _ _ le_rfl]
  simp [Nat.add_assoc, Nat.add_comm 1]

/-- A slot behind one that is not filled is only marked. -/
theorem CircBuf.fill_behind {x : CircBuf} {k j : Nat} {r : List (Nat × Bool)} (hx : x.claim = (j, false) :: r) (hj : j ≠ k) :
    x.fill k = { x with claim := (j, false) :: r.map (fun e => if e.1 = k then (e.1, true) else e) } := by
  simp only [CircBuf.fill, hx, List.map_cons, hj, if_false]
  rw [CircBuf.countFilled_eq _ _ le_rfl]
  simp

/-- A `cbget` that waits takes the next counted slot; the slot of no unjoined operation joins none. -/
theorem State.cbServe_of_waiter {s : State} {c : CoreId} {b : Nat} {t : Task} {x : CircBuf} {p : Pend} (ht : s.task? c = some t)
    (hx : t.cbs.find b = some x) (hw : t.cbWaiter b = some p) (hf : 0 < x.filled) (hn : t.filler b x = none) :
    s.cbServe c b = s.setTask c { t with
      cbs := t.cbs.set b { x with filled := x.filled - 1, held := x.held + 1, rd := (x.rd + 1) % x.count }
      pend := t.pend.map (fun q => if q.id = p.id then
        { q with val := some ((x.base + BitVec.ofNat 64 (x.rd * x.size)).setWidth 1024) } else q) } := by
  simp only [State.cbServe, ht, hx, hw, hf.ne', if_false, show List.find? _ t.ops = none from hn, Option.map_none]

/-- Settles O58: each event by what it does where it acts; a completion is seen by the task that is current on the operation's core. -/
theorem copyOperationsProceed : Obligations.CopyOperationsProceed := by
  refine ⟨?accept, fun t h p => Task.giveHandle_mem, fun s st eng n o => execCopyStart_of_idle, ?follow, ?complete, ?fill,
    fun s c b t x p => State.cbServe_of_waiter⟩
  case accept =>
    intro s n i st o hn hfirst hfe hround
    have hacc := execCopyAccept_of_first hn hfirst hfe hround
    constructor
    · intro r hr
      simp only [hr] at hacc
      exact ⟨_, hacc, rfl, by rw [State.mapTaskOf_stack_requests, State.setStack_stack_same],
        by rw [State.mapTaskOf_stack_ops, State.setStack_stack_same]⟩
    · intro hr
      simp only [hr] at hacc
      exact hacc
  case follow =>
    intro s st n o t k hn hran hcom hk hgo hheld ht hi hfree
    exact ⟨_, execFollowOnCommit_of_free hn hran hgo hheld ht hi hcom hk hfree, rfl, State.setTask_task_same .., by simp⟩
  case complete =>
    intro s st n o t p hn hran hgo hfol hheld ht hl hc hp cbs
    have hi : isTask t o.launch o.coord = true := by simp [isTask, hl, hc]
    obtain ⟨f, htask, hdone⟩ := State.completeOp_of_current (s := s.leave st n) ht hi hp
    exact ⟨(s.leave st n).mapTaskOf o.launch o.coord f, rfl,
      by rw [State.mapTaskOf_stack_ops, State.leave, State.setStack_stack_same], rfl, rfl, htask,
      (execCopyComplete_of_done hn hran hgo hheld ht hi hfol).trans (congrArg _ hdone)⟩
  case fill =>
    intro x k l hl
    exact ⟨fun hx => CircBuf.fill_head hx hl, fun j r => CircBuf.fill_behind⟩

end Machine

end Sys2Proof
end

section
/-! PROOF. The issue of copy operations, and the query of one (R277, R279 to R283, R285, R286, R289 to R291). -/

namespace Sys2Proof.Machine

/-! ## Issue (R281 to R283, R286) -/

/-- A copy is created with the plan that is made after its fork. -/
theorem State.forkCopy_of_plan {s : State} {c : CoreId} {t : Task} {k : CopyKind} {bytes : List Byte} {q : CopyPlan}
    (hq : (s.forkRelease c t).planOf c t k bytes = .ok q) (d : Opd) (arr : Nat) (follow : Option Cmd) :
    s.forkCopy c t k bytes d arr follow = (s.forkRelease c t).launchCopy c t k q d arr follow := by
  simp only [State.forkCopy, hq]

section
variable {f : FmtEC} {s : State} {t : Task} {bytes : List Byte} (hb : s.copyDesc s.cur t (t.srcE f.s1) = .ok bytes)
  {p q : CopyPlan}
include hb

/-- A copy instruction whose checks pass consumes its descriptor, forks, and creates its operation. -/
theorem State.issueCopy_of_plans {k : CopyKind} (hp : (s.consumeDesc s.cur t (t.srcE f.s1)).planOf s.cur t k bytes = .ok p)
    (hq : ((s.consumeDesc s.cur t (t.srcE f.s1)).forkRelease s.cur t).planOf s.cur t k bytes = .ok q) (syl : Word) :
    s.issueCopy t k f syl = ((s.consumeDesc s.cur t (t.srcE f.s1)).forkRelease s.cur t).launchCopy s.cur t k q f.d 0 none := by
  simp only [State.issueCopy, hb, hp, State.forkCopy_of_plan hq]

/-- `cpymx` does, with the command that it captures before its fork. -/
theorem execCpymx_of_plans (hi : Issues s t f.gd) {k : Cmd}
    (hp : (s.consumeDesc s.cur t (t.srcE f.s1)).planOf s.cur t .mx bytes = .ok p)
    (hq : ((s.consumeDesc s.cur t (t.srcE f.s1)).forkRelease s.cur t).planOf s.cur t .mx bytes = .ok q)
    (he : (s.consumeDesc s.cur t (t.srcE f.s1)).mxError s.cur t f.arr.toNat = none)
    (hk : (s.consumeDesc s.cur t (t.srcE f.s1)).mxCapture s.cur t f.arr.toNat .go (t.followScale f.s2) (f.s3.toNat % 4) = .ok k) :
    execCpymx f s = .next (((s.consumeDesc s.cur t (t.srcE f.s1)).forkRelease s.cur t).launchCopy s.cur t .mx q f.d f.arr.toNat
      (some k)) := by
  refine (s.issueS_of_issues t f.gd _ hi).trans (congrArg _ ?_)
  simp only [hb, hp, he, hk, State.forkCopy_of_plan hq]

end

/-- The request of a new operation is the last at its stack: with the next handle, the descriptor and the follow-on; no engine has it,
and none of its bytes has moved. -/
theorem State.launchCopy_request (s : State) (c : CoreId) (t : Task) (k : CopyKind) (p : CopyPlan) (d : Opd) (arr : Nat)
    (follow : Option Cmd) :
    ∃ op, ((s.launchCopy c t k p d arr follow).stack (stackOf c)).requests.getLast? = some op ∧ op.core = c ∧ op.kind = k ∧
      op.ofTask t.launch t.coord = true ∧ op.handle = t.handles + 1 ∧ op.desc = p.desc ∧ op.follow = follow ∧ op.arr = arr ∧
      op.eng = none ∧ op.ran = false ∧ op.committed = false :=
  ⟨_, (congrArg (fun x : StackS => x.requests.getLast?) (State.setStack_stack_same ..)).trans List.getLast?_concat, rfl, rfl,
    by simp [CopyOp.ofTask], rfl, rfl, rfl, rfl, rfl, rfl, rfl⟩

/-! ## The query (R291) -/

/-- A 2-bit state above a 32-bit count. -/
theorem pack64_state_count (a : BitVec 2) {n : Nat} (hn : n < 2 ^ 32) :
    pack64 [(a.toNat, 62), (n, 0)] = a ++ 0#30 ++ BitVec.ofNat 32 n := by
  have ha := a.isLt
  apply BitVec.eq_of_toNat_eq
  rw [BitVec.toNat_append, BitVec.toNat_append, ← Nat.shiftLeft_add_eq_or_of_lt (BitVec.isLt _),
    ← Nat.shiftLeft_add_eq_or_of_lt (BitVec.isLt _)]
  simp only [pack64, List.map_cons, List.map_nil, List.foldl_cons, List.foldl_nil, BitVec.toNat_ofNat, Nat.shiftLeft_eq]
  omega

/-- State and bytes of an operation that the task has had. -/
theorem Task.opWord_of_op {t : Task} {h : Nat} {o : TaskOp} (ho : t.ops.find h = some o) :
    t.opWord h = (if o.joined then 3#2 else if o.done then 2#2 else 1#2) ++ 0#30 ++ BitVec.ofNat 32 (min (2 ^ 32 - 1) o.bytes) := by
  rw [← pack64_state_count _ (by omega)]
  simp only [Task.opWord, ho]
  cases o.joined <;> cases o.done <;> rfl

/-- Settles O48: the plan made after the fork is that of the operation, whose request is put last. -/
theorem copiesAreRequested : Obligations.CopiesAreRequested := by
  refine ⟨?issue, State.launchCopy_request, fun f s t hi => ?query⟩
  case issue =>
    intro f s t bytes hi hb u r
    have issued {k : CopyKind} {p q : CopyPlan} (hp : u.planOf s.cur t k bytes = .ok p) (hq : r.planOf s.cur t k bytes = .ok q)
        (syl : Word) : s.issueS f.gd (fun t => s.issueCopy t k f syl) = .next (r.launchCopy s.cur t k q f.d 0 none) :=
      (s.issueS_of_issues t f.gd _ hi).trans (congrArg _ (State.issueCopy_of_plans hb hp hq syl))
    exact ⟨fun p q hp hq => issued (k := .cpy) hp hq _, fun p q hp hq => issued (k := .remote) hp hq _,
      fun p q hp hq => issued (k := .mig) hp hq _, fun p q k => execCpymx_of_plans hb hi⟩
  case query =>
    refine (s.issue_of_issues t f.gd _ hi).trans ?_
    cases ho : t.ops.find (t.srcE f.s1).toNat with
    | none => simp only [Task.opWord, ho]
    | some o => simp only [Task.opWord_of_op ho, ho]

end Sys2Proof.Machine
end

section
/-! PROOF. What the agenda asks for is what a step does (log entries 1, 4, 26, 41, 43). -/

namespace Sys2Proof.Machine

/-- Settles O5: with nothing written by a service context, a step makes the move at the head of the agenda. -/
theorem agendaEventIsExecuted : Obligations.AgendaEventIsExecuted := by
  have step_move {s : State} {m : Move} {l : List Move} (hr : s.regw = []) (ha : s.agenda = m :: l) :
      step s = entered ({ s with agenda := l }.move m) := congrArg entered (State.turn_of_agenda hr ha)
  refine ⟨fun s i l hr ha hs hc => ?event, fun s i l hr ha hc => ?array, fun s cl l hr ha => ?cycle⟩
  case event => simp [step_move hr ha, State.move, hs, hc]
  case array => simp [step_move hr ha, State.move, hc, entered]
  case cycle =>
    rw [step_move hr ha, State.move, entered, show State.dueNow { s with agenda := l } cl = s.dueNow cl from rfl]
    split <;> rfl

end Sys2Proof.Machine
end

section
/-! PROOF. The configuration of a stream array (R313 to R318, R327, R328). -/

namespace Sys2Proof.Machine

open Host.Outcome (next)

/-! ## Tables -/

/-- A table listed for the numbers below a bound. -/
theorem Tab.find_tabulate {α : Type} (f : Nat → α) (n k : Nat) :
    Tab.find ((List.range n).map (fun i => (i, f i))) k = if k < n then some (f k) else none := by
  have gen (l : List Nat) : Tab.find (l.map (fun i => (i, f i))) k = if k ∈ l then some (f k) else none := by
    induction l with
    | nil => rfl
    | cons i l ih =>
      simp only [List.map_cons, Tab.find, ih, List.mem_cons]
      by_cases h : k = i <;> simp [h]
  simpa using gen (List.range n)

/-- A filter by number keeps the entries of the numbers it admits. -/
theorem Tab.find_filter_key {α : Type} (p : Nat → Bool) (t : Tab α) (k : Nat) :
    Tab.find (t.filter (fun e => p e.1)) k = if p k then t.find k else none := by
  induction t with
  | nil => simp [Tab.find]
  | cons e t ih =>
    obtain ⟨i, w⟩ := e
    by_cases h : k = i
    · subst h
      cases hp : p k <;> simp [Tab.find, hp, ih]
    · cases hp : p i <;> simp [Tab.find, hp, ih, h]

theorem Tab.get_drop {α : Type} (d : α) (t : Tab α) (k j : Nat) : (t.drop k).get d j = if j = k then d else t.get d j := by
  simp only [Tab.get_eq_find, Tab.find_drop]
  split <;> rfl

/-- Counts of a set that is cleared read zero, those of another set as before. -/
theorem Tab.get_clear_set {α : Type} (d : α) (t : Tab α) (n m j : Nat) (h : j < 256) :
    Tab.get d (t.filter (fun e => e.1 / 256 != n)) (256 * m + j) = if m = n then d else t.get d (256 * m + j) := by
  have hm : (256 * m + j) / 256 = m := by omega
  rw [Tab.get_eq_find, Tab.find_filter_key (fun i => i / 256 != n), Tab.get_eq_find, hm]
  by_cases hn : m = n <;> simp [hn]

/-! ## Words of seeds, thresholds and mute bits -/

theorem seedRun_get (v : Word) (i : Nat) (h : i < 256) :
    (seedRun v).get 0#16 i = v.extractLsb' 0 16 + BitVec.ofNat 16 i * v.extractLsb' 16 16 := by
  rw [Tab.get_eq_find, seedRun, Tab.find_tabulate, if_pos h]
  apply BitVec.eq_of_toNat_eq
  simp [Nat.shiftRight_eq_div_pow, Nat.add_mod]

theorem ArrayS.setThr_get (x : ArrayS) (q i : Nat) (v : Word) :
    (x.setThr q v).thr.get 0xFFFFFFFF#32 i = if i = 2 * q then v.extractLsb' 0 32
      else if i = 2 * q + 1 then v.extractLsb' 32 32 else x.thr.get 0xFFFFFFFF#32 i := by
  simp only [ArrayS.setThr, Tab.get_set, ← setWidth_shiftRight_eq_extract]
  by_cases h : i = 2 * q <;> simp [h]

theorem ArrayS.setMute_eq (x : ArrayS) (q : Nat) (v : Word) : x.setMute q v = { x with mute := (x.setMute q v).mute } := rfl

theorem lowOnes_getLsbD (n : Nat) : (0xFFFFFFFFFFFFFFFF#256).getLsbD n = decide (n < 64) := by
  have hm : (0xFFFFFFFFFFFFFFFF#256).toNat = 2 ^ 64 - 1 := rfl
  rw [BitVec.getLsbD, hm, Nat.testBit_two_pow_sub_one]

theorem ArrayS.setMute_getLsbD (x : ArrayS) (q r : Nat) (v : Word) (hr : r < 256) :
    (x.setMute q v).mute.getLsbD r = if r / 64 = q then v.getLsbD (r % 64) else x.mute.getLsbD r := by
  simp only [ArrayS.setMute, BitVec.getLsbD_or, BitVec.getLsbD_and, BitVec.getLsbD_not, BitVec.getLsbD_shiftLeft,
    BitVec.getLsbD_setWidth, lowOnes_getLsbD, hr]
  rcases lt_trichotomy (r / 64) q with h | h | h
  case inl =>
    have : r < 64 * q := by omega
    simp [this, h.ne]
  case inr.inl =>
    have h1 : ¬ r < 64 * q := by omega
    have h2 : r - 64 * q = r % 64 := by omega
    have h3 : r % 64 < 256 := by omega
    simp [h1, h2, h3, h, Nat.mod_lt]
  case inr.inr =>
    have h1 : ¬ r < 64 * q := by omega
    have h2 : ¬ r - 64 * q < 64 := by omega
    simp [h1, h2, h.ne', BitVec.getLsbD_of_ge v (r - 64 * q) (by omega)]

theorem arrayField_cases (n : BitVec 3) (h : n.toNat < 4) : n = 0#3 ∨ n = 1#3 ∨ n = 2#3 ∨ n = 3#3 := by
  revert n
  decide

/-- The array that `mxseed` leaves. -/
def ArrayS.seeded (x : ArrayS) (q : Nat) (v : Word) : ArrayS :=
  let i := v.toNat / 65536 % 256
  match q with
  | 0 => { x with seed1 := seedRun v }
  | 1 => { x with seed2 := seedRun v }
  | 2 => { x with seed1 := x.seed1.set i (v.setWidth 16) }
  | _ => { x with seed2 := x.seed2.set i (v.setWidth 16) }

/-! ## Sets cleared and commands stopped (R327, R328) -/

/-- Counts and status words of sets are cleared, as `mxclr` does. -/
def ArrayS.clearSets (x : ArrayS) (l : List Nat) : ArrayS :=
  l.foldl (fun (x : ArrayS) n => { x with counts := x.counts.filter (fun e => e.1 / 256 != n), stat := x.stat.drop n }) x

/-- Counts of sets are cleared and their status words show ABT, as `mxstop` does. -/
def ArrayS.abortSets (x : ArrayS) (l : List Nat) : ArrayS :=
  l.foldl (fun (x : ArrayS) n => { x with
    counts := x.counts.filter (fun e => e.1 / 256 != n), stat := x.stat.set n 0x2000000#64 }) x

theorem ArrayS.clearSets_eq (x : ArrayS) (l : List Nat) :
    x.clearSets l = { x with counts := (x.clearSets l).counts, stat := (x.clearSets l).stat } := by
  induction l generalizing x with
  | nil => rfl
  | cons n l ih => exact ih _

theorem ArrayS.abortSets_eq (x : ArrayS) (l : List Nat) :
    x.abortSets l = { x with counts := (x.abortSets l).counts, stat := (x.abortSets l).stat } := by
  induction l generalizing x with
  | nil => rfl
  | cons n l ih => exact ih _

theorem ArrayS.clearSets_get (x : ArrayS) (l : List Nat) (m j : Nat) (h : j < 256) :
    (x.clearSets l).counts.get 0#32 (256 * m + j) = (if m ∈ l then 0#32 else x.counts.get 0#32 (256 * m + j)) ∧
      (x.clearSets l).stat.get 0#64 m = if m ∈ l then 0#64 else x.stat.get 0#64 m := by
  induction l generalizing x with
  | nil => exact ⟨rfl, rfl⟩
  | cons n l ih =>
    obtain ⟨hc, hs⟩ := ih { x with counts := x.counts.filter (fun e => e.1 / 256 != n), stat := x.stat.drop n }
    refine ⟨hc.trans ?_, hs.trans ?_⟩
    · by_cases hm : m = n <;> simp [Tab.get_clear_set, h, hm]
    · by_cases hm : m = n <;> simp [Tab.get_drop, hm]

theorem ArrayS.abortSets_get (x : ArrayS) (l : List Nat) (m j : Nat) (h : j < 256) :
    (x.abortSets l).counts.get 0#32 (256 * m + j) = (if m ∈ l then 0#32 else x.counts.get 0#32 (256 * m + j)) ∧
      (x.abortSets l).stat.get 0#64 m = if m ∈ l then 0x2000000#64 else x.stat.get 0#64 m := by
  induction l generalizing x with
  | nil => exact ⟨rfl, rfl⟩
  | cons n l ih =>
    obtain ⟨hc, hs⟩ := ih { x with
      counts := x.counts.filter (fun e => e.1 / 256 != n), stat := x.stat.set n 0x2000000#64 }
    refine ⟨hc.trans ?_, hs.trans ?_⟩
    · by_cases hm : m = n <;> simp [Tab.get_clear_set, h, hm]
    · by_cases hm : m = n <;> simp [Tab.get_set, hm]

/-! ## Instructions that name an array (R313) -/

section
variable {s : State} {t : Task} {gd : Guard} {arr : Bool}

/-- Where the guard passes and no operation holds the array's registers, an array instruction acts. -/
theorem State.mxIssue_of_issues (hi : Issues s t gd) (he : s.mxError s.cur t arr.toNat = none) (syl : Word)
    (f : Task → ArrayS → State) : s.mxIssue gd arr syl f = .next (f t (t.arr arr.toNat)) := by
  rw [State.mxIssue, State.issueS_of_issues s t gd _ hi, he]

/-- An array instruction that writes registers of its array replaces that array. -/
theorem exec_of_mxIssue {i : Instr} {g : Task → ArrayS → ArrayS}
    (hx : exec i s = s.mxIssue gd arr (encode i) fun t x => s.putArr t arr (g t x))
    (hi : Issues s t gd) (he : s.mxError s.cur t arr.toNat = none) :
    exec i s = .next (s.setTask s.cur (t.setArr arr.toNat (g t (t.arr arr.toNat)))) :=
  hx.trans (State.mxIssue_of_issues hi he ..)

theorem execMxclr_of_issues {f : FmtEI} (hi : Issues s t f.gd) (he : s.mxError s.cur t f.arr.toNat = none)
    (hh : ∀ h ∈ (t.arr f.arr.toNat).holds, ∀ n ∈ h.2, n < 8 → f.imm.getLsbD n = false)
    (hl : ∀ n, n < 8 → f.imm.getLsbD n = true → s.lentWithin s.cur t 3 (0x2000 * f.arr.toNat + 0x400 * n) 0x400 = none) :
    execMxclr f s = .next (s.putArr t f.arr
      ((t.arr f.arr.toNat).clearSets ((List.range 8).filter (fun n => f.imm.getLsbD n)))) := by
  have hlent : ((List.range 8).filter (fun n => f.imm.getLsbD n)).findSome?
      (fun n => s.lentWithin s.cur t 3 (0x2000 * f.arr.toNat + 0x400 * n) 0x400) = none :=
    List.findSome?_eq_none_iff.mpr fun n hn => by
      obtain ⟨hr, hb⟩ := List.mem_filter.mp hn
      exact hl n (List.mem_range.mp hr) hb
  have hheld : ((List.range 8).filter (fun n => f.imm.getLsbD n)).any
      (fun n => (t.arr f.arr.toNat).holds.any (fun h => h.2.contains n)) = false := by
    simp only [List.any_eq_false, List.any_eq_true, List.contains_iff_mem, not_exists, not_and]
    intro n hn h hm hc
    obtain ⟨hr, hb⟩ := List.mem_filter.mp hn
    exact Bool.false_ne_true ((hh h hm n hc (List.mem_range.mp hr)).symm.trans hb)
  rw [execMxclr, State.mxIssue_of_issues hi he]
  dsimp only
  rw [hlent, hheld]
  rfl

theorem execMxstop_of_issues {f : FmtEI} (hi : Issues s t f.gd) (he : s.mxError s.cur t f.arr.toNat = none)
    (hl : ∀ h ∈ (t.arr f.arr.toNat).holds, ∀ n ∈ h.2,
      s.lentWithin s.cur t 3 (0x2000 * f.arr.toNat + 0x400 * n) 0x400 = none) :
    execMxstop f s = .next (s.putArr t f.arr (t.arr f.arr.toNat).stop) := by
  have hlent : ((t.arr f.arr.toNat).holds.flatMap Prod.snd).findSome?
      (fun n => s.lentWithin s.cur t 3 (0x2000 * f.arr.toNat + 0x400 * n) 0x400) = none :=
    List.findSome?_eq_none_iff.mpr fun n hn => by
      obtain ⟨h, hm, hc⟩ := List.mem_flatMap.mp hn
      exact hl h hm n hc
  rw [execMxstop, State.mxIssue_of_issues hi he, hlent]

theorem ArrayS.stop_eq (x : ArrayS) :
    x.stop = { x.abortSets (x.holds.flatMap Prod.snd) with cur := none, pnd := none, holds := [], drn := true } := rfl

end

/-! ## The statement -/

/-- Settles O49, form by form: each acts on its array by an equation, and what the array's tables then read stands above. -/
theorem arrayConfiguration : Obligations.ArrayConfiguration := by
  refine ⟨?fmt, ?len, ?sel, ?seed, ?thr, ?mute, ?set, ?clr, ?stop⟩
  case fmt => exact fun f s t hi he _ => ⟨_, exec_of_mxIssue (g := fun _ x => { x with fmt := f.imm.setWidth 17 }) rfl hi he, rfl⟩
  case len => exact fun f s t hi he _ => ⟨_, exec_of_mxIssue (g := fun _ x => { x with sl := f.imm.toNat }) rfl hi he, rfl⟩
  case sel =>
    refine fun f s t hi he _ => ⟨_, exec_of_mxIssue
      (g := fun _ x => { x with gw := f.imm.toNat / 256 % 512, gcol := f.imm.toNat % 256 }) rfl hi he, ?_⟩
    simp [Nat.shiftRight_eq_div_pow]
  case seed =>
    intro f hf s t hi he _
    refine ⟨_, exec_of_mxIssue (g := fun t x => x.seeded f.set.toNat (t.srcE f.s1)) rfl hi he, ?_⟩
    have hrow : ((t.srcE f.s1).extractLsb' 16 8).toNat = (t.srcE f.s1).toNat / 65536 % 256 := by
      simp [Nat.shiftRight_eq_div_pow]
    rcases arrayField_cases f.set hf with h | h | h | h <;> simp only [h, hrow]
    case inl => exact ⟨rfl, fun i hi => ⟨seedRun_get _ i hi, rfl⟩⟩
    case inr.inl => exact ⟨rfl, fun i hi => ⟨rfl, seedRun_get _ i hi⟩⟩
    case inr.inr.inl =>
      refine ⟨rfl, fun i _ => ⟨(Tab.get_set ..).trans ?_, rfl⟩⟩
      simp [BitVec.setWidth_eq_extractLsb']
    case inr.inr.inr =>
      refine ⟨rfl, fun i _ => ⟨rfl, (Tab.get_set ..).trans ?_⟩⟩
      simp [BitVec.setWidth_eq_extractLsb']
  case thr =>
    exact fun f s t hi he _ => ⟨_, exec_of_mxIssue (g := fun t x => x.setThr f.set.toNat (t.srcE f.s1)) rfl hi he, rfl,
      fun i => ArrayS.setThr_get _ _ i _⟩
  case mute =>
    exact fun f _ s t hi he _ => ⟨_, exec_of_mxIssue (g := fun t x => x.setMute f.set.toNat (t.srcE f.s1)) rfl hi he,
      ArrayS.setMute_eq .., fun r hr => ArrayS.setMute_getLsbD _ _ r _ hr⟩
  case set =>
    exact fun f s t hi he _ => ⟨_, exec_of_mxIssue
      (g := fun t x => if f.set = 0#3 then { x with abase := t.srcE f.s1 } else { x with ctrl := t.srcE f.s1 }) rfl hi he, rfl⟩
  case clr =>
    rintro f s t hi he ⟨hh, hl⟩
    refine ⟨_, execMxclr_of_issues hi he hh hl, ArrayS.clearSets_eq .., fun n j hn hj => ?_⟩
    have hm : n ∈ (List.range 8).filter (fun n => f.imm.getLsbD n) ↔ f.imm.getLsbD n = true := by simp [hn]
    have hget := (t.arr f.arr.toNat).clearSets_get ((List.range 8).filter (fun n => f.imm.getLsbD n)) n j hj
    simp only [hm] at hget
    exact hget
  case stop =>
    intro f s t hi he hl
    refine ⟨_, execMxstop_of_issues hi he hl, ?_, fun n j hj => ?_⟩
    · rw [ArrayS.stop_eq, ArrayS.abortSets_eq]
    · have hm : n ∈ (t.arr f.arr.toNat).holds.flatMap Prod.snd ↔ ∃ h ∈ (t.arr f.arr.toNat).holds, n ∈ h.2 := List.mem_flatMap
      have hget := ArrayS.abortSets_get (t.arr f.arr.toNat) ((t.arr f.arr.toNat).holds.flatMap Prod.snd) n j hj
      simp only [hm] at hget
      exact hget

end Sys2Proof.Machine
end

section
/-! PROOF. Commits to a stream array and joins of it (R319 to R326). -/

namespace Sys2Proof.Machine

/-! ## The arrays of a task -/

@[simp] theorem Task.setArr_arr_same (t : Task) (a : Nat) (x : ArrayS) : (t.setArr a x).arr a = x := by
  unfold Task.setArr Task.arr
  split <;> rfl

/-- A task with other waits. -/
def Task.withWaits (t : Task) (w : List Wait) : Task := { t with waits := w }

@[simp] theorem Task.withWaits_arr (t : Task) (w : List Wait) (a : Nat) : (t.withWaits w).arr a = t.arr a := rfl
@[simp] theorem Task.withWaits_waits (t : Task) (w : List Wait) : (t.withWaits w).waits = w := rfl
@[simp] theorem Task.withWaits_withWaits (t : Task) (v w : List Wait) : (t.withWaits v).withWaits w = t.withWaits w := rfl
@[simp] theorem Task.withWaits_pend (t : Task) (w : List Wait) : (t.withWaits w).pend = t.pend := rfl

theorem Task.withWaits_of_waits {t : Task} {w : List Wait} (h : t.waits = w) : t.withWaits w = t := by
  subst h
  rfl

@[simp] theorem Task.setArr_waits (t : Task) (a : Nat) (x : ArrayS) : (t.setArr a x).waits = t.waits := by
  unfold Task.setArr
  split <;> rfl

@[simp] theorem Task.withWaits_setArr (t : Task) (a : Nat) (x : ArrayS) (w : List Wait) :
    (t.withWaits w).setArr a x = (t.setArr a x).withWaits w := by
  unfold Task.setArr
  split <;> rfl

/-- A value given to the only entry that waits for it stands there from the start. -/
theorem Task.give_putPend (t : Task) (d : Dest) (a : Nat) (x : ArrayS) (v : Vec) (h : ∀ p ∈ t.pend, p.dest ≠ d) :
    ((t.putPend d .value none).setArr a x).give d v = (t.putPend d .value (some v)).setArr a x := by
  have hp : t.pend.map (fun p => if p.dest = d ∧ p.val = none then { p with val := some v } else p) = t.pend := by
    refine (List.map_congr_left fun p hm => ?_).trans (List.map_id _)
    simp [h p hm]
  unfold Task.setArr
  split <;> simp [Task.give, Task.putPend, hp]

/-! ## Waiting array instructions (R319, R323) -/

section
variable {s : State} {c : CoreId} {t : Task}

theorem State.mxWait_of_current (ht : s.task? c = some t) (w : Wait) :
    s.mxWait c w = (s.setTask c (t.withWaits (t.waits ++ [w]))).mxTry c w := by
  rw [State.mxWait, State.mapTask_of_current ht]
  rfl

/-- A commit that waits alone, with the pending slot free and its checks met, is made. -/
theorem State.mxTry_commit {a gr : Nat} {form : MxForm} {sc : Word} {k : Cmd} (ht : s.task? c = some t)
    (hw : t.waits = [.commit a form sc gr k.scr k.cols]) (hp : (t.arr a).pnd = none)
    (hk : s.mxCapture c t a form (if sc.toNat = 2 ^ 64 - 1 then none else some sc) gr = .ok k) :
    s.mxTry c (.commit a form sc gr k.scr k.cols) = s.setTask c ((t.setArr a ((t.arr a).commit k)).withWaits
      (if form = .gos then [.joinCmd a (t.arr a).nextCmd] else [])) := by
  have he : ([.commit a form sc gr k.scr k.cols] : List Wait).erase (.commit a form sc gr k.scr k.cols) = [] := by simp
  simp only [State.mxTry, ht, hw, hp, hk]
  simp only [List.contains_cons, BEq.rfl, Bool.true_or, Bool.not_true, Bool.false_eq_true, if_false, Option.isSome_none,
    Task.setArr_waits, hw, he]
  have hn : (((t.setArr a ((t.arr a).commit k)).withWaits []).arr a).nextCmd - 1 = (t.arr a).nextCmd := by
    simp [ArrayS.commit]
  split
  · exact congrArg (fun n => s.setTask c ((t.setArr a ((t.arr a).commit k)).withWaits [.joinCmd a n])) hn
  · rfl

/-- A join of a set that waits alone is made once the commands that name the set have ended, and gives the set's status word. -/
theorem State.mxTry_joinSet {a n : Nat} {d : Dest} (ht : s.task? c = some t) (hw : t.waits = [.joinSet a n d])
    (he : (t.arr a).setEnded n = true) :
    s.mxTry c (.joinSet a n d) = s.setTask c (((t.setArr a ((t.arr a).joinSet n)).withWaits []).give d
      (((t.arr a).stat.get 0#64 n).setWidth 1024)) := by
  simp [State.mxTry, ht, hw, he, Task.withWaits]

/-- A join of every set that waits alone is made on an idle array. -/
theorem State.mxTry_joinAll {a : Nat} {d : Option Dest} {b : Bool} (ht : s.task? c = some t) (hw : t.waits = [.joinAll a d b])
    (he : (t.arr a).idle = true) :
    s.mxTry c (.joinAll a d b) = s.setTask c (match d with
      | some d => ((t.setArr a (t.arr a).joinAll).withWaits []).give d ((t.arr a).stWord.setWidth 1024)
      | none => (t.setArr a (t.arr a).joinAll).withWaits []) := by
  have hst : (((t.setArr a (t.arr a).joinAll).withWaits []).arr a).stWord = (t.arr a).stWord := by
    simp only [Task.withWaits_arr, Task.setArr_arr_same]
    rfl
  cases d with
  | none => simp [State.mxTry, ht, hw, he, Task.withWaits]
  | some d =>
    rw [← hst]
    simp [State.mxTry, ht, hw, he, Task.withWaits]

end

/-! ## Commits (R319, R320) -/

/-- The scale operand as a waiting commit keeps it. -/
theorem scaleKept (sc : Option Word) (h : sc ≠ some 0xFFFFFFFFFFFFFFFF#64) :
    (if (sc.getD 0xFFFFFFFFFFFFFFFF#64).toNat = 2 ^ 64 - 1 then none else some (sc.getD 0xFFFFFFFFFFFFFFFF#64)) = sc := by
  cases sc with
  | none => rfl
  | some v => exact if_neg fun hv => h (congrArg some (BitVec.eq_of_toNat_eq hv))

section
variable {s : State} {t : Task} {k : Cmd}

/-- A commit with the pending slot free whose checks are met when it issues and as it waits is made at once. -/
theorem State.mxCommit_of_free {f : FmtEM} {form : MxForm} {w : Wait} (ht : s.task? s.cur = some t) (syl : Word)
    (hp : (t.arr f.arr.toNat).pnd = none) (hw : t.waits = []) (hs : t.scaleOpd f.s3 ≠ some 0xFFFFFFFFFFFFFFFF#64)
    (hk : s.mxCapture s.cur t f.arr.toNat form (t.scaleOpd f.s3) f.gr.toNat = .ok k)
    (hwt : w = .commit f.arr.toNat form ((t.scaleOpd f.s3).getD 0xFFFFFFFFFFFFFFFF#64) f.gr.toNat k.scr k.cols)
    (hk1 : (s.setTask s.cur (t.withWaits (t.waits ++ [w]))).mxCapture s.cur (t.withWaits (t.waits ++ [w])) f.arr.toNat form
      (t.scaleOpd f.s3) f.gr.toNat = .ok k) :
    s.mxCommit t f syl form = s.setTask s.cur ((t.setArr f.arr.toNat ((t.arr f.arr.toNat).commit k)).withWaits
      (if form = .gos then [.joinCmd f.arr.toNat (t.arr f.arr.toNat).nextCmd] else [])) := by
  have hfull : BitVec.ofNat 64 (2 ^ 64 - 1) = 0xFFFFFFFFFFFFFFFF#64 := rfl
  rw [State.mxCommit, hk]
  dsimp only
  rw [hw, List.nil_append] at hk1
  rw [hfull, ← hwt, State.mxWait_of_current ht, hw, List.nil_append, hwt, State.mxTry_commit (State.setTask_task_same ..)]
  · simp [State.setTask_setTask]
  · rfl
  · exact hp
  · rw [scaleKept _ hs, ← hwt]
    exact hk1

end

/-- What a commit leaves of an array. -/
theorem ArrayS.commit_frame (x : ArrayS) (k : Cmd) : x.commit k = { x with
    cur := (x.commit k).cur, pnd := (x.commit k).pnd, holds := (x.commit k).holds, drn := false, nextCmd := x.nextCmd + 1 } := rfl

theorem ArrayS.commit_of_idle (x : ArrayS) (k : Cmd) (h : x.cur = none) :
    (x.commit k).cur = some { k with id := x.nextCmd, load := 68 } ∧ (x.commit k).pnd = x.pnd := by
  simp [ArrayS.commit, h]

theorem ArrayS.commit_of_busy (x : ArrayS) (k : Cmd) (h : x.cur ≠ none) :
    (x.commit k).cur = x.cur ∧ (x.commit k).pnd = some { k with id := x.nextCmd, load := 4 } := by
  simp [ArrayS.commit, h]

theorem ArrayS.commit_holds (x : ArrayS) (k : Cmd) : (x.commit k).holds.map Prod.snd = x.holds.map Prod.snd ++
    [(List.range (ctrlNvec k.ctrl)).map (fun i => ctrlCset k.ctrl + i)] := List.map_append

/-! ## The statement -/

theorem ArrayS.setEnded_iff (x : ArrayS) (n : Nat) :
    x.setEnded n = true ↔ ∀ h ∈ x.holds, n ∈ h.1.sets → x.hasEnded h.1.id = true := by
  simp only [ArrayS.setEnded, List.all_eq_true, Bool.or_eq_true, Bool.not_eq_true', List.contains_eq_mem, decide_eq_false_iff_not]
  exact forall₂_congr fun h _ => imp_iff_not_or.symm

theorem ArrayS.idle_iff (x : ArrayS) : x.idle = true ↔ x.cur = none ∧ x.pnd = none := by
  simp [ArrayS.idle]

theorem ArrayS.stWord_eq (x : ArrayS) : x.stWord = BitVec.ofNat 64
    (((List.range 256).filter (fun r => !x.mute.getLsbD r)).length * 2 ^ 55 + x.gw * 2 ^ 46 + x.gcol * 2 ^ 38 + x.sl * 2 ^ 24 +
      x.fmt.toNat) := by
  simp [ArrayS.stWord, pack64]

/-- A commit changes the array that it names of its own task, and that alone. -/
theorem mxCommit_acts {i : Instr} {f : FmtEM} {form : MxForm} {s : State} {t : Task} {k : Cmd} {w : Wait}
    (hx : exec i s = s.mxIssue f.gd f.arr (encode i) fun t _ => s.mxCommit t f (encode i) form)
    (hi : Issues s t f.gd) (he : s.mxError s.cur t f.arr.toNat = none) (hp : (t.arr f.arr.toNat).pnd = none)
    (hw : t.waits = []) (hs : t.scaleOpd f.s3 ≠ some 0xFFFFFFFFFFFFFFFF#64)
    (hk : s.mxCapture s.cur t f.arr.toNat form (t.scaleOpd f.s3) f.gr.toNat = .ok k)
    (hwt : w = .commit f.arr.toNat form ((t.scaleOpd f.s3).getD 0xFFFFFFFFFFFFFFFF#64) f.gr.toNat k.scr k.cols)
    (hk1 : (s.setTask s.cur (t.withWaits (t.waits ++ [w]))).mxCapture s.cur (t.withWaits (t.waits ++ [w])) f.arr.toNat form
      (t.scaleOpd f.s3) f.gr.toNat = .ok k) :
    let x := t.arr f.arr.toNat
    ∃ (u : State) (y : ArrayS), exec i s = .next u ∧ u.mem = s.mem ∧
      u.task? s.cur = some ((t.setArr f.arr.toNat y).withWaits
        (if form = .gos then [.joinCmd f.arr.toNat x.nextCmd] else [])) ∧
      y = { x with cur := y.cur, pnd := y.pnd, holds := y.holds, drn := false, nextCmd := x.nextCmd + 1 } ∧
      (x.cur = none → y.cur = some { k with id := x.nextCmd, load := 68 } ∧ y.pnd = none) ∧
      (x.cur ≠ none → y.cur = x.cur ∧ y.pnd = some { k with id := x.nextCmd, load := 4 }) ∧
      y.holds.map Prod.snd = x.holds.map Prod.snd ++ [(List.range (ctrlNvec k.ctrl)).map (fun i => ctrlCset k.ctrl + i)] := by
  intro x
  have hu : exec i s = .next (s.setTask s.cur ((t.setArr f.arr.toNat (x.commit k)).withWaits
      (if form = .gos then [.joinCmd f.arr.toNat x.nextCmd] else []))) := by
    rw [hx, State.mxIssue_of_issues hi he, State.mxCommit_of_free hi.current _ hp hw hs hk hwt hk1]
  exact ⟨_, x.commit k, hu, rfl, State.setTask_task_same .., x.commit_frame k, fun hc => hp ▸ x.commit_of_idle k hc,
    x.commit_of_busy k, x.commit_holds k⟩

/-- An instruction that waits with a destination and is ready: the destination is in the queue with its value at once. -/
theorem mxJoin_acts {i : Instr} {gd : Guard} {arr : Bool} {s : State} {t : Task} {d : Task → Dest} {w : Task → Wait} {y : ArrayS}
    {v : Vec}
    (hx : exec i s = s.mxIssue gd arr (encode i) fun t _ => (s.setTask s.cur (t.putPend (d t) .value none)).mxWait s.cur (w t))
    (hi : Issues s t gd) (he : s.mxError s.cur t arr.toNat = none) (hw : t.waits = []) (hd : ∀ p ∈ t.pend, some p.dest ≠ some (d t))
    (hj : ∀ (u : State) (t1 : Task), u.task? s.cur = some t1 → t1.waits = [w t] → t1.arr arr.toNat = t.arr arr.toNat →
      u.mxTry s.cur (w t) = u.setTask s.cur (((t1.setArr arr.toNat y).withWaits []).give (d t) v)) :
    ∃ u, exec i s = .next u ∧ u.mem = s.mem ∧
      u.task? s.cur = some ((t.putPend (d t) .value (some v)).setArr arr.toNat y) := by
  have hwp : (t.putPend (d t) .value none).waits = [] := hw
  have hwy : ((t.putPend (d t) .value none).setArr arr.toNat y).waits = [] := (Task.setArr_waits ..).trans hwp
  refine ⟨s.setTask s.cur _, ?_, rfl, State.setTask_task_same ..⟩
  rw [hx, State.mxIssue_of_issues hi he, State.mxWait_of_current (State.setTask_task_same ..), hwp, List.nil_append,
    hj _ ((t.putPend (d t) .value none).withWaits [w t]) (State.setTask_task_same ..) rfl rfl]
  simp only [State.setTask_setTask, Task.withWaits_setArr, Task.withWaits_withWaits, Task.withWaits_of_waits hwy,
    Task.give_putPend t (d t) arr.toNat y v fun p hp hc => hd p hp (congrArg some hc)]

/-- Settles O50: commits by the lemma above, joins form by form. -/
theorem arrayCommitsAndJoins : Obligations.ArrayCommitsAndJoins := by
  refine ⟨fun f => ⟨?go, ?gos, ?goa⟩, ?rd, ?st, ?drain⟩
  case go =>
    intro s t k hi he x sc hp hw hs hk w s1 hk1
    exact mxCommit_acts rfl hi he hp hw hs hk rfl hk1
  case gos =>
    intro s t k hi he x sc hp hw hs hk w s1 hk1
    exact mxCommit_acts rfl hi he hp hw hs hk rfl hk1
  case goa =>
    intro s t k hi he x sc hp hw hs hk w s1 hk1
    exact mxCommit_acts rfl hi he hp hw hs hk rfl hk1
  case rd =>
    intro f s t hi he hr hw hd
    refine mxJoin_acts (d := fun t => t.regs.dest .E f.d)
      (w := fun t => .joinSet f.arr.toNat f.set.toNat (t.regs.dest .E f.d)) rfl hi he hw hd fun u t1 hu hw1 ha => ?_
    rw [State.mxTry_joinSet hu hw1 (by rw [ha]; exact (ArrayS.setEnded_iff ..).mpr hr), ha]
  case st =>
    intro f s t hi he hr hw hd
    refine mxJoin_acts (d := fun t => t.regs.dest .E f.d)
      (w := fun t => .joinAll f.arr.toNat (some (t.regs.dest .E f.d)) false) rfl hi he hw hd fun u t1 hu hw1 ha => ?_
    rw [State.mxTry_joinAll hu hw1 (by rw [ha]; exact (ArrayS.idle_iff _).mpr hr), ha, ArrayS.stWord_eq]
    rfl
  case drain =>
    intro f s t hi he hr hw _
    refine ⟨s.setTask s.cur (t.setArr f.arr.toNat (t.arr f.arr.toNat).joinAll), ?_, rfl, State.setTask_task_same ..⟩
    refine (State.mxIssue_of_issues hi he (encode (.mxdrain f))
      fun _ _ => s.mxWait s.cur (.joinAll f.arr.toNat none false)).trans (congrArg _ ?_)
    have hwy : (t.setArr f.arr.toNat (t.arr f.arr.toNat).joinAll).waits = [] := (Task.setArr_waits ..).trans hw
    rw [State.mxWait_of_current hi.current, hw, List.nil_append, State.mxTry_joinAll
      (t := t.withWaits [.joinAll f.arr.toNat none false]) (State.setTask_task_same ..) rfl ((ArrayS.idle_iff _).mpr hr),
      State.setTask_setTask]
    simp [Task.withWaits_of_waits hwy]

end Sys2Proof.Machine
end

section
/-! PROOF. Declarations, array starts, and the steps of a command (R293, R321, R329, R339 to R344). -/

namespace Sys2Proof.Machine

/-! ## phase (R339, R340) -/

theorem foldl_max_lt_iff (l : List Nat) (a n : Nat) : l.foldl max a < n ↔ a < n ∧ ∀ b ∈ l, b < n := by
  induction l generalizing a with
  | nil => simp
  | cons b l ih => simp [ih, and_assoc]

/-- A profile with a record has a class as high as one exactly where its top class is. -/
theorem Image.topClass_lt_iff (i : Image) (n : Nat) (h : i.bursts ≠ []) :
    i.topClass < n ↔ (i.bursts.any fun b => decide (n ≤ b.icls)) = false := by
  obtain ⟨b, hb⟩ := List.exists_mem_of_ne_nil _ h
  simp only [Image.topClass, foldl_max_lt_iff, List.forall_mem_map, List.any_eq_false, decide_eq_true_eq, Nat.not_le]
  exact ⟨And.right, fun hn => ⟨Nat.zero_lt_of_lt (hn b hb), hn⟩⟩

theorem declare_of_zero (i : Option Image) (c : Nat) (f : FmtEP) : declare i c 0 f = none := rfl

theorem declare_of_absent {i : Image} {f : FmtEP} {len : Nat} (c : Nat) (hl : len ≠ 0)
    (h : i.bursts.find? (fun r => r.bid == f.bid.toNat) = none) :
    declare (some i) c len f = some ⟨true, 0, 0, f.icls, f.bid, false, false⟩ := by
  simp only [declare, hl, if_false, h]

theorem declare_of_found {i : Image} {f : FmtEP} {len : Nat} {r : BurstRec} (c : Nat) (hl : len ≠ 0)
    (h : i.bursts.find? (fun r => r.bid == f.bid.toNat) = some r) :
    declare (some i) c len f = some (if (i.bursts.any fun b => decide (f.icls.toNat ≤ b.icls)) = true
      then ⟨false, c + f.onset.toNat, c + f.onset.toNat + min len r.steps, f.icls, f.bid, false, decide (64 ≤ f.onset.toNat)⟩
      else ⟨true, 0, 0, f.icls, f.bid, false, false⟩) := by
  have hne : i.bursts ≠ [] := List.ne_nil_of_mem (List.mem_of_find?_eq_some h)
  simp only [declare, hl, if_false, h, i.topClass_lt_iff _ hne]
  cases i.bursts.any fun b => decide (f.icls.toNat ≤ b.icls) <;> rfl

/-! ## phq (R344) -/

theorem getLsbD_eq_div_mod (v : Word) (i : Nat) : v.getLsbD i = decide (v.toNat / 2 ^ i % 2 = 1) :=
  Nat.testBit_eq_decide_div_mod_eq

/-- The two bits of a command in the word of `phq`: covered, and at half rate. -/
def Cmd.covBit (k : Option Cmd) : Bool := match k with | some k => k.started && k.cov.isSome | none => false
def Cmd.halfBit (k : Option Cmd) : Bool := match k with | some k => k.started && k.half | none => false

theorem declWord_none (k : Option Cmd) (cyc : Nat) :
    (declWord none k cyc).getLsbD 60 = Cmd.covBit k ∧ (declWord none k cyc).getLsbD 59 = Cmd.halfBit k ∧
      declWord none k cyc &&& 0xE7FFFFFFFFFFFFFF#64 = 0#64 := by
  change (pack64 [(b2n (Cmd.covBit k), 60), (b2n (Cmd.halfBit k), 59)]).getLsbD 60 = Cmd.covBit k ∧
    (pack64 [(b2n (Cmd.covBit k), 60), (b2n (Cmd.halfBit k), 59)]).getLsbD 59 = Cmd.halfBit k ∧
    pack64 [(b2n (Cmd.covBit k), 60), (b2n (Cmd.halfBit k), 59)] &&& 0xE7FFFFFFFFFFFFFF#64 = 0#64
  cases Cmd.covBit k <;> cases Cmd.halfBit k <;> decide

theorem b2n_le (b : Bool) : b2n b ≤ 1 := by cases b <;> decide
theorem decide_b2n (b : Bool) : decide (b2n b = 1) = b := by cases b <;> rfl

/-- The word of `phq` under a declaration, field by field. -/
theorem declWord_some (d : Decl) (k : Option Cmd) (cyc : Nat) :
    (declWord (some d) k cyc).toNat = 2 ^ 63 + b2n d.isVoid * 2 ^ 62 + b2n d.opened * 2 ^ 61 + b2n (Cmd.covBit k) * 2 ^ 60 +
      b2n (Cmd.halfBit k) * 2 ^ 59 + d.icls.toNat * 2 ^ 56 + d.bid.toNat * 2 ^ 50 + (d.to_ - cyc) % 2 ^ 32 := by
  have h1 := b2n_le d.isVoid
  have h2 := b2n_le d.opened
  have h3 := b2n_le (Cmd.covBit k)
  have h4 := b2n_le (Cmd.halfBit k)
  have h5 := d.icls.isLt
  have h6 := d.bid.isLt
  change (pack64 [(1, 63), (b2n d.isVoid, 62), (b2n d.opened, 61), (b2n (Cmd.covBit k), 60), (b2n (Cmd.halfBit k), 59),
    (d.icls.toNat, 56), (d.bid.toNat, 50), ((d.to_ - cyc) % 2 ^ 32, 0)]).toNat = _
  simp only [pack64, List.map_cons, List.map_nil, List.foldl_cons, List.foldl_nil, BitVec.toNat_ofNat]
  omega

theorem declWord_some_fields (d : Decl) (k : Option Cmd) (cyc : Nat) :
    let v := declWord (some d) k cyc
    v.getLsbD 63 = true ∧ v.getLsbD 62 = d.isVoid ∧ v.getLsbD 61 = d.opened ∧ v.getLsbD 60 = Cmd.covBit k ∧
      v.getLsbD 59 = Cmd.halfBit k ∧ v.extractLsb' 56 3 = d.icls ∧ v.extractLsb' 50 6 = d.bid ∧ v.extractLsb' 32 18 = 0#18 ∧
      v.extractLsb' 0 32 = BitVec.ofNat 32 (d.to_ - cyc) := by
  intro v
  have hv : v.toNat = _ := declWord_some d k cyc
  have h1 := b2n_le d.isVoid
  have h2 := b2n_le d.opened
  have h3 := b2n_le (Cmd.covBit k)
  have h4 := b2n_le (Cmd.halfBit k)
  have h5 := d.icls.isLt
  have h6 := d.bid.isLt
  have bit {i : Nat} {b : Bool} (h : v.toNat / 2 ^ i % 2 = b2n b) : v.getLsbD i = b := by
    rw [getLsbD_eq_div_mod, h, decide_b2n]
  have field {i n : Nat} {x : BitVec n} (h : v.toNat / 2 ^ i % 2 ^ n = x.toNat) : v.extractLsb' i n = x :=
    BitVec.eq_of_toNat_eq (by rw [BitVec.extractLsb'_toNat, Nat.shiftRight_eq_div_pow, h])
  refine ⟨bit (b := true) ?_, bit ?_, bit ?_, bit ?_, bit ?_, field ?_, field ?_, field ?_, field ?_⟩
  all_goals
    simp only [b2n, Bool.toNat_true, BitVec.toNat_ofNat] at *
    omega

/-! ## Starts (R341, R342) -/

/-- A start that is due marks its command started. -/
theorem State.arrayStart_of_due {s : State} {c : CoreId} {t : Task} {a : Nat} {k : Cmd} {cov : Option (BitVec 3)}
    (ht : s.task? c = some t) (hk : (t.arr a).cur = some k) (hs : k.started = false) (he : k.ended = false)
    (hc : (s.cluster (clusterOf c)).clocked = true) (hd : s.startAns c t a = .due cov) :
    (s.arrayStart c a).mem = s.mem ∧ (s.arrayStart c a).task? c = some (t.setArr a { t.arr a with
      cur := some { k with started := true, cov := cov, half := cov.isNone } }) := by
  simp only [State.arrayStart, ht, hk, hs, he, hc, hd, Bool.not_true, Bool.or_self, Bool.false_eq_true, if_false]
  split <;> exact ⟨rfl, State.setTask_task_same ..⟩

/-! ## Steps (R293, R321) -/

theorem Tab.get_set_other {α : Type} (d : α) (t : Tab α) {k j : Nat} (v : α) (h : j ≠ k) : (t.set k v).get d j = t.get d j := by
  rw [Tab.get_set, if_neg h]

/-- Each number of a list has its entry replaced by a function of it, every other entry stays. -/
theorem Tab.get_foldl_set (g : Nat → BitVec 32 → BitVec 32) (cs n j : Nat) (hj : j < 256) (l : List Nat) (hl : l.Nodup)
    (hb : ∀ i ∈ l, i < 256) (t : Tab (BitVec 32)) :
    (l.foldl (fun t i => Tab.set t (256 * cs + i) (g i (Tab.get 0#32 t (256 * cs + i)))) t).get 0#32 (256 * n + j) =
      if n = cs ∧ j ∈ l then g j (t.get 0#32 (256 * n + j)) else t.get 0#32 (256 * n + j) := by
  induction l generalizing t with
  | nil => simp
  | cons i l ih =>
    obtain ⟨hi, hl⟩ := List.nodup_cons.mp hl
    have hib : i < 256 := hb i List.mem_cons_self
    rw [List.foldl_cons, ih hl fun m hm => hb m (List.mem_cons_of_mem _ hm), Tab.get_set]
    by_cases h : n = cs ∧ j = i
    · obtain ⟨rfl, rfl⟩ := h
      simp [hi]
    · have hne : ¬ 256 * n + j = 256 * cs + i := by omega
      rw [if_neg hne]
      by_cases hn : n = cs
      · have hji : j ≠ i := fun hc => h ⟨hn, hc⟩
        simp [hji]
      · simp [hn]

/-- A count after a step: what it was, or 0 where the step is the first of one that does not add, and the gain, limited. -/
def Cmd.counted (k : Cmd) (arr st j : Nat) (old : BitVec 32) : BitVec 32 :=
  BitVec.ofNat 32 (min ((if st = 1 ∧ k.form ≠ .goa then 0 else old.toNat) + k.stepGain arr k.v st j) 0xFFFFFFFF)

/-- A step changes the counts of its array and nothing else of it. -/
theorem ArrayS.addStep_eq (x : ArrayS) (k : Cmd) (arr cs st : Nat) : (x.addStep k arr cs st).1 = { x with
    counts := (List.range 256).foldl (fun t i => Tab.set t (256 * cs + i) (k.counted arr st i (Tab.get 0#32 t (256 * cs + i))))
      x.counts } := by
  have gen (l : List Nat) (r : ArrayS × Bool) : (l.foldl (fun (r : ArrayS × Bool) j =>
      let old := if st = 1 ∧ k.form ≠ .goa then 0 else (r.1.counts.get 0#32 (256 * cs + j)).toNat
      let n := old + k.stepGain arr k.v st j
      ({ r.1 with counts := r.1.counts.set (256 * cs + j) (BitVec.ofNat 32 (min n 0xFFFFFFFF)) },
        r.2 || decide (0xFFFFFFFF < n))) r).1 = { r.1 with
      counts := l.foldl (fun t i => Tab.set t (256 * cs + i) (k.counted arr st i (Tab.get 0#32 t (256 * cs + i)))) r.1.counts } := by
    induction l generalizing r with
    | nil => rfl
    | cons j l ih => exact ih _
  exact gen _ (x, false)

theorem ArrayS.addStep_counts (x : ArrayS) (k : Cmd) (arr cs st n j : Nat) (hj : j < 256) :
    (x.addStep k arr cs st).1.counts.get 0#32 (256 * n + j) =
      if n = cs then k.counted arr st j (x.counts.get 0#32 (256 * n + j)) else x.counts.get 0#32 (256 * n + j) := by
  rw [ArrayS.addStep_eq, Tab.get_foldl_set _ _ _ _ hj _ List.nodup_range fun i hi => List.mem_range.mp hi]
  simp [hj]

theorem ArrayS.markCsat_eq (x : ArrayS) (cs : Nat) (b : Bool) :
    x.markCsat cs b = { x with stat := (x.markCsat cs b).stat } ∧
      ∀ n, n ≠ cs → (x.markCsat cs b).stat.get 0#64 n = x.stat.get 0#64 n := by
  unfold ArrayS.markCsat
  split
  · exact ⟨rfl, fun n hn => Tab.get_set_other _ _ _ hn⟩
  · exact ⟨rfl, fun _ _ => rfl⟩

/-- An array whose set starts its status afresh where the step is the first of a command that does not add. -/
def ArrayS.afresh (x : ArrayS) (k : Cmd) : ArrayS :=
  if k.t + 1 = 1 ∧ k.form ≠ .goa then { x with stat := x.stat.set (ctrlCset k.ctrl + k.v) 0#64 } else x

theorem ArrayS.afresh_counts (x : ArrayS) (k : Cmd) : (x.afresh k).counts = x.counts := by
  unfold ArrayS.afresh
  split <;> rfl

theorem ArrayS.afresh_stat_other (x : ArrayS) (k : Cmd) {n : Nat} (h : n ≠ ctrlCset k.ctrl + k.v) :
    (x.afresh k).stat.get 0#64 n = x.stat.get 0#64 n := by
  unfold ArrayS.afresh
  split
  · exact Tab.get_set_other _ _ _ h
  · rfl

/-- An array in a step once its columns have taken their gains. -/
def ArrayS.gained (x : ArrayS) (k : Cmd) (arr : Nat) : ArrayS :=
  let r := (x.afresh k).addStep k arr (ctrlCset k.ctrl + k.v) (k.t + 1)
  r.1.markCsat (ctrlCset k.ctrl + k.v) r.2

theorem ArrayS.gained_counts (x : ArrayS) (k : Cmd) (arr n j : Nat) (hj : j < 256) :
    (x.gained k arr).counts.get 0#32 (256 * n + j) = if n = ctrlCset k.ctrl + k.v
      then k.counted arr (k.t + 1) j (x.counts.get 0#32 (256 * n + j)) else x.counts.get 0#32 (256 * n + j) := by
  rw [ArrayS.gained, (ArrayS.markCsat_eq ..).1, ArrayS.addStep_counts _ _ _ _ _ _ _ hj, ArrayS.afresh_counts]

theorem ArrayS.gained_stat_other (x : ArrayS) (k : Cmd) (arr : Nat) {n : Nat} (h : n ≠ ctrlCset k.ctrl + k.v) :
    (x.gained k arr).stat.get 0#64 n = x.stat.get 0#64 n := by
  rw [ArrayS.gained, (ArrayS.markCsat_eq ..).2 n h, ArrayS.addStep_eq]
  exact x.afresh_stat_other k h

/-- Whether a command's vector stops early: the lead exceeds the threshold of its step (R303). -/
def Cmd.stops (k : Cmd) (lead : Nat) : Bool :=
  decide (k.t + 1 < k.sl) && k.gw != 0 && decide ((k.thr.get 0xFFFFFFFF#32 (min (k.t + 1) 16 - 1)).toNat < lead)

/-- The best column of the set in progress, its lead and whether it is tied. -/
def ArrayS.lead (z : ArrayS) (k : Cmd) : Nat × Nat × Bool :=
  bestOf (fun j => (z.counts.get 0#32 (256 * (ctrlCset k.ctrl + k.v) + j)).toNat) k.group

/-- An array whose vector has ended: its set has its status word, and the command goes on to its next vector, or has ended. -/
def ArrayS.vectorEnd (z : ArrayS) (k : Cmd) (arr : Nat) : ArrayS :=
  let old := z.stat.get 0#64 (ctrlCset k.ctrl + k.v)
  let last := decide (ctrlNvec k.ctrl ≤ k.v + 1)
  { z with
    stat := z.stat.set (ctrlCset k.ctrl + k.v) (k.status old (k.t + 1) (z.lead k).1 (k.stops (z.lead k).2.1) (z.lead k).2.2
      (k.indicators arr k.v).1 (k.indicators arr k.v).2 (stBit old 26))
    cur := some { k with v := k.v + 1, t := 0, load := if last then 0 else 4, ended := last } }

theorem ArrayS.vectorEnd_stat_other (z : ArrayS) (k : Cmd) (arr : Nat) {n : Nat} (h : n ≠ ctrlCset k.ctrl + k.v) :
    (z.vectorEnd k arr).stat.get 0#64 n = z.stat.get 0#64 n := Tab.get_set_other _ _ _ h

theorem ArrayS.vectorEnd_cur (z : ArrayS) (k : Cmd) (arr : Nat) : (z.vectorEnd k arr).cur = some { k with
    v := k.v + 1, t := 0, ended := decide (ctrlNvec k.ctrl ≤ k.v + 1)
    load := if ctrlNvec k.ctrl ≤ k.v + 1 then 0 else 4 } := by
  simp [ArrayS.vectorEnd]

/-- An array whose vector goes on. -/
def ArrayS.vectorOn (z : ArrayS) (k : Cmd) : ArrayS := { z with cur := some { k with t := k.t + 1 } }

/-- A step of the current command: its columns gain, and its vector ends, by its length or early, or goes on. -/
theorem Task.arrayStep_of_current {t : Task} {a : Nat} {k : Cmd} (hk : (t.arr a).cur = some k) :
    t.arrayStep a = t.setArr a (if (k.stops (((t.arr a).gained k a).lead k).2.1 || decide (k.sl ≤ k.t + 1)) = true
      then ((t.arr a).gained k a).vectorEnd k a else ((t.arr a).gained k a).vectorOn k) := by
  rw [apply_ite (t.setArr a)]
  unfold Task.arrayStep
  dsimp only
  split
  next h => exact absurd (hk.symm.trans h) (Option.some_ne_none k)
  next h =>
    cases hk.symm.trans h
    rfl

/-- What a step leaves of an array. -/
theorem Task.arrayStep_reads {t : Task} {a : Nat} {k : Cmd} (hk : (t.arr a).cur = some k) :
    ∃ y, t.arrayStep a = t.setArr a y ∧ y.counts = ((t.arr a).gained k a).counts ∧
      (∀ n, n ≠ ctrlCset k.ctrl + k.v → y.stat.get 0#64 n = (t.arr a).stat.get 0#64 n) ∧
      (k.t + 1 < k.sl → k.gw = 0 → y.cur = some { k with t := k.t + 1 }) ∧
      (k.sl ≤ k.t + 1 → y.cur = some { k with
        v := k.v + 1, t := 0, ended := decide (ctrlNvec k.ctrl ≤ k.v + 1)
        load := if ctrlNvec k.ctrl ≤ k.v + 1 then 0 else 4 }) := by
  generalize hz : (t.arr a).gained k a = z
  have hstat {n : Nat} (hn : n ≠ ctrlCset k.ctrl + k.v) : z.stat.get 0#64 n = (t.arr a).stat.get 0#64 n :=
    hz ▸ (t.arr a).gained_stat_other k a hn
  refine ⟨_, Task.arrayStep_of_current hk, ?_⟩
  rw [hz]
  split
  next h =>
    refine ⟨rfl, fun n hn => (z.vectorEnd_stat_other k a hn).trans (hstat hn), fun hlt hg => ?_, fun _ => z.vectorEnd_cur k a⟩
    simp [Cmd.stops, hg, Nat.not_le.mpr hlt] at h
  next h =>
    refine ⟨rfl, fun n hn => hstat hn, fun _ _ => rfl, fun hle => ?_⟩
    simp [hle] at h

/-! ## The statement -/

/-- An event of a step counts in ASTEP and in the account of its launch, and changes the task by `arrayStep`. -/
theorem execArrayStep_of_streaming {s : State} {a : ArrayId} {t : Task} {k : Cmd} (ht : s.task? (arrCore a) = some t)
    (hk : (t.arr (arrIn a)).cur = some k) (hs : k.started = true) (he : k.ended = false) (hl : k.load = 0) :
    ∃ u, execArrayStep a s = .next u ∧ u.mem = s.mem ∧ u.task? (arrCore a) = some (t.arrayStep (arrIn a)) := by
  simp only [execArrayStep, ht, hk, hs, he, hl, Bool.not_true, Bool.or_self, bne_self_eq_false, Bool.false_eq_true, if_false]
  refine ⟨_, rfl, ?_, ?_⟩ <;> unfold State.charge <;> split
  · rfl
  · rfl
  · exact State.setTask_task_same ..
  · exact State.setTask_task_same ..

/-- Settles O52, clause by clause from the lemmas above. -/
theorem declarationsAndArraySteps : Obligations.DeclarationsAndArraySteps := by
  refine ⟨?phase, ?phq, ?opens, fun _ _ => rfl, ?arrays⟩
  case phase =>
    intro f s t hi len c
    have hlen : len = (t.srcE f.s1).toNat % 2 ^ 32 := by simp [len]
    have hu : exec (.phase f) s = .next
        ((s.setCore s.cur { s.core s.cur with decl := declare (s.imageOf t) c len f }).reposition (clusterOf s.cur)) := by
      rw [hlen]
      exact s.issueS_of_issues t f.gd _ hi
    refine ⟨_, _, hu, State.setCore_core_same .., rfl, fun h => ?_, fun h i hi r hr => ?_, fun h i hi hr => ?_⟩
    · rw [h, declare_of_zero]
    · rw [hi, declare_of_found c h hr]
    · rw [hi, declare_of_absent c h hr]
  case phq =>
    intro f s t hi
    refine ⟨_, s.issue_of_issues t f.gd _ hi, ?_⟩
    cases (s.core s.cur).decl with
    | none =>
      obtain ⟨hcov, hhalf, hzero⟩ := declWord_none (t.arr f.arr.toNat).cur (s.cluster (clusterOf s.cur)).cyc
      refine ⟨fun k hk => ?_, fun hk => ?_, fun _ => hzero, nofun⟩ <;> rw [hcov, hhalf, hk] <;> exact ⟨rfl, rfl⟩
    | some d =>
      obtain ⟨h63, h62, h61, hcov, hhalf, hfields⟩ :=
        declWord_some_fields d (t.arr f.arr.toNat).cur (s.cluster (clusterOf s.cur)).cyc
      refine ⟨fun k hk => ?_, fun hk => ?_, nofun, ?_⟩
      · rw [hcov, hhalf, hk]
        exact ⟨rfl, rfl⟩
      · rw [hcov, hhalf, hk]
        exact ⟨rfl, rfl⟩
      · rintro _ ⟨⟩
        exact ⟨h63, h62, h61, hfields⟩
  case opens =>
    intro s c d hd hv ho hf
    refine ⟨_, rfl, ?_⟩
    simp only [State.openWindow, hd, hv, ho, Nat.not_lt.mpr hf, decide_false, Bool.or_self, Bool.false_eq_true, if_false]
    exact ⟨rfl, State.setCore_core_same ..⟩
  case arrays =>
    intro s a t k c x ht hk
    refine ⟨fun cov hs he hc hd => ⟨_, rfl, State.arrayStart_of_due ht hk hs he hc hd⟩, fun hs he hl => ?_, fun he => ?_⟩
    · obtain ⟨u, hu, hmem, htask⟩ := execArrayStep_of_streaming ht hk hs he hl
      obtain ⟨y, hy, hc, hstat, hgo, hend⟩ := Task.arrayStep_reads hk
      refine ⟨u, y, hu, hmem, hy ▸ htask, fun n j hj => ?_, hstat, hgo, hend⟩
      rw [hc, ArrayS.gained_counts _ _ _ _ _ hj]
      simp only [Cmd.counted, Nat.add_eq_right, Nat.min_comm, Nat.reducePow, Nat.reduceSub]
      rfl
    · simp [exec, execArrayCommandEnd, ht, hk, he, c, x]

end Sys2Proof.Machine
end

section
/-! PROOF. Droops, trips, the clock and rail of a cluster, the watchdog, and power states (R345 to R355, R480 to R485). -/

namespace Sys2Proof.Machine

open Host.Outcome (next)

/-! ## What repositioning and catching up leave -/

/-- A state but for the regulators' targets, and cores whose tasks stay. -/
structure State.Repositioned (s u : State) : Prop where
  frame : u = { s with cores := u.cores, clusters := u.clusters }
  task : ∀ c, u.task? c = s.task? c
  cluster : ∀ cl, u.cluster cl = { s.cluster cl with pre := (u.cluster cl).pre }

theorem State.Repositioned.refl (s : State) : s.Repositioned s := ⟨rfl, fun _ => rfl, fun _ => rfl⟩

theorem State.Repositioned.trans {s u v : State} (h : s.Repositioned u) (k : u.Repositioned v) : s.Repositioned v where
  frame := by rw [k.frame, h.frame]
  task c := (k.task c).trans (h.task c)
  cluster cl := by rw [k.cluster, h.cluster]

theorem State.Repositioned.foldl {α : Type} {f : State → α → State} (hf : ∀ (s : State) a, s.Repositioned (f s a)) (l : List α)
    (s : State) : s.Repositioned (l.foldl f s) := by
  induction l generalizing s with
  | nil => exact .refl s
  | cons a l ih => exact (hf s a).trans (ih _)

theorem State.repositioned_reposition (s : State) (cl : ClusterId) : s.Repositioned (s.reposition cl) where
  frame := rfl
  task _ := rfl
  cluster d := by
    rw [State.reposition, State.setCluster_cluster_of]
    split
    · subst d
      rfl
    · rfl

/-- A core whose current task stays. -/
theorem State.repositioned_setCore {s : State} {c : CoreId} {x : CoreS} (h : x.live = (s.core c).live) :
    s.Repositioned (s.setCore c x) where
  frame := rfl
  task d := by
    rw [State.task?, State.setCore_core_of]
    split
    · subst d
      exact h
    · rfl
  cluster _ := rfl

theorem State.repositioned_openWindow (s : State) (c : CoreId) : s.Repositioned (s.openWindow c) := by
  unfold State.openWindow
  dsimp only
  split
  · split
    · exact .refl s
    · refine .trans ?_ (State.repositioned_reposition ..)
      exact State.repositioned_setCore rfl
  · exact .refl s

theorem State.repositioned_openWindows (s : State) (cl : ClusterId) : s.Repositioned (s.openWindows cl) :=
  .foldl (fun _ _ => State.repositioned_openWindow ..) _ s

theorem State.repositioned_repositionAll (s : State) : s.Repositioned s.repositionAll :=
  .foldl (fun _ _ => State.repositioned_reposition ..) _ s

/-- A clock that is brought up to the present, where it runs and has cycles behind it, and the windows that have opened. -/
theorem State.catchUp_cases (s : State) (cl : ClusterId) :
    s.catchUp cl = s ∨ (s.setCluster cl ((s.cluster cl).catchUp s.ns)).Repositioned (s.catchUp cl) := by
  unfold State.catchUp
  dsimp only
  split
  · exact .inl rfl
  · refine .inr (.trans (.foldl ?_ _ _) (State.repositioned_openWindows ..))
    intro u k
    exact State.repositioned_setCore rfl

/-- One cluster as another but for its count of cycles, its next cycle and the target of its regulator. -/
def ClusterS.Ticked (x y : ClusterS) : Prop := y = { x with cyc := y.cyc, edge := y.edge, sub := y.sub, pre := y.pre }

theorem ClusterS.Ticked.trans {x y z : ClusterS} (h : x.Ticked y) (k : y.Ticked z) : x.Ticked z := by
  unfold ClusterS.Ticked at *
  rw [k, h]

theorem State.Repositioned.ticked {s u : State} (h : s.Repositioned u) (cl : ClusterId) : (s.cluster cl).Ticked (u.cluster cl) := by
  unfold ClusterS.Ticked
  rw [h.cluster]

theorem State.catchUp_ticked (s : State) (cl d : ClusterId) : (s.cluster d).Ticked ((s.catchUp cl).cluster d) := by
  rcases s.catchUp_cases cl with h | h
  · rw [h]
    rfl
  · refine .trans ?_ (h.ticked d)
    rw [State.setCluster_cluster_of]
    split
    · subst d
      rfl
    · rfl

theorem State.catchUp_frame (s : State) (cl : ClusterId) :
    s.catchUp cl = { s with cores := (s.catchUp cl).cores, clusters := (s.catchUp cl).clusters } := by
  rcases s.catchUp_cases cl with h | h
  · rw [h]
  · rw [h.frame]
    rfl

theorem State.catchUp_task (s : State) (cl : ClusterId) (c : CoreId) : (s.catchUp cl).task? c = s.task? c := by
  rcases s.catchUp_cases cl with h | h
  · rw [h]
  · exact h.task c

/-! ## Droop and trips (R345, R346, R350, R354) -/

theorem State.foldl_count_cluster (s : State) (l : List CtxId) (r n : Nat) (cl : ClusterId) :
    (l.foldl (fun (s : State) c => s.count c r n) s).cluster cl = s.cluster cl :=
  State.foldl_keeps (fun s => s.cluster cl) l _ (fun s c => s.count_cluster c r n cl) s

theorem execDroopAlarm_of_clocked {s : State} {cl : ClusterId} (h : (s.cluster cl).clocked = true) :
    ∃ u, execDroopAlarm cl s = .next u ∧ u.mem = s.mem ∧ u.cores = s.cores ∧ u.cluster cl = { s.cluster cl with
      alarm := true, drp := if (s.cluster cl).drp = 255#8 then 255#8 else (s.cluster cl).drp + 1#8 } := by
  simp only [execDroopAlarm, h, Bool.not_true, Bool.false_eq_true, if_false]
  refine ⟨_, rfl, State.foldl_keeps State.mem _ _ (fun s c => s.count_mem c _ _) _,
    State.foldl_keeps State.cores _ _ (fun s c => s.count_cores c _ _) _, ?_⟩
  rw [State.foldl_count_cluster, State.setCluster_cluster_same]
  split
  next h => rw [h]
  next => rfl

/-! ## The point of a cluster (R348, R349, R355, R482) -/

theorem pointOk_iff (f v : Nat) :
    pointOk f v = true ↔ 600 ≤ f ∧ f ≤ 1800 ∧ f % 25 = 0 ∧ 550 ≤ v ∧ v ≤ 950 ∧ f + 1050 ≤ 3 * v := by
  simp [pointOk, and_assoc]

@[simp] theorem State.catchUp_ns (s : State) (cl : ClusterId) : (s.catchUp cl).ns = s.ns := by
  rw [s.catchUp_frame cl]
@[simp] theorem State.catchUp_fwRun (s : State) (cl : ClusterId) : (s.catchUp cl).fwRun = s.fwRun := by
  rw [s.catchUp_frame cl]

/-- A write of the point that nothing holds, with the regulator's target taken up. -/
theorem State.pointWrite_cluster {s : State} {cl : ClusterId} {freq : Bool} {v : Word} {y : ClusterS}
    (h : ((s.catchUp cl).cluster cl).pointHeld = false) (hy : ((s.catchUp cl).cluster cl).pointWrite s.fwRun freq s.ns v = y) :
    (s.pointWrite cl freq v).cluster cl = { y with pre := ((s.pointWrite cl freq v).cluster cl).pre } := by
  have hc := (State.repositioned_reposition ((s.catchUp cl).setCluster cl y) cl).cluster cl
  rw [State.setCluster_cluster_same] at hc
  simp only [State.pointWrite, h, State.catchUp_ns, State.catchUp_fwRun, hy, Bool.false_eq_true, if_false]
  exact hc

section
variable {x : ClusterS} (fw : Bool) (now : Nat) {v : Word}

theorem ClusterS.pointWrite_refused {freq : Bool} (hv : v.getLsbD 62 = false)
    (h : pointOk (if freq then v.toNat % 4096 else x.effF) (if freq then x.effV else v.toNat % 1024) = false) :
    x.pointWrite fw freq now v = { x with ref := true } := by
  simp only [ClusterS.pointWrite, hv, h, Bool.and_false, Bool.false_eq_true, if_false, Bool.not_false, Bool.true_or, if_true]

/-- A write that R348 admits, where the safe point is not in force. -/
theorem ClusterS.pointWrite_taken {freq : Bool} (hv : v.getLsbD 62 = false) (hs : x.safe = false) (hp : x.safePend = false)
    (h : pointOk (if freq then v.toNat % 4096 else x.effF) (if freq then x.effV else v.toNat % 1024) = true) :
    x.pointWrite fw freq now v =
      let f := if freq then v.toNat % 4096 else x.effF
      let mv := if freq then x.effV else v.toNat % 1024
      if !x.isOn then (if freq then { x with nextF := some f } else { x with nextV := some mv })
      else if f = x.fmhz.toNat ∧ mv = x.vset.toNat then x
      else
        let x := { x with safe := false, vset := BitVec.ofNat 10 mv }
        if f = x.fmhz.toNat then x else x.setClock now f := by
  simp only [ClusterS.pointWrite, hv, hs, hp, h, Bool.and_false, Bool.false_eq_true, if_false, Bool.or_self, Bool.false_and,
    Bool.not_true]

end

/-- Nothing that waited acts where nothing waits. -/
theorem ClusterS.afterHold_of_none {x : ClusterS} (fw : Bool) (now : Nat) (hp : x.safePend = false) (hw : x.pendW = []) :
    x.afterHold fw now = x := by
  have hx : ({ x with pendW := [] } : ClusterS) = x := by rw [← hw]
  have ha : x.afterHold fw now = ({ x with pendW := [] } : ClusterS) := by
    simp only [ClusterS.afterHold, hw, hp, Bool.false_and, Bool.false_eq_true, if_false, ClusterS.pointWrites]
  exact ha.trans hx

/-- A cluster whose clock starts again after it has stood for `n` ns. -/
def ClusterS.relocked (x : ClusterS) (n now : Nat) : ClusterS :=
  let k := n * x.fmhz.toNat / 1000
  { x with
    busy := false, cyc := x.cyc + k, lastStart := x.lastStart.map (fun m => m + k), edge := now, sub := 0
    vset := if x.safeV then 800#10 else x.vset, safeV := false }

theorem execRelockDone_of_not {s : State} {cl : ClusterId} {n : Nat}
    (h : (s.cluster cl).busy = false ∨ n ≠ s.ns - (s.cluster cl).stopAt ∨ 2000 < n) : execRelockDone cl n s = .next s := by
  have hc : (!(s.cluster cl).busy || n != s.ns - (s.cluster cl).stopAt || decide (relockMost < n)) = true := by
    show (_ || _ || decide (2000 < n)) = true
    simpa [or_assoc] using h
  simp only [execRelockDone, hc, if_true]

/-- The tasks of a cluster with their counts of cycles raised. -/
def State.cycled (s : State) (cl : ClusterId) (n : Nat) : State :=
  (List.range 4).foldl (fun (s : State) k => s.mapTask (clusterCore cl k) (fun t => { t with cyc := t.cyc + n })) s

theorem State.cycled_cluster (s : State) (cl : ClusterId) (n : Nat) (d : ClusterId) : (s.cycled cl n).cluster d = s.cluster d :=
  State.foldl_keeps (fun s => s.cluster d) _ _ (fun s k => by unfold State.mapTask; split <;> rfl) s

theorem State.cycled_mem (s : State) (cl : ClusterId) (n : Nat) : (s.cycled cl n).mem = s.mem :=
  State.foldl_keeps State.mem _ _ (fun s k => by unfold State.mapTask; split <;> rfl) s

/-- A relock that ends where nothing waited for it. -/
theorem execRelockDone_of_done {s : State} {cl : ClusterId} {n : Nat} (hb : (s.cluster cl).busy = true)
    (hn : n = s.ns - (s.cluster cl).stopAt) (hm : n ≤ 2000) (hp : (s.cluster cl).safePend = false)
    (hw : (s.cluster cl).pendW = []) :
    ∃ u, execRelockDone cl n s = .next u ∧ u.mem = s.mem ∧
      u.cluster cl = { (s.cluster cl).relocked n s.ns with pre := (u.cluster cl).pre } := by
  have hc : (!(s.cluster cl).busy || n != s.ns - (s.cluster cl).stopAt || decide (relockMost < n)) = false := by
    show (_ || _ || decide (2000 < n)) = false
    rw [hb, ← hn]
    simp [hm]
  let y := (s.cluster cl).relocked n s.ns
  have hy : (if y.pointHeld = true then y else y.afterHold s.fwRun s.ns) = y := by
    rw [y.afterHold_of_none _ _ hp hw, ite_self]
  let v (z : ClusterS) : State := (s.setCluster cl z).cycled cl (n * (s.cluster cl).fmhz.toNat / 1000)
  have hu : execRelockDone cl n s =
      .next (((v (if y.pointHeld = true then y else y.afterHold s.fwRun s.ns)).openWindows cl).reposition cl) := by
    simp only [execRelockDone, hc, Bool.false_eq_true, if_false]
    rfl
  rw [hy] at hu
  have hr := ((v y).repositioned_openWindows cl).trans (State.repositioned_reposition _ cl)
  refine ⟨_, hu, ?_, ?_⟩
  · rw [hr.frame]
    exact State.cycled_mem ..
  · refine (hr.cluster cl).trans ?_
    rw [State.cycled_cluster, State.setCluster_cluster_same]

/-! ## The watchdog (R355, R485) -/

theorem wdogKey_iff (v : Word) : v.toNat / 2 ^ 48 = 0xA5C3 ↔ v.extractLsb' 48 16 = 0xA5C3#16 := by
  have hv := v.isLt
  rw [← BitVec.toNat_inj, BitVec.extractLsb'_toNat, Nat.shiftRight_eq_div_pow]
  simp only [BitVec.toNat_ofNat]
  omega

theorem execWatchdogKick_of_key {s : State} {m : Master} {v : Word} (hm : (m = .B) = (s.pfsel = true))
    (hk : v.extractLsb' 48 16 = 0xA5C3#16) (hs : 2 ≤ s.stage) :
    ∃ u, execWatchdogKick m v s = .next u ∧ u.wdogRun = true ∧ u.fwRun = true ∧ u.wdogLeft = 5000000 ∧
      u.wdogExp = (s.wdogExp && !v.getLsbD 32) := by
  let s' : State := { s with wdogExp := s.wdogExp && !v.getLsbD 32, wdogLeft := 5000000, wdogRun := true, fwRun := true }
  have hu : s.wdogWrite m v = if s.fwRun then s' else s'.repositionAll := by
    simp only [State.wdogWrite, (s.named?_iff m).mpr hm, Bool.not_true, Bool.false_eq_true, if_false,
      (wdogKey_iff v).mpr hk, hs, and_self, if_true]
    rfl
  refine ⟨_, congrArg next hu, ?_⟩
  split
  · exact ⟨rfl, rfl, rfl, rfl⟩
  · rw [(State.repositioned_repositionAll s').frame]
    exact ⟨rfl, rfl, rfl, rfl⟩

theorem execWatchdogKick_of_early {s : State} {m : Master} {v : Word} (hm : (m = .B) = (s.pfsel = true)) (hs : s.stage < 2) :
    execWatchdogKick m v s = .next { s with wdogExp := s.wdogExp && !v.getLsbD 32 } := by
  simp only [execWatchdogKick, State.wdogWrite, (s.named?_iff m).mpr hm, Bool.not_true, Bool.false_eq_true, if_false,
    Nat.not_le.mpr hs, and_false]

theorem execWatchdogKick_of_not_named {s : State} {m : Master} {v : Word} (hm : (m = .B) ≠ (s.pfsel = true)) :
    execWatchdogKick m v s = .next s := by
  have hn : s.named? m = false := by rw [← Bool.not_eq_true, State.named?_iff]; exact hm
  simp only [execWatchdogKick, State.wdogWrite, hn, Bool.not_false, if_true]

/-- What an expired watchdog does to one cluster (R355, R485). -/
def State.expireAt (s : State) (cl : ClusterId) : State :=
  let s := s.catchUp cl
  let x := s.cluster cl
  (s.setCluster cl (if x.clocked then x.safePoint s.ns else { x with safePend := true, nextF := none, nextV := none })).reposition cl

theorem State.expireAt_frame (s : State) (cl : ClusterId) :
    s.expireAt cl = { s with cores := (s.expireAt cl).cores, clusters := (s.expireAt cl).clusters } := by
  rw [State.expireAt, s.catchUp_frame cl]
  rfl

theorem State.expireAt_other (s : State) {cl d : ClusterId} (h : d ≠ cl) : (s.cluster d).Ticked ((s.expireAt cl).cluster d) := by
  refine (s.catchUp_ticked cl d).trans (.trans ?_ ((State.repositioned_reposition _ cl).ticked d))
  rw [State.setCluster_cluster_of, if_neg h]
  rfl

/-- The safe point of a running cluster, in the order of R348, or what waits for the next wake of any other. -/
def ClusterS.Safe (x y : ClusterS) : Prop :=
  (x.clocked = true → y.safe = true ∧ y.fmhz = 1000#12 ∧
    (if 1000 < x.fmhz.toNat then y.busy = true ∧ y.safeV = true ∧ y.vset = x.vset else y.vset = 800#10)) ∧
  (x.clocked = false → y.safePend = true ∧ y.fmhz = x.fmhz)

theorem ClusterS.safePoint_safe (x : ClusterS) (now : Nat) (h : x.clocked = true) : x.Safe (x.safePoint now) := by
  refine ⟨fun _ => ?_, fun hc => absurd (h.symm.trans hc) Bool.true_eq_false.mp⟩
  unfold ClusterS.safePoint
  dsimp only
  split
  · exact ⟨rfl, rfl, rfl, rfl, rfl⟩
  · split
    next hf => exact ⟨rfl, hf, rfl⟩
    next => exact ⟨rfl, rfl, rfl⟩

/-- Ticks of a clock before and after the safe point is taken leave it taken. -/
theorem ClusterS.Safe.ticked {x x' y y' : ClusterS} (h : x'.Safe y) (hx : x.Ticked x') (hy : y.Ticked y') : x.Safe y' := by
  unfold ClusterS.Ticked at hx hy
  rw [hx] at h
  rw [hy]
  exact h

theorem State.expireAt_same (s : State) (cl : ClusterId) : (s.cluster cl).Safe ((s.expireAt cl).cluster cl) := by
  let x := (s.catchUp cl).cluster cl
  let y := if x.clocked then x.safePoint (s.catchUp cl).ns else { x with safePend := true, nextF := none, nextV := none }
  have hxy : x.Safe y := by
    cases hc : x.clocked with
    | true => simpa only [y, hc, if_true] using x.safePoint_safe _ hc
    | false => exact ⟨fun h => absurd (hc.symm.trans h) Bool.false_ne_true, fun _ => by simp [y, hc]⟩
  have hr := (State.repositioned_reposition ((s.catchUp cl).setCluster cl y) cl).ticked cl
  rw [State.setCluster_cluster_same] at hr
  exact hxy.ticked (s.catchUp_ticked cl cl) hr

/-- Clusters taken one by one: each is brought to its safe point once, and ticks before and after. -/
theorem State.foldl_expireAt (l : List ClusterId) (hl : l.Nodup) (s : State) (d : ClusterId) :
    (d ∉ l → (s.cluster d).Ticked ((l.foldl State.expireAt s).cluster d)) ∧
      (d ∈ l → (s.cluster d).Safe ((l.foldl State.expireAt s).cluster d)) := by
  induction l generalizing s with
  | nil => exact ⟨fun _ => rfl, nofun⟩
  | cons c l ih =>
    obtain ⟨hc, hl⟩ := List.nodup_cons.mp hl
    obtain ⟨hout, hin⟩ := ih hl (s.expireAt c)
    refine ⟨fun hd => ?_, fun hd => ?_⟩
    · obtain ⟨hdc, hdl⟩ := not_or.mp (List.mem_cons.not.mp hd)
      exact (s.expireAt_other hdc).trans (hout hdl)
    · by_cases hdc : d = c
      · subst d
        exact (s.expireAt_same c).ticked rfl (hout hc)
      · exact (hin ((List.mem_cons.mp hd).resolve_left hdc)).ticked (s.expireAt_other hdc) rfl

/-- The clusters of the module. -/
def allClusters : List ClusterId := (List.range 256).map (Fin.ofNat 256)

theorem allClusters_nodup : allClusters.Nodup := by
  refine List.Nodup.map_on (fun i hi j hj h => ?_) List.nodup_range
  have hv := congrArg Fin.val h
  simpa [Nat.mod_eq_of_lt, List.mem_range.mp hi, List.mem_range.mp hj] using hv

theorem mem_allClusters (cl : ClusterId) : cl ∈ allClusters :=
  List.mem_map.mpr ⟨cl.val, List.mem_range.mpr cl.isLt, Fin.ext (Nat.mod_eq_of_lt cl.isLt)⟩

/-- The start of an expiry: EXP is set, and neither the watchdog nor firmware runs. -/
def State.expired (s : State) : State := { s with wdogExp := true, wdogRun := false, fwRun := false }

/-- Every cluster of a list is taken once. -/
theorem State.foldl_expireAt_all {l : List ClusterId} (hl : l.Nodup) (ha : ∀ cl, cl ∈ l) (s : State) :
    ((l.foldl State.expireAt s.expired).interrupt .watchdog).wdogExp = true ∧
      ((l.foldl State.expireAt s.expired).interrupt .watchdog).fwRun = false ∧
      ∀ cl, (s.cluster cl).Safe (((l.foldl State.expireAt s.expired).interrupt .watchdog).cluster cl) :=
  ⟨State.foldl_keeps State.wdogExp l State.expireAt (fun u c => by rw [u.expireAt_frame c]) s.expired,
    State.foldl_keeps State.fwRun l State.expireAt (fun u c => by rw [u.expireAt_frame c]) s.expired,
    fun cl => (State.foldl_expireAt l hl s.expired cl).2 (ha cl)⟩

theorem execWatchdogExpire_due {s : State} (hr : s.wdogRun = true) (hl : s.wdogLeft = 0) :
    execWatchdogExpire s = .next ((allClusters.foldl State.expireAt s.expired).interrupt .watchdog) := by
  have hc : (!s.wdogRun || s.wdogLeft != 0) = false := by simp [hr, hl]
  rw [execWatchdogExpire, hc, if_neg Bool.false_ne_true, allClusters, List.foldl_map]
  generalize List.range 256 = l
  rfl

theorem execWatchdogExpire_of_due {s : State} (hr : s.wdogRun = true) (hl : s.wdogLeft = 0) :
    ∃ u, execWatchdogExpire s = .next u ∧ u.wdogExp = true ∧ u.fwRun = false ∧ ∀ cl, (s.cluster cl).Safe (u.cluster cl) :=
  ⟨_, execWatchdogExpire_due hr hl, State.foldl_expireAt_all allClusters_nodup mem_allClusters s⟩

theorem execWatchdogExpire_of_not {s : State} (h : s.wdogRun = false ∨ s.wdogLeft ≠ 0) : execWatchdogExpire s = .next s := by
  have hc : (!s.wdogRun || s.wdogLeft != 0) = true := by simpa using h
  simp only [execWatchdogExpire, hc, if_true]

/-! ## Power states (R480 to R483) -/

section
variable {s : State} {cl : ClusterId} {tgt : BitVec 3}

theorem State.powerCommand_refused (h : (s.cluster cl).pbusy = true ∨ 4 ≤ tgt.toNat) :
    s.powerCommand cl tgt = s.setCluster cl { s.cluster cl with pref := true } := by
  have hc : ((s.cluster cl).pbusy || decide (4 ≤ tgt.toNat)) = true := by simpa using h
  simp only [State.powerCommand, hc, Bool.true_or, if_true]

theorem State.powerCommand_same (hb : (s.cluster cl).pbusy = false) (ht : tgt = (s.cluster cl).pst) (h0 : tgt = 0#3) :
    s.powerCommand cl tgt = s.setCluster cl { s.cluster cl with tgt := tgt } := by
  subst h0
  simp [State.powerCommand, hb, ← ht]

/-- A command to CLOCK-GATED that the cluster's quiesced cores allow. -/
theorem State.powerCommand_gate (hb : (s.cluster cl).pbusy = false) (hp : (s.cluster cl).pst = 0#3) (hq : s.quiesced cl = true) :
    ((s.powerCommand cl 1#3).cluster cl).pbusy = true ∧ ((s.powerCommand cl 1#3).cluster cl).goal = 1#3 ∧
      ((s.powerCommand cl 1#3).cluster cl).pst = (s.cluster cl).pst ∧ ∀ c, (s.powerCommand cl 1#3).task? c = s.task? c := by
  have hu : s.powerCommand cl 1#3 = (s.catchUp cl).setCluster cl { (s.catchUp cl).cluster cl with
      tgt := 1#3, pbusy := true, goal := 1#3
      alarm := false, strOn := false, stretch := 0, hiwOn := false, hiw := 0, hiwPos := 0 } := by
    simp [State.powerCommand, hb, hp, hq]
  rw [hu, State.setCluster_cluster_same]
  refine ⟨rfl, rfl, ?_, s.catchUp_task cl⟩
  rw [s.catchUp_ticked cl cl]

theorem State.clusterWake_of_queued (hb : (s.cluster cl).pbusy = true) (hg : (s.cluster cl).goal ≠ 0#3) :
    s.clusterWake cl = s.setCluster cl { s.cluster cl with wkp := true } := by
  simp only [State.clusterWake, hb, hg, if_true, if_false]

theorem State.clusterWake_of_starts (hb : (s.cluster cl).pbusy = false) (hp : (s.cluster cl).pst ≠ 0#3) :
    s.clusterWake cl = s.setCluster cl (s.cluster cl).startWake := by
  simp only [State.clusterWake, hb, hp, Bool.false_eq_true, if_false]

theorem ClusterS.startWake_fmhz (x : ClusterS) :
    (∀ f, x.nextF = some f → x.startWake.fmhz = BitVec.ofNat 12 f) ∧
      (x.nextF = none → x.startWake.fmhz = if x.safePend then 1000#12 else x.fmhz) := by
  refine ⟨fun f h => ?_, fun h => ?_⟩
  · simp only [ClusterS.startWake, ClusterS.effF, h, Option.getD_some]
  · simp only [ClusterS.startWake, ClusterS.effF, h, Option.getD_none]
    split <;> simp

theorem ClusterS.startWake_vset (x : ClusterS) :
    (∀ f, x.nextV = some f → x.startWake.vset = BitVec.ofNat 10 f) ∧
      (x.nextV = none → x.startWake.vset = if x.safePend then 800#10 else x.vset) := by
  refine ⟨fun f h => ?_, fun h => ?_⟩
  · simp only [ClusterS.startWake, ClusterS.effV, h, Option.getD_some]
  · simp only [ClusterS.startWake, ClusterS.effV, h, Option.getD_none]
    split <;> simp

/-- The logic state of a wake is back: after OFF the logic of each core comes under test. -/
theorem State.logicRestored_tests (hb : (s.cluster cl).pbusy = true) (hg : (s.cluster cl).goal = 0#3)
    (hw : (s.cluster cl).wkStep = 0) :
    (s.logicRestored cl).tests = if (s.cluster cl).pst = 3#3
      then s.tests ++ (List.range 4).map (fun k => (ErrUnit.coreLogic (clusterCore cl k), false)) else s.tests := by
  simp only [State.logicRestored, hb, hg, hw, Bool.not_true, Bool.false_eq_true, if_false, ne_eq, not_true_eq_false]
  split <;> rfl

/-- The relock of a wake begins, after RETENTION, OFF and a clock written meanwhile. -/
theorem State.wakeRelock_cluster (hb : (s.cluster cl).pbusy = true) (hg : (s.cluster cl).goal = 0#3)
    (hw : (s.cluster cl).wkStep = 1) (ht : s.clusterTests cl = false) :
    ((s.wakeRelock cl).cluster cl).wkStep = 2 ∧ ((s.wakeRelock cl).cluster cl).busy =
      ((s.cluster cl).busy || decide (2 ≤ (s.cluster cl).pst.toNat) || (s.cluster cl).nextF.isSome) := by
  simp only [State.wakeRelock, hb, hg, hw, ht, BEq.rfl, Bool.and_self, Bool.not_false, if_true, State.setCluster_cluster_same]
  split
  next h =>
    rw [Bool.or_assoc, h, Bool.or_true]
    exact ⟨rfl, rfl⟩
  next h =>
    rw [Bool.or_assoc, Bool.eq_false_iff.mpr h, Bool.or_false]
    exact ⟨rfl, rfl⟩

end

/-- What the writes of a point leave of a cluster's power state. -/
structure ClusterS.SameState (x y : ClusterS) : Prop where
  pst : y.pst = x.pst
  pbusy : y.pbusy = x.pbusy
  saved : y.saved = x.saved

theorem ClusterS.SameState.trans {x y z : ClusterS} (h : x.SameState y) (k : y.SameState z) : x.SameState z :=
  ⟨k.pst.trans h.pst, k.pbusy.trans h.pbusy, k.saved.trans h.saved⟩

theorem ClusterS.sameState_pointWrite (x : ClusterS) (fw freq : Bool) (now : Nat) (v : Word) :
    x.SameState (x.pointWrite fw freq now v) := by
  unfold ClusterS.pointWrite ClusterS.setClock
  dsimp only
  constructor <;> split_ifs <;> rfl

theorem ClusterS.sameState_safePoint (x : ClusterS) (now : Nat) : x.SameState (x.safePoint now) := by
  unfold ClusterS.safePoint ClusterS.setClock
  dsimp only
  constructor <;> split_ifs <;> rfl

theorem ClusterS.sameState_pointWrites (fw : Bool) (now : Nat) (l : List (Bool × Word)) (x : ClusterS) :
    x.SameState (x.pointWrites fw now l) := by
  induction l generalizing x with
  | nil => exact ⟨rfl, rfl, rfl⟩
  | cons w l ih =>
    rw [ClusterS.pointWrites]
    split
    · exact ⟨rfl, rfl, rfl⟩
    · exact (x.sameState_pointWrite fw w.1 now w.2).trans (ih _)

theorem ClusterS.sameState_afterHold (x : ClusterS) (fw : Bool) (now : Nat) : x.SameState (x.afterHold fw now) := by
  have h : x.SameState ({ x with pendW := [] } : ClusterS) := ⟨rfl, rfl, rfl⟩
  refine h.trans (.trans ?_ (ClusterS.sameState_pointWrites fw now _ _))
  split
  · exact ClusterS.sameState_safePoint _ now
  · exact ⟨rfl, rfl, rfl⟩

section
variable {s : State} {cl : ClusterId}

theorem ClusterS.mayEnd_iff (x : ClusterS) :
    x.mayEnd = true ↔ x.pbusy = true ∧ (x.goal ≠ 0#3 ∨ x.wkStep = 2 ∧ x.busy = false) := by
  simp [ClusterS.mayEnd]

theorem State.transitionDone_of_not (h : ¬ (s.cluster cl).mayEnd = true) : s.transitionDone cl = s := by
  simp only [State.transitionDone, h, Bool.not_false, if_true]

/-- The cluster at the end of its transition. -/
def ClusterS.arrived (x : ClusterS) : ClusterS := { x.moved with pst := x.goal }

theorem State.transitionDone_of_queued (h : (s.cluster cl).mayEnd = true) (hw : (s.cluster cl).wkp = true) :
    s.transitionDone cl = s.setCluster cl { (s.cluster cl).arrived with wkp := false }.startWake := by
  simp only [State.transitionDone, h, Bool.not_true, Bool.false_eq_true, if_false]
  exact if_pos hw

theorem State.transitionDone_state (h : (s.cluster cl).mayEnd = true) (hw : (s.cluster cl).wkp = false) :
    ({ (s.cluster cl).arrived with pbusy := false } : ClusterS).SameState ((s.transitionDone cl).cluster cl) := by
  let x := (s.cluster cl).arrived
  have ht : s.transitionDone cl = if x.goal = 0#3
      then (s.setCluster cl ({ x with pbusy := false, edge := s.ns, sub := 0 }.afterHold s.fwRun s.ns)).reposition cl
      else (s.setCluster cl { x with pbusy := false }).reposition cl := by
    simp only [State.transitionDone, h, Bool.not_true, Bool.false_eq_true, if_false]
    exact if_neg (Bool.eq_false_iff.mp hw)
  rw [ht]
  split
  · rw [(State.repositioned_reposition _ cl).cluster, State.setCluster_cluster_same]
    have ha := ({ x with pbusy := false, edge := s.ns, sub := 0 } : ClusterS).sameState_afterHold s.fwRun s.ns
    exact ⟨ha.pst, ha.pbusy, ha.saved⟩
  · rw [(State.repositioned_reposition _ cl).cluster, State.setCluster_cluster_same]
    exact ⟨rfl, rfl, rfl⟩

end

/-- A word's clock and rail fields as numbers. -/
theorem pointFields (v : Word) :
    (v.extractLsb' 0 12).toNat = v.toNat % 4096 ∧ (v.extractLsb' 0 10).toNat = v.toNat % 1024 := by
  simp [BitVec.extractLsb'_toNat]

/-- A write of a point outside R348. -/
theorem ClusterS.pointWrite_of_not {x : ClusterS} (fw freq : Bool) (now : Nat) {v : Word} (hv : v.getLsbD 62 = false)
    (h : ¬ pointOk (if freq then v.toNat % 4096 else x.effF) (if freq then x.effV else v.toNat % 1024) = true) :
    x.pointWrite fw freq now v = { x with ref := true } := x.pointWrite_refused fw now hv (Bool.eq_false_iff.mpr h)

section
variable {s : State} {cl : ClusterId} {v : Word}

/-- A write of the clock that nothing holds, and one of the rail. -/
theorem execClockSet_cluster {y : ClusterS} (h : ((s.catchUp cl).cluster cl).pointHeld = false)
    (hy : ((s.catchUp cl).cluster cl).pointWrite s.fwRun true s.ns v = y) :
    ∃ u, execClockSet cl v s = .next u ∧ u.cluster cl = { y with pre := (u.cluster cl).pre } :=
  ⟨_, rfl, State.pointWrite_cluster h hy⟩

theorem execVsetWrite_cluster {y : ClusterS} (h : ((s.catchUp cl).cluster cl).pointHeld = false)
    (hy : ((s.catchUp cl).cluster cl).pointWrite s.fwRun false s.ns v = y) :
    ∃ u, execVsetWrite cl v s = .next u ∧ u.cluster cl = { y with pre := (u.cluster cl).pre } :=
  ⟨_, rfl, State.pointWrite_cluster h hy⟩

end

section
variable {x : ClusterS} (fw : Bool) (now : Nat) {v : Word} (hs : x.safe = false) (hp : x.safePend = false)
  (hv : v.getLsbD 62 = false)
include hs hp hv

/-- A write of the point while the cluster is not ON is kept for its next wake (R482). -/
theorem ClusterS.pointWrite_clock_off (ho : x.isOn = false) (h : pointOk (v.toNat % 4096) x.effV = true) :
    x.pointWrite fw true now v = { x with nextF := some (v.toNat % 4096) } :=
  (ClusterS.pointWrite_taken fw now (freq := true) hv hs hp h).trans (by simp only [ho, Bool.not_false, if_true])

theorem ClusterS.pointWrite_rail_off (ho : x.isOn = false) (h : pointOk x.effF (v.toNat % 1024) = true) :
    x.pointWrite fw false now v = { x with nextV := some (v.toNat % 1024) } :=
  (ClusterS.pointWrite_taken fw now (freq := false) hv hs hp h).trans
    (by simp only [ho, Bool.not_false, Bool.false_eq_true, if_true, if_false])

/-- A change of the clock of a cluster that is ON starts a relock (R349). -/
theorem ClusterS.pointWrite_clock_on (ho : x.isOn = true) (he : x.effV = x.vset.toNat)
    (h : pointOk (v.toNat % 4096) x.effV = true) (hne : v.toNat % 4096 ≠ x.fmhz.toNat) :
    x.pointWrite fw true now v = { x with fmhz := v.extractLsb' 0 12, busy := true, stopAt := now } := by
  have hx : v.extractLsb' 0 12 = BitVec.ofNat 12 (v.toNat % 4096) := by
    apply BitVec.eq_of_toNat_eq
    rw [(pointFields v).1, BitVec.toNat_ofNat, Nat.mod_mod]
  refine (ClusterS.pointWrite_taken fw now (freq := true) hv hs hp h).trans ?_
  simp only [ho, hne, he, hx, ClusterS.setClock, Bool.not_true, Bool.false_eq_true, if_true, if_false, false_and,
    BitVec.ofNat_toNat, BitVec.setWidth_eq]
  rw [← hs]

/-- A write of the rail of a cluster that is ON. -/
theorem ClusterS.pointWrite_rail_on (ho : x.isOn = true) (he : x.effF = x.fmhz.toNat)
    (h : pointOk x.effF (v.toNat % 1024) = true) :
    x.pointWrite fw false now v = { x with vset := v.extractLsb' 0 10 } := by
  have hx : v.extractLsb' 0 10 = BitVec.ofNat 10 (v.toNat % 1024) := by
    apply BitVec.eq_of_toNat_eq
    rw [(pointFields v).2, BitVec.toNat_ofNat, Nat.mod_mod]
  refine (ClusterS.pointWrite_taken fw now (freq := false) hv hs hp h).trans ?_
  simp only [ho, he, hx, Bool.not_true, Bool.false_eq_true, if_true, if_false, true_and]
  split
  next hm => rw [hm, BitVec.ofNat_toNat, BitVec.setWidth_eq]
  next => rw [← hs]

end

/-- Settles O20: each event by the lemma about its function, and a write of a point by whether R348 admits it. -/
theorem executionPowerEvents : Obligations.ExecutionPowerEvents := by
  unfold Obligations.ExecutionPowerEvents
  refine ⟨fun s cl => ⟨execDroopAlarm_of_clocked, fun h => ?_, fun hs h => ?_, fun hs h => ?_, rfl, fun h => ?_, rfl⟩,
    fun s cl v hh hs hp hv => ⟨fun ho => ?_, fun ho hf hn => ?_⟩, fun _ _ _ => execRelockDone_of_not,
    fun s cl n hb hn hm hp hw => ?_,
    fun s m v => ⟨execWatchdogKick_of_key, execWatchdogKick_of_early, execWatchdogKick_of_not_named⟩,
    fun s => ⟨execWatchdogExpire_of_not, fun hr hl => ?_⟩, fun _ _ _ => rfl, fun s cl tgt => ⟨fun h => ?_, fun hb ht h0 => ?_,
      fun hb hp ht hq => ?_, fun hb hg => ?_, fun hb hp => ?_, State.logicRestored_tests, State.wakeRelock_cluster,
      fun h => ?_, fun hb hg hw => ?_, fun hb hg hw => ?_⟩⟩
  · simp only [State.droopCycle, h, if_true, State.setCluster_cluster_same]
    rfl
  · show execStretchEnd cl s = _
    simp only [execStretchEnd, hs, h, BEq.rfl, Bool.and_self, if_true]
  · show execHalfIssueWindowEnd cl s = _
    simp only [execHalfIssueWindowEnd, hs, h, BEq.rfl, Bool.and_self, if_true]
  · exact if_neg (Nat.not_le.mpr h)
  · refine ⟨fun h => ?_, fun h => ?_⟩
    · rw [(pointFields v).1] at h ⊢
      exact execClockSet_cluster hh (ClusterS.pointWrite_clock_off s.fwRun s.ns hs hp hv ho ((pointOk_iff ..).mpr h))
    · rw [(pointFields v).2] at h ⊢
      exact execVsetWrite_cluster hh (ClusterS.pointWrite_rail_off s.fwRun s.ns hs hp hv ho ((pointOk_iff ..).mpr h))
  · have heF : ((s.catchUp cl).cluster cl).effF = ((s.catchUp cl).cluster cl).fmhz.toNat := by simp [ClusterS.effF, hf, hp]
    have heV : ((s.catchUp cl).cluster cl).effV = ((s.catchUp cl).cluster cl).vset.toNat := by simp [ClusterS.effV, hn, hp]
    simp only [(pointFields v).1, (pointFields v).2, ← pointOk_iff]
    refine ⟨fun h => ?_, fun h hne => ?_, fun h => ?_, fun h => ?_⟩
    · rw [← heV] at h
      exact execClockSet_cluster hh (ClusterS.pointWrite_of_not s.fwRun true s.ns hv h)
    · rw [← heV] at h
      exact execClockSet_cluster hh (ClusterS.pointWrite_clock_on s.fwRun s.ns hs hp hv ho heV h hne)
    · rw [← heF] at h
      exact execVsetWrite_cluster hh (ClusterS.pointWrite_of_not s.fwRun false s.ns hv h)
    · rw [← heF] at h
      exact execVsetWrite_cluster hh (ClusterS.pointWrite_rail_on s.fwRun s.ns hs hp hv ho heF h)
  · obtain ⟨u, hu, hm, hx⟩ := execRelockDone_of_done hb hn hm hp hw
    refine ⟨u, hu, hm, ?_⟩
    rw [hx]
    exact ⟨rfl, rfl, rfl, rfl, rfl⟩
  · obtain ⟨u, hu, he, hf, hs⟩ := execWatchdogExpire_of_due hr hl
    exact ⟨u, hu, he, hf, fun cl => (hs cl).1, fun cl => (hs cl).2⟩
  · exact congrArg next (State.powerCommand_refused h)
  · exact congrArg next (State.powerCommand_same hb ht h0)
  · subst ht
    exact ⟨_, rfl, State.powerCommand_gate hb hp hq⟩
  · exact congrArg next (State.clusterWake_of_queued hb hg)
  · obtain ⟨hf, hf'⟩ := (s.cluster cl).startWake_fmhz
    obtain ⟨hv, hv'⟩ := (s.cluster cl).startWake_vset
    exact ⟨_, congrArg next (State.clusterWake_of_starts hb hp), rfl, rfl, rfl, rfl, rfl, hf, hv, hf', hv'⟩
  · refine congrArg next (State.transitionDone_of_not fun hc => ?_)
    obtain ⟨hb, hg⟩ := (ClusterS.mayEnd_iff _).mp hc
    rcases h with h | ⟨h0, h⟩
    · exact Bool.false_ne_true (h.symm.trans hb)
    · obtain ⟨h2, hbusy⟩ := hg.resolve_left (absurd h0 ·)
      exact h.elim (absurd h2 ·) fun h => Bool.false_ne_true (hbusy.symm.trans h)
  · exact ⟨_, congrArg next (State.transitionDone_of_queued ((ClusterS.mayEnd_iff _).mpr ⟨hb, hg⟩) hw), rfl, rfl, rfl, rfl, rfl⟩
  · obtain ⟨hp, hb, hs⟩ := State.transitionDone_state ((ClusterS.mayEnd_iff _).mpr ⟨hb, hg⟩) hw
    exact ⟨_, rfl, hp, hb, hs⟩

end Sys2Proof.Machine
end

section
/-! PROOF. Token records of a slice, and what claims, splits, joins and queries do with them (R361, R371, R372,
R384, R390 to R393). -/

namespace Sys2Proof.Machine

/-! ## Tables of records -/

/-- The first entry of a number that a filter keeps is found as before. -/
theorem Tab.find_filter_of_find {α : Type} {t : Tab α} {k : Nat} {v : α} (h : t.find k = some v) {p : Nat × α → Bool}
    (hp : p (k, v) = true) : Tab.find (t.filter p) k = some v := by
  induction t with
  | nil => exact h
  | cons e t ih =>
    obtain ⟨j, w⟩ := e
    rw [Tab.find] at h
    split at h
    next hk =>
      obtain rfl := Option.some.inj h
      subst hk
      rw [List.filter_cons_of_pos hp, Tab.find, if_pos rfl]
    next hk =>
      rw [List.filter_cons]
      split
      · rw [Tab.find, if_neg hk, ih h]
      · exact ih h

/-- Entries changed where they stand. -/
theorem Tab.find_map_if {α : Type} (t : Tab α) (k : Nat) (p : α → Bool) (g : α → α) :
    Tab.find (t.map (fun e => if p e.2 then (e.1, g e.2) else e)) k = (t.find k).map (fun v => if p v then g v else v) := by
  induction t with
  | nil => rfl
  | cons e t ih =>
    obtain ⟨j, w⟩ := e
    cases hp : p w <;> by_cases hk : k = j <;> simp [Tab.find, hp, hk, ih]

/-- The search for a free record looks at the numbers alone. -/
theorem freeTok_congr {t u : Tab TokRec} (h : ∀ k, (t.find k).isNone = (u.find k).isNone) (n k : Nat) :
    freeTok t n k = freeTok u n k := by
  induction n generalizing k with
  | zero => rfl
  | succ n ih => simp only [freeTok, h, ih]

theorem find_of_freeTok {t : Tab TokRec} {n k e : Nat} (h : freeTok t n k = some e) : t.find e = none := by
  induction n generalizing k with
  | zero => exact absurd h (by simp [freeTok])
  | succ n ih =>
    rw [freeTok] at h
    split at h
    next hk =>
      obtain rfl := Option.some.inj h
      exact Option.isNone_iff_eq_none.mp hk
    next => exact ih h

theorem StackS.find_of_newTok {x : StackS} {c : CoreId} {naks k : Nat} (h : x.newTok c naks = some k) : x.toks.find k = none := by
  unfold StackS.newTok at h
  split at h
  next e he =>
    obtain rfl := Option.some.inj h
    exact find_of_freeTok he
  next =>
    split at h
    next hc =>
      obtain rfl := Option.some.inj h
      exact Option.isNone_iff_eq_none.mp hc.2
    next => exact absurd h nofun

theorem StackS.newTok_congr {x y : StackS} (h : ∀ k, (x.toks.find k).isNone = (y.toks.find k).isNone) (c : CoreId) (naks : Nat) :
    x.newTok c naks = y.newTok c naks := by
  simp only [StackS.newTok, freeTok_congr h, h]

/-! ## Regions -/

theorem regionBytes_pos (n : Nat) : 0 < regionBytes n := by
  unfold regionBytes
  positivity

theorem TokRec.isFor_iff (r : TokRec) (base size : Nat) : r.isFor base size = true ↔ r.base = base ∧ r.size = size := by
  simp [TokRec.isFor]

theorem TokRec.covers_of_isFor {r : TokRec} {base size : Nat} (h : r.isFor base size = true) : r.covers base = true := by
  obtain ⟨rfl, rfl⟩ := (r.isFor_iff base size).mp h
  simp [TokRec.covers, regionBytes_pos]

/-- What `ownRec` finds is a record of the region, of this holder, and no share. -/
theorem StackS.ownRec_spec {x : StackS} {ag : Agent} {base size e : Nat} {r : TokRec} (h : x.ownRec ag base size = some (e, r)) :
    r.isFor base size = true ∧ r.holder = ag ∧ r.sh = false := by
  have hf := List.find?_some h
  simpa [and_assoc] using hf

/-- A record that a slice lists is the task's own record, before those that wait for a place. -/
theorem State.ownRec_of_slice {s : State} {st : StackId} {ag : Agent} {base size e : Nat} {r : TokRec}
    (h : (s.stack st).ownRec ag base size = some (e, r)) : s.ownRec st ag base size = some r := by
  have hf : ((s.stack st).recsAt base).find? (fun e => e.2.isFor base size && e.2.holder == ag && !e.2.sh) = some (e, r) := by
    rw [StackS.recsAt, List.find?_filter, ← h, StackS.ownRec]
    congr 1
    funext p
    cases hp : p.2.isFor base size with
    | false => simp
    | true =>
      simp [TokRec.covers_of_isFor hp]
      rfl
  have hm : (((s.stack st).recsAt base).map Prod.snd).find? (fun r => r.isFor base size && r.holder == ag && !r.sh) = some r := by
    rw [List.find?_map]
    exact congrArg (Option.map Prod.snd) hf
  rw [State.ownRec, List.find?_append, hm]
  rfl

/-! ## What leaves token records and their messages as they were -/

/-- Two states with the same records in every slice, the same messages about tokens and fenced links, and the same memory. -/
structure SameTokens (s u : State) : Prop where
  recs : ∀ st, (u.stack st).toks = (s.stack st).toks
  fen : ∀ st, (u.stack st).linkFen = (s.stack st).linkFen
  msgs : u.toks = s.toks
  feSeq : u.feSeq = s.feSeq
  mem : u.mem = s.mem

theorem SameTokens.refl (s : State) : SameTokens s s := ⟨fun _ => rfl, fun _ => rfl, rfl, rfl, rfl⟩

theorem SameTokens.trans {s u v : State} (h : SameTokens s u) (k : SameTokens u v) : SameTokens s v :=
  ⟨fun st => (k.recs st).trans (h.recs st), fun st => (k.fen st).trans (h.fen st), k.msgs.trans h.msgs, k.feSeq.trans h.feSeq,
    k.mem.trans h.mem⟩

theorem SameTokens.foldl {α : Type} {f : State → α → State} (hf : ∀ (s : State) a, SameTokens s (f s a)) (l : List α) (s : State) :
    SameTokens s (l.foldl f s) := by
  induction l generalizing s with
  | nil => exact .refl s
  | cons a l ih => exact (hf s a).trans (ih _)

theorem State.mapTask_sameTokens (s : State) (c : CoreId) (f : Task → Task) : SameTokens s (s.mapTask c f) := by
  unfold State.mapTask
  split
  · exact ⟨fun _ => rfl, fun _ => rfl, rfl, rfl, rfl⟩
  · exact .refl s

theorem State.carryPosts_sameTokens (s : State) (c : CoreId) (p : PWrite → Bool) : SameTokens s (s.carryPosts c p) := by
  unfold State.carryPosts
  split
  · exact .refl s
  · exact ⟨fun _ => rfl, fun _ => rfl, rfl, rfl, rfl⟩

theorem State.carryWrites_sameTokens (s : State) (c : CoreId) (sc : Scope) : SameTokens s (s.carryWrites c sc) := by
  cases sc with
  | cl =>
    unfold State.carryWrites
    refine .trans ?_ (State.carryPosts_sameTokens ..)
    exact ⟨fun _ => rfl, fun _ => rfl, rfl, rfl, rfl⟩
  | st => exact s.carryPosts_sameTokens c _
  | dflt | co | dv | sy => exact .refl s

theorem State.dropAt_sameTokens (s : State) (c : CoreId) (sc : Scope) : SameTokens s (s.dropAt c sc) := by
  cases sc <;> exact ⟨fun _ => rfl, fun _ => rfl, rfl, rfl, rfl⟩

/-- An acquire drops cached lines and notes what its releases are to carry on. -/
theorem State.acquireAll_sameTokens (s : State) (c : CoreId) (l : List Scope) : SameTokens s (s.acquireAll c l) :=
  (SameTokens.foldl (fun s sc => s.carryWrites_sameTokens c sc) l s).trans (State.dropAt_sameTokens _ c _)

theorem State.setTeam_sameTokens (s : State) (st : StackId) (n : Nat) (tm : Team) : SameTokens s (s.setTeam st n tm) := by
  constructor
  case recs | fen =>
    intro d
    rw [State.setTeam, State.setStack_stack_of]
    split
    · subst d
      rfl
    · rfl
  all_goals rfl

theorem State.unprotectTeam_sameTokens (s : State) (st : StackId) (n : Nat) : SameTokens s (s.unprotectTeam st n) := by
  unfold State.unprotectTeam
  split
  next tm _ =>
    split
    next cp _ =>
      split
      · exact (s.setTeam_sameTokens st n _).trans ⟨fun _ => rfl, fun _ => rfl, rfl, rfl, rfl⟩
      · exact .refl s
    next => exact .refl s
  next => exact .refl s

theorem State.unprotectAgent_sameTokens (s : State) (ag : Agent) : SameTokens s (s.unprotectAgent ag) := by
  unfold State.unprotectAgent
  split
  · split
    · exact s.unprotectTeam_sameTokens ..
    · exact .refl s
  · exact .refl s

theorem State.outsideEdge_sameTokens (s : State) (a b : Agent) : SameTokens s (s.outsideEdge a b) := by
  unfold State.outsideEdge
  split
  · exact .refl s
  · exact (s.unprotectAgent_sameTokens a).trans (State.unprotectAgent_sameTokens _ b)

/-! ## Instructions that name a region -/

/-- An instruction acts on the region it names, and notes a fenced link toward it. -/
theorem State.onRegion_of_named {s : State} {c : CoreId} {t : Task} {va : Word} {r : Named}
    (h : s.named c t va (fun r => r.claimed) = .ok r) (syl : Word) (f : Named → State) :
    s.onRegion c t syl va f = (f r).noteShut (stackOf c) r.st := by
  simp only [State.onRegion, h]

theorem State.noteShut_of_open {s : State} {src dst : StackId} (h : s.linkShut src dst = false) : s.noteShut src dst = s := by
  simp only [State.noteShut, h, Bool.false_eq_true, if_false]

/-- A link is fenced in one state as in another where its stack says so in both. -/
theorem State.linkShut_of_fen {s u : State} {src dst : StackId} (h : (u.stack dst).linkFen = (s.stack dst).linkFen)
    (hs : s.linkShut src dst = false) : u.linkShut src dst = false := by
  rw [State.linkShut, h]
  exact hs

/-- The giver's checks are met by its own claimed record of a region no part of which is LOST. -/
theorem State.giver_of_ownRec {s : State} {c : CoreId} {t : Task} {r : Named} {e : Nat} {x : TokRec} (hl : s.lostRegion r = false)
    (h : (s.stack r.st).ownRec (t.agent c) r.base r.size = some (e, x)) (hx : x.claimed = true) (syl va : Word)
    {ok : TokRec → Bool} (hok : ok x = true) (f : TokRec → State) : s.giver c t syl va r ok f = f x := by
  have hg : s.giverRec c t r = some x := by simp only [State.giverRec, State.ownRec_of_slice h, hx, if_true]
  simp only [State.giver, hl, hg, hok, Bool.false_eq_true, if_false, if_true]

theorem State.tokWait_of_current {s : State} {c : CoreId} {t : Task} (ht : s.task? c = some t) (w : Wait) :
    s.tokWait c w = (s.setTask c (t.withWaits (t.waits ++ [w]))).tokTry c w := by
  rw [State.tokWait, State.mapTask_of_current ht]
  rfl

/-- The task on a core after a wait has ended: records and messages stay. -/
theorem State.endWait_sameTokens (s : State) (c : CoreId) (w : Wait) : SameTokens s (s.endWait c w) := s.mapTask_sameTokens ..

/-! ## Claims (R390) -/

section
variable {s : State} {t : Task} {f : FmtYT}

/-- A wait for a token whose claim is met ends at once. -/
theorem State.tokTry_token {c : CoreId} {share : Bool} {va : Word} {base size : Nat} {l : Leaf} {s' : State}
    (ht : s.task? c = some t) (hw : Wait.token share va base size ∈ t.waits) (ha : isAlias va = false)
    (hl : s.translateFor c t va = .ok l) (hs : s.linkShut (stackOf c) (regionHome l) = false)
    (h : s.claim c t share (regionHome l) (l.pa / regionBytes size * regionBytes size) size = .done s') :
    s.tokTry c (.token share va base size) = s'.endWait c (.token share va base size) := by
  have hc : t.waits.contains (.token share va base size) = true := by simpa using hw
  simp only [State.tokTry, ht, hc, ha, hl, hs, h, Bool.not_true, Bool.false_eq_true, if_false]

/-- `tkwait` of a region that it may name waits for its token or share. -/
theorem State.tkwaitFor_of_leaf {l : Leaf} (ha : isAlias (t.srcY f.s3 f.s1) = false)
    (hl : s.regionLeaf s.cur t (t.srcY f.s3 f.s1) = .ok l) (he : (t.srcY f.s3 f.s2).toNat < 256)
    (hz : waitSizeOk l (t.srcY f.s3 f.s2).toNat = true) (syl : Word) (share : Bool) :
    s.tkwaitFor t f syl share = s.tokWait s.cur (.token share (t.srcY f.s3 f.s1)
      (l.pa / 2 ^ (t.srcY f.s3 f.s2).toNat * 2 ^ (t.srcY f.s3 f.s2).toNat) (sizeExp (t.srcY f.s3 f.s2).toNat)) := by
  have hc : ((t.srcY f.s3 f.s2).toNat / 256 != 0 || !waitSizeOk l (t.srcY f.s3 f.s2).toNat) = false := by
    simp [Nat.div_eq_of_lt he, hz]
  simp only [State.tkwaitFor, ha, hl, Nat.mod_eq_of_lt he, hc, Bool.false_eq_true, if_false]

/-- A claim takes the record that was sent and has arrived; that is an acquire of its sender's release. -/
theorem State.claim_of_arrived {c : CoreId} {st : StackId} {base size e : Nat} {r : TokRec}
    (hl : s.lostIn st base (regionBytes size) = false) (h : (s.stack st).ownRec (t.agent c) base size = some (e, r))
    (hc : r.claimed = false) (ha : r.arr = true) :
    ∃ s', s.claim c t false st base size = .done s' ∧ (s'.stack st).toks.find e = some { r with claimed := true } ∧
      s'.mem = s.mem := by
  let u := s.setStack st ((s.stack st).setTok e { r with claimed := true })
  have hu : (u.stack st).toks.find e = some { r with claimed := true } := by
    rw [State.setStack_stack_same]
    exact Tab.find_set_same ..
  let v := (u.mapTask c (fun t =>
    { t with lentOut := t.lentOut.filter (fun r => !(r.1 == base && r.2.1 == size)) })).acquireAll c [r.sc]
  have hv : SameTokens u v := (u.mapTask_sameTokens c _).trans (State.acquireAll_sameTokens _ c _)
  let w := match (s.stack st).lenderOf r with
    | some g => v.outsideEdge (t.agent c) g
    | none => v.unprotect c t
  have hw : SameTokens v w := by
    unfold w
    split
    · exact v.outsideEdge_sameTokens ..
    · exact v.unprotectTeam_sameTokens ..
  refine ⟨w, ?_, ?_, (hv.trans hw).mem⟩
  · have harr : (r.arr && !false) = true := by simp [ha]
    simp only [State.claim, hl, h, hc, harr, Bool.false_and, Bool.false_eq_true, if_false, if_true]
    rfl
  · rw [(hv.trans hw).recs, hu]

end

/-! ## Splits and joins (R392) -/

section
variable {x : StackS} {base size e : Nat} {r : TokRec}

/-- A region held by one record alone is split: its record keeps the lower half, and a new one takes the upper. -/
theorem State.splitRegion_of_one {s : State} {c : CoreId} {naks k : Nat} {st : StackId} (hsh : r.sh = false)
    (hfor : r.isFor base size = true) (hfind : (s.stack st).toks.find e = some r)
    (hone : (s.stack st).toks.filter (fun p => p.2.isFor base size) = [(e, r)]) (hk : (s.stack st).newTok c naks = some k) :
    ∃ u, s.splitRegion c naks st base size = some u ∧ (u.stack st).linkFen = (s.stack st).linkFen ∧
      (u.stack st).toks.find e = some { r with size := size - 1 } ∧
      (u.stack st).toks.find k = some { r with base := base + regionBytes (size - 1), size := size - 1 } := by
  let y : StackS := { s.stack st with toks := (s.stack st).toks.map (fun (e : Nat × TokRec) =>
    if e.2.isFor base size then (e.1, { e.2 with size := size - 1 }) else e) }
  have hy j : y.toks.find j =
      ((s.stack st).toks.find j).map (fun r => if r.isFor base size then { r with size := size - 1 } else r) :=
    Tab.find_map_if (s.stack st).toks j (fun r => r.isFor base size) (fun r => { r with size := size - 1 })
  have hnew : y.newTok c naks = some k := by
    rw [← hk]
    exact StackS.newTok_congr (fun j => by rw [hy, Option.isNone_map]) c naks
  have hlist : (s.stack st).toks.filter (fun e => e.2.isFor base size && !e.2.sh) = [(e, r)] := by
    have hf := List.filter_filter (p := fun e : Nat × TokRec => !e.2.sh) (q := fun e => e.2.isFor base size)
      (l := (s.stack st).toks)
    rw [hone, List.filter_singleton, hsh] at hf
    simpa [Bool.and_comm] using hf.symm
  have hne : e ≠ k := by
    rintro rfl
    rw [StackS.find_of_newTok hk] at hfind
    exact absurd hfind nofun
  have hsplit : y.splitUp c naks base (size - 1) [(e, r)] =
      some (y.setTok k { r with base := base + regionBytes (size - 1), size := size - 1 }) := by
    simp only [StackS.splitUp, hnew, Option.bind_some]
  refine ⟨s.setStack st (y.setTok k { r with base := base + regionBytes (size - 1), size := size - 1 }), ?_, ?_, ?_, ?_⟩
  · simp only [State.splitRegion, hlist]
    exact congrArg (Option.map (s.setStack st)) hsplit
  · rw [State.setStack_stack_same]
    rfl
  · rw [State.setStack_stack_same, StackS.setTok, Tab.find_set, if_neg hne, hy, hfind, Option.map_some, hfor, if_pos rfl]
  · rw [State.setStack_stack_same]
    exact Tab.find_set_same ..

/-- A split that finds its records ends at once. -/
theorem State.tokTry_split {s s' : State} {c : CoreId} {t : Task} {st : StackId} (ht : s.task? c = some t)
    (hw : Wait.split base size ∈ t.waits) (hst : s.sliceOf base = st) (hl : s.lostIn st base (regionBytes size) = false)
    (hs : s.linkShut (stackOf c) st = false) (h : s.splitRegion c t.naks st base size = some s') :
    s.tokTry c (.split base size) = s'.endWait c (.split base size) := by
  have hc : t.waits.contains (.split base size) = true := by simpa using hw
  simp only [State.tokTry, ht, hc, hst, hl, hs, h, Bool.not_true, Bool.false_eq_true, if_false]

/-- `tksplit` of a region held outright waits for its records. -/
theorem execTksplit_of_exclusive {s : State} {t : Task} {f : FmtYT} {r : Named} {e : Nat} {x : TokRec} {u : State}
    (hi : Issues s t f.gd) (hn : s.named s.cur t (t.srcY f.s3 f.s1) (fun r => r.claimed) = .ok r) (hl : s.lostRegion r = false)
    (hp : paWindow r.leaf.pa = false) (hh : r.leaf.heap = false) (hz : 4 < r.size)
    (hown : (s.stack r.st).ownRec (t.agent s.cur) r.base r.size = some (e, x)) (hx : x.exclusive = true)
    (hu : s.tokWait s.cur (.split r.base r.size) = u) (hs : u.linkShut (stackOf s.cur) r.st = false) :
    execTksplit f s = .next u := by
  have hcl : x.claimed = true := by
    rw [TokRec.exclusive] at hx
    simp_all
  refine (s.issueS_of_issues t f.gd _ hi).trans (congrArg Host.Outcome.next ?_)
  rw [State.onRegion_of_named hn]
  simp only [hl, hp, hh, State.giver_of_ownRec hl hown hcl, hx, Nat.not_le.mpr hz, Bool.or_self, Bool.false_eq_true, if_false,
    if_true]
  rw [hu, State.noteShut_of_open hs]

/-- `tkjoin` of two halves held outright, of one depth and chain. -/
theorem execTkjoin_of_halves {s : State} {t : Task} {f : FmtYT} {r : Named} {n lo ea eb : Nat} {a b : TokRec} (hi : Issues s t f.gd)
    (hnm : s.named s.cur t (t.srcY f.s3 f.s1) (fun r => r.claimed) = .ok r) (hp : paWindow r.leaf.pa = false)
    (hh : r.leaf.heap = false) (hn : regionBytes r.size = n) (hlo : r.base / (2 * n) * (2 * n) = lo)
    (hl : s.lostRegion { r with base := lo, size := r.size + 1 } = false)
    (ha : (s.stack r.st).ownRec (t.agent s.cur) lo r.size = some (ea, a))
    (hb : (s.stack r.st).ownRec (t.agent s.cur) (lo + n) r.size = some (eb, b))
    (hc : (a.exclusive && b.exclusive && a.depth == b.depth && decide (2 * n ≤ 2 ^ r.leaf.bits) &&
      (s.stack r.st).chainOf lo r.size a.depth == (s.stack r.st).chainOf (lo + n) r.size a.depth) = true)
    (hs : s.linkShut (stackOf s.cur) r.st = false) : execTkjoin f s = .next (s.joinRegion r lo) := by
  subst hn
  subst hlo
  refine (s.issueS_of_issues t f.gd _ hi).trans (congrArg Host.Outcome.next ?_)
  have hs' : (s.joinRegion r
      (r.base / (2 * regionBytes r.size) * (2 * regionBytes r.size))).linkShut (stackOf s.cur) r.st = false :=
    State.linkShut_of_fen (by rw [State.joinRegion, State.setStack_stack_same]) hs
  rw [State.onRegion_of_named hnm, hp, hh]
  dsimp only
  rw [Bool.or_self, if_neg Bool.false_ne_true, hl, if_neg Bool.false_ne_true, ha, hb]
  dsimp only
  rw [if_pos hc, State.noteShut_of_open hs']

/-- Two halves are joined: the record of the lower one takes the whole, that of the upper one goes. -/
theorem State.joinRegion_toks {s : State} {r : Named} {lo : Nat} {ea : Nat} {a : TokRec} (ha : a.isFor lo r.size = true)
    (hfind : (s.stack r.st).toks.find ea = some a) :
    ((s.joinRegion r lo).stack r.st).toks.find ea = some { a with size := r.size + 1 } ∧
      ∀ p ∈ ((s.joinRegion r lo).stack r.st).toks, p.2.isFor (lo + regionBytes r.size) r.size = true → p.2.sh = true := by
  obtain ⟨hbase, hsize⟩ := (a.isFor_iff lo r.size).mp ha
  have hpos := regionBytes_pos r.size
  have hkeep : (!(a.isFor (lo + regionBytes r.size) r.size && !a.sh)) = true := by
    have : a.isFor (lo + regionBytes r.size) r.size = false := by
      rw [Bool.eq_false_iff, ne_eq, TokRec.isFor_iff]
      omega
    rw [this, Bool.false_and, Bool.not_false]
  have hj : ((s.joinRegion r lo).stack r.st).toks =
      ((s.stack r.st).toks.filter (fun e => !(e.2.isFor (lo + regionBytes r.size) r.size && !e.2.sh))).map (fun e =>
        if e.2.isFor lo r.size then (e.1, { e.2 with size := r.size + 1 }) else e) := by
    simp only [State.joinRegion, State.setStack_stack_same]
  rw [hj]
  refine ⟨?_, fun p hp hfor => ?_⟩
  · refine (Tab.find_map_if _ ea (fun v : TokRec => v.isFor lo r.size) (fun v => { v with size := r.size + 1 })).trans ?_
    rw [Tab.find_filter_of_find hfind hkeep, Option.map_some, ha, if_pos rfl]
  · obtain ⟨q, hq, rfl⟩ := List.mem_map.mp hp
    obtain ⟨_, hq⟩ := List.mem_filter.mp hq
    split at hfor
    · obtain ⟨_, hz⟩ := (TokRec.isFor_iff ..).mp hfor
      exact absurd hz (Nat.succ_ne_self _)
    next hn =>
      rw [if_neg hn]
      simpa [hfor] using hq

end

/-! ## The word of a query (R393) -/

/-- STATE of a record in the word of a query. -/
def TokSt.code : TokSt → BitVec 3
  | .excl => 1#3
  | .shared => 2#3
  | .lent => 3#3
  | .lost => 5#3

/-- A word of seven fields as a number. The places are variables, so that the kernel compares no products by large powers. -/
theorem pack64_seven_toNat (a b c d e f g i j k l m n o : Nat) :
    (pack64 [(a, i), (b, j), (c, k), (d, l), (e, m), (f, n), (g, o)]).toNat =
      (a * 2 ^ i + b * 2 ^ j + c * 2 ^ k + d * 2 ^ l + e * 2 ^ m + f * 2 ^ n + g * 2 ^ o) % 2 ^ 64 := by
  simp only [pack64, List.map_cons, List.map_nil, List.foldl_cons, List.foldl_nil, BitVec.toNat_ofNat, Nat.zero_add]

/-- The word of a query as a number, where its fields fit. -/
theorem queryWord_toNat {st depth size nsh nat b : Nat} (hs : st < 8) (hd : depth < 8) (hb : b ≤ 1) (hz : size < 32)
    (hn : nsh < 65536) (ha : nat < 65536) :
    (pack64 [(st, 61), (depth, 58), (0, 57), (b, 56), (size, 51), (nsh, 35), (nat, 19)]).toNat =
      st * 2 ^ 61 + depth * 2 ^ 58 + b * 2 ^ 56 + size * 2 ^ 51 + nsh * 2 ^ 35 + nat * 2 ^ 19 := by
  rw [pack64_seven_toNat]
  omega

/-- The fields of that word. -/
theorem queryWord_fields {v : Word} {st depth size nsh nat b : Nat} (hd : depth < 8) (hb : b ≤ 1) (hz : size < 32)
    (hn : nsh < 65536) (ha : nat < 65536)
    (hv : v.toNat = st * 2 ^ 61 + depth * 2 ^ 58 + b * 2 ^ 56 + size * 2 ^ 51 + nsh * 2 ^ 35 + nat * 2 ^ 19) :
    (v.extractLsb' 61 3).toNat = st ∧ (v.extractLsb' 58 3).toNat = depth ∧ v.getLsbD 57 = false ∧
      (v.extractLsb' 51 5).toNat = size ∧ (v.extractLsb' 35 16).toNat = nsh ∧ (v.extractLsb' 19 16).toNat = nat ∧
      v.extractLsb' 0 19 = 0#19 := by
  have field {i n k : Nat} (h : v.toNat / 2 ^ i % 2 ^ n = k) : (v.extractLsb' i n).toNat = k := by
    rw [BitVec.extractLsb'_toNat, Nat.shiftRight_eq_div_pow, h]
  have bit : v.toNat / 2 ^ 57 % 2 ≠ 1 := by omega
  refine ⟨field ?_, field ?_, ?_, field ?_, field ?_, field ?_, BitVec.eq_of_toNat_eq (field ?_)⟩
  case refine_3 => rw [getLsbD_eq_div_mod, decide_eq_false bit]
  case refine_7 =>
    change v.toNat / 2 ^ 0 % 2 ^ 19 = 0
    omega
  all_goals omega

/-- The word of a query for a region of which the task has a claimed record of its own. -/
theorem State.tokWord_of_own {s : State} {c : CoreId} {t : Task} {r : Named} {x : TokRec} (hl : s.lostRegion r = false)
    (h : s.ownRec r.st (t.agent c) r.base r.size = some x) (hx : x.claimed = true) : ∃ arr, s.tokWord c t r =
      pack64 [(x.st.code.toNat, 61), (x.depth, 58), (0, 57), (b2n arr, 56), (r.size, 51), (x.nsh, 35), (x.nat, 19)] := by
  have hc : x.st.code.toNat = match x.st with | .excl => 1 | .shared => 2 | .lent => 3 | .lost => 5 := by cases x.st <;> rfl
  rw [hc]
  simp only [State.tokWord, hl, h, Option.filter_some, hx, if_true, Bool.false_eq_true, if_false]
  exact ⟨_, rfl⟩

/-- Settles O54: each instruction through what it names, and what a claim, a split, a join and a query then do. -/
theorem tokenClaimsSplitsAndQueries : Obligations.TokenClaimsSplitsAndQueries := by
  unfold Obligations.TokenClaimsSplitsAndQueries
  intro f s t hi va ag hva hlink
  refine ⟨fun l l' share s' => ?_, fun st base size e r hl h hc ha => State.claim_of_arrived hl h hc ha,
    fun r e x k hn hl hp hh hz hown hx hfind hone hsl hk => ?_, fun r ea a eb b hn hp hh => ?_, fun r hn => ?_⟩
  · intro e hl he hz hw w s1 hl' hcl
    have hx : exec (if share then .tkwaitSh f else .tkwait f) s = .next (s.tkwaitFor t f
        (encode (if share then .tkwaitSh f else .tkwait f)) share) := by
      cases share <;> exact s.issueS_of_issues t f.gd _ hi
    have ht : s1.tokTry s.cur w = s'.endWait s.cur w :=
      State.tokTry_token (State.setTask_task_same ..) (List.mem_singleton_self w) hva hl' (hlink _) hcl
    rw [hx, State.tkwaitFor_of_leaf hva hl he hz, State.tokWait_of_current hi.current, hw]
    exact congrArg Host.Outcome.next ht
  · obtain ⟨hfor, -, hsh⟩ := StackS.ownRec_spec hown
    let w : Wait := .split r.base r.size
    let t1 := t.withWaits (t.waits ++ [w])
    let s1 := s.setTask s.cur t1
    obtain ⟨u, hu, hfen, hlo, hhi⟩ := s1.splitRegion_of_one hsh hfor hfind hone (c := s.cur) (naks := t1.naks) hk
    have he := u.endWait_sameTokens s.cur w
    have hw : s.tokWait s.cur w = u.endWait s.cur w := by
      rw [State.tokWait_of_current hi.current]
      exact State.tokTry_split (State.setTask_task_same ..) (by simp [w]) hsl hl (hlink _) hu
    have hs := State.linkShut_of_fen ((he.fen r.st).trans hfen) (hlink r.st)
    refine ⟨_, execTksplit_of_exclusive hi hn hl hp hh hz hown hx hw hs, ?_, ?_⟩
    · rw [he.recs, hlo]
    · rw [he.recs, hhi]
  · intro n lo hl hb ha hbown hax hbx hd hch hfind
    obtain ⟨hfor, -, -⟩ := StackS.ownRec_spec ha
    have hc : (a.exclusive && b.exclusive && a.depth == b.depth && decide (2 * n ≤ 2 ^ r.leaf.bits) &&
        (s.stack r.st).chainOf lo r.size a.depth == (s.stack r.st).chainOf (lo + n) r.size a.depth) = true := by
      rw [hch]
      simp [hax, hbx, hd, hb]
    have hx : exec (.tkjoin f) s = .next (s.joinRegion r lo) :=
      execTkjoin_of_halves hi hn hp hh rfl rfl hl ha hbown hc (hlink _)
    obtain ⟨hlo, hhi⟩ := State.joinRegion_toks hfor hfind
    exact ⟨_, hx, hlo, hhi⟩
  · refine ⟨s.tokWord s.cur t r, ?_, fun e x hl hown hx hd hz hn ha => ?_⟩
    · refine (s.issueS_of_issues t f.gd _ hi).trans (congrArg Host.Outcome.next ?_)
      exact (if_neg (Bool.eq_false_iff.mp hva)).trans
        ((State.onRegion_of_named hn _ _).trans (State.noteShut_of_open (hlink r.st)))
    · obtain ⟨arr, hw⟩ := State.tokWord_of_own hl (State.ownRec_of_slice hown) hx
      have hs := x.st.code.isLt
      have hv := hw ▸ queryWord_toNat hs hd (b2n_le arr) hz hn ha
      obtain ⟨h1, h2, h3, h4, h5, h6, h7⟩ := queryWord_fields hd (b2n_le arr) hz hn ha hv
      refine ⟨?_, h2, h3, h4, h5, h6, h7⟩
      rw [BitVec.eq_of_toNat_eq h1]
      cases x.st <;> rfl

end Sys2Proof.Machine
end

section
/-! PROOF. A share that `tkunsh` looks for in another slice (R389, R446). -/

namespace Sys2Proof.Machine

/-- A page of 1 GiB at its own address whose home is stack 1. -/
def farLeaf : Leaf := ⟨0x40000000, 0x40000000, 0x40000000, 30, 1, 0, false, false, false, false, false, true, false, 0⟩
def farRegion : Named := ⟨farLeaf, 1, 0x40000000, 5⟩

/-- The task of core 0, with y2 at that page. -/
def farTask : Task := { Task.fresh 0 0 0#48 0 0 0#64 with regs := { Regs.zero with y := [(2, 0x40000000)] } }
def unshareFar : FmtYT := ⟨⟨⟨false, false, 0⟩, .main 0, .main 2, .main 0⟩, 0, .dflt, 0⟩

/-- Its share of a region of 8 KiB there, and a record of the same region that another slice holds. -/
def farShare : TokRec :=
  { TokRec.share 0x40000000 5 0 false .dv (farTask.agent 0) with claimed := true, arr := true }
def strayRec : TokRec := { TokRec.fresh 0x40000000 5 0 .dv (.stack 0) with claimed := true, arr := true }

/-- Its team, in the protected interval of a checkpoint. -/
def farTeam : Team :=
  ⟨0, 0, 0#48, 0, 1, 1, 0, 1, [], [], some ⟨[], [], [], [], [], [], [], [], [], 1, [], true, 0, 0⟩, [], false⟩

/-- The stack table lists the slice of stack 1 before that of stack 0, and both have a record of the region. The end of the protected
interval writes stack 0 again, in front of stack 1, and the region's slice is then looked for in stack 0. -/
def farState : State :=
  { State.reset with
    stackTab := [(1, { StackS.reset with toks := [(0, farShare)] }),
      (0, { StackS.reset with toks := [(0, strayRec)], teams := [(0, farTeam)] })]
    cores := [(0, { CoreS.reset with live := some farTask, tlb := [⟨0, farLeaf⟩] })] }

theorem farState_issues : Issues farState farTask unshareFar.gd := ⟨rfl, rfl⟩

theorem farState_named : farState.named 0 farTask 0x40000000#64 (fun r => r.claimed) = .ok farRegion := rfl

/-- Before the instruction the region's slice is that of stack 1; once the interval is unprotected it is that of stack 0. -/
theorem farState_sliceOf : farState.sliceOf 0x40000000 = 1 ∧ (farState.unprotectTeam 0 0).sliceOf 0x40000000 = 0 := by
  decide +kernel

/-- The messages about tokens that an instruction leaves. -/
def toksAfter (r : Host.Outcome State Fault Refusal) : List TokMsg :=
  match r with
  | .next u => u.toks
  | _ => []

theorem toksAfter_unshareFar : (toksAfter (exec (.tkunsh unshareFar) farState)).isEmpty = true := by decide +kernel

/-- Refutes O53: a `tkunsh` whose edge unprotects the interval of its team finds no share in the slice it then looks in, and sends
nothing, where the stack table is not in order and two slices have records of the region. -/
theorem not_tokenTransfers : ¬ Obligations.TokenTransfers := by
  intro h
  obtain ⟨-, -, unshare⟩ := h unshareFar farState farTask farRegion 0 farShare farState_issues rfl farState_named (by decide +kernel)
    (by decide +kernel) rfl rfl rfl rfl rfl rfl rfl farState_sliceOf.1 rfl rfl
  obtain ⟨u, hu, hm, -⟩ := unshare (by decide +kernel) rfl (by decide)
  have he := toksAfter_unshareFar
  rw [hu, toksAfter, hm] at he
  exact absurd he (by decide)

end Sys2Proof.Machine
end

section
/-! PROOF. The Y slot's register moves, arrivals, phases, rounds, `amo` forms, triggers and growth (R394 to R407, R446, R479). -/

namespace Sys2Proof.Machine

open Host.Outcome (next)

/-! ## What the end of an interval and an acquire leave -/

/-- The end of a protected interval writes a team and a counter. -/
theorem State.unprotectTeam_frame (s : State) (st : StackId) (n : Nat) :
    s.unprotectTeam st n = { s with stackTab := (s.unprotectTeam st n).stackTab, ctxs := (s.unprotectTeam st n).ctxs } := by
  unfold State.unprotectTeam
  split
  · split
    · split <;> rfl
    · rfl
  · rfl

theorem State.unprotect_frame (s : State) (c : CoreId) (t : Task) :
    s.unprotect c t = { s with stackTab := (s.unprotect c t).stackTab, ctxs := (s.unprotect c t).ctxs } :=
  s.unprotectTeam_frame ..

/-- An acquire leaves the task of every core. -/
theorem State.carryPosts_task (s : State) (c : CoreId) (p : PWrite → Bool) (d : CoreId) :
    (s.carryPosts c p).task? d = s.task? d := by
  unfold State.carryPosts
  split <;> rfl

theorem State.carryWrites_task (s : State) (c : CoreId) (sc : Scope) (d : CoreId) : (s.carryWrites c sc).task? d = s.task? d := by
  cases sc with
  | cl => exact State.carryPosts_task ..
  | st => exact s.carryPosts_task ..
  | dflt | co | dv | sy => rfl

theorem State.dropAt_task (s : State) (c : CoreId) (sc : Scope) (d : CoreId) : (s.dropAt c sc).task? d = s.task? d := by
  have h : (s.dropL1Clean c).task? d = s.task? d := by
    rw [State.task?, State.dropL1Clean, State.setCore_core_of]
    split
    · subst d
      rfl
    · rfl
  cases sc with
  | dflt | co => rfl
  | cl | st | dv | sy => exact h

theorem State.acquireAll_task (s : State) (c : CoreId) (l : List Scope) (d : CoreId) : (s.acquireAll c l).task? d = s.task? d :=
  (State.dropAt_task ..).trans (State.foldl_keeps (fun s => s.task? d) l _ (fun s sc => s.carryWrites_task c sc d) s)

/-! ## Arrivals (R395, R396, R479) -/

/-- A selector with its middle bits zero names a phase, and with OTH a coordinate. -/
theorem phaseSel_of_zero {v : Word} (h : v.extractLsb' 4 11 = 0#11) :
    phaseSel v = some ((v.extractLsb' 0 4).toNat, v.getLsbD 15, v.extractLsb' 16 48) := by
  have hz : v.toNat / 16 % 2048 = 0 := by
    have hn := congrArg BitVec.toNat h
    rwa [BitVec.extractLsb'_toNat, Nat.shiftRight_eq_div_pow] at hn
  have hp : (v.extractLsb' 0 4).toNat = v.toNat % 16 := by
    rw [BitVec.extractLsb'_toNat, Nat.shiftRight_zero]
  rw [phaseSel, if_pos hz, hp, setWidth_shiftRight_eq_extract]

section
variable {s : State} {t : Task} {f : FmtYS} {i : Image}

/-- An arrival that is sent: the task counts one at its own team, and another team's ends its interval. -/
theorem State.sendArrival_spec (c : CoreId) (ph : Nat) (d : BitVec 48) (rel : Bool) (sc : Scope) (h : s.imageOf t = some i) :
    (s.sendArrival c t ph d rel sc).mem = s.mem ∧
      (s.sendArrival c t ph d rel sc).arrs =
        s.arrs ++ [⟨c, t.ctx, t.launch, t.coord, d, ph, rel, sc, !sameTeam i t.coord d, s.feSeq, 0⟩] ∧
      (s.sendArrival c t ph d rel sc).task? c = (s.task? c).map (fun x => if sameTeam i t.coord d
        then { x with arrived := x.arrived.set ph (x.arrived.get 0 ph + 1) } else x) := by
  cases hown : sameTeam i t.coord d with
  | true =>
    simp only [State.sendArrival, h, hown, if_true, State.mapTask]
    cases ht : s.task? c with
    | none => exact ⟨rfl, rfl, ht⟩
    | some x => exact ⟨rfl, rfl, State.setTask_task_same ..⟩
  | false =>
    simp only [State.sendArrival, h, hown, Bool.false_eq_true, if_false]
    rw [s.unprotect_frame c t]
    exact ⟨rfl, rfl, Option.map_id'.symm ▸ rfl⟩

/-- Where the selector's checks are met, the release is made and the arrival leaves. -/
theorem State.arriveAct_of_checked (c : CoreId) (syl : Word) {v : Word} {rel : Bool} {sc : Scope} (hz : v.extractLsb' 4 11 = 0#11)
    (hy : (v.getLsbD 15 && rel && sc == .sy && (s.ctx t.ctx).syphOn) = false)
    (hg : v.getLsbD 15 = true → inGrid (s.taskExt t) (v.extractLsb' 16 48) = true) :
    s.arriveAct c t syl v rel sc = (if rel then s.releaseFor c t sc else s).sendArrival c t (v.extractLsb' 0 4).toNat
      (if v.getLsbD 15 then v.extractLsb' 16 48 else t.coord) rel sc := by
  have hgrid : (v.getLsbD 15 && !inGrid (s.taskExt t) (v.extractLsb' 16 48)) = false := by
    cases ho : v.getLsbD 15 with
    | true => simp [hg ho]
    | false => rfl
  simp only [State.arriveAct, phaseSel_of_zero hz, hy, hgrid, Bool.false_eq_true, if_false]

/-- An arrival at system scope to another module leaves through the context's SYPH. -/
theorem State.arriveAct_remote (c : CoreId) (syl : Word) {v : Word} (hz : v.extractLsb' 4 11 = 0#11) (ho : v.getLsbD 15 = true)
    (hs : (s.ctx t.ctx).syphOn = true) :
    s.arriveAct c t syl v true .sy = (s.releaseFor c t .sy).sendRemote c t (v.extractLsb' 0 4).toNat (v.extractLsb' 16 48)
      (s.ctx t.ctx).syphModule := by
  simp only [State.arriveAct, phaseSel_of_zero hz, ho, hs, Bool.and_self, BEq.rfl, if_true]

/-- It leaves where a route leads to the other module. -/
theorem State.sendRemote_of_reaches {c : CoreId} {ph : Nat} {d : BitVec 48} {m : ModuleId} {r : State} (hu : s.unprotect c t = r)
    (h : r.reaches m = true) : s.sendRemote c t ph d m =
      { r with syArrs := r.syArrs ++ [⟨c, t.ctx, t.launch, t.coord, t.fpos.setWidth 32⟩] : State }.sendAfter
        ⟨c, t.launch, t.coord⟩ r.feSeq (.arrival m t.ctx (r.lid t.launch) d ph) := by
  simp only [State.sendRemote, hu, h, if_true]
  rfl

/-- A message that follows a release waits for what the release covers and for the earlier ones of its task. -/
theorem State.sendAfter_spec (s : State) (x : Src) (n : Nat) (m : OutMsg) :
    let waits := s.heldWrites x.launch x.coord = true ∨ s.earlierFe x.launch x.coord n = true ∨
      s.roundsWait x.launch x.coord n = true ∨ ∃ r ∈ s.remq, r.src = x
    (waits → s.sendAfter x n m = { s with remq := s.remq ++ [⟨x, n, m⟩] }) ∧ (¬ waits → s.sendAfter x n m = s.send m) := by
  have hw : (s.relWaits x.launch x.coord n || s.remq.any (fun r => r.src == x)) = true ↔
      s.heldWrites x.launch x.coord = true ∨ s.earlierFe x.launch x.coord n = true ∨ s.roundsWait x.launch x.coord n = true ∨
        ∃ r ∈ s.remq, r.src = x := by
    simp [State.relWaits, or_assoc]
  exact ⟨fun h => if_pos (hw.mpr h), fun h => if_neg (mt hw.mp h)⟩

/-! ## Waits for a phase and its definition (R394, R397) -/

/-- A selector of the own team has OTH 0. -/
theorem selector_own {v : Word} (h : v.extractLsb' 4 12 = 0#12) : v.extractLsb' 4 11 = 0#11 ∧ v.getLsbD 15 = false := by
  have field (n : Nat) : (v.extractLsb' 4 n).toNat = v.toNat / 2 ^ 4 % 2 ^ n := by
    rw [BitVec.extractLsb'_toNat, Nat.shiftRight_eq_div_pow]
  have hz : v.toNat / 2 ^ 4 % 2 ^ 12 = 0 := (field 12).symm.trans (congrArg BitVec.toNat h)
  refine ⟨BitVec.eq_of_toNat_eq ((field 11).trans ?_), ?_⟩
  · change v.toNat / 2 ^ 4 % 2 ^ 11 = 0
    omega
  · rw [getLsbD_eq_div_mod, decide_eq_false_iff_not]
    omega

/-- A wait for an occurrence that is complete ends at once, as an acquire of its arrivals. -/
theorem State.phaseTry_of_complete {c : CoreId} {ph inst : Nat} {tm : Team} (ht : s.task? c = some t)
    (hw : t.waits = [.phase ph inst]) (htm : s.team? c t = some tm) (hi : inst ≤ (tm.phases.get .none ph).inst) :
    (s.phaseTry c (.phase ph inst)).mem = s.mem ∧
      (s.phaseTry c (.phase ph inst)).task? c = some { t with waits := [], naks := 0 } := by
  have hc : t.waits.contains (.phase ph inst) = true := by simp [hw]
  have hu : s.phaseTry c (.phase ph inst) =
      (s.acquireAll c ((tm.phases.get .none ph).doneSc.get [] inst)).endWait c (.phase ph inst) := by
    simp only [State.phaseTry, ht, hc, htm, hi, Bool.not_true, Bool.false_eq_true, if_false, if_true]
  have hv := (s.acquireAll_task c ((tm.phases.get .none ph).doneSc.get [] inst) c).trans ht
  rw [hu]
  refine ⟨((State.acquireAll_sameTokens ..).trans (State.endWait_sameTokens ..)).mem, ?_⟩
  rw [State.endWait, State.mapTask_of_current hv, State.setTask_task_same, hw, List.erase_cons_head]

/-- A phase that is defined while no arrival is held for it. -/
theorem State.countEarly_of_none {st : StackId} {m ph : Nat} {tm : Team} (htm : (s.stack st).teams.find m = some tm)
    (he : ∀ e ∈ tm.early, e.1 ≠ ph) :
    (s.countEarly st m ph).mem = s.mem ∧ ((s.countEarly st m ph).stack st).teams.find m = some tm := by
  have hmine : tm.early.filter (fun e => e.1 == ph) = [] :=
    List.filter_eq_nil_iff.mpr fun e hm => by simpa using he e hm
  have hrest : tm.early.filter (fun e => e.1 != ph) = tm.early :=
    List.filter_eq_self.mpr fun e hm => by simpa using he e hm
  simp only [State.countEarly, htm, hmine, hrest, List.foldl_nil]
  refine ⟨rfl, ?_⟩
  rw [State.setStack_stack_same]
  simp only [StackS.dropObjs, State.setTeam, State.setStack_stack_same]
  exact Tab.find_set_same ..

/-- The fields that `phdef` takes from its word. -/
theorem phdefFields (v : Word) : (v.extractLsb' 0 4).toNat = v.toNat % 16 ∧ (v.extractLsb' 16 16).toNat = v.toNat / 65536 % 65536 ∧
    (v.extractLsb' 4 12 = 0#12 → v.toNat / 16 % 4096 = 0) ∧ (v.extractLsb' 32 32 = 0#32 → v.toNat / 2 ^ 32 = 0) := by
  have hv := v.isLt
  have field (i n : Nat) : (v.extractLsb' i n).toNat = v.toNat / 2 ^ i % 2 ^ n := by
    rw [BitVec.extractLsb'_toNat, Nat.shiftRight_eq_div_pow]
  refine ⟨?_, field 16 16, fun h => (field 4 12).symm.trans (congrArg BitVec.toNat h), fun h => ?_⟩
  · rw [field]
    omega
  · have hz : v.toNat / 2 ^ 32 % 2 ^ 32 = 0 := (field 32 32).symm.trans (congrArg BitVec.toNat h)
    omega

theorem execPhdef_of_undefined {tm : Team} (hi : Issues s t f.gd) (htm : s.team? s.cur t = some tm)
    (hm : (t.srcY f.s3 f.s1).extractLsb' 4 12 = 0#12) (hh : (t.srcY f.s3 f.s1).extractLsb' 32 32 = 0#32)
    (hph : ((t.srcY f.s3 f.s1).extractLsb' 0 4).toNat ≠ 0) (hp : ((t.srcY f.s3 f.s1).extractLsb' 16 16).toNat ≠ 0)
    (hu : (tm.phases.get .none ((t.srcY f.s3 f.s1).extractLsb' 0 4).toNat).p = 0)
    (he : ∀ e ∈ tm.early, e.1 ≠ ((t.srcY f.s3 f.s1).extractLsb' 0 4).toNat) :
    ∃ u, execPhdef f s = next u ∧ u.mem = s.mem ∧ u.team? s.cur t = some { tm with
      phases := tm.phases.set ((t.srcY f.s3 f.s1).extractLsb' 0 4).toNat
        ⟨((t.srcY f.s3 f.s1).extractLsb' 16 16).toNat, 0, 0, [], []⟩ } := by
  obtain ⟨h1, h2, h3, h4⟩ := phdefFields (t.srcY f.s3 f.s1)
  let ph := ((t.srcY f.s3 f.s1).extractLsb' 0 4).toNat
  let tm' : Team := { tm with phases := tm.phases.set ph ⟨((t.srcY f.s3 f.s1).extractLsb' 16 16).toNat, 0, 0, [], []⟩ }
  let u := s.setTeam (stackOf s.cur) t.team tm'
  have htm' : (u.stack (stackOf s.cur)).teams.find t.team = some tm' := by
    simp only [u, State.setTeam, State.setStack_stack_same]
    exact Tab.find_set_same ..
  have hx : execPhdef f s = .next (u.countEarly (stackOf s.cur) t.team ph) := by
    refine (s.issueS_of_issues t f.gd _ hi).trans (congrArg next ?_)
    rw [h1] at hph hu
    rw [h2] at hp
    have hc : ((t.srcY f.s3 f.s1).toNat / 16 % 4096 != 0 || (t.srcY f.s3 f.s1).toNat / 2 ^ 32 != 0 ||
        (t.srcY f.s3 f.s1).toNat % 16 == 0 || (t.srcY f.s3 f.s1).toNat / 65536 % 65536 == 0 ||
        (tm.phases.get .none ((t.srcY f.s3 f.s1).toNat % 16)).p != 0) = false := by
      rw [h3 hm, h4 hh, hu]
      simp [hph, hp]
    simp only [htm, hc, Bool.false_eq_true, if_false, u, tm', ph, h1, h2]
    rfl
  obtain ⟨hmem, hteam⟩ := State.countEarly_of_none htm' he
  exact ⟨_, hx, hmem, hteam⟩

/-! ## Rounds and `amo` forms (R400, R401, R404) -/

/-- The message of a round, at the mapping that holds once the own earlier writes to the line have been performed. -/
theorem State.roundAct_of_access {l : Leaf} (syl : Word) (op : AtomOp)
    (h : s.atomAccess s.cur t (t.srcY f.s3 f.s1) (tyWidth (tyOr .n32 f.ty) / 8) = .ok l) {r : State} {k : Leaf}
    (hr : s.ownLine t (lineOf l.pa) = r) (hk : r.leafNow s.cur t (t.srcY f.s3 f.s1) l = k) :
    (s.roundAct t f syl op).rounds = r.rounds ++ [⟨s.cur, t.ctx, t.launch, t.coord, stackOf s.cur, t.team, f.s3.toNat % 16,
      t.arrived.get 0 (f.s3.toNat % 16) + 1, op, tyOr .n32 f.ty, k.pa, t.srcY f.s3 f.s1, k.home, k.leafPa, k.late,
      t.regs.readW .Y 0#64 f.s2, if op = .cas then t.regs.readW .Y 0#64 f.d else 0#64, t.nextPend, false, false, 0#64, 0#7,
      k.lclass, 0, r.feSeq, t.fpos.setWidth 32⟩] ∧
    (s.roundAct t f syl op).task? s.cur = (r.task? s.cur).map (fun x => x.putPend (x.regs.dest .Y f.d) .round none) := by
  have hm : (r.mapTask s.cur (fun t => t.putPend (t.regs.dest .Y f.d) .round none)).rounds = r.rounds ∧
      (r.mapTask s.cur (fun t => t.putPend (t.regs.dest .Y f.d) .round none)).feSeq = r.feSeq ∧
      (r.mapTask s.cur (fun t => t.putPend (t.regs.dest .Y f.d) .round none)).task? s.cur =
        (r.task? s.cur).map (fun x => x.putPend (x.regs.dest .Y f.d) .round none) := by
    unfold State.mapTask
    split
    next x hx => exact ⟨rfl, rfl, by rw [hx]; exact State.setTask_task_same ..⟩
    next hx => exact ⟨rfl, rfl, by rw [hx]; rfl⟩
  obtain ⟨hrounds, hseq, htask⟩ := hm
  simp only [State.roundAct, atomTy, h, hr, hk, hrounds, hseq]
  exact ⟨rfl, htask⟩

/-- The message of an `amo`, at the mapping that then holds; its interval runs unprotected. -/
theorem State.amoAct_of_access {l : Leaf} (syl : Word) (op : AtomOp)
    (h : s.atomAccess s.cur t (t.srcY f.s3 f.s1) (tyWidth (tyOr .n32 f.ty) / 8) = .ok l) {r : State} {k : Leaf}
    (hr : ((s.unprotect s.cur t).noteWrite (stackOf s.cur) t.team).drain
      (fun w => isTask t w.tag.launch w.tag.coord && lineOf w.pa == lineOf l.pa) = r)
    (hk : r.leafNow s.cur t (t.srcY f.s3 f.s1) l = k) :
    s.amoAct t f syl op = { r with
      amos := r.amos ++ [⟨s.cur, t.ctx, t.launch, t.coord, op, tyOr .n32 f.ty, k.pa, t.srcY f.s3 f.s1, k.home, k.leafPa, k.late,
        t.srcY f.s3 f.s2, false, k.lclass, t.fpos.setWidth 32⟩] } := by
  simp only [State.amoAct, atomTy, h, hr, hk]

/-! ## Triggers (R405) -/

/-- The first trigger of a task makes its release and sends its message. -/
theorem State.trigger_of_first (h : t.trig = false) {r : State} (hr : (s.unprotect s.cur t).releaseFor s.cur t .dv = r) :
    (s.trigger s.cur t).mem = r.mem ∧ (s.trigger s.cur t).trigs = r.trigs ++ [⟨s.cur, t.launch, t.coord, r.feSeq⟩] ∧
      (s.trigger s.cur t).task? s.cur = (r.task? s.cur).map (fun x => { x with trig := true }) := by
  simp only [State.trigger, h, hr, Bool.false_eq_true, if_false, State.mapTask]
  cases hx : r.task? s.cur with
  | none => exact ⟨rfl, rfl, hx⟩
  | some x => exact ⟨rfl, rfl, State.setTask_task_same ..⟩

end

/-- Settles O55: each instruction through the lemma about what it does once its checks are met. -/
theorem synchronisationInstructions : Obligations.SynchronisationInstructions := by
  unfold Obligations.SynchronisationInstructions
  refine ⟨fun f s t hi => s.issue_of_issues t f.gd _ hi, fun f s t hi => s.issue_of_issues t f.gd _ hi,
    fun f s t hi => s.issue_of_issues t f.gd _ hi, fun f s t i hi him => ?arrivals, fun r c t ph d rel sc i him => ?sent,
    fun f s t hi => ?remote, State.sendAfter_spec, fun f s t tm hi htm hw => ?phases, fun f s t l hi => ?atomics,
    fun f s t hi => ?triggers⟩
  case arrivals =>
    intro v ph oth sc d own hz hg
    have hg : v.getLsbD 15 = true → inGrid (s.taskExt t) (v.extractLsb' 16 48) = true := fun ho => by
      have h := hg ho
      rwa [show d = v.extractLsb' 16 48 from if_pos ho] at h
    refine ⟨?_, fun hn => ?_⟩
    · have hx : exec (.arrive f) s = next (s.sendArrival s.cur t ph d false .dflt) :=
        (s.issueS_of_issues t f.gd _ hi).trans (congrArg next (State.arriveAct_of_checked _ _ hz (by simp) hg))
      obtain ⟨hmem, harr, ht⟩ := s.sendArrival_spec s.cur ph d false .dflt him
      rw [hi.current] at ht
      exact ⟨_, hx, hmem, harr, ht⟩
    · have hy : (v.getLsbD 15 && true && sc == .sy && (s.ctx t.ctx).syphOn) = false := by
        rw [Bool.eq_false_iff]
        simpa [and_assoc, oth] using hn
      exact (s.issueS_of_issues t f.gd _ hi).trans (congrArg next (State.arriveAct_of_checked _ _ hz hy hg))
  case sent => exact (State.sendArrival_spec c ph d rel sc him).2
  case remote =>
    intro v m r hz ho hsc hs hr
    have hx : exec (.arriveRel f) s = next (s.arriveAct s.cur t (encode (.arriveRel f)) v true .sy) := by
      have hw : scopeOr .st f.sc = .sy := by rw [hsc]; rfl
      rw [← hw]
      exact s.issueS_of_issues t f.gd _ hi
    rw [hx, State.arriveAct_remote _ _ hz ho hs]
    exact congrArg next (State.sendRemote_of_reaches rfl hr)
  case phases =>
    intro v ph
    refine ⟨fun hz hin => ?_, fun hm hh hph hp hu he => execPhdef_of_undefined hi htm hm hh hph hp hu he⟩
    obtain ⟨hz, ho⟩ := selector_own hz
    let w : Wait := .phase ph (max (t.arrived.get 0 ph) 1)
    have hx : exec (.waitph f) s = next ((s.setTask s.cur { t with waits := [w] }).phaseTry s.cur w) := by
      refine (s.issueS_of_issues t f.gd _ hi).trans (congrArg next ?_)
      simp only [v] at hz ho
      simp only [phaseSel_of_zero hz, ho, hw, List.nil_append]
      rfl
    obtain ⟨hmem, ht⟩ := State.phaseTry_of_complete (s := s.setTask s.cur { t with waits := [w] }) (State.setTask_task_same ..)
      rfl htm hin
    refine ⟨_, hx, hmem, ht.trans ?_⟩
    rw [← hw]
  case atomics =>
    intro ty va ph hl
    refine ⟨fun p hp => ?_, fun p hp => ?_⟩
    · have hx : exec p.1 s = next (s.roundAct t f (encode p.1) p.2) := by
        simp only [List.mem_cons, List.not_mem_nil, or_false] at hp
        rcases hp with rfl | rfl | rfl | rfl | rfl | rfl <;> exact s.issueS_of_issues t f.gd _ hi
      exact ⟨_, hx, State.roundAct_of_access _ _ hl rfl rfl⟩
    · have hx : exec p.1 s = next (s.amoAct t f (encode p.1) p.2) := by
        simp only [List.mem_cons, List.not_mem_nil, or_false] at hp
        rcases hp with rfl | rfl | rfl | rfl | rfl | rfl <;> exact s.issueS_of_issues t f.gd _ hi
      exact hx.trans (congrArg next (State.amoAct_of_access _ _ hl rfl rfl))
  case triggers =>
    refine ⟨fun h => ?_, fun h => ?_, ?_⟩
    · exact (s.issueS_of_issues t f.gd _ hi).trans (congrArg next (if_pos h))
    · exact ⟨_, s.issueS_of_issues t f.gd _ hi, State.trigger_of_first h rfl⟩
    · refine ⟨_, s.issueS_of_issues t f.gd _ hi, ?_⟩
      dsimp only
      rw [s.unprotect_frame s.cur t]
      refine ⟨hi.current, rfl, ?_⟩
      rw [BitVec.extractLsb'_toNat, Nat.shiftRight_zero]

end Sys2Proof.Machine
end

section
/-! PROOF. What the flags of a stack and the checkpoints of its teams stay through: writes at home, the backing of pages, flushes,
the error log (R241 to R246, R427, R434, R449). -/

namespace Sys2Proof.Machine

/-! ## What is kept -/

/-- The entry found in a table whose every entry has been changed. -/
theorem Tab.find_map {α β : Type} (f : α → β) (t : Tab α) (k : Nat) :
    Tab.find (t.map (fun e => (e.1, f e.2))) k = (t.find k).map f := by
  induction t with
  | nil => rfl
  | cons e t ih =>
    simp only [List.map_cons, Tab.find, ih]
    split <;> rfl

/-- A checkpoint with the phases, early arrivals, replays and tasks of another, though its addresses may have moved. -/
structure Checkpoint.Same (a b : Checkpoint) : Prop where
  phases : b.phases = a.phases
  early : b.early = a.early
  replays : b.replays = a.replays
  tasks : b.tasks.map Prod.fst = a.tasks.map Prod.fst
  pre : a.pre = [] → b.pre = []

/-- A team with the phases, early arrivals and checkpoint of another. -/
structure Team.Same (a b : Team) : Prop where
  phases : b.phases = a.phases
  early : b.early = a.early
  cp : ∀ k, a.cp = some k → ∃ l, b.cp = some l ∧ k.Same l

/-- A stack with the flags of another, idle where the other is, and with each of its teams. -/
structure StackS.Carried (x y : StackS) : Prop where
  flags : (y.rstBusy, y.qui, y.fen, y.fenced, y.engFenced) = (x.rstBusy, x.qui, x.fen, x.fenced, x.engFenced)
  idle : x.ops = [] ∧ x.requests = [] → y.ops = [] ∧ y.requests = []
  team : ∀ m tm, x.teams.find m = some tm → ∃ tn, y.teams.find m = some tn ∧ tm.Same tn

theorem Checkpoint.Same.refl (a : Checkpoint) : a.Same a := ⟨rfl, rfl, rfl, rfl, id⟩

theorem Checkpoint.Same.trans {a b c : Checkpoint} (h : a.Same b) (k : b.Same c) : a.Same c :=
  ⟨k.phases.trans h.phases, k.early.trans h.early, k.replays.trans h.replays, k.tasks.trans h.tasks,
    fun hp => k.pre (h.pre hp)⟩

theorem Checkpoint.same_rebase (f : Nat → Nat) (a : Checkpoint) : a.Same (a.rebase f) :=
  ⟨rfl, rfl, rfl, by simp [Checkpoint.rebase, Function.comp_def], fun hp => by simp [Checkpoint.rebase, hp]⟩

theorem Team.Same.refl (a : Team) : a.Same a := ⟨rfl, rfl, fun k hk => ⟨k, hk, .refl k⟩⟩

theorem Team.Same.trans {a b c : Team} (h : a.Same b) (k : b.Same c) : a.Same c := by
  refine ⟨k.phases.trans h.phases, k.early.trans h.early, fun p hp => ?_⟩
  obtain ⟨q, hq, hpq⟩ := h.cp p hp
  obtain ⟨w, hw, hqw⟩ := k.cp q hq
  exact ⟨w, hw, hpq.trans hqw⟩

theorem Team.same_rebase (f : Nat → Nat) (a : Team) : a.Same (a.rebase f) :=
  ⟨rfl, rfl, fun k hk => ⟨k.rebase f, by rw [Team.rebase, hk]; rfl, k.same_rebase f⟩⟩

theorem StackS.Carried.refl (x : StackS) : x.Carried x := ⟨rfl, id, fun _ tm hm => ⟨tm, hm, .refl tm⟩⟩

theorem StackS.Carried.trans {x y z : StackS} (h : x.Carried y) (k : y.Carried z) : x.Carried z := by
  refine ⟨k.flags.trans h.flags, fun hi => k.idle (h.idle hi), fun m tm hm => ?_⟩
  obtain ⟨tn, hn, hs⟩ := h.team m tm hm
  obtain ⟨tk, hk, hsk⟩ := k.team m tn hn
  exact ⟨tk, hk, hs.trans hsk⟩

/-- What a part of a stack that none of this speaks of may be replaced by. -/
theorem StackS.Carried.of_eq {x y : StackS} (h : (y.rstBusy, y.qui, y.fen, y.fenced, y.engFenced, y.ops, y.requests, y.teams) =
    (x.rstBusy, x.qui, x.fen, x.fenced, x.engFenced, x.ops, x.requests, x.teams)) : x.Carried y := by
  simp only [Prod.mk.injEq] at h
  obtain ⟨hb, hq, hf, hn, he, ho, hr, ht⟩ := h
  exact ⟨by rw [hb, hq, hf, hn, he], by rw [ho, hr]; exact id, fun _ tm hm => ⟨tm, ht ▸ hm, .refl tm⟩⟩

/-- Two stacks of which one or the other is taken. -/
theorem StackS.Carried.ite {x y z : StackS} {b : Prop} [Decidable b] (h : x.Carried y) (k : x.Carried z) :
    x.Carried (if b then y else z) := by
  split
  · exact h
  · exact k

/-- A team written with the phases, early arrivals and checkpoint it has. -/
theorem StackS.Carried.setTeam {x : StackS} {m : Nat} {tm tn : Team} (hm : x.teams.find m = some tm) (hs : tm.Same tn) :
    x.Carried { x with teams := x.teams.set m tn } := by
  refine ⟨rfl, id, fun k tk hk => ?_⟩
  by_cases e : k = m
  · subst e
    obtain rfl := Option.some.inj (hm.symm.trans hk)
    exact ⟨tn, Tab.find_set_same .., hs⟩
  · exact ⟨tk, (Tab.find_set ..).trans ((if_neg e).trans hk), .refl tk⟩

/-- Every team written as the same but for its addresses. -/
theorem StackS.Carried.mapTeams {x : StackS} {g : Team → Team} {f : CopyOp → CopyOp}
    (hg : ∀ tm : Team, tm.Same (g tm)) {y : StackS}
    (hf : (y.rstBusy, y.qui, y.fen, y.fenced, y.engFenced) = (x.rstBusy, x.qui, x.fen, x.fenced, x.engFenced))
    (ho : y.ops = x.ops.map f) (hr : y.requests = x.requests.map f) (ht : y.teams = x.teams.map (fun e => (e.1, g e.2))) :
    x.Carried y := by
  refine ⟨hf, fun hi => by simp [ho, hr, hi], fun m tm hm => ⟨g tm, ?_, hg tm⟩⟩
  rw [ht, Tab.find_map, hm]
  rfl

/-- A state with the launches and trigger messages of another, each of its stacks carried on. -/
structure Stays (r s : State) : Prop where
  launches : s.launches = r.launches
  trigs : s.trigs = r.trigs
  carried : ∀ st, (r.stack st).Carried (s.stack st)

theorem Stays.refl (s : State) : Stays s s := ⟨rfl, rfl, fun _ => .refl _⟩

section
variable {r s u : State}

theorem Stays.trans (hs : Stays r s) (hu : Stays s u) : Stays r u :=
  ⟨hu.launches.trans hs.launches, hu.trigs.trans hs.trigs, fun st => (hs.carried st).trans (hu.carried st)⟩

theorem Stays.update (hs : Stays r s)
    (h : (u.launches, u.trigs, u.stackTab) = (s.launches, s.trigs, s.stackTab)) : Stays r u := by
  simp only [Prod.mk.injEq] at h
  obtain ⟨hl, ht, hst⟩ := h
  exact hs.trans ⟨hl, ht, fun st => by rw [State.stack, State.stack, hst]; exact .refl _⟩

theorem Stays.ite {b : Prop} [Decidable b] (hs : Stays r s) (hu : Stays r u) : Stays r (if b then s else u) := by
  split
  · exact hs
  · exact hu

theorem Stays.foldl {α : Type} {f : State → α → State} (hf : ∀ s a, Stays r s → Stays r (f s a)) (l : List α)
    (hs : Stays r s) : Stays r (l.foldl f s) := by
  induction l generalizing s with
  | nil => exact hs
  | cons a l ih => exact ih (hf s a hs)

end

section
variable {r s : State} (hs : Stays r s)
include hs

/-! ## Changes of other parts of the state -/

/-- One stack is written, beside parts of the state that none of this speaks of. -/
theorem Stays.writeStack {u : State} (st : StackId) {x : StackS} (hu : u.stackTab = s.stackTab.set st.val x)
    (hl : u.launches = s.launches) (hm : u.trigs = s.trigs) (hx : (s.stack st).Carried x) : Stays r u := by
  refine hs.trans ⟨hl, hm, fun c => ?_⟩
  rw [State.stack, State.stack, hu, Tab.get_set]
  split
  · next e => exact Fin.val_inj.mp e ▸ hx
  · exact .refl _

theorem Stays.setStack (st : StackId) {x : StackS} (hx : (s.stack st).Carried x) : Stays r (s.setStack st x) :=
  hs.writeStack st rfl rfl rfl hx

/-- Every stack of the table is written. -/
theorem Stays.mapStacks {u : State} {g : Nat × StackS → Nat × StackS} (ht : u.stackTab = s.stackTab.map g)
    (hl : u.launches = s.launches) (hm : u.trigs = s.trigs) (hg : ∀ e, (g e).1 = e.1 ∧ e.2.Carried (g e).2) : Stays r u := by
  refine hs.trans ⟨hl, hm, fun c => ?_⟩
  rw [State.stack, State.stack, ht]
  exact Tab.get_map_rel StackS.Carried _ _ _ g hg (.refl _)

theorem Stays.count (c : CtxId) (sreg k : Nat) : Stays r (s.count c sreg k) := by
  unfold State.count State.setCtx
  exact hs.update (by rfl)

theorem Stays.interrupt (i : Irq) : Stays r (s.interrupt i) := by
  unfold State.interrupt
  exact hs.update (by rfl)

theorem Stays.fatalFor (c : CoreId) (ctx : CtxId) (launch : Nat) (coord : BitVec 48) (fpos : BitVec 32) (code slot : Nat)
    (agent : BitVec 32) (va detail : Word) :
    Stays r (s.fatalFor c ctx launch coord fpos code slot agent va detail) := by
  unfold State.fatalFor
  exact hs.update (by rfl)

theorem Stays.putMarked (pa : Nat) (bytes : List (Option Byte)) (bad : BitVec 16) :
    Stays r (s.putMarked pa bytes bad) := by
  unfold State.putMarked State.setMemBad
  exact hs.update (by rfl)

theorem Stays.putBytes (pa : Nat) (bytes : List (Option Byte)) : Stays r (s.putBytes pa bytes) := by
  unfold State.putBytes State.unpoison
  exact hs.update (by rfl)

theorem Stays.putPhys (pa : Nat) (bytes : List (Option Byte)) : Stays r (s.putPhys pa bytes) := by
  unfold State.putPhys
  exact (hs.putBytes pa bytes).mapStacks rfl rfl rfl fun _ => ⟨rfl, .of_eq (by rfl)⟩

theorem Stays.soon (e : PoisonUse) : Stays r (s.soon e) := by
  unfold State.soon
  exact hs.update (by rfl)

theorem Stays.putRest (base size : Nat) (sc : Scope) : Stays r (s.putRest base size sc) := by
  unfold State.putRest
  exact hs.update (by rfl)

theorem Stays.dropTlbs (p : TlbEnt → Bool) : Stays r (s.dropTlbs p) := by
  unfold State.dropTlbs
  exact hs.mapStacks rfl rfl rfl fun _ => ⟨rfl, .of_eq (by rfl)⟩

/-! ## The L2 of a stack -/

theorem Stays.chargeWriter (w : Option CtxId) : Stays r (s.chargeWriter w) := by
  unfold State.chargeWriter
  split
  · exact hs.count ..
  · exact hs

theorem Stays.cleanL2 (home : StackId) (line : Nat) : Stays r (s.cleanL2 home line) := by
  unfold State.cleanL2
  split
  · exact hs
  · exact .ite hs (((hs.setStack _ (.of_eq (by rfl))).putMarked ..).chargeWriter _)

theorem Stays.evictL2 (home : StackId) (line : Nat) : Stays r (s.evictL2 home line) :=
  (hs.cleanL2 home line).setStack _ (.of_eq (by rfl))

theorem Stays.trimL2 (home : StackId) : Stays r (s.trimL2 home) :=
  hs.foldl (f := fun s (e : L2Line) => s.evictL2 home e.line) (fun _ _ hu => hu.evictL2 ..) _

omit hs in
theorem StackS.carried_sample (x : StackS) (home : StackId) (line : Nat) (hit : Bool) : x.Carried (x.sample home line hit) :=
  .of_eq (by rfl)

theorem Stays.touchL2 (w : WrTag) (line : Nat) : Stays r (s.touchL2 w line) := by
  unfold State.touchL2
  refine .ite hs ?_
  dsimp only
  split
  · refine .ite (hs.setStack _ ((StackS.Carried.ite (.refl _) (StackS.carried_sample ..)).trans (.of_eq (by rfl)))) ?_
    have hl (l : List L2Line) : Stays r (s.setStack w.home { s.stack w.home with l2 := l }) := hs.setStack _ (.of_eq (by rfl))
    exact .ite (.soon (.ite (hl _) ((hl _).count ..)) _) (.ite (hl _) ((hl _).count ..))
  · have hx := StackS.carried_sample (s.stack w.home) w.home line false
    exact .ite (hs.setStack _ (.of_eq (by rfl))) (((hs.setStack _ (hx.trans (.of_eq (by rfl)))).count ..).trimL2 _)

theorem Stays.writeL2 (w : WrTag) (pa : Nat) (bytes : List (Option Byte)) (bad : BitVec 16) :
    Stays r (s.writeL2 w pa bytes bad) := by
  have ht := hs.touchL2 w (lineOf pa)
  exact .ite ((ht.putMarked ..).chargeWriter _) (ht.setStack _ (.of_eq (by rfl)))

theorem Stays.zeroLine (w : WrTag) (line : Nat) : Stays r (s.zeroLine w line) := by
  unfold State.zeroLine
  exact ((hs.touchL2 w line).putBytes ..).mapStacks rfl rfl rfl fun _ => ⟨rfl, .of_eq (by rfl)⟩

/-! ## Backing a page -/

omit hs in
theorem StackS.carried_mapResv (x : StackS) (ctx : CtxId) (f : Resv → Resv) : x.Carried (x.mapResv ctx f) := by
  unfold StackS.mapResv
  split
  · exact .of_eq (by rfl)
  · exact .refl _

theorem Stays.addUsed (st : StackId) (ctx : CtxId) (k : Int) : Stays r (s.addUsed st ctx k) :=
  hs.setStack _ (StackS.carried_mapResv ..)

theorem Stays.countLine (l : LiveLine) (k : Int) : Stays r (s.countLine l k) :=
  .ite ((hs.addUsed ..).setStack _ (StackS.carried_mapResv ..)) (hs.addUsed ..)

theorem Stays.freeLine (line : Nat) : Stays r (s.freeLine line) := by
  unfold State.freeLine
  split
  · exact .countLine (hs.update (by rfl)) ..
  · exact hs

theorem Stays.makeLive (line : Nat) (l : LiveLine) : Stays r (s.makeLive line l) := by
  unfold State.makeLive
  exact .countLine (hs.update (by rfl)) ..

theorem Stays.unlistPage (leafPa : Nat) : Stays r (s.unlistPage leafPa) := by
  have hl := hs.foldl (f := fun s l => (s.addUsed l.2.home l.2.ctx (-1)).chargeWriter l.2.wr)
    (fun _ _ hu => (hu.addUsed ..).chargeWriter _) (s.pageLines leafPa)
  unfold State.unlistPage
  exact hl.update (by rfl)

theorem Stays.movePage (a b k : Nat) : Stays r (s.movePage a b k) := by
  unfold State.movePage
  exact hs.mapStacks rfl rfl rfl fun e => ⟨rfl, .mapTeams (fun tm => tm.same_rebase _) rfl rfl rfl rfl⟩

omit hs in
theorem StackS.carried_placeAll (x : StackS) (l : List (Nat × TokRec)) : x.Carried (x.placeAll l).1 := by
  induction l generalizing x with
  | nil => exact .refl _
  | cons e l ih =>
    unfold StackS.placeAll
    split
    · exact (StackS.Carried.of_eq (x := x) (y := x.setTok _ e.2) rfl).trans (ih _)
    · exact ih x

theorem Stays.moveRecs (a b : StackId) (base k : Nat) : Stays r (s.moveRecs a b base k) := by
  unfold State.moveRecs
  refine .ite hs ?_
  dsimp only
  exact Stays.update ((hs.setStack a (x := (s.stack a).dropToks _) (.of_eq (by rfl))).setStack b (StackS.carried_placeAll ..))
    (by rfl)

theorem Stays.rehomeWrites (leafPa : Nat) (h : StackId) : Stays r (s.rehomeWrites leafPa h) := by
  unfold State.rehomeWrites
  exact hs.update (by rfl)

theorem Stays.putLeaf (leafPa : Nat) (e : Word) : Stays r (s.putLeaf leafPa e) := by
  unfold State.putLeaf
  exact (hs.foldl (fun _ _ hu => hu.putPhys ..) _).dropTlbs _

theorem Stays.setBacked (leafPa : Nat) (e : Word) : Stays r (s.setBacked leafPa e) := by
  unfold State.setBacked
  exact hs.update (by rfl)

theorem Stays.backPage (leafPa f : Nat) (newHome : StackId) : Stays r (s.backPage leafPa f newHome) :=
  (((((hs.unlistPage _).movePage ..).moveRecs ..).rehomeWrites ..).putLeaf ..).setBacked ..

theorem Stays.takeFrame {die z f : Nat} {u : State} (e : s.takeFrame die z = some (f, u)) : Stays r u := by
  unfold State.takeFrame at e
  split at e
  · obtain ⟨-, rfl⟩ := Prod.mk.inj (Option.some.inj e)
    exact hs.update (by rfl)
  · exact absurd e nofun

omit hs in
/-- A stack with one more spill, and its record in the fault buffer where that has room (R245). -/
theorem StackS.carried_putFault (x : StackS) (f : Nat → FbEntry) {p : StackS × Nat} (h : x.putFault f = some p) :
    x.Carried p.1 := by
  unfold StackS.putFault at h
  split at h
  · obtain rfl := Option.some.inj h
    exact .of_eq (by rfl)
  · exact absurd h nofun

theorem Stays.needFrame (ctx : CtxId) (leafPa : Nat) (home : StackId) (die : Nat) (newHome : StackId) :
    Stays r (s.needFrame ctx leafPa home die newHome).1 := by
  unfold State.needFrame
  dsimp only
  split
  · exact hs
  · split
    next f u e => exact (hs.takeFrame e).backPage ..
    next =>
      have hr := StackS.carried_mapResv (s.stack home) ctx fun x => x.addHeld (s.pageLines leafPa).length
      refine (hs.setStack _ ?_).interrupt _
      split
      next h => exact hr.trans ((StackS.carried_putFault _ _ h).trans (.of_eq (by rfl)))
      next => exact hr.trans (.of_eq (by rfl))

/-! ## Writes at the home -/

theorem Stays.writeOverrun (w : WrTag) (pa : Nat) (bytes : List (Option Byte)) (bad : BitVec 16) :
    Stays r (s.writeOverrun w pa bytes bad).1 := by
  unfold State.writeOverrun
  split
  · exact hs
  · have hn := hs.needFrame w.ctx w.leafPa w.home (poolDie w.home) w.home
    dsimp only
    split
    · exact hn.writeL2 ..
    · exact hn

theorem Stays.writeUnbacked (w : WrTag) (wr : Option CtxId) (pa : Nat) (bytes : List (Option Byte)) (disc : Bool)
    (bad : BitVec 16) : Stays r (s.writeUnbacked w wr pa bytes disc bad).1 := by
  unfold State.writeUnbacked
  dsimp only
  split
  · exact hs.freeLine _
  · split
    · exact Stays.putMarked (hs.update (by rfl)) ..
    · split
      · exact (hs.makeLive ..).putMarked ..
      · exact hs.writeOverrun ..

theorem Stays.writeHome (w : WrTag) (pa : Nat) (bytes : List (Option Byte)) (disc : Bool) (bad : BitVec 16) :
    Stays r (s.writeHome w pa bytes disc bad).1 := by
  unfold State.writeHome
  split
  · split
    · exact hs.writeUnbacked ..
    · split
      · exact hs.writeUnbacked ..
      · exact hs
  · split
    · exact hs.zeroLine ..
    · exact hs.writeL2 ..

theorem Stays.performWrite (k : Nat) : Stays r (s.performWrite k) := by
  unfold State.performWrite
  split
  · exact hs
  next w _ =>
    have hw := hs.writeHome w.tag w.pa w.bytes w.disc w.bad
    dsimp only
    split
    · exact hw.update (by rfl)
    · exact hw.update (by rfl)
    · exact Stays.fatalFor (hw.update (by rfl)) ..

/-! ## The error log (R427, R429) -/

theorem Stays.logRecord (st : StackId) (l : List (Nat × Nat)) (time : Nat) (ctx : Option CtxId) (core : Option CoreId) :
    Stays r (s.logRecord st l time ctx core) := by
  unfold State.logRecord
  refine .ite (((hs.setStack _ (.of_eq (by rfl))).putPhys ..).setStack _ (.of_eq (by rfl))) ?_
  dsimp only
  split
  · exact ((hs.setStack _ (.ite (.of_eq (by rfl)) (.of_eq (by rfl)))).interrupt _).count ..
  · exact (hs.setStack _ (.ite (.of_eq (by rfl)) (.of_eq (by rfl)))).interrupt _

theorem Stays.logSoft (st : StackId) (code : Nat) (u : ErrUnit) : Stays r (s.logSoft st code u) := hs.logRecord ..

/-! ## Flushes and drains (R234, R371) -/

theorem Stays.setCore (c : CoreId) (x : CoreS) : Stays r (s.setCore c x) := by
  unfold State.setCore
  exact hs.update (by rfl)

theorem Stays.setCluster (c : ClusterId) (x : ClusterS) : Stays r (s.setCluster c x) := by
  unfold State.setCluster
  exact hs.update (by rfl)

theorem Stays.performWhere (p : PWrite → Bool) (k i : Nat) : Stays r (s.performWhere p k i) := by
  induction k generalizing s i with
  | zero => exact hs
  | succ k ih =>
    unfold State.performWhere
    split
    · exact hs
    · exact .ite (.ite (ih (hs.performWrite _) _) (ih (hs.performWrite _) _)) (ih hs _)

theorem Stays.drain (p : PWrite → Bool) : Stays r (s.drain p) := hs.performWhere ..

theorem Stays.cleanCC (cl : ClusterId) (line : Nat) : Stays r (s.cleanCC cl line) := by
  unfold State.cleanCC
  split
  · exact hs
  · split
    · exact hs
    · exact Stays.update (hs.setCluster cl _) (by with_reducible rfl)

theorem Stays.evictCC (cl : ClusterId) (line : Nat) : Stays r (s.evictCC cl line) := (hs.cleanCC cl line).setCluster ..

theorem Stays.roomCC (cl : ClusterId) : Stays r (s.roomCC cl) := by
  unfold State.roomCC
  refine .ite hs ?_
  split
  · exact .evictCC (hs.update (by rfl)) ..
  · exact hs

theorem Stays.cleanL1 (c : CoreId) (line : Nat) : Stays r (s.cleanL1 c line) := by
  unfold State.cleanL1
  split
  · exact hs
  · exact .ite hs (((Stays.ite hs (hs.roomCC _)).setCluster ..).setCore ..)

theorem Stays.flushL1 (c : CoreId) : Stays r (s.flushL1 c) :=
  hs.foldl (f := fun s l => s.cleanL1 c l) (fun _ _ hu => hu.cleanL1 ..) _

theorem Stays.flushCC (c : CoreId) : Stays r (s.flushCC c) :=
  hs.foldl (f := fun s l => s.cleanCC (clusterOf c) l) (fun _ _ hu => hu.cleanCC ..) _

theorem Stays.releaseData (c : CoreId) (sc : Scope) : Stays r (s.releaseData c sc) := by
  have hd : Stays r (match s.task? c with
      | some t => if 1 ≤ scopeRank sc then s.drain (fun w => w.direct && w.tag.byTask t.launch t.coord) else s
      | none => s) := by
    split
    · exact .ite (hs.drain _) hs
    · exact hs
  have hf := Stays.ite (b := 3 ≤ scopeRank sc) ((Stays.ite (b := 2 ≤ scopeRank sc) (hd.flushL1 c) hd).flushCC c)
    (Stays.ite (b := 2 ≤ scopeRank sc) (hd.flushL1 c) hd)
  unfold State.releaseData
  dsimp only
  split
  · exact .ite (hf.drain _) hf
  · exact hf

end

end Sys2Proof.Machine
end

section
/-! PROOF. What the dispatcher's words and jobs leave of a launch's counts (R72, R241 to R246, R469). -/

namespace Sys2Proof.Machine

/-- A launch stands with its counts of triggered and finished tasks, and these trigger messages are on their way. -/
def CountsAre (n trig fin : Nat) (ms : List TrigMsg) (s : State) : Prop :=
  (∃ l, s.launch? n = some l ∧ l.triggered = trig ∧ l.finished = fin) ∧ s.trigs = ms

section
variable {n trig fin : Nat} {ms : List TrigMsg} {s u : State}

theorem CountsAre.congr (hs : CountsAre n trig fin ms s) (h : (u.launches, u.trigs) = (s.launches, s.trigs)) :
    CountsAre n trig fin ms u := by
  obtain ⟨hl, ht⟩ := Prod.mk.inj h
  rw [CountsAre, State.launch?, hl, ht]
  exact hs

/-- The same where the two states show it by what they are. -/
theorem CountsAre.update (hs : CountsAre n trig fin ms s)
    (h : (u.launches, u.trigs) = (s.launches, s.trigs)) : CountsAre n trig fin ms u := hs.congr h

/-- What writes at home, backings and the error log leave in place. -/
theorem CountsAre.stays (hs : CountsAre n trig fin ms s) (h : Stays s u) : CountsAre n trig fin ms u :=
  hs.congr (by rw [h.launches, h.trigs])

theorem CountsAre.ite {b : Prop} [Decidable b] (hs : CountsAre n trig fin ms s) (hu : CountsAre n trig fin ms u) :
    CountsAre n trig fin ms (if b then s else u) := by
  split
  · exact hs
  · exact hu

theorem CountsAre.foldl {α : Type} {f : State → α → State}
    (hf : ∀ s a, CountsAre n trig fin ms s → CountsAre n trig fin ms (f s a)) (l : List α) (hs : CountsAre n trig fin ms s) :
    CountsAre n trig fin ms (l.foldl f s) := by
  induction l generalizing s with
  | nil => exact hs
  | cons a l ih => exact ih (hf s a hs)

end

section
variable {n trig fin : Nat} {ms : List TrigMsg} {s : State} (hs : CountsAre n trig fin ms s)
include hs

/-! ## The dispatcher's words and jobs -/

theorem CountsAre.putWord (ctx : CtxId) (launch : Nat) (va : Word) (v : Nat) :
    CountsAre n trig fin ms (s.putWord ctx launch va v) := by
  unfold State.putWord
  dsimp only
  split
  · exact hs
  · have hw (l : List PWrite) : CountsAre n trig fin ms { s with pwrites := l } := hs.update rfl
    exact .ite (hw _) ((hw _).stays (Stays.performWrite (.refl _) _))

theorem CountsAre.putWords (ctx : CtxId) (launch : Nat) (r : LaunchRec) (tdone cdone gref : Bool) (code t f : Nat) :
    CountsAre n trig fin ms (s.putWords ctx launch r tdone cdone gref code t f) :=
  (CountsAre.ite hs (hs.putWord ..)).putWord ..

theorem CountsAre.stepJob (k : Nat) (j : WordJob) : CountsAre n trig fin ms (s.stepJob k j).1 := by
  induction k generalizing s j with
  | zero => exact hs
  | succ k ih =>
    unfold State.stepJob
    split
    · exact hs
    · split
      · exact hs
      · exact ih (hs.putWord ..) _

theorem CountsAre.acctJob (j : WordJob) : CountsAre n trig fin ms (s.acctJob j).1 := by
  unfold State.acctJob
  split
  · split
    · exact hs.foldl (fun _ _ hu => hu.stays (Stays.logRecord (.refl _) ..)) _
    · exact hs
  · exact hs

theorem CountsAre.freeRegions (l : Launch) : CountsAre n trig fin ms (s.freeRegions l) :=
  hs.foldl (fun _ _ hu => .ite hu (hu.stays (Stays.putRest (Stays.setStack (.refl _) _ (.of_eq (by rfl))) ..))) _

/-- A launch that is written again with its counts. -/
theorem CountsAre.setLaunch {m : Nat} {l l' : Launch} (hl : s.launch? m = some l) (ht : l'.triggered = l.triggered)
    (hf : l'.finished = l.finished) : CountsAre n trig fin ms (s.setLaunch m l') := by
  obtain ⟨⟨k, hk, hkt, hkf⟩, hm⟩ := hs
  refine ⟨?_, hm⟩
  by_cases h : n = m
  · subst h
    obtain rfl := Option.some.inj (hl.symm.trans hk)
    exact ⟨l', Tab.find_set_same .., ht.trans hkt, hf.trans hkf⟩
  · refine ⟨k, ?_, hkt, hkf⟩
    rw [State.launch?, State.setLaunch_launches, Tab.find_set, if_neg h]
    exact hk

theorem CountsAre.retired (m : Nat) : CountsAre n trig fin ms (s.retired m) := by
  unfold State.retired
  split
  · exact hs
  next l hl => exact (hs.setLaunch (l' := { l with done := true, pendTeams := [] }) hl rfl rfl).freeRegions _

theorem CountsAre.endJob (j : WordJob) : CountsAre n trig fin ms (s.endJob j) := by
  have hi : CountsAre n trig fin ms (match j.irq with | some i => s.interrupt i | none => s) := by
    split
    · exact hs.stays (Stays.interrupt (.refl _) _)
    · exact hs
  exact .ite (hi.retired _) hi

theorem CountsAre.runJob (j : WordJob) : CountsAre n trig fin ms (s.runJob j) := by
  have ha := hs.acctJob j
  have hk := ha.stepJob 3 (s.acctJob j).2
  unfold State.runJob
  dsimp only
  split
  · exact ha.update (by rfl)
  · split
    · exact hk.endJob _
    · exact hk.update (by rfl)

theorem CountsAre.runJobs : CountsAre n trig fin ms s.runJobs :=
  CountsAre.foldl (fun _ _ hu => hu.runJob _) _ (hs.update (by rfl))

theorem CountsAre.retire (m code : Nat) : CountsAre n trig fin ms (s.retire m code) := by
  unfold State.retire
  split
  · exact hs
  next l hl =>
    refine .ite hs ?_
    extract_lets u v
    have hu : CountsAre n trig fin ms u := hs.setLaunch hl rfl rfl
    have hv : CountsAre n trig fin ms v := by
      unfold v
      split
      · exact .ite (hu.update (by rfl)) hu
      · exact hu
    exact CountsAre.runJobs (hv.update (by rfl))

theorem CountsAre.updateWords (m : Nat) : CountsAre n trig fin ms (s.updateWords m) := by
  unfold State.updateWords
  split
  · exact hs
  · exact .ite hs (.ite (hs.retire ..) (hs.putWords ..))

end

end Sys2Proof.Machine
end

section
/-! PROOF. What the messages of tokens and synchronisation do when they arrive (R367 to R410; O56). -/

namespace Sys2Proof.Machine

/-! ## Arrivals at a phase (R395, R398) -/

/-- A team stands at its slice with these phases, and the messages under way and the memory are those of `s`. -/
structure PhasesAre (st : StackId) (m : Nat) (ps : Tab PhaseObj) (s u : State) : Prop where
  team : ∃ tm, (u.stack st).teams.find m = some tm ∧ tm.phases = ps
  arrs : u.arrs = s.arrs
  rounds : u.rounds = s.rounds
  toks : u.toks = s.toks
  mem : u.mem = s.mem

section
variable {s u v : State} {st : StackId} {m ph : Nat} {tm : Team} {ps : Tab PhaseObj}

theorem PhasesAre.trans {qs : Tab PhaseObj} (h : PhasesAre st m qs s u) (k : PhasesAre st m ps u v) : PhasesAre st m ps s v :=
  ⟨k.team, k.arrs.trans h.arrs, k.rounds.trans h.rounds, k.toks.trans h.toks, k.mem.trans h.mem⟩

theorem State.setTeam_team (s : State) (st : StackId) (m : Nat) (tm : Team) :
    ((s.setTeam st m tm).stack st).teams.find m = some tm := by simp [State.setTeam]

theorem State.settleToks_of_none (hn : s.toks = []) (ts : Tab Task) (k : Nat) : s.settleToks st ts k = s := by
  cases k with
  | zero => rfl
  | succ k => simp [State.settleToks, hn]

/-- A checkpoint is taken or left out; the phases are as they were. -/
theorem State.takeCheckpoint_of_no_toks (hn : s.toks = []) (hm : (s.stack st).teams.find m = some tm) :
    PhasesAre st m tm.phases s (s.takeCheckpoint st m) := by
  unfold State.takeCheckpoint
  rw [State.settleToks_of_none hn]
  dsimp only
  rw [hm]
  dsimp only
  split
  · exact ⟨⟨_, State.setTeam_team .., rfl⟩, rfl, rfl, rfl, rfl⟩
  · exact ⟨⟨_, State.setTeam_team .., rfl⟩, rfl, rfl, rfl, rfl⟩

theorem State.roundOrder_of_no_rounds (hr : s.rounds = []) (inst : Nat) : s.roundOrder st m ph inst = [] := by
  simp [State.roundOrder, hr, sortKey]

/-- The phase object of an occurrence that has been completed without rounds. -/
def PhaseObj.completed (p : PhaseObj) : PhaseObj :=
  { p with
    arv := p.arv - p.p
    inst := p.inst + 1
    doneSc := if p.openSc = [] then p.doneSc else p.doneSc.set (p.inst + 1) p.openSc
    openSc := if p.arv = p.p then [] else p.openSc }

/-- No round is given where none is bound: the slice's teams stay as they are. -/
theorem State.giveRounds_nil_teams (s : State) (st : StackId) (m ph inst : Nat) :
    ((s.giveRounds st m ph inst []).stack st).teams = (s.stack st).teams :=
  calc ((s.giveRounds st m ph inst []).stack st).teams
      = ((s.setStack st ((s.stack st).dropObjs fun _ => false)).stack st).teams := rfl
    _ = (s.stack st).teams := by rw [State.setStack_stack_same]; rfl

theorem State.completeInstance_of_no_rounds (hr : s.rounds = []) (hm : (s.stack st).teams.find m = some tm) :
    PhasesAre st m (tm.phases.set ph (tm.phases.get PhaseObj.none ph).completed) s (s.completeInstance st m ph) := by
  unfold State.completeInstance
  rw [hm]
  dsimp only
  rw [State.roundOrder_of_no_rounds hr]
  rw [State.giveRounds_nil_teams, hm]
  refine ⟨⟨_, State.setTeam_team .., rfl⟩, rfl, ?_, rfl, rfl⟩
  simp [State.setTeam, State.giveRounds, hr]

theorem State.closeInstance_of_open (hm : (s.stack st).teams.find m = some tm)
    (ha : (tm.phases.get PhaseObj.none ph).p = 0 ∨ (tm.phases.get PhaseObj.none ph).arv < (tm.phases.get PhaseObj.none ph).p) :
    s.closeInstance st m ph = (s, false) := by
  unfold State.closeInstance
  rw [hm]
  exact if_pos ha

/-- An occurrence whose arrivals have all come is complete, where no round is under way. -/
theorem State.closeInstance_of_full (hn : s.toks = []) (hr : s.rounds = []) (hm : (s.stack st).teams.find m = some tm)
    (ha : ¬ ((tm.phases.get PhaseObj.none ph).p = 0 ∨
      (tm.phases.get PhaseObj.none ph).arv < (tm.phases.get PhaseObj.none ph).p)) :
    ∃ u, s.closeInstance st m ph = (u, true) ∧
      PhasesAre st m (tm.phases.set ph (tm.phases.get PhaseObj.none ph).completed) s u := by
  have hc := State.takeCheckpoint_of_no_toks hn hm
  obtain ⟨tc, htc, hpc⟩ := hc.team
  have hd := State.completeInstance_of_no_rounds (ph := ph) (hc.rounds.trans hr) htc
  rw [hpc] at hd
  refine ⟨_, ?_, hc.trans hd⟩
  unfold State.closeInstance
  rw [hm]
  dsimp only
  rw [if_neg ha, State.roundOrder_of_no_rounds hr]
  rfl

/-- No occurrence closes where the arrivals of the open one have not all come. -/
theorem State.closeAll_of_open (k : Nat) (hm : (s.stack st).teams.find m = some tm)
    (ha : (tm.phases.get PhaseObj.none ph).p = 0 ∨ (tm.phases.get PhaseObj.none ph).arv < (tm.phases.get PhaseObj.none ph).p) :
    s.closeAll st m ph k = s := by
  cases k with
  | zero => rfl
  | succ k =>
    rw [State.closeAll, State.closeInstance_of_open hm ha]
    rfl

/-- An occurrence whose last arrival has just come closes, and the next one stays open. -/
theorem State.closeAll_of_full (hn : s.toks = []) (hr : s.rounds = []) (hm : (s.stack st).teams.find m = some tm)
    (hp : 0 < (tm.phases.get PhaseObj.none ph).p)
    (ha : (tm.phases.get PhaseObj.none ph).arv = (tm.phases.get PhaseObj.none ph).p) (k : Nat) :
    PhasesAre st m (tm.phases.set ph (tm.phases.get PhaseObj.none ph).completed) s (s.closeAll st m ph (k + 1)) := by
  obtain ⟨u, hu, hq⟩ := State.closeInstance_of_full (ph := ph) hn hr hm (by omega)
  obtain ⟨tq, htq, hps⟩ := hq.team
  have hk : u.closeAll st m ph k = u :=
    State.closeAll_of_open k htq (by simp [hps, PhaseObj.completed, ha, hp])
  rw [State.closeAll, hu]
  dsimp only
  rw [if_pos rfl, hk]
  exact hq

theorem State.receiveRoundsOf_of_no_rounds (hr : s.rounds = []) (launch : Nat) (coord : BitVec 48) :
    s.receiveRoundsOf launch coord = s := by
  simp [State.receiveRoundsOf, hr]

theorem State.consumeObj_keeps (s : State) (st : StackId) (x : Src) (p : ObjUse → Bool) :
    ∃ l, s.consumeObj st x p = { s with agenda := l } := by
  unfold State.consumeObj
  split
  · exact ⟨_, rfl⟩
  · exact ⟨s.agenda, rfl⟩

/-- The phase object with one more arrival of the open occurrence, which releases at a scope. -/
def PhaseObj.arrived (p : PhaseObj) (sc : Scope) : PhaseObj := { p with arv := p.arv + 1, openSc := addScope p.openSc sc }

/-- A team with one of its phase objects written. -/
def Team.setPhase (tm : Team) (ph : Nat) (p : PhaseObj) : Team := { tm with phases := tm.phases.set ph p }

@[simp] theorem Team.setPhase_same (tm : Team) (ph : Nat) (p : PhaseObj) : (tm.setPhase ph p).phases.get PhaseObj.none ph = p :=
  Tab.get_set_same ..

/-- An arrival at a defined phase is written into its object, and the occurrences it completes close. -/
theorem State.countArrival_of_defined (hm : (s.stack st).teams.find m = some tm) (hp : (tm.phases.get PhaseObj.none ph).p ≠ 0)
    (sc : Scope) (a : Agent) (naks : Nat) :
    ∃ l, s.countArrival st m ph sc (some a) naks = some (({ s with agenda := l }.setTeam st m
      (tm.setPhase ph ((tm.phases.get PhaseObj.none ph).arrived sc))).closeAll st m ph 2) := by
  obtain ⟨l, hl⟩ := s.consumeObj_keeps st a.src (· == ObjUse.phase m ph)
  refine ⟨l, ?_⟩
  unfold State.countArrival
  rw [hm]
  dsimp only
  rw [if_neg hp, hl]
  rfl

/-- An arrival of the own grid that may be counted is counted at its phase. -/
theorem State.phaseArrival_of_defined {a : ArrMsg} (ha : s.arrs = [a]) (hr : s.rounds = []) (hmay : s.arrMay 0 a = true)
    (hout : a.outside = false) (hf : s.findTeam a.launch a.target = some (st, m, tm)) (hm : (s.stack st).teams.find m = some tm)
    (hp : (tm.phases.get PhaseObj.none a.ph).p ≠ 0) :
    ∃ l, s.phaseArrival 0 = ({ s with arrs := [], agenda := l }.setTeam st m (tm.setPhase a.ph
      ((tm.phases.get PhaseObj.none a.ph).arrived (if a.rel then a.sc else .dflt)))).closeAll st m a.ph 2 := by
  obtain ⟨l, hl⟩ := State.countArrival_of_defined (s := { s with arrs := [] }) (st := st) (m := m) hm hp
    (if a.rel then a.sc else .dflt) (.task a.core a.ctx a.launch a.coord) a.naks
  refine ⟨l, ?_⟩
  have h0 : s.arrs[0]? = some a := by rw [ha]; rfl
  have hd : listDrop s.arrs 0 = [] := by rw [ha]; rfl
  have hf' : State.findTeam { s with arrs := [] } a.launch a.target = some (st, m, tm) := hf
  unfold State.phaseArrival
  rw [h0]
  dsimp only
  rw [hout, State.receiveRoundsOf_of_no_rounds hr]
  simp only [Bool.false_eq_true, if_false, hmay, Bool.not_true, hd, hf', hl, Option.getD_some]

/-- O56's clause of an arrival that leaves the open occurrence waiting for more. -/
theorem State.phaseArrival_open {a : ArrMsg} (ha : s.arrs = [a]) (hr : s.rounds = []) (hmay : s.arrMay 0 a = true)
    (hout : a.outside = false) (hf : s.findTeam a.launch a.target = some (st, m, tm)) (hm : (s.stack st).teams.find m = some tm)
    {p : PhaseObj} (hp : tm.phases.get PhaseObj.none a.ph = p) (hlt : p.arv + 1 < p.p) :
    ∃ u tm', exec (.phaseArrival 0) s = .next u ∧ u.arrs = [] ∧ u.mem = s.mem ∧ (u.stack st).teams.find m = some tm' ∧
      tm'.phases = tm.phases.set a.ph { p with arv := p.arv + 1, openSc := addScope p.openSc (if a.rel then a.sc else .dflt) } := by
  subst hp
  obtain ⟨l, hl⟩ := State.phaseArrival_of_defined ha hr hmay hout hf hm (by omega)
  rw [State.closeAll_of_open 2 (State.setTeam_team ..) (by simp [PhaseObj.arrived]; omega)] at hl
  exact ⟨_, _, congrArg Host.Outcome.next hl, rfl, rfl, State.setTeam_team .., rfl⟩

/-- O56's clause of the last arrival of an occurrence. -/
theorem State.phaseArrival_last {a : ArrMsg} (ha : s.arrs = [a]) (hr : s.rounds = []) (hn : s.toks = [])
    (hmay : s.arrMay 0 a = true) (hout : a.outside = false) (hf : s.findTeam a.launch a.target = some (st, m, tm))
    (hm : (s.stack st).teams.find m = some tm) {p : PhaseObj} (hp : tm.phases.get PhaseObj.none a.ph = p) (hlast : p.arv + 1 = p.p)
    {sc : List Scope} (hsc : addScope p.openSc (if a.rel then a.sc else .dflt) = sc) :
    ∃ u tm', exec (.phaseArrival 0) s = .next u ∧ u.arrs = [] ∧ u.mem = s.mem ∧ (u.stack st).teams.find m = some tm' ∧
      tm'.phases.get .none a.ph = { p with
        arv := 0, inst := p.inst + 1, openSc := [], doneSc := if sc = [] then p.doneSc else p.doneSc.set (p.inst + 1) sc } := by
  subst hp hsc
  obtain ⟨l, hl⟩ := State.phaseArrival_of_defined ha hr hmay hout hf hm (by omega)
  have hc := State.closeAll_of_full (ph := a.ph) (s := { s with arrs := [], agenda := l }.setTeam st m _) hn hr
    (State.setTeam_team _ st m (tm.setPhase a.ph ((tm.phases.get PhaseObj.none a.ph).arrived (if a.rel then a.sc else .dflt))))
    (by simp [PhaseObj.arrived]; omega) (by simpa [PhaseObj.arrived] using hlast) 1
  obtain ⟨tq, htq, hps⟩ := hc.team
  refine ⟨_, tq, congrArg Host.Outcome.next hl, hc.arrs, hc.mem, htq, ?_⟩
  rw [hps]
  simp [PhaseObj.completed, PhaseObj.arrived, hlast]

end

/-! ## Triggers, growth and the deadlock walk (R382, R404 to R406) -/

theorem State.setLaunch_find_same (s : State) (n : Nat) (l : Launch) : (s.setLaunch n l).launch? n = some l := Tab.find_set_same ..

/-- A trigger counts at its launch, whatever the words and the jobs of the launch then write. -/
theorem State.countTrigger_counts {s : State} {n : Nat} {l : Launch} (hg : s.grows = []) (hl : s.launch? n = some l) :
    CountsAre n (l.triggered + 1) l.finished s.trigs (s.countTrigger n) := by
  have ha : s.applyGrows n = s := by
    unfold State.applyGrows
    rw [hg]
    exact congrArg (fun g => { s with grows := g }) hg.symm
  unfold State.countTrigger
  rw [ha]
  dsimp only
  rw [hl]
  exact CountsAre.updateWords ⟨⟨_, State.setLaunch_find_same .., rfl, rfl⟩, rfl⟩ n

/-- The extent with one component replaced. -/
theorem extOf_replaced (e : Nat × Nat × Nat) (i k : Nat) :
    extOf (if i = 0 then (k, e.2.1, e.2.2) else if i = 1 then (e.1, k, e.2.2) else (e.1, e.2.1, k)) i = k := by
  unfold extOf
  split
  · rfl
  · split <;> rfl

/-- A request that may grow the last extent of its launch grows it up to its bound. -/
theorem State.applyGrow_grows {s : State} {g : GrowMsg} {l : Launch} {x : LoopRec} (hl : s.launch? g.launch = some l)
    (hd : l.done = false) (he : s.ending g.launch = false) (hz : g.n ≠ 0)
    (hx : l.img.loops.find? (fun x => x.lkind == 2) = some x) (ht : g.triggered = false) :
    ∃ l', s.applyGrow g = s.setLaunch g.launch l' ∧ extOf l'.ext x.comp = min (extOf l.ext x.comp + g.n) x.trip ∧
      l'.gref = l.gref := by
  have hgo : ¬ (l.done || s.ending g.launch || g.n == 0) = true := by simp [hd, he, hz]
  unfold State.applyGrow
  rw [hl]
  dsimp only
  rw [if_neg hgo, hx]
  dsimp only
  rw [ht, if_neg (by decide)]
  exact ⟨_, rfl, extOf_replaced .., rfl⟩

/-- What the entry of waits leaves of the walk's settings. -/
theorem State.enterWaits_keeps {α : Type} (p : State → α)
    (hp : ∀ s st x n, p { State.setStack s st x with waitNo := n } = p s) (s : State) : p s.enterWaits = p s := by
  unfold State.enterWaits
  refine State.foldl_keeps p _ _ (fun u k => ?_) s
  unfold State.enterStack
  dsimp only
  split
  · rfl
  · exact hp ..

theorem pickVictim_nil (vict : BitVec 2) : pickVictim vict (oneCycle []) = none := by
  simp [pickVictim, oneCycle, bestEnt]

theorem State.walkCycles_nil (s : State) (k : Nat) : s.walkCycles k [] = s := by
  cases k with
  | zero => rfl
  | succ k => rw [State.walkCycles, pickVictim_nil]

/-- The walk ends one victim, where every wait is of the victim's context. -/
theorem State.walkCycles_of_one {s : State} {es : List ((Nat × WaitEnt) × List Agent)} {v : WaitEnt}
    (hv : pickVictim s.dlVict (oneCycle es) = some v) (hc : ∀ e ∈ es, e.1.2.ctx = v.ctx) :
    s.walkCycles es.length es = s.endVictim v := by
  have hf : es.filter (fun e => e.1.2.ctx != v.ctx) = [] := by
    simpa [List.filter_eq_nil_iff] using fun a b c he => hc ((a, b), c) he
  cases es with
  | nil => exact absurd ((pickVictim_nil _).symm.trans hv) nofun
  | cons e es =>
    rw [List.length_cons, State.walkCycles, hv]
    dsimp only
    rw [hf, State.walkCycles_nil]

/-! ## The statement -/

/-- The values of the amo forms on the bits of their type. -/
theorem atomNew_values (ty : Ty) (w v : Nat) :
    (atomNew .add ty w v 0).1 = (w + v) % 2 ^ tyWidth ty ∧
    (atomNew .and ty w v 0).1 = (w % 2 ^ tyWidth ty) &&& (v % 2 ^ tyWidth ty) ∧
    (atomNew .or ty w v 0).1 = (w % 2 ^ tyWidth ty) ||| (v % 2 ^ tyWidth ty) ∧
    (atomNew .xor ty w v 0).1 = (w % 2 ^ tyWidth ty) ^^^ (v % 2 ^ tyWidth ty) := ⟨rfl, rfl, rfl, rfl⟩

/-- A record that may be delivered is marked as arrived. -/
theorem State.tokArrive_deliver {s : State} {n e k : Nat} {st : StackId} {c : Src} {r : TokRec} (hmay : s.msgMayArrive n = true)
    (hn : s.toks[n]? = some (.deliver st e c k)) (he : (s.stack st).toks.find e = some r) (hg : s.agentGone r.holder = false) :
    s.tokArrive n = { s with toks := listDrop s.toks n }.setStack st ((s.stack st).setTok e { r with arr := true }) := by
  unfold State.tokArrive
  rw [hmay, hn]
  dsimp only
  rw [he]
  dsimp only
  rw [hg]
  rfl

/-- A returned token marks the record one depth above. -/
theorem State.tokArrive_ret {s : State} {n e base size d k : Nat} {st : StackId} {sc : Scope} {c : Src} {r : TokRec}
    (hmay : s.msgMayArrive n = true) (hn : s.toks[n]? = some (.ret st base size (d + 1) sc c k))
    (he : (s.stack st).toks.find? (fun e => e.2.isFor base size && !e.2.sh && e.2.depth + 1 == d + 1) = some (e, r))
    (hg : s.agentGone r.holder = false) (hh : ∀ g, r.holder ≠ .stack g) :
    s.tokArrive n =
      { s with toks := listDrop s.toks n }.setStack st ((s.stack st).setTok e { r with back := true, backSc := [sc] }) := by
  unfold State.tokArrive
  rw [hmay, hn]
  dsimp only
  rw [if_neg (by decide), if_neg (Nat.succ_ne_zero d), he]
  dsimp only
  rw [hg]
  rw [if_neg (by decide)]
  split
  · next g hr => exact absurd hr (hh g)
  · rfl

/-- Settles O56: each message by the rule of its arrival, a trigger by `CountsAre`, the walk by the edges that stay. -/
theorem messagesOfTokensAndSynchronisation : Obligations.MessagesOfTokensAndSynchronisation := by
  unfold Obligations.MessagesOfTokensAndSynchronisation
  refine ⟨?_, ?_, ?_, ?_, ?_, ?_, fun ty w v => atomNew_values ty w v, ?_, ?_, ?_, ?_, ?_⟩
  · intro s n e st c k r hmay
    refine ⟨fun hn he hg => ⟨_, congrArg Host.Outcome.next (State.tokArrive_deliver hmay hn he hg), rfl, rfl, ?_⟩,
      fun base size d sc hn he hg hh => ⟨_, congrArg Host.Outcome.next (State.tokArrive_ret hmay hn he hg hh), rfl, rfl, ?_⟩⟩
    · simp [StackS.setTok]
    · simp [StackS.setTok]
  · intro s st e r he
    change execTokenRecordClear st e s = _
    unfold execTokenRecordClear
    rw [he]
  · intro s n e st r c k a hn hmay hg hf
    refine ⟨{ s.setStack st ((s.stack st).setTok e { r with arr := true }) with toks := listDrop s.toks n }, ?_, rfl, ?_⟩
    · change execNakRetry n s = _
      unfold execNakRetry StackS.newTok
      rw [hn]
      simp only [hmay, Bool.not_true, Bool.false_eq_true, if_false, hf, hg, Bool.false_and]
    · change (((s.setStack st _).stack st).toks).find e = _
      simp [StackS.setTok]
  · intro s a st m tm ha hr hn hmay hout hf hm p sc after
    exact ⟨fun hlt => State.phaseArrival_open ha hr hmay hout hf hm rfl hlt,
      fun hlast => State.phaseArrival_last ha hr hn hmay hout hf hm rfl hlast rfl⟩
  · intro s n r hn hrec
    refine congrArg Host.Outcome.next ?_
    unfold State.receiveRound
    rw [hn]
    dsimp only
    rw [hrec, if_neg (by decide)]
    rfl
  · intro s n a s' hn hmay hp
    refine congrArg Host.Outcome.next ?_
    rw [if_pos hmay, if_neg (by decide)]
    unfold State.applyAmo
    rw [hn]
    dsimp only
    rw [hp]
  · intro s n m l hn hh hf hr hg hl
    obtain ⟨⟨l', hl', ht, hfin⟩, htr⟩ := State.countTrigger_counts (s := { s with trigs := listDrop s.trigs n }) hg hl
    refine ⟨_, l', congrArg Host.Outcome.next ?_, htr, hl', ht, hfin⟩
    unfold State.triggerCount State.relWaits
    rw [hn]
    simp only [hh, hf, hr, Bool.or_self, Bool.false_eq_true, if_false]
  · intro s g gs l x hs hl hd he hz hx ht
    obtain ⟨l', hu, hext, hgref⟩ := State.applyGrow_grows (s := { s with grows := gs }) hl hd he hz hx ht
    refine ⟨{ s with grows := gs }.setLaunch g.launch l', l', ?_, rfl, rfl, State.setLaunch_find_same .., hext, hgref⟩
    refine congrArg Host.Outcome.next (Eq.trans ?_ hu)
    rw [hs]
    rfl
  · intro s n a hn
    constructor
    · change execArrivalAcknowledgement n false s = _
      unfold execArrivalAcknowledgement
      rw [hn]
      rfl
    · have hx : exec (.arrivalAcknowledgement n true) s = .next ({ s with syArrs := listDrop s.syArrs n }.fatalFor a.core a.ctx
          a.launch a.coord a.fpos errPermission (slotIx .Y) (agentId (.task a.core a.ctx a.launch a.coord)) 0#64 0#64) := by
        change execArrivalAcknowledgement n true s = _
        unfold execArrivalAcknowledgement
        rw [hn]
        rfl
      exact ⟨_, hx, rfl, rfl, rfl, rfl⟩
  · intro s he
    refine congrArg Host.Outcome.next ?_
    have hk : s.enterWaits.dlEn = s.dlEn := State.enterWaits_keeps State.dlEn (fun _ _ _ _ => rfl) s
    rw [if_neg (by rw [hk, he]; decide)]
  · intro s v he u hv hc
    refine congrArg Host.Outcome.next ?_
    have hk : s.enterWaits.dlEn = s.dlEn := State.enterWaits_keeps State.dlEn (fun _ _ _ _ => rfl) s
    have hw : s.enterWaits.dlVict = s.dlVict := State.enterWaits_keeps State.dlVict (fun _ _ _ _ => rfl) s
    rw [if_pos (hk.trans he)]
    exact State.walkCycles_of_one (s := u) (hw ▸ hv) hc

end Sys2Proof.Machine
end

section
/-! PROOF. What fences, losses, resets and replays leave of the flags of a stack and the checkpoints of its teams (R381,
R434 to R451). -/

namespace Sys2Proof.Machine

section
variable {r s : State} (hs : Stays r s)
include hs

/-! ## Losses and fences (R381, R441, R451) -/

theorem Stays.loseRegion (st : StackId) (base size : Nat) : Stays r (s.loseRegion st base size) := by
  unfold State.loseRegion
  exact hs.writeStack st rfl rfl rfl (.of_eq (by rfl))

theorem Stays.loseWhere (p : TokRec → Bool) : Stays r (s.loseWhere p) := by
  unfold State.loseWhere
  exact hs.foldl (fun _ _ hu => hu.loseRegion ..) _

theorem Stays.endTasks (c : CoreId) (code : Nat) (l : List (CtxId × Nat × BitVec 48)) : Stays r (s.endTasks c code l) :=
  hs.foldl (fun _ _ hu => .ite hu (hu.fatalFor ..)) _

theorem Stays.endStackTasks (st : StackId) (code : Nat) (current : Bool) : Stays r (s.endStackTasks st code current) := by
  unfold State.endStackTasks
  exact hs.foldl (fun _ _ hu => hu.endTasks ..) _

theorem Stays.dropEverywhere (line : Nat) : Stays r (s.dropEverywhere line) := by
  unfold State.dropEverywhere
  exact hs.update (by rfl)

theorem Stays.loseStack (st : StackId) : Stays r (s.loseStack st) := by
  have hl := hs.foldl (f := fun s l => (s.dropEverywhere l).freeLine l) (fun _ _ hu => (hu.dropEverywhere _).freeLine _)
    ((s.live.filter (fun e => e.2.home == st)).map Prod.fst)
  unfold State.loseStack
  exact hl.writeStack st rfl rfl rfl (.of_eq (by rfl))

theorem Stays.rewriteCap (id : Nat) : Stays r (s.rewriteCap id) := by
  unfold State.rewriteCap
  refine .ite hs ?_
  split
  · exact hs.putPhys ..
  · exact hs

theorem Stays.rewriteCaps : Stays r s.rewriteCaps := (hs.rewriteCap 3).interrupt _

/-! ## The course of a reset (R450) -/

theorem Stays.park (c : CoreId) (t : Task) : Stays r (s.park c t) := by
  unfold State.park
  split
  next tm hm => exact hs.setStack _ (.setTeam hm ⟨rfl, rfl, (Team.Same.refl tm).cp⟩)
  next => exact hs

theorem Stays.saveTask (t : Task) (redo : Bool) : Stays r (s.saveTask t redo).1 := by
  unfold State.saveTask State.setCtx State.putSlot
  dsimp only
  split
  · exact hs
  · exact .ite (hs.update (by rfl)) (hs.update (by rfl))

theorem Stays.clearNext (st : StackId) (lost : List Nat) (k : Nat) : Stays r (s.clearNext st lost k) := by
  unfold State.clearNext
  dsimp only
  split
  · refine .ite (hs.endTasks ..) ?_
    split
    · exact ((hs.saveTask ..).park ..).setCore ..
    · exact hs
  · exact (hs.park ..).setCore ..
  · exact hs

theorem Stays.setTask (c : CoreId) (t : Task) : Stays r (s.setTask c t) := hs.setCore ..

theorem Stays.mapTask (c : CoreId) (f : Task → Task) : Stays r (s.mapTask c f) := by
  unfold State.mapTask
  split
  · exact hs.setTask ..
  · exact hs

theorem Stays.backAll (st : StackId) (ctx : CtxId) (ls : List Nat) : Stays r (s.backAll st ctx ls) :=
  hs.foldl (f := fun s l => (s.needFrame ctx l st (poolDie st) st).1) (fun _ _ hu => hu.needFrame ..) _

theorem Stays.backHomed (st : StackId) : Stays r (s.backHomed st) := by
  unfold State.backHomed
  exact hs.foldl (fun _ _ hu => hu.backAll ..) _

theorem Stays.mapOp (st : StackId) (n : Nat) (f : CopyOp → CopyOp) : Stays r (s.mapOp st n f) := by
  unfold State.mapOp
  split
  next o ho =>
    refine hs.setStack st ⟨rfl, fun hi => ?_, fun _ tm hm => ⟨tm, hm, .refl tm⟩⟩
    rw [hi.1] at ho
    exact absurd ho (by simp)
  next => exact hs

theorem Stays.refuseRequest (core : CoreId) (launch : Nat) (coord : BitVec 48) (handle : Option Nat) :
    Stays r (s.refuseRequest core launch coord handle) := by
  unfold State.refuseRequest
  split
  · exact (hs.mapOp ..).soon _
  · exact hs.soon _

theorem Stays.fenceLinks (st : StackId) : Stays r (s.fenceLinks st) := by
  have hl := hs.setStack st (x := { s.stack st with linkFen := true }) (.of_eq (by rfl))
  unfold State.fenceLinks
  refine Stays.foldl (fun _ _ hu => hu.refuseRequest ..) _ ?_
  refine Stays.foldl (fun _ _ hu => hu.refuseRequest ..) _ ?_
  exact Stays.foldl (fun _ _ hu => hu.refuseRequest ..) _ (hl.update (by rfl))

theorem Stays.clearCaches (st : StackId) : Stays r (s.clearCaches st) := by
  unfold State.clearCaches
  refine Stays.setStack ?_ st (.of_eq (by rfl))
  refine Stays.foldl (fun _ _ hu => hu.setCluster ..) _ ?_
  exact hs.foldl (fun _ _ hu => hu.setCore ..) _

theorem Stays.emptyCaches (st : StackId) : Stays r (s.emptyCaches st) := by
  have hf := hs.foldl (f := fun s k => (s.flushL1 (coreOf st k)).flushCC (coreOf st k)) (fun _ _ hu => (hu.flushL1 _).flushCC _)
    (List.range 16)
  unfold State.emptyCaches
  exact (Stays.foldl (fun _ _ hu => hu.evictL2 ..) _ (hf.drain _)).clearCaches st

theorem Stays.parkToks (st : StackId) : Stays r (s.parkToks st) := by
  unfold State.parkToks
  exact hs.foldl (fun _ _ hu => (hu.putPhys ..).putPhys ..) _

theorem Stays.resetGoesOn (st : StackId) : Stays r (s.resetGoesOn st) := by
  have hb := hs.backHomed st
  unfold State.resetGoesOn
  refine .ite hs (.ite hs (.ite hb ?_))
  exact (((hb.fenceLinks st).emptyCaches st).parkToks st).setStack st (.of_eq (by with_reducible rfl))

theorem Stays.unparkTok (st : StackId) (e : Nat) (k : TokRec) : Stays r (s.unparkTok st e k) := by
  unfold State.unparkTok
  exact .ite hs (.ite (hs.soon _) (.ite (hs.setStack st (.of_eq (by rfl))) (.ite hs (hs.setStack st (.of_eq (by rfl))))))

theorem Stays.unparkToks (st : StackId) : Stays r (s.unparkToks st) := by
  unfold State.unparkToks
  exact hs.foldl (fun _ _ hu => hu.unparkTok ..) _

/-! ## Replay (R444 to R447) -/

theorem Stays.mapTeam (st : StackId) (m : Nat) (f : Nat → Task → Task) : Stays r (s.mapTeam st m f) := by
  have hl := hs.foldl (f := fun s k => s.setCore (coreOf st k) { s.core (coreOf st k) with
    live := (s.core (coreOf st k)).live.map (fun t => if t.team = m then f k t else t)
    next := (s.core (coreOf st k)).next.map (Asg.mapTask (fun t => if t.team = m then f k t else t)) })
    (fun _ _ hu => hu.setCore ..) (List.range 16)
  unfold State.mapTeam
  dsimp only
  split
  next tm hm => exact hl.setStack st (.setTeam hm ⟨rfl, rfl, (Team.Same.refl tm).cp⟩)
  next => exact hl

theorem Stays.addPoison (pa : Nat) : Stays r (s.addPoison pa) := by
  unfold State.addPoison
  exact .ite hs (hs.update (by rfl))

theorem Stays.markUnit (pa : Nat) (bad : BitVec 16) : Stays r (s.markUnit pa bad) := by
  unfold State.markUnit
  exact hs.foldl (fun _ _ hu => .ite (hu.addPoison _) hu) _

theorem Stays.markHome (pa : Nat) (bad : BitVec 16) : Stays r (s.markHome pa bad) := by
  unfold State.markHome
  exact (hs.markUnit pa bad).mapStacks rfl rfl rfl fun _ => ⟨rfl, .of_eq (by rfl)⟩

theorem Stays.unpoison (pa : Nat) (bytes : List (Option Byte)) : Stays r (s.unpoison pa bytes) := by
  unfold State.unpoison
  exact hs.update (by rfl)

theorem Stays.restoreUnit (st : StackId) (m : Nat) (ctx : CtxId) (p : PreImage) : Stays r (s.restoreUnit st m ctx p) := by
  unfold State.restoreUnit
  dsimp only
  split
  next pa _ =>
    have hd := hs.dropEverywhere (lineOf pa)
    refine .ite (hd.freeLine _) (.markHome (.putPhys (.ite ?_ hd) ..) ..)
    split
    · exact hd.makeLive ..
    · exact hd
  · exact ((hs.mapTeam ..).unpoison ..).markUnit ..
  · exact ((hs.mapTeam ..).unpoison ..).markUnit ..

theorem Stays.restoreToks (tm : Team) (cp : Checkpoint) : Stays r (s.restoreToks tm cp) := by
  unfold State.restoreToks
  refine Stays.foldl (fun s p hu => ?_) _ (hs.mapStacks rfl rfl rfl fun _ => ⟨rfl, .of_eq (by rfl)⟩)
  refine .ite hu (.ite (hu.setStack _ (.of_eq (by rfl))) ?_)
  dsimp only
  split
  · exact hu.setStack _ (.of_eq (by rfl))
  · exact hu.update (by rfl)

omit hs in
theorem StackS.carried_takeObj {x y : StackS} {c : CoreId} {naks : Nat} {u : ObjUse} (h : x.takeObj c naks u = some y) :
    x.Carried y := by
  unfold StackS.takeObj at h
  split at h
  · exact Option.some.inj h ▸ .of_eq (by rfl)
  · dsimp only at h
    split at h
    · exact Option.some.inj h ▸ .of_eq (by rfl)
    · exact absurd h nofun

omit hs in
theorem StackS.carried_holdObj {x y : StackS} {a : Option Agent} {naks m ph : Nat} (h : x.holdObj a naks m ph = some y) :
    x.Carried y := by
  unfold StackS.holdObj at h
  split at h
  · exact StackS.carried_takeObj h
  · obtain ⟨k, -, rfl⟩ := Option.map_eq_some_iff.mp h
    exact .of_eq (by rfl)

omit hs in
/-- What each step of a fold carries on, the fold does. -/
theorem StackS.Carried.foldl {α β : Type} {x : StackS} {p : β → StackS} {f : β → α → β}
    (hf : ∀ b a, (p b).Carried (p (f b a)))
    (l : List α) {b : β} (hb : x.Carried (p b)) : x.Carried (p (l.foldl f b)) := by
  induction l generalizing b with
  | nil => exact hb
  | cons a l ih => exact ih (hb.trans (hf b a))

theorem Stays.restoreObjs (st : StackId) (m : Nat) (tm : Team) (cp : Checkpoint) : Stays r (s.restoreObjs st m tm cp) := by
  unfold State.restoreObjs
  refine Stays.update (hs.setStack st ?_) (by rfl)
  refine StackS.Carried.foldl (p := Prod.fst) (fun b k => ?_) _
    (StackS.Carried.foldl (p := id) (fun b e => ?_) _ (.of_eq (by rfl)))
  · split
    · exact .refl _
    · split
      next h => exact StackS.carried_takeObj h
      next => exact .refl _
  · cases h : b.holdObj none 0 m e.1 with
    | some y => exact StackS.carried_holdObj h
    | none => exact .refl _

end

end Sys2Proof.Machine
end

section
/-! PROOF. Soft errors, self-tests, poison, replays and stack resets (R381, R440 to R451; O19). -/

namespace Sys2Proof.Machine

section
variable {r s : State} (hs : Stays r s)
include hs

/-! ## What carried stacks say of one flag -/

theorem Stays.rstBusy (st : StackId) : (s.stack st).rstBusy = (r.stack st).rstBusy := congrArg Prod.fst (hs.carried st).flags
theorem Stays.qui (st : StackId) : (s.stack st).qui = (r.stack st).qui := congrArg (·.2.1) (hs.carried st).flags
theorem Stays.fen (st : StackId) : (s.stack st).fen = (r.stack st).fen := congrArg (·.2.2.1) (hs.carried st).flags
theorem Stays.fenced (st : StackId) : (s.stack st).fenced = (r.stack st).fenced := congrArg (·.2.2.2.1) (hs.carried st).flags
theorem Stays.engFenced (st : StackId) : (s.stack st).engFenced = (r.stack st).engFenced :=
  congrArg (·.2.2.2.2) (hs.carried st).flags

end

/-! ## What a record of the error log leaves alone (R427) -/

/-- What neither a write of memory nor a stack nor a counter is. -/
def State.logFrame (s : State) : Tab CoreS × Tab ClusterS × List (ErrUnit × Bool) × List Fatal × Nat :=
  (s.cores, s.clusters, s.tests, s.fatals, s.spared)

theorem State.setStack_logFrame (s : State) (st : StackId) (x : StackS) : (s.setStack st x).logFrame = s.logFrame := rfl

theorem State.putPhys_logFrame (s : State) (pa : Nat) (b : List (Option Byte)) : (s.putPhys pa b).logFrame = s.logFrame := rfl

theorem State.logSoft_logFrame (s : State) (st : StackId) (code : Nat) (u : ErrUnit) :
    (s.logSoft st code u).logFrame = s.logFrame := by
  unfold State.logSoft State.logRecord
  dsimp only
  split
  · unfold State.writeEl
    exact (State.setStack_logFrame ..).trans ((State.putPhys_logFrame ..).trans (State.setStack_logFrame ..))
  · rfl

section
variable (s : State) (st : StackId) (code : Nat) (u : ErrUnit)

theorem State.logSoft_cores : (s.logSoft st code u).cores = s.cores := congrArg Prod.fst (s.logSoft_logFrame st code u)
theorem State.logSoft_tests : (s.logSoft st code u).tests = s.tests := congrArg (·.2.2.1) (s.logSoft_logFrame st code u)
theorem State.logSoft_fatals : (s.logSoft st code u).fatals = s.fatals := congrArg (·.2.2.2.1) (s.logSoft_logFrame st code u)

end

/-! ## Soft errors (R440) -/

/-- What an uncorrectable error in memory leaves alone. -/
def State.spoilFrame (s : State) : List Host.Cell × List (ErrUnit × Bool) := (s.mem, s.tests)

theorem State.strikeSave_keeps (s : State) (c : CoreId) : ∃ x, s.strikeSave c = { s with cores := x } := by
  unfold State.strikeSave
  split
  · split
    · exact ⟨_, rfl⟩
    · exact ⟨s.cores, rfl⟩
  · exact ⟨s.cores, rfl⟩

/-- The strikes of the saves that go where the error is. -/
theorem State.strikeSaves_keep (s : State) (l : List CoreId) :
    ∃ x, l.foldl (fun s c => s.strikeSave c) s = { s with cores := x } := by
  induction l generalizing s with
  | nil => exact ⟨s.cores, rfl⟩
  | cons c l ih =>
    obtain ⟨x, hx⟩ := s.strikeSave_keeps c
    obtain ⟨y, hy⟩ := ih { s with cores := x }
    exact ⟨y, by rw [List.foldl_cons, hx, hy]⟩

/-- A word of a window or of memory that is poisoned where it was not. -/
theorem State.poisoned_spoilFrame (s : State) (b : Prop) [Decidable b] (l : List Nat) :
    (if b then s else { s with poison := l }).spoilFrame = s.spoilFrame := by
  split
  · rfl
  · rfl

theorem State.addPoison_spoilFrame (s : State) (pa : Nat) : (s.addPoison pa).spoilFrame = s.spoilFrame :=
  State.poisoned_spoilFrame ..

theorem State.spoilSaved_spoilFrame {s u : State} {c : CoreId} {t : Task} {o : Nat} (h : s.spoilSaved c t o = some u) :
    u.spoilFrame = s.spoilFrame := by
  unfold State.spoilSaved at h
  dsimp only at h
  split at h
  · exact absurd h nofun
  · split at h
    · split at h
      · exact Option.some.inj h ▸ rfl
      · exact Option.some.inj h ▸ rfl
    · split at h
      · exact Option.some.inj h ▸ State.poisoned_spoilFrame ..
      · split at h
        · exact Option.some.inj h ▸ rfl
        · split at h
          · exact Option.some.inj h ▸ State.poisoned_spoilFrame ..
          · split at h
            · exact absurd h nofun
            · exact Option.some.inj h ▸ State.poisoned_spoilFrame ..

theorem State.spoilMem_spoilFrame (s : State) (pa : Nat) : (s.spoilMem pa).spoilFrame = s.spoilFrame := by
  obtain ⟨x, hx⟩ := s.strikeSaves_keep (s.savingInto pa)
  unfold State.spoilMem
  dsimp only
  rw [hx]
  generalize ho : List.findSome? _ s.savedTasks = o
  cases o with
  | none => exact State.addPoison_spoilFrame ..
  | some u =>
    obtain ⟨e, -, he⟩ := List.exists_of_findSome?_eq_some ho
    split at he
    · split at he
      · have hf := State.spoilSaved_spoilFrame he
        exact hf
      · exact absurd he nofun
    · exact absurd he nofun

theorem State.mapTask_spoilFrame (s : State) (c : CoreId) (f : Task → Task) : (s.mapTask c f).spoilFrame = s.spoilFrame := by
  unfold State.mapTask
  split
  · rfl
  · rfl

theorem State.spoil_spoilFrame (s : State) (u : ErrUnit) : (s.spoil u).spoilFrame = s.spoilFrame := by
  cases u with
  | memWord pa => exact State.spoilMem_spoilFrame ..
  | windowWord pa =>
    unfold State.spoil
    dsimp only
    split
    · rfl
    · exact State.addPoison_spoilFrame ..
  | scratchWord c w => exact State.addPoison_spoilFrame ..
  | register c sl opf i w => exact State.mapTask_spoilFrame ..
  | tagWord c w => exact State.mapTask_spoilFrame ..
  | snapshot c n => exact State.mapTask_spoilFrame ..
  | coreBank c =>
    obtain ⟨x, hx⟩ := s.strikeSave_keeps c
    have hf := congrArg State.spoilFrame hx
    exact hf
  | l1Line | ccLine | l2Line | planeBank | tokenRecord | coreLogic | engine | stackUnit => rfl

/-- A soft error starts the test of its unit, and leaves the memory. -/
theorem State.softError_spoilFrame (s : State) (u : ErrUnit) (b : Bool) :
    (s.softError u b).spoilFrame = (s.mem, s.tests ++ [(u, b)]) := by
  unfold State.softError
  dsimp only
  rw [apply_ite State.spoilFrame, State.spoil_spoilFrame, ite_self]
  cases u with
  | coreLogic c => exact State.mapTask_spoilFrame ..
  | _ => rfl

/-- An error of a word of memory that no save slot of a suspended task holds. -/
theorem State.spoilMem_unsaved {s : State} {pa : Nat}
    (h : ∀ e ∈ s.savedTasks, ∀ a n, s.savedSlot e.2 = some (a, n) → pa < a ∨ a + slotSpan ≤ pa) :
    s.spoilMem pa = ((s.savingInto pa).foldl (fun s c => s.strikeSave c) s).addPoison pa := by
  unfold State.spoilMem
  dsimp only
  rw [List.findSome?_eq_none_iff.mpr fun e he => ?_]
  · rfl
  · split
    next a n hn =>
      rw [if_neg]
      have := h e he a n hn
      omega
    · rfl

theorem State.addPoison_poison (s : State) (pa : Nat) :
    (s.addPoison pa).poison = if pa / 8 * 8 ∈ s.poison then s.poison else s.poison ++ [pa / 8 * 8] := by
  unfold State.addPoison
  simp only [List.contains_iff_mem]
  split
  · rfl
  · rfl

theorem State.addPoison_rest (s : State) (pa : Nat) :
    (s.addPoison pa).mem = s.mem ∧ (s.addPoison pa).tests = s.tests ∧ (s.addPoison pa).stackTab = s.stackTab ∧
      (s.addPoison pa).cores = s.cores := by
  unfold State.addPoison
  dsimp only
  split
  · exact ⟨rfl, rfl, rfl, rfl⟩
  · exact ⟨rfl, rfl, rfl, rfl⟩

/-- O19's clause of an error of a word of memory. -/
theorem State.softError_memWord (s : State) (pa : Nat) (b : Bool)
    (h : ∀ e ∈ s.savedTasks, ∀ a n, s.savedSlot e.2 = some (a, n) → pa < a ∨ a + slotSpan ≤ pa) :
    ∃ u, exec (.softError (.memWord pa) b) s = .next u ∧
    u.tests = s.tests ++ [(.memWord pa, b)] ∧ u.mem = s.mem ∧ u.stackTab = s.stackTab ∧
    u.poison = (if b ∨ pa / 8 * 8 ∈ s.poison then s.poison else s.poison ++ [pa / 8 * 8]) ∧
    (b = true ∨ s.savingInto pa = [] → u.cores = s.cores) := by
  cases b with
  | true => exact ⟨_, rfl, rfl, rfl, rfl, by simp; rfl, fun _ => rfl⟩
  | false =>
    let s0 : State := { s with tests := s.tests ++ [(.memWord pa, false)] }
    obtain ⟨x, hx⟩ := s0.strikeSaves_keep (s.savingInto pa)
    have hu : exec (.softError (.memWord pa) false) s = .next (State.addPoison { s0 with cores := x } pa) :=
      congrArg Host.Outcome.next ((State.spoilMem_unsaved (s := s0) h).trans (congrArg (State.addPoison · pa) hx))
    obtain ⟨hm, ht, hst, hc⟩ := State.addPoison_rest { s0 with cores := x } pa
    refine ⟨_, hu, ht, hm, hst, by simp [State.addPoison_poison, s0], fun hn => ?_⟩
    rw [hc]
    obtain hn | hn := hn
    · exact absurd hn (by decide)
    · rw [hn] at hx
      exact (congrArg State.cores hx).symm

/-! ## Self-tests and fences (R441) -/

theorem State.selfTestDone_untested {s : State} {u : ErrUnit} (h : ∀ e ∈ s.tests, e.1 ≠ u) (hs : s.stage ≠ 3) (p : Bool) :
    s.selfTestDone u p = s := by
  have hn : s.tests.find? (fun e => e.1 == u) = none := List.find?_eq_none.mpr fun e he => by simp [h e he]
  unfold State.selfTestDone State.testOf
  rw [hn]
  dsimp only
  rw [if_neg hs]

section
variable {s : State} {u : ErrUnit} {b : Bool} (h : s.tests.find? (fun e => e.1 == u) = some (u, b))
include h

theorem State.testOf_found : s.testOf u = some b := by
  unfold State.testOf
  rw [h]

/-- A test that passes ends. -/
theorem State.selfTestDone_passed :
    (s.selfTestDone u true).tests = s.tests.erase (u, b) ∧ (s.selfTestDone u true).cores = s.cores := by
  unfold State.selfTestDone
  rw [State.testOf_found h]
  dsimp only
  rw [if_pos rfl]
  split
  · exact ⟨State.logSoft_tests .., State.logSoft_cores ..⟩
  · exact ⟨rfl, rfl⟩

/-- A row that fails is spared while its bank has spare rows. -/
theorem State.selfTestDone_spares {k : ErrUnit} (hb : b = false) (hk : s.bankOf u = some k) (hn : s.sparesUsed k < 8) :
    ∃ l, s.selfTestDone u false = { s with tests := s.tests.erase (u, b), spares := l, spared := s.spared + 1 } := by
  have hk' : State.bankOf { s with tests := s.tests.erase (u, b) } u = some k := hk
  have hn' : ¬ 8 ≤ State.sparesUsed { s with tests := s.tests.erase (u, b) } k := Nat.not_le.mpr hn
  unfold State.selfTestDone
  rw [State.testOf_found h]
  dsimp only
  rw [if_neg (by decide), hk']
  dsimp only
  rw [if_neg hn', hb]
  exact ⟨_, rfl⟩

/-- A failing unit without banks is fenced. -/
theorem State.selfTestDone_fences (hk : s.bankOf u = none) :
    s.selfTestDone u false = { s with tests := s.tests.erase (u, b) }.fenceUnit u := by
  have hk' : State.bankOf { s with tests := s.tests.erase (u, b) } u = none := hk
  unfold State.selfTestDone
  rw [State.testOf_found h]
  dsimp only
  rw [if_neg (by decide), hk']

end

theorem State.loseWhere_cores (s : State) (p : TokRec → Bool) : (s.loseWhere p).cores = s.cores := by
  unfold State.loseWhere
  refine State.foldl_keeps State.cores _ _ ?_ s
  exact fun _ _ => rfl

theorem State.endTasks_cores (s : State) (c : CoreId) (code : Nat) (l : List (CtxId × Nat × BitVec 48)) :
    (s.endTasks c code l).cores = s.cores := by
  unfold State.endTasks
  refine State.foldl_keeps State.cores _ _ (fun u v => ?_) s
  split
  · rfl
  · rfl

theorem State.fenceCore_fenced (s : State) (c : CoreId) (u : ErrUnit) : ((s.fenceCore c u).core c).fenced = true := by
  have hc : (s.fenceCore c u).cores = (s.setCore c { s.core c with fenced := true }).cores := by
    unfold State.fenceCore
    exact (State.endTasks_cores ..).trans ((State.loseWhere_cores ..).trans (State.logSoft_cores ..))
  rw [State.core, hc, State.setCore, Tab.get_set_same]

/-- A stack that is fenced, and all that goes with it. -/
theorem State.fenceStack_stays (s : State) (st : StackId) (u : ErrUnit) :
    Stays (s.setStack st { s.stack st with fenced := true }) (s.fenceStack st u) := by
  unfold State.fenceStack
  exact (((((Stays.refl _).logSoft ..).loseWhere _).loseStack _).endStackTasks ..).rewriteCaps

theorem State.fenceStack_engFenced (s : State) (st : StackId) (u : ErrUnit) :
    ((s.fenceStack st u).stack st).engFenced = (s.stack st).engFenced := by
  rw [(s.fenceStack_stays st u).engFenced, State.setStack_stack_same]

/-- A fenced engine stays so, through the failure of its operations and, with both fenced, the fence of its stack. -/
theorem State.fenceEngine_engFenced (s : State) (st : StackId) (e : Fin 2) :
    ((s.fenceEngine st e).stack st).engFenced = (s.stack st).engFenced ||| BitVec.twoPow 2 e.val := by
  have hops (x : StackS) (f : CopyOp → CopyOp) : x.Carried { x with ops := x.ops.map f } :=
    ⟨rfl, fun hi => by simp [hi], fun _ tm hm => ⟨tm, hm, .refl tm⟩⟩
  unfold State.fenceEngine
  dsimp only
  rw [apply_ite (fun x : State => (x.stack st).engFenced), State.fenceStack_engFenced, ite_self]
  refine (Stays.engFenced (.foldl (fun _ _ hx => (hx.loseWhere _).fatalFor ..) _
    (.setStack (Stays.logSoft (.refl _) ..) st (hops ..))) st).trans ?_
  rw [State.setStack_stack_same]

/-! ## Poison of a task's load (R443) -/

theorem State.onCore_of_current {s : State} {c : CoreId} {t : Task} (ht : s.task? c = some t) :
    s.onCore c t.launch t.coord = true := by
  simp [State.onCore, ht]

/-- O19's clause of a load that meets poison, where its team cannot replay. -/
theorem State.loadPoison_fatal {s : State} {c : CoreId} {t : Task} (ec : Bool) (ht : s.task? c = some t)
    (hr : s.canReplay (stackOf c) t.team = false) :
    s.loadPoison c ec 0#64 0#64 = (s.logSoft (stackOf c) 0x24 (.coreBank c)).raiseFatal c t (s.poisonCode (stackOf c) t.team ec)
      (slotIx .M) 0#64 0#64 0#64 := by
  unfold State.loadPoison
  rw [ht]
  unfold State.taskPoison
  dsimp only
  rw [hr, if_neg (by decide), State.onCore_of_current ht, if_pos rfl]

theorem State.poisonCode_eq (s : State) (st : StackId) (m : Nat) (ec : Bool) :
    s.poisonCode st m ec = if ec = true ∧ s.intervalProt st m = false then 0x0D else 0x0C := by
  unfold State.poisonCode
  cases ec <;> cases s.intervalProt st m <;> rfl

/-! ## Clean copies (R442, R443) -/

/-- What stands in the L2 of a stack but for the data: each line, whether it is dirty, and whether it is pinned. -/
def State.l2Lines (s : State) (st : StackId) : List (Nat × Bool × Bool) :=
  (s.stack st).l2.map (fun e => (e.line, e.dirty, e.pin))

theorem State.setStack_l2Lines (s : State) (c : StackId) (x : StackS) (hx : x.l2 = (s.stack c).l2) :
    (s.setStack c x).l2Lines = s.l2Lines := by
  funext st
  rw [State.l2Lines, State.setStack_stack_of]
  split
  · next e => rw [hx, e]; rfl
  · rfl

theorem State.interrupt_l2Lines (s : State) (i : Irq) : (s.interrupt i).l2Lines = s.l2Lines := rfl

/-- A write of memory changes the data of the copies alone. -/
theorem State.putPhys_l2Lines (s : State) (pa : Nat) (b : List (Option Byte)) : (s.putPhys pa b).l2Lines = s.l2Lines := by
  funext st
  refine Eq.symm (Tab.get_map_rel (fun x y : StackS => x.l2.map (fun e => (e.line, e.dirty, e.pin)) =
    y.l2.map (fun e => (e.line, e.dirty, e.pin))) StackS.reset s.stackTab st.val _ (fun x => ⟨rfl, ?_⟩) rfl)
  dsimp only
  rw [List.map_map]
  refine List.map_congr_left fun e _ => ?_
  dsimp only [Function.comp_apply]
  split
  · rfl
  · rfl

theorem State.logSoft_l2Lines (s : State) (st : StackId) (code : Nat) (u : ErrUnit) :
    (s.logSoft st code u).l2Lines = s.l2Lines := by
  unfold State.logSoft State.logRecord
  dsimp only
  split
  · unfold State.writeEl
    dsimp only
    rw [State.setStack_l2Lines _ _ _ (by with_reducible rfl), State.putPhys_l2Lines,
      State.setStack_l2Lines _ _ _ (by with_reducible rfl)]
  · rw [State.interrupt_l2Lines, State.setStack_l2Lines]
    split
    · rfl
    · rfl

/-- The records of a list of units in the error log. -/
theorem State.logUnits_keep {α : Type} (p : State → α) (hp : ∀ s st code u, p (State.logSoft s st code u) = p s)
    (s : State) (l : List ErrUnit) : p (l.foldl (fun (s : State) u => s.logSoft (s.errStack u) 0x23 u) s) = p s :=
  State.foldl_keeps p l _ (fun _ _ => hp ..) s

/-- A core without the clean copy of a line in its L1, and a cluster without it in its cache. -/
def CoreS.dropL1 (x : CoreS) (line : Nat) : CoreS := { x with l1 := x.l1.filter (fun l => !(l.1 == line && l.2.dirty == 0#128)) }
def ClusterS.dropCC (x : ClusterS) (line : Nat) : ClusterS :=
  { x with cc := x.cc.filter (fun l => !(l.1 == line && l.2.dirty == 0#128)) }

/-- A stack whose L2 holds a clean copy of a line only where it is pinned, and that one as the memory has it. -/
def StackS.dropL2 (x : StackS) (line : Nat) (d : BitVec 1024) (bad : BitVec 16) : StackS :=
  { x with l2 := (x.l2.filter (fun l => !(l.line == line && !l.dirty && !l.pin))).map (fun l =>
      if l.line = line ∧ l.dirty = false then { l with data := d, bad := bad } else l) }

theorem StackS.dropL2_mem {x : StackS} {line : Nat} {d : BitVec 1024} {bad : BitVec 16} {f : L2Line}
    (hf : f ∈ (x.dropL2 line d bad).l2) (hl : f.line = line) : f.dirty = true ∨ f.pin = true ∧ f.data = d := by
  obtain ⟨e, he, rfl⟩ := List.mem_map.mp hf
  have hk := (List.mem_filter.mp he).2
  by_cases hc : e.line = line ∧ e.dirty = false
  · rw [if_pos hc]
    exact .inr ⟨by simpa [hc] using hk, rfl⟩
  · rw [if_neg hc] at hl ⊢
    exact .inl (by simpa [hl] using hc)

/-- A state without the clean copies of a line, but for those that are pinned. -/
def State.withoutClean (s : State) (line : Nat) : State :=
  { s with
    cores := s.cores.map (fun e => (e.1, e.2.dropL1 line))
    clusters := s.clusters.map (fun e => (e.1, e.2.dropCC line))
    stackTab := s.stackTab.map (fun e => (e.1, e.2.dropL2 line (Memory.line s.mem line) (s.memBad line))) }

theorem State.withoutClean_stack (s : State) (line : Nat) (st : StackId) :
    (s.withoutClean line).stack st = (s.stack st).dropL2 line (Memory.line s.mem line) (s.memBad line) :=
  Tab.get_map (fun x : StackS => x.dropL2 line (Memory.line s.mem line) (s.memBad line)) StackS.reset s.stackTab st.val

section
variable (s : State) (pa : Nat)

theorem State.dropClean_eq : s.dropClean pa =
    (s.spoiltCopies (lineOf pa)).foldl (fun (s : State) u => s.logSoft (s.errStack u) 0x23 u) (s.withoutClean (lineOf pa)) := rfl

theorem State.dropClean_logFrame : (s.dropClean pa).logFrame = (s.withoutClean (lineOf pa)).logFrame :=
  State.logUnits_keep State.logFrame State.logSoft_logFrame _ _

theorem State.dropClean_core (c : CoreId) : (s.dropClean pa).core c = (s.core c).dropL1 (lineOf pa) := by
  have hc : (s.dropClean pa).cores = (s.withoutClean (lineOf pa)).cores := congrArg Prod.fst (State.dropClean_logFrame s pa)
  rw [State.core, hc]
  exact Tab.get_map (fun x : CoreS => x.dropL1 (lineOf pa)) CoreS.reset s.cores c.val

theorem State.dropClean_cluster (cl : ClusterId) : (s.dropClean pa).cluster cl = (s.cluster cl).dropCC (lineOf pa) := by
  have hc : (s.dropClean pa).clusters = (s.withoutClean (lineOf pa)).clusters := congrArg (·.2.1) (State.dropClean_logFrame s pa)
  rw [State.cluster, hc]
  exact Tab.get_map (fun x : ClusterS => x.dropCC (lineOf pa)) ClusterS.reset s.clusters cl.val

theorem State.dropClean_l2Lines (st : StackId) : (s.dropClean pa).l2Lines st =
    ((s.stack st).dropL2 (lineOf pa) (Memory.line s.mem (lineOf pa)) (s.memBad (lineOf pa))).l2.map
      (fun e => (e.line, e.dirty, e.pin)) := by
  rw [State.dropClean_eq, State.logUnits_keep State.l2Lines State.logSoft_l2Lines, State.l2Lines, State.withoutClean_stack]

/-- With no poisoned copy there is no record to write. -/
theorem State.dropClean_of_none (h : s.spoiltCopies (lineOf pa) = []) : s.dropClean pa = s.withoutClean (lineOf pa) := by
  rw [State.dropClean_eq, h]
  rfl

/-- O19's clause of a poisoned clean copy. -/
theorem State.dropClean_copies :
    (∀ (c : CoreId) (l : Line), (lineOf pa, l) ∈ ((s.dropClean pa).core c).l1 → l.dirty ≠ 0#128) ∧
    (∀ (cl : ClusterId) (l : Line), (lineOf pa, l) ∈ ((s.dropClean pa).cluster cl).cc → l.dirty ≠ 0#128) ∧
    (∀ (st : StackId), ∀ e ∈ ((s.dropClean pa).stack st).l2, e.line = lineOf pa → e.dirty = true ∨ e.pin = true) ∧
    (s.spoiltCopies (lineOf pa) = [] → (s.dropClean pa).mem = s.mem ∧
      (∀ (st : StackId), ∀ e ∈ ((s.dropClean pa).stack st).l2, e.line = lineOf pa →
        e.dirty = true ∨ e.data = Memory.line s.mem (lineOf pa))) := by
  refine ⟨fun c l hl => ?_, fun cl l hl => ?_, fun st e he hline => ?_, fun hn => ?_⟩
  · rw [State.dropClean_core] at hl
    simpa using (List.mem_filter.mp hl).2
  · rw [State.dropClean_cluster] at hl
    simpa using (List.mem_filter.mp hl).2
  · have hk : (e.line, e.dirty, e.pin) ∈ (s.dropClean pa).l2Lines st := List.mem_map_of_mem he
    rw [State.dropClean_l2Lines] at hk
    obtain ⟨f, hf, hfe⟩ := List.mem_map.mp hk
    simp only [Prod.mk.injEq] at hfe
    obtain ⟨h1, h2, h3⟩ := hfe
    exact (StackS.dropL2_mem hf (h1.trans hline)).imp (h2 ▸ ·) (fun h => h3 ▸ h.1)
  · rw [State.dropClean_of_none s pa hn]
    refine ⟨rfl, fun st e he hline => ?_⟩
    rw [State.withoutClean_stack] at he
    exact (StackS.dropL2_mem he hline).imp_right And.right

end

/-! ## Replay (R444 to R447) -/

theorem State.canReplay_none {s : State} {st : StackId} {m : Nat} (h : s.canReplay st m = false) :
    exec (.teamReplay st m) s = .next s := by
  refine congrArg Host.Outcome.next ?_
  rw [h, if_neg (by decide)]

/-- A state whose team stands on a stack with the phases and early arrivals given, and a checkpoint that is the same as another. -/
structure CutStands (st : StackId) (m : Nat) (cp : Checkpoint) (s : State) : Prop where
  team : ∃ tm cn, (s.stack st).teams.find m = some tm ∧ tm.cp = some cn ∧ cp.Same cn

section
variable {st : StackId} {m : Nat} {cp : Checkpoint} {s u : State}

theorem CutStands.stays (h : CutStands st m cp s) (hs : Stays s u) : CutStands st m cp u := by
  obtain ⟨tm, cn, hm, hc, hcn⟩ := h.team
  obtain ⟨tn, hn, hsame⟩ := (hs.carried st).team m tm hm
  obtain ⟨co, ho, hco⟩ := hsame.cp cn hc
  exact ⟨tn, co, hn, ho, hcn.trans hco⟩

/-- The follow-on commands that are committed again (R288) are no part of it. -/
theorem CutStands.refollow (h : CutStands st m cp s) (ck : Checkpoint) : CutStands st m cp (s.refollow st ck) := by
  have hops {v : State} (hv : CutStands st m cp v) (l : List CopyOp) :
      CutStands st m cp (v.setStack st { v.stack st with ops := l }) :=
    ⟨by simpa using hv.team⟩
  unfold State.refollow
  generalize ck.follow = l
  induction l generalizing s with
  | nil => exact h
  | cons o l ih =>
    rw [List.foldl_cons]
    refine ih ?_
    dsimp only
    split
    · exact hops h _
    · exact hops h _

end

/-- No occurrence was full at the cut. -/
theorem State.completeFull_of_open (s : State) (st : StackId) (m : Nat) {cp : Checkpoint}
    (h : ∀ e ∈ cp.phases, e.2.p = 0 ∨ e.2.arv < e.2.p) : s.completeFull st m cp = s := by
  unfold State.completeFull
  generalize cp.phases = l at h
  induction l with
  | nil => rfl
  | cons e l ih =>
    rw [List.foldl_cons, if_neg, ih fun f hf => h f (.tail _ hf)]
    have := h e (.head _)
    omega

/-- A team is written with the phases and early arrivals of its cut, and the checkpoint stays, its pre-images used up. -/
theorem State.replay_team {s : State} {st : StackId} {m : Nat} {tm : Team} {cp : Checkpoint}
    (hm : (s.stack st).teams.find m = some tm) (hc : tm.cp = some cp) (ho : (s.stack st).ops = []) (hr : (s.stack st).requests = [])
    (hp : ∀ e ∈ cp.phases, e.2.p = 0 ∨ e.2.arv < e.2.p) :
    ∃ tn cn, ((s.replay st m).stack st).teams.find m = some tn ∧ tn.phases = cp.phases ∧ tn.early = cp.early ∧
      tn.cp = some cn ∧ cn.replays = cp.replays + 1 ∧ cn.pre = [] ∧ cn.tasks.map Prod.fst = cp.tasks.map Prod.fst := by
  unfold State.replay
  extract_lets cores u0 u1
  have hs : Stays s u0 := Stays.foldl (fun _ _ hu => hu.releaseData ..) _ (.refl s)
  have h1 : u1 = u0 := by
    obtain ⟨hi, hj⟩ := (hs.carried st).idle ⟨ho, hr⟩
    change u0.finishOps st (2 * ((u0.stack st).ops.length + (u0.stack st).requests.length)) = u0
    rw [hi, hj]
    rfl
  rw [h1]
  clear_value u1 u0
  subst h1
  obtain ⟨tm1, hm1, hsame⟩ := (hs.carried st).team m tm hm
  obtain ⟨c1, hc1, hcs⟩ := hsame.cp cp hc
  split
  next h => exact absurd (hm1.symm.trans h) nofun
  next t1 h =>
    obtain rfl := Option.some.inj (hm1.symm.trans h)
    split
    next k => exact absurd (hc1.symm.trans k) nofun
    next c2 k =>
      obtain rfl := Option.some.inj (hc1.symm.trans k)
      extract_lets now again ours left fes w u2 u3 u4 u5 u6 u7
      have h1 : CutStands st m cp u1 := ⟨_, _, hm1, hc1, hcs⟩
      have s2 : Stays u1 u2 := (Stays.refl u1).writeStack st rfl rfl rfl
        ⟨rfl, fun hi => ⟨congrArg (List.filter left) hi.1, congrArg (List.filter left) hi.2⟩,
          fun _ tk hk => ⟨tk, hk, .refl tk⟩⟩
      have s3 : Stays u1 u3 := s2.foldl (fun _ _ hu => hu.restoreUnit ..) _
      have h4 : CutStands st m cp u4 := (h1.stays ((s3.restoreToks _ _).restoreObjs ..)).refollow _
      obtain ⟨t5, -, hm5, -, -⟩ := (h4.stays ((Stays.refl u4).mapTeam ..) : CutStands st m cp u5).team
      have h6 : u6 = u5.setTeam st m { t5 with
          phases := c1.phases, early := c1.early, cp := some { c1 with pre := [], replays := c1.replays + 1 } } := by
        unfold u6
        rw [hm5]
      have h7 : u7 = u6 := State.completeFull_of_open u6 st m (hcs.phases ▸ hp)
      have hm6 : (u6.stack st).teams.find m = some _ := h6 ▸ State.setTeam_team u5 st m _
      obtain ⟨tn, hn, hsn⟩ := (((Stays.refl u7).logSoft st 0x23 (.stackUnit st)).carried st).team m _ (h7 ▸ hm6)
      obtain ⟨cn, hcn, hscn⟩ := hsn.cp _ rfl
      exact ⟨tn, cn, hn, hsn.phases.trans hcs.phases, hsn.early.trans hcs.early, hcn,
        hscn.replays.trans (congrArg (· + 1) hcs.replays), hscn.pre rfl, hscn.tasks.trans hcs.tasks⟩

/-! ## Tasks through the start of a reset (R450) -/

theorem coreOf_of_stackOf {c : CoreId} {st : StackId} (h : stackOf c = st) : coreOf st (coreInStack c) = c := by
  subst h
  refine Fin.ext ?_
  have := c.isLt
  simp only [coreOf, stackOf, coreInStack, Fin.ofNat]
  omega

theorem State.setCore_next_task (s : State) (c : CoreId) : (s.setCore c { s.core c with next := none }).task? = s.task? := by
  funext d
  rw [State.task?, State.setCore_core_of]
  split
  · next h => rw [h]; rfl
  · rfl

theorem State.park_task (s : State) (c : CoreId) (t : Task) : (s.park c t).task? = s.task? := by
  unfold State.park
  split
  · rfl
  · rfl

theorem State.task_of_cores {s u : State} (h : u.cores = s.cores) : u.task? = s.task? := by
  funext c
  rw [State.task?, State.task?, State.core, State.core, h]

theorem State.saveTask_task (s : State) (t : Task) (redo : Bool) : (s.saveTask t redo).1.task? = s.task? := by
  unfold State.saveTask State.setCtx State.putSlot
  dsimp only
  split
  · rfl
  · refine State.task_of_cores ?_
    rw [apply_ite State.cores]
    exact ite_self _

theorem State.endTasks_task (s : State) (c : CoreId) (code : Nat) (l : List (CtxId × Nat × BitVec 48)) :
    (s.endTasks c code l).task? = s.task? :=
  State.task_of_cores (s.endTasks_cores c code l)

/-- The next slot of a core is cleared, and its current task stays. -/
theorem State.clearNext_task (s : State) (st : StackId) (lost : List Nat) (k : Nat) : (s.clearNext st lost k).task? = s.task? := by
  unfold State.clearNext
  dsimp only
  split
  · split
    · exact State.endTasks_task ..
    · split
      · rw [State.setCore_next_task, State.park_task, State.saveTask_task]
      · rfl
  · rw [State.setCore_next_task, State.park_task]
  · rfl

/-- A task that is marked to be suspended unless it has ended. -/
def Task.toSuspend (t : Task) : Task := if t.ended then t else { t with suspend := true }

theorem Task.toSuspend_idem (t : Task) : t.toSuspend.toSuspend = t.toSuspend := by
  by_cases h : t.ended = true
  · simp [Task.toSuspend, h]
  · simp [Task.toSuspend, h]

theorem State.mapTask_task (s : State) (c d : CoreId) (f : Task → Task) :
    (s.mapTask c f).task? d = if d = c then (s.task? c).map f else s.task? d := by
  unfold State.mapTask
  split
  next t ht =>
    rw [State.setTask_task_of, ht]
    rfl
  next ht =>
    split
    · next h => rw [h, ht]; rfl
    · rfl

/-- Every core of a list marks its task. -/
theorem State.suspendTasks_task (l : List CoreId) (s : State) (c : CoreId) :
    (l.foldl (fun (s : State) d => s.mapTask d Task.toSuspend) s).task? c =
      if c ∈ l then (s.task? c).map Task.toSuspend else s.task? c := by
  induction l generalizing s with
  | nil => rfl
  | cons d l ih =>
    rw [List.foldl_cons, ih, State.mapTask_task]
    by_cases hd : c = d
    · subst hd
      cases s.task? c with
      | none => simp
      | some t => simp [Task.toSuspend_idem]
    · simp [hd]

/-- A stack with a current task does not go on with its reset. -/
theorem State.resetGoesOn_of_current {s : State} {st : StackId} {c : CoreId} {t : Task} (hc : stackOf c = st)
    (ht : s.task? c = some t) : s.resetGoesOn st = s := by
  have hn : ¬ ((List.range 16).all fun k => (s.task? (coreOf st k)).isNone) = true := by
    rw [List.all_eq_true]
    intro h
    have := h (coreInStack c) (List.mem_range.mpr (Nat.mod_lt _ (by decide)))
    rw [coreOf_of_stackOf hc, ht] at this
    exact absurd this (by simp)
  unfold State.resetGoesOn
  rw [eq_false_of_ne_true hn]
  dsimp only
  split
  · rfl
  · rfl

/-- The start of a reset with quiesce, before the stack goes on with it. -/
def State.quiesceStart (s : State) (st : StackId) (fen : Bool) : State :=
  s.setStack st { s.stack st with rstBusy := true, qui := true, fen := fen, rstQui := true, rstFen := fen, qdone := false }

/-- The next slots cleared and the current tasks marked to be suspended. -/
def State.quiesceTasks (s : State) (st : StackId) : State :=
  ((List.range 16).map (coreOf st)).foldl (fun (s : State) d => s.mapTask d Task.toSuspend)
    ((List.range 16).foldl (fun (u : State) k => u.clearNext st (s.assignedOnly st) k) s)

theorem State.resetQuiesce_of_open {s : State} {st : StackId} (h : (s.stack st).rstBusy = false) (fen : Bool) :
    s.resetQuiesce st fen = ((s.quiesceStart st fen).quiesceTasks st).resetGoesOn st := by
  unfold State.resetQuiesce State.quiesceTasks
  rw [List.foldl_map]
  dsimp only
  rw [h, if_neg (by decide)]
  rfl

theorem Stays.quiesceTasks {r s : State} (hs : Stays r s) (st : StackId) : Stays r (s.quiesceTasks st) :=
  Stays.foldl (fun _ _ hu => hu.mapTask ..) _ (hs.foldl (fun _ _ hu => hu.clearNext ..) _)

theorem State.quiesceTasks_task {s : State} {st : StackId} {c : CoreId} {t : Task} (hc : stackOf c = st)
    (ht : s.task? c = some t) : (s.quiesceTasks st).task? c = some t.toSuspend := by
  have hmem : c ∈ (List.range 16).map (coreOf st) :=
    List.mem_map.mpr ⟨coreInStack c, List.mem_range.mpr (Nat.mod_lt _ (by decide)), coreOf_of_stackOf hc⟩
  have hk := State.foldl_keeps State.task? (List.range 16) (fun u k => u.clearNext st (s.assignedOnly st) k)
    (fun u k => u.clearNext_task ..) s
  rw [State.quiesceTasks, State.suspendTasks_task, if_pos hmem, hk, ht]
  rfl

/-- O19's clause of a reset with quiesce. -/
theorem State.resetQuiesce_starts {s : State} {st : StackId} (h : (s.stack st).rstBusy = false) (fen : Bool) :
    ∃ u, exec (.stackResetQuiesce st fen) s = .next u ∧ (u.stack st).rstBusy = true ∧ (u.stack st).qui = true ∧
      (u.stack st).fen = fen ∧ (∀ c t, stackOf c = st → s.task? c = some t → t.ended = false →
        u.task? c = some { t with suspend := true }) := by
  have hs : Stays (s.quiesceStart st fen) (((s.quiesceStart st fen).quiesceTasks st).resetGoesOn st) :=
    ((Stays.refl _).quiesceTasks st).resetGoesOn st
  have h0 : ((s.quiesceStart st fen).stack st) = _ := State.setStack_stack_same ..
  refine ⟨_, congrArg Host.Outcome.next (State.resetQuiesce_of_open h fen), ?_, ?_, ?_, fun c t hc ht he => ?_⟩
  · rw [hs.rstBusy, h0]
  · rw [hs.qui, h0]
  · rw [hs.fen, h0]
  · have hq : ((s.quiesceStart st fen).quiesceTasks st).task? c = some t.toSuspend := State.quiesceTasks_task hc ht
    rw [State.resetGoesOn_of_current hc hq, hq, Task.toSuspend, he]
    rfl

/-! ## A reset without quiesce (R451) -/

theorem State.loseStack_lost (s : State) (st : StackId) : ∀ e ∈ ((s.loseStack st).stack st).toks, e.2.st = .lost := by
  intro e he
  unfold State.loseStack at he
  dsimp only at he
  rw [State.stack, State.setStack_stackTab, Tab.get_set_same] at he
  obtain ⟨d, -, rfl⟩ := List.mem_map.mp he
  rfl

theorem State.endTasks_stackTab (s : State) (c : CoreId) (code : Nat) (l : List (CtxId × Nat × BitVec 48)) :
    (s.endTasks c code l).stackTab = s.stackTab := by
  unfold State.endTasks
  refine State.foldl_keeps State.stackTab _ _ (fun u v => ?_) s
  split
  · rfl
  · rfl

theorem State.endStackTasks_stackTab (s : State) (st : StackId) (code : Nat) (current : Bool) :
    (s.endStackTasks st code current).stackTab = s.stackTab := by
  unfold State.endStackTasks
  exact State.foldl_keeps State.stackTab _ _ (fun _ _ => State.endTasks_stackTab ..) s

theorem State.clearCaches_toks (s : State) (st : StackId) : ((s.clearCaches st).stack st).toks = (s.stack st).toks := by
  unfold State.clearCaches
  dsimp only
  rw [State.setStack_stack_same]
  refine congrArg (fun t => (Tab.get StackS.reset t st.val).toks)
    ((State.foldl_keeps State.stackTab _ _ (fun _ _ => ?_) _).trans (State.foldl_keeps State.stackTab _ _ (fun _ _ => ?_) _))
  · rfl
  · rfl

/-- Cores of a list with their L1s cleared. -/
theorem State.clearL1s_l1 (l : List CoreId) (s : State) (c : CoreId) :
    c ∈ l ∨ (s.core c).l1 = [] →
      ((l.foldl (fun (s : State) d => s.setCore d { s.core d with l1 := [], tlb := [], tokc := [] }) s).core c).l1 = [] := by
  induction l generalizing s with
  | nil => exact fun h => h.resolve_left (by simp)
  | cons d l ih =>
    intro h
    refine ih _ ?_
    rw [State.setCore_core_of]
    by_cases hd : c = d
    · exact .inr (by rw [if_pos hd])
    · rw [if_neg hd]
      exact h.imp_left fun hm => (List.mem_cons.mp hm).resolve_left hd

theorem State.clearCaches_l1 (s : State) {st : StackId} {c : CoreId} (hc : stackOf c = st) :
    ((s.clearCaches st).core c).l1 = [] := by
  have hmem : c ∈ (List.range 16).map (coreOf st) :=
    List.mem_map.mpr ⟨coreInStack c, List.mem_range.mpr (Nat.mod_lt _ (by decide)), coreOf_of_stackOf hc⟩
  have hl := State.clearL1s_l1 _ s c (.inl hmem)
  rw [List.foldl_map] at hl
  unfold State.clearCaches
  dsimp only
  rw [State.setStack_core, State.core, State.foldl_keeps State.cores]
  · exact hl
  · exact fun _ _ => rfl

/-- The start of a reset without quiesce. -/
def State.lossStart (s : State) (st : StackId) (fen : Bool) : State :=
  s.setStack st { s.stack st with rstBusy := true, qui := false, fen := fen, rstQui := false, rstFen := fen, qdone := false }

theorem State.resetNoQuiesce_of_open {s : State} {st : StackId} (h : (s.stack st).rstBusy = false) (fen : Bool) :
    s.resetNoQuiesce st fen = (((s.lossStart st fen).loseStack st).endStackTasks st errCompletion true).clearCaches st := by
  unfold State.resetNoQuiesce
  dsimp only
  rw [h, if_neg (by decide)]
  rfl

/-- O19's clause of a reset without quiesce. -/
theorem State.resetNoQuiesce_starts {s : State} {st : StackId} (h : (s.stack st).rstBusy = false) (fen : Bool) :
    ∃ u, exec (.stackResetNoQuiesce st fen) s = .next u ∧ (u.stack st).rstBusy = true ∧ (u.stack st).qui = false ∧
      (u.stack st).fen = fen ∧ (∀ e ∈ (u.stack st).toks, e.2.st = .lost) ∧ (∀ c, stackOf c = st → (u.core c).l1 = []) := by
  have hs : Stays (s.lossStart st fen) ((((s.lossStart st fen).loseStack st).endStackTasks st errCompletion true).clearCaches st) :=
    (((Stays.refl _).loseStack st).endStackTasks ..).clearCaches st
  have h0 : ((s.lossStart st fen).stack st) = _ := State.setStack_stack_same ..
  refine ⟨_, congrArg Host.Outcome.next (State.resetNoQuiesce_of_open h fen), ?_, ?_, ?_, fun e he => ?_,
    fun c hc => State.clearCaches_l1 _ hc⟩
  · rw [hs.rstBusy, h0]
  · rw [hs.qui, h0]
  · rw [hs.fen, h0]
  · rw [State.clearCaches_toks, State.stack, State.endStackTasks_stackTab] at he
    exact State.loseStack_lost _ st e he

/-! ## The end of a reset (R450) -/

theorem State.resetGoesOn_of_over {s : State} {st : StackId} (h : (s.stack st).rstQui = false ∨ (s.stack st).qdone = true) :
    s.resetGoesOn st = s := by
  unfold State.resetGoesOn
  dsimp only
  rw [if_pos]
  cases (s.stack st).rstBusy <;> simp [h]

/-- A stack whose reset ends, but for its log record and the fence. -/
def State.resetEnds (s : State) (st : StackId) : State :=
  let u := if (s.stack st).rstQui then s.unparkToks st else s
  u.setStack st { u.stack st with rstBusy := false, qdone := (s.stack st).rstQui, linkFen := false }

theorem State.resetDone_of_over {s : State} {st : StackId} (hb : (s.stack st).rstBusy = true)
    (h : (s.stack st).rstQui = false ∨ (s.stack st).qdone = true) :
    s.resetDone st = if (s.stack st).rstFen then ((s.resetEnds st).logSoft st 0x26 (.stackUnit st)).fenceStack st (.stackUnit st)
      else (s.resetEnds st).logSoft st 0x26 (.stackUnit st) := by
  have hn : ¬ (!(s.stack st).rstBusy || ((s.stack st).rstQui && !(s.stack st).qdone)) = true := by
    obtain h | h := h <;> simp [hb, h]
  unfold State.resetDone
  dsimp only
  rw [State.resetGoesOn_of_over h, if_neg hn]
  rfl

theorem State.resetEnds_flags (s : State) (st : StackId) :
    ((s.resetEnds st).stack st).rstBusy = false ∧ ((s.resetEnds st).stack st).fenced = (s.stack st).fenced := by
  have hu : Stays s (if (s.stack st).rstQui then s.unparkToks st else s) := .ite ((Stays.refl s).unparkToks st) (.refl s)
  unfold State.resetEnds
  dsimp only
  rw [State.setStack_stack_same]
  exact ⟨rfl, hu.fenced st⟩

/-- O19's clause of the end of a reset. -/
theorem State.resetDone_ends {s : State} {st : StackId} (hb : (s.stack st).rstBusy = true)
    (h : (s.stack st).rstQui = false ∨ (s.stack st).qdone = true) :
    ∃ u, exec (.stackResetDone st) s = .next u ∧ (u.stack st).rstBusy = false ∧
      (u.stack st).fenced = ((s.stack st).fenced || (s.stack st).rstFen) := by
  obtain ⟨he, hf⟩ := s.resetEnds_flags st
  have hl := (Stays.refl (s.resetEnds st)).logSoft st 0x26 (.stackUnit st)
  refine ⟨_, congrArg Host.Outcome.next (State.resetDone_of_over hb h), ?_⟩
  cases (s.stack st).rstFen with
  | true =>
    have hk := State.fenceStack_stays ((s.resetEnds st).logSoft st 0x26 (.stackUnit st)) st (.stackUnit st)
    rw [if_pos rfl, hk.rstBusy, hk.fenced, State.setStack_stack_same, Bool.or_true]
    exact ⟨(hl.rstBusy st).trans he, rfl⟩
  | false =>
    rw [if_neg (by decide), Bool.or_false]
    exact ⟨(hl.rstBusy st).trans he, (hl.fenced st).trans hf⟩

/-! ## The statement -/

/-- O19's clause of a load that meets poison, where its team cannot replay. -/
theorem State.poisonConsumed_load {s : State} {c : CoreId} {t : Task} (ec : Bool) (ht : s.task? c = some t)
    (hr : s.canReplay (stackOf c) t.team = false) :
    ∃ u x, exec (.poisonConsumed (.load c ec)) s = .next u ∧ u.task? c = some { t with failed := true } ∧
      u.fatals = s.fatals ++ [x] ∧
      x.code = (if ec = true ∧ s.intervalProt (stackOf c) t.team = false then 0x0D else 0x0C) ∧ x.ctx = t.ctx := by
  have hf := s.logSoft_fatals (stackOf c) 0x24 (.coreBank c)
  exact ⟨_, _, congrArg Host.Outcome.next (State.loadPoison_fatal ec ht hr), (State.raiseFatal_task ..).trans (if_pos rfl),
    congrArg (· ++ [_]) hf, s.poisonCode_eq .., rfl⟩

/-- O19's clause of a test that ends. -/
theorem State.selfTestDone_ends {s : State} {u : ErrUnit} {b : Bool} (h : s.tests.find? (fun e => e.1 == u) = some (u, b)) :
    (∃ x, exec (.selfTestDone u true) s = .next x ∧ x.tests = s.tests.erase (u, b) ∧ x.cores = s.cores) ∧
    (∀ pa k, u = .memWord pa → b = false → s.bankOf u = some k → s.sparesUsed k < 8 →
      ∃ x, exec (.selfTestDone u false) s = .next x ∧ x.tests = s.tests.erase (u, b) ∧ x.spared = s.spared + 1 ∧
        x.mem = s.mem) ∧
    (∀ c, u = .coreLogic c → ∃ x, exec (.selfTestDone u false) s = .next x ∧ (x.core c).fenced = true) ∧
    (∀ st e, u = .engine st e → ∃ x, exec (.selfTestDone u false) s = .next x ∧
      (x.stack st).engFenced.getLsbD e.val = true) := by
  refine ⟨⟨_, rfl, State.selfTestDone_passed h⟩, fun pa k _ hb hk hn => ?_, fun c hc => ?_, fun st e he => ?_⟩
  · obtain ⟨l, hl⟩ := State.selfTestDone_spares h hb hk hn
    exact ⟨_, congrArg Host.Outcome.next hl, rfl, rfl, rfl⟩
  · subst hc
    exact ⟨_, congrArg Host.Outcome.next (State.selfTestDone_fences h rfl), State.fenceCore_fenced ..⟩
  · subst he
    refine ⟨_, congrArg Host.Outcome.next (State.selfTestDone_fences h rfl), ?_⟩
    refine (congrArg (fun v : BitVec 2 => v.getLsbD e.val) (State.fenceEngine_engFenced ..)).trans ?_
    rw [BitVec.getLsbD_or, BitVec.getLsbD_twoPow]
    simp [e.isLt]

/-- Settles O19: what soft errors leave by `spoilFrame`, fences, replays and resets by `Stays`, clean copies by `withoutClean`. -/
theorem errorsReplayAndStackReset : Obligations.ErrorsReplayAndStackReset := by
  unfold Obligations.ErrorsReplayAndStackReset
  refine ⟨State.softError_memWord, fun s u b => ?_, fun s u hn hs => ?_, fun s u b h => State.selfTestDone_ends h,
    fun s c t ec ht hr => State.poisonConsumed_load ec ht hr, fun s pa => ⟨_, rfl, s.dropClean_copies pa⟩, fun s st m => ?_,
    fun s st fen => ?_⟩
  · have hf := s.softError_spoilFrame u b
    exact ⟨_, rfl, congrArg Prod.snd hf, congrArg Prod.fst hf⟩
  · exact ⟨congrArg Host.Outcome.next (State.selfTestDone_untested hn hs true),
      congrArg Host.Outcome.next (State.selfTestDone_untested hn hs false)⟩
  · refine ⟨State.canReplay_none, fun tm cp hm hc hcan ho hr _ hp => ?_⟩
    obtain ⟨tn, cn, h⟩ := State.replay_team hm hc ho hr hp
    exact ⟨_, tn, cn, congrArg Host.Outcome.next (if_pos hcan), h⟩
  · refine ⟨fun hb => ?_, fun hb => ⟨State.resetQuiesce_starts hb fen, State.resetNoQuiesce_starts hb fen⟩,
      State.resetDone_ends⟩
    exact ⟨congrArg Host.Outcome.next (if_pos hb), congrArg Host.Outcome.next (if_pos hb)⟩

end Sys2Proof.Machine
end
